-- ==== Sys2Proof/Word.lean ====
section
/-! DEFINITION. Word and byte types of the register map and the memories, and the finite index types. -/

namespace Sys2Proof

/-- A register word: every register is 32 bits wide (R34). -/
abbrev Word := BitVec 32

/-- A byte of an EEPROM, an external memory or the on-chip NVM. -/
abbrev Byte := BitVec 8

/-- A register address (R34). -/
abbrev Addr := BitVec 16

/-- Rail and loop index k (R5). -/
abbrev RailId := Fin 8

/-- Tile index t (R5). -/
abbrev TileId := Fin 48

/-- Stage port index p (R5). -/
abbrev PortId := Fin 24

/-- Event source index e (R5). -/
abbrev SourceId := Fin 256

/-- Tile bank index b: 0 TBA, 1 TBB, 2 TBC, 3 TBD. -/
abbrev BankId := Fin 4

end Sys2Proof
end

