-- ==== Sys2Proof/Syntax.lean ====
section
/-! DEFINITION. The commands of the ZR4880 block: one constructor of `Instr` per row of spec/opcode_table.json, and the
types of their operands. The table gives a row no operand fields, so the operands are what the rule of the row needs from
outside (log 1). A default is what the outside says of itself where nothing is amiss: it is a way of writing the command and no rule. -/

namespace Sys2Proof

/-- The management host that a transaction's address names (R399). -/
inductive HostId where
  | a | b
  deriving DecidableEq, Repr

/-- The two faults of the reference clock (R352). -/
inductive ClockFault where
  | reference | lockLoss
  deriving DecidableEq, Repr

/-- The reading of BOOTSEL (R460). -/
inductive Bootsel where
  | low | opened | high
  deriving DecidableEq, Repr

/-- One reading of the SEAL_B pin against half of the keep-alive supply (R575). -/
inductive SealLevel where
  | low | half | high
  deriving DecidableEq, Repr

/-- What the SFDP read of the external memory gives (R534). -/
inductive Sfdp where
  /-- No memory answers. -/
  | absent
  /-- No valid SFDP signature. -/
  | notValid
  /-- A valid table: log2 of the density in bytes, whether a 4 KiB erase is declared, log2 of the page size, and the maximum program and
  erase times in µs, where it declares them. -/
  | valid (log2Density : Nat) (erase4k : Bool) (log2Page : Nat) (program erase : Option Nat)
  deriving DecidableEq, Repr

/-- The outcome of the SECDED check of one memory word as it is read (R33). -/
inductive Ecc where
  | ok | single | double
  deriving DecidableEq, Repr

/-- The four memories under SECDED (R33). -/
inductive EccMemory where
  | map | ring | recorder | shadow
  deriving DecidableEq, Repr

/-- The four run-time writable setting registers of a tile (R55). -/
inductive TileSetting where
  | cfg | deadtime | minp | tblank
  deriving DecidableEq, Repr

/-- The four sample instants of a tile's current ADC (R84). -/
inductive SampleKind where
  | valley | peak | rising | falling
  deriving DecidableEq, Repr

/-- The instructions of the test access port (R599). -/
inductive TapInstruction where
  | bypass | idcode | samplePreload | extest | clamp | highz
  deriving DecidableEq, Repr

/-- What the test access port does: Test-Logic-Reset, which loads IDCODE, or the load of an instruction (R599). -/
inductive TapLoad where
  | testLogicReset
  | instruction (ins : TapInstruction)
  deriving DecidableEq, Repr

/-- What boot meets outside the controller: straps, boot-bus and memory behaviour, the seal loop and the time boot takes. -/
structure BootInputs where
  /-- BOOTSEL as read at step 2 (R460). -/
  bootsel : Bootsel
  /-- MADDR2 to MADDR0 (R595). -/
  maddr : BitVec 3
  /-- Copy A's EEPROM address is acknowledged within 10 ms (R465). -/
  eepromAnswersA : Bool
  /-- The same for copy B. -/
  eepromAnswersB : Bool
  /-- The boot bus is stuck and stays stuck after the fourth attempt: some true where BSDA is the low line (R467). -/
  busStuck : Option Bool
  /-- Reads of the EEPROM done before the bus stuck: headers A and B, then whole copies (R467, R477). -/
  busStuckAfter : Nat
  /-- Arbitration losses on the boot bus (R466). -/
  arbitrationLosses : Nat
  /-- The SFDP table of the external memory (R462, R534). -/
  sfdp : Sfdp
  /-- SEAL_B with SEAL_A driven low, then high, as read at boot (R577). -/
  sealLow : SealLevel
  sealHigh : SealLevel
  /-- VXIO in mV (R596). -/
  vxio : Nat
  /-- The CRC over the retained SRAM is right (R558). -/
  retainedOk : Bool
  /-- Boot duration in steps of 2 ms (R490). -/
  duration : Nat
  deriving DecidableEq, Repr

/-- How the EEPROM answers on the boot bus (R467, R487): it acknowledges in time; not within 10 ms; the bus stays stuck after the
fourth attempt, with BSDA the low line or BSCL. -/
inductive EepromAnswer where
  | answers | silent
  | stuck (sda : Bool)
  deriving DecidableEq, Repr

/-- A read transaction of the management bus (R402, R404, R406). -/
structure ReadAccess where
  /-- The register address of its address phase; none: it starts without one. -/
  addr : Option Addr
  /-- LEN, which an address phase carries where BUS_CFG.PEC_EN = 1 (R406). -/
  len : Nat
  /-- Registers of which the host clocks in at least the start. -/
  regs : Nat
  /-- The last of them is clocked to the end of its fourth byte's acknowledge. -/
  whole : Bool
  /-- What the check of the memory behind each register finds, in order; the rest are right (R409). -/
  ecc : List Ecc
  /-- The synchronised trip input of each tile, bit t for tile t, as it stands when a TRIP_STAT of the read is sampled: 1 active, after
  TRIP_POL (R71). -/
  trips : BitVec 48 := 0
  deriving DecidableEq, Repr

/-- The read of one register, with its address phase. -/
def ReadAccess.one (a : Addr) (ecc : Ecc) : ReadAccess := { addr := some a, len := 1, regs := 1, whole := true, ecc := [ecc] }

/-- The conversions of one run of the keep-alive monitor (R558). -/
structure KaReadings where
  /-- VCELL in mV. -/
  vcell : BitVec 13
  /-- KA_NTC ratio code. -/
  ntc : BitVec 10
  /-- Charger junction temperature, °C. -/
  tj : Int
  /-- The charger regulates at V_REG rather than the current limit (R562). -/
  atVreg : Bool
  /-- Delivered current, mA (R586). -/
  iout : BitVec 8
  /-- The two samples of the seal check (R575). -/
  sealLow : SealLevel
  sealHigh : SealLevel
  deriving DecidableEq, Repr

/-- The commands of the block, in the order of spec/opcode_table.json. -/
inductive Instr where
  /-- BOOT (R29). When the controller leaves reset it runs boot steps 1 to 6 and ends in STANDBY, or in SAFE-IDLE when no valid image is found. -/
  | boot (b : BootInputs)
  /-- RESET_N_LOW (R361). A qualifying low pulse on RESET_N resets the device with cause PIN. -/
  | resetNLow (ns : Nat)
  /-- VSUP_RESET (R345). VSUP falls below its reset level and the device resets with cause VSUP. `held`, here and in the three rows that
  follow: ns for which the source stays active (R361). -/
  | vsupReset (held : Nat := 0)
  /-- VIO_RESET (R345). VIO falls below its reset level and the device resets with cause VIO. -/
  | vioReset (held : Nat := 0)
  /-- CORE_SUPPLY_RESET (R345). VCORE or VANA falls below its level and the device resets with cause CORE. -/
  | coreSupplyReset (held : Nat := 0)
  /-- CLOCK_FAULT (R352). A missing or off-frequency reference, or a lock loss, drives the PWM outputs low and resets the device with cause CLOCK. -/
  | clockFault (kind : ClockFault) (held : Nat := 0)
  /-- RST_CMD (R372). An accepted RST_CMD write with key 0x5A resets the device with cause HOST. -/
  | rstCmd (h : HostId) (data : Word)
  /-- KEEPALIVE_WAKE (R359). A START on the management bus or RESET_N low ends KEEPALIVE with a reset of cause WAKE. -/
  | keepaliveWake (byStart : Bool)
  /-- CARRIER_PEAK (R50). A tile carrier reaches PRD: hold ticks, shadow transfer under PEAK or BOTH, glide or phase steps, and settling of the next rising edge. -/
  | carrierPeak (t : TileId)
  /-- CARRIER_VALLEY (R50). A tile carrier reaches 0: shadow and PRD transfer, pulse settling, current averaging, balance, fades and health updates. -/
  | carrierValley (t : TileId)
  /-- TRIP_RECOGNISED (R59). The third consecutive active trip sample outside blanking ends the high pulse for the period and counts the trip. -/
  | tripRecognised (t : TileId) (tick : Nat)
  /-- TRIP_LATCH_CLEAR (R61). A W1C write to TRIP_STAT.LATCH releases a latched tile unless the trip persists or a class fault needs an arm. -/
  | tripLatchClear (h : HostId) (t : TileId) (data : Word) (level : Bool)
  /-- TILE_SETTING_WRITE (R55). A run-time write to DEADTIME, MINP, TBLANK or CFG is checked against R48 and takes effect at the next valley. -/
  | tileSettingWrite (h : HostId) (t : TileId) (which : TileSetting) (data : Word)
  /-- LOW_SIDE_FORCE_END (R221). The low side of a released READY tile turns off when its predicted current reaches zero. -/
  | lowSideForceEnd (t : TileId) (tick : Nat)
  /-- DE_LOW_SIDE_OFF (R242). Under diode emulation the low side turns off when the predicted current reaches zero. -/
  | deLowSideOff (t : TileId) (tick : Nat)
  /-- WINDOW_SAMPLE (R75). The window ADC completes a sample every 6 ticks, the DAC takes a new code, and the slew engine steps. -/
  | windowSample (k : RailId) (microvolts : Int)
  /-- LEAP_TILE_RELEASE (R219). A tile under Leap or Leap-back is released by CURRENT, TMAX or the staggered error release, and the response ends with the last tile. -/
  | leapTileRelease (t : TileId) (tick : Nat)
  /-- LEAP_HOLDOFF_EXPIRY (R224). The hold-off after a Leap or Leap-back expires and the detector re-arms. -/
  | leapHoldoffExpiry (k : RailId)
  /-- COARSE_CONVERSION (R80). An output-sense coarse conversion yields VOUT, which OV, UV, ramp tracking, power-good, the pre-bias wait and the settle watch judge. -/
  | coarseConversion (k : RailId) (c : BitVec 12)
  /-- LIK_CONVERSION (R82). An input-voltage conversion updates VIN_FAST, VIN_SLOW and the freeze state, and the feedforward is recomputed. -/
  | likConversion (k : RailId) (c : BitVec 12)
  /-- PREBIAS_READING (R81). The average of 64 conversions completes and is handed over as the measured pre-bias. -/
  | prebiasReading (k : RailId)
  /-- TILE_CURRENT_SAMPLE (R84). A tile current conversion completes and is corrected, and OCT judges it. -/
  | tileCurrentSample (t : TileId) (which : SampleKind) (r : BitVec 12)
  /-- AUTOZERO_REQUEST (R88). A write of SNS_STAT.AZ_REQ requests autozero while the rail is OFF. -/
  | autozeroRequest (h : HostId) (k : RailId)
  /-- AUTOZERO_START (R88). Autozero begins once the draw arbiter grants leave. -/
  | autozeroStart (k : RailId)
  /-- AUTOZERO_DONE (R88). Autozero completes its 4,096 samples and stores AZ, or sets CAL_FAIL. `tick`: when the mean is formed. -/
  | autozeroDone (k : RailId) (tick : Nat)
  /-- AUTOZERO_TIMEOUT (R88). An autozero at start without leave after 5 ms is skipped, and CAL_STALE is set. -/
  | autozeroTimeout (k : RailId)
  /-- SNS_CAL_WRITE (R89). A write to LOOP[k].SNS_CAL during an arm, with the rail OFF or SAFE, takes effect at the next DAC update. -/
  | snsCalWrite (h : HostId) (k : RailId) (data : Word)
  /-- ICAL_WRITE (R89). A write to TILE[t].ICAL during an arm applies to conversions that start afterwards. -/
  | icalWrite (h : HostId) (t : TileId) (data : Word)
  /-- LOOP_UPDATE (R107). The loop engine runs its 40-cycle schedule aimed at a reference reload point and writes every tile's duty shadow. -/
  | loopUpdate (k : RailId)
  /-- TARGET_WRITE (R124). A host write to LOOP[k].TARGET is accepted under the claim, authority and range rules. -/
  | targetWrite (h : HostId) (k : RailId) (data : Word)
  /-- CSET_WRITE (R118). A write to CSET.FORCE or FORCE_SET makes, changes or withdraws a switch request. -/
  | csetWrite (h : HostId) (k : RailId) (data : Word)
  /-- COEF_DATA_ACCESS (R140). A COEF_DATA access reads or writes a coefficient word and advances COEF_IDX when AINC is set. -/
  | coefDataAccess (h : HostId) (k : RailId) (write : Option Word) (ecc : Ecc := .ok)
  /-- REFERENCE_VALLEY (R186). At a reference valley the bins, lookup, Moult dwell, glides, rotation, limits, throttle, OCR and deferred changes are evaluated. -/
  | referenceValley (k : RailId) (ecc : Ecc)
  /-- READY_TIMEOUT (R191). A READY tile becomes COLD when READY_T has passed without admission. -/
  | readyTimeout (t : TileId)
  /-- MOULT_CTL_WRITE (R193). A write of MOULT_CTL.FORCE or FORCE_N changes the Moult target. -/
  | moultCtlWrite (h : HostId) (k : RailId) (data : Word)
  /-- MAP_DATA_READ (R196). A MAP_DATA read returns the indexed entry, or 0 for a bad word, and advances the index when AINC is set. -/
  | mapDataRead (h : HostId) (ecc : Ecc)
  /-- MAP_DATA_WRITE (R197). A MAP_DATA write updates a map, frequency or safe entry under the run-time, claim, arm and state conditions. -/
  | mapDataWrite (h : HostId) (data : Word)
  /-- SCRUB_WORD (R364). Every SCRUB.INT µs the scrub reads one word of each SECDED memory and corrects or reports errors. -/
  | scrubWord (m : EccMemory) (ecc : Ecc)
  /-- SYNC_IN_EDGE (R157). A SYNC_IN rising edge is timestamped, the period is averaged, and presence and lock are judged. -/
  | syncInEdge (tick : Nat)
  /-- SYNC_IN_LOSS (R157). With no edge for 2 × PERIOD, SYNC_IN is absent and locked rails return to FREE. -/
  | syncInLoss
  /-- SYNC_OUT_PULSE (R162). SYNC_OUT rises at SO_PHASE after the origin valley of the selected rail. -/
  | syncOutPulse
  /-- RAIL_ON (R258). A CMD write with REQ = ON requests the rail to run. -/
  | railOn (h : HostId) (k : RailId) (clear : Bool)
  /-- RAIL_OFF (R249). A CMD write with REQ = OFF requests an orderly stop. -/
  | railOff (h : HostId) (k : RailId)
  /-- RAIL_KILL (R236). A CMD write of KILL stops the rail immediately into OFF. -/
  | railKill (h : HostId) (k : RailId) (clear : Bool)
  /-- RAIL_CLEAR (R253). A CMD write of CLEAR moves a rail from SAFE to OFF unless a cause persists. -/
  | railClear (h : HostId) (k : RailId)
  /-- RAIL_START (R237). A rail whose start conditions all hold leaves OFF for PREPARE and begins preparation. -/
  | railStart (k : RailId) (ecc : Ecc)
  /-- SEQ_DELAY_EXPIRY (R255). The start dependency is met once PGOOD of START_DEP has held for SEQ_DLY. -/
  | seqDelayExpiry (k : RailId)
  /-- SOFTSTART_ENTRY (R238). With preparation complete, the rail enters SOFTSTART at V1 with the preload and diode emulation. -/
  | softstartEntry (k : RailId)
  /-- PREBIAS_WAIT_TIMEOUT (R240). A pre-bias wait of 100 ms latches the loop event with cause PREBIAS. -/
  | prebiasWaitTimeout (k : RailId)
  /-- TRACK_FAILURE (R246). The shortfall timer exceeds TRACK_T, and the rail goes to HICCUP or SAFE. -/
  | trackFailure (k : RailId)
  /-- HICCUP_RETRY (R248). HICCUP_T expires and the rail re-enters PREPARE if the start conditions hold. -/
  | hiccupRetry (k : RailId) (ecc : Ecc)
  /-- RETRY_CLEAR (R247). After HICCUP_T without interruption in REGULATE or SLEW, RETRY returns to 0. -/
  | retryClear (k : RailId)
  /-- STOPPING_COMPLETE (R250). After the reference reaches its end point, tiles go low at their next valleys and the rail enters OFF or SAFE. -/
  | stoppingComplete (k : RailId)
  /-- PGOOD_ASSERT (R252). PGOODk asserts after PG_DLY in window in REGULATE or SLEW. -/
  | pgoodAssert (k : RailId)
  /-- LEN_CHANGE (R254). A new LENk level is accepted after two samples and starts or stops the rail. -/
  | lenChange (k : RailId) (level : Bool)
  /-- RAIL_CLASS_CLEAR (R271). A write of RAIL_FAULT.CLASS_CLR during an arm clears class bits whose causes are clear. -/
  | railClassClear (h : HostId) (k : RailId) (data : Word)
  /-- TILE_CLASS_CLEAR (R271). A write of FAULT.CLASS_CLR during an arm clears a tile's class bits whose causes are clear. -/
  | tileClassClear (h : HostId) (t : TileId) (data : Word)
  /-- TILE_ADMIT (R292). An ADMIT write with the current generation re-admits a DROPPED or EXCLUDED tile to COLD. -/
  | tileAdmit (h : HostId) (t : TileId) (gen : BitVec 16)
  /-- TILE_EXCLUDE (R293). An EXCLUDE write with the current generation excludes a tile at once or after a fade. -/
  | tileExclude (h : HostId) (t : TileId) (gen : BitVec 16)
  /-- HK_CONVERSION (R317). The housekeeping ADC converts the next channel of the round every 1 µs. -/
  | hkConversion (raw : BitVec 12)
  /-- HK_ROUND_END (R317). At the end of a round the readings are published and temperatures are judged for throttle, shutdown, breakage and cross-check. -/
  | hkRoundEnd
  /-- FAST_LANE_TIMER (R321). Every 62.5 µs each fast-lane channel is converted and its fast reading is judged. -/
  | fastLaneTimer (raws : Vector (BitVec 12) 64) (vsup : BitVec 12)
  /-- TSD_GRACE_EXPIRY (R328). Rails still in STOPPING TSD_GRACE after die shutdown are stopped immediately. -/
  | tsdGraceExpiry
  /-- XCHK_REQ (R333). A write of HK_CTL.XCHK_REQ requests a cross-check of all enabled temperature channels. -/
  | xchkReq (h : HostId)
  /-- VSUP_WARNING (R346). VSUP falls through 8.4 V: grants stop, the charger pauses and VSUP_MIN tracking begins. -/
  | vsupWarning
  /-- VSUP_WARNING_CLEAR (R346). VSUP held above 8.8 V for 1 ms clears the warning, latches event 96 and lets waiting requests proceed. -/
  | vsupWarningClear
  /-- POWER_FAIL (R348). VSUP falls through 7.8 V and the controller commits to the power-fail snapshot. -/
  | powerFail
  /-- SNAPSHOT_COMPLETE (R349). The snapshot program completes, latches event 97 and sets SUP_STAT.PF. -/
  | snapshotComplete (verified : Bool := true)
  /-- VIO_WARNING (R363). VIO falls below 3.10 V without reaching reset, latching event 98. -/
  | vioWarning
  /-- PREREG_FAULT (R363). The 5.0 V supply leaves ±10 % for 10 µs, latching event 99. -/
  | preregFault
  /-- REF_PPM_WINDOW (R353). At the end of each 1 s window the reference deviation is published in REF_PPM. -/
  | refPpmWindow (deviation : BitVec 16)
  /-- PWR_STANDBY (R358). A PWR_CMD with REQ = STANDBY starts the transition to STANDBY. -/
  | pwrStandby (h : HostId) (stopMode : Bool) (vxio : Nat := 3300)
  /-- PWR_READY (R358). A PWR_CMD with REQ = READY starts the transition to READY. -/
  | pwrReady (h : HostId) (stopMode : Bool) (vxio : Nat := 3300)
  /-- PWR_RUN (R358). A PWR_CMD with REQ = RUN starts the transition to RUN. -/
  | pwrRun (h : HostId) (stopMode : Bool) (vxio : Nat := 3300)
  /-- PWR_KEEPALIVE (R358). A PWR_CMD with REQ = KEEPALIVE writes the residue block and powers down XMI, HK, PLL and CORE. -/
  | pwrKeepalive (h : HostId) (stopMode : Bool)
  /-- POWER_TRANSITION_COMPLETE (R358). The last step of a power-state transition completes and event 103 latches. -/
  | powerTransitionComplete
  /-- DOM_CTL_WRITE (R356). A write to DOM_CTL powers or removes banks, HK or XMI within the rules. -/
  | domCtlWrite (h : HostId) (data : Word) (vxio : Nat := 3300)
  /-- BANK_POWER_UP (R355). A bank granted leave ramps its domain and reloads its tile settings. -/
  | bankPowerUp (b : BankId)
  /-- BANK_POWER_UP_DONE (R355). The bank's tiles stand COLD and its leave is released. -/
  | bankPowerUpDone (b : BankId)
  /-- BIST_START (R364). A write of BIST_CMD.START requests a self-test sweep. -/
  | bistStart (h : HostId)
  /-- BIST_SWEEP (R364). With leave granted, the sweep runs a scrub pass, the reference checks and a cross-check. -/
  | bistSweep (refs : Vector (BitVec 12) 14)
  /-- BIST_SWEEP_END (R364). The sweep ends, reports its result and releases its leave. -/
  | bistSweepEnd
  /-- TELEMETRY_SAMPLE (R375). Every 10 µs the telemetry quantities are sampled and energy is accumulated. -/
  | telemetrySample
  /-- TELEMETRY_WINDOW_END (R377). A window ends and its averages are published, or the publication is deferred. -/
  | telemetryWindowEnd
  /-- TELEMETRY_SWAP (R378). A deferred publication is swapped in when the telemetry transaction ends. -/
  | telemetrySwap
  /-- PEAK_CLEARING_READ (R380). A read of a peak register commits the clearing of its peaks. -/
  | peakClearingRead (h : HostId) (r : ReadAccess)
  /-- PK_CLR (R380). A write of TEL_CTL.PK_CLR clears every peak. -/
  | pkClr (h : HostId)
  /-- HOUR_COUNT (R382). Each completed hour in RUN increments LIFE_HOURS. -/
  | hourCount
  /-- JOURNAL_WRITE (R26). The journal writer takes one queue entry per cycle, stamps it and writes it into the ring. -/
  | journalWrite
  /-- EV_LATCH_CLEAR (R386). A W1C write to EV_LATCH clears latch bits unless an occurrence coincides. -/
  | evLatchClear (h : HostId) (i : Fin 8) (data : Word)
  /-- EV_DCNT_READ (R397). A read of EV_DCNT clears the count and advances EV_DIDX when AINC is set. -/
  | evDcntRead (h : HostId)
  /-- REGISTER_WRITE (R403). A written register word without a row of its own is judged and committed at its commit point, or refused and counted. -/
  | registerWrite (h : HostId) (a : Addr) (words : List Word) (pec : Option Byte)
  /-- BUS_INTERRUPT (R410). A START or STOP off a byte boundary abandons the transaction and counts a protocol error. -/
  | busInterrupt (h : HostId) (position : Byte)
  /-- BUS_TIMEOUT (R413). MSCL low for 25 ms causes an interface reset. -/
  | busTimeout (position : Byte := 0)
  /-- SDA_RELEASE (R413). MSDA held low without an MSCL edge for 10 ms is released and the interface resets. -/
  | sdaRelease (position : Byte := 0)
  /-- HEARTBEAT_WRITE (R417). A host writes its own heartbeat register, refreshing it and ending fall-back. -/
  | heartbeatWrite (h : HostId) (whose : HostId) (data : Word)
  /-- HEARTBEAT_LAPSE (R417). A heartbeat not refreshed for HOST_WDT lapses, which may begin fall-back. -/
  | heartbeatLapse (whose : HostId)
  /-- CLAIM_TAKE (R418). A CLAIM write with TAKE gains the claim when it is free, lapsed or under an arm. -/
  | claimTake (h : HostId)
  /-- CLAIM_RELEASE (R418). A CLAIM write with RELEASE by the owner frees the claim. -/
  | claimRelease (h : HostId)
  /-- SET_TARGET (R439). A SET_TARGET frame is judged and may set TARGET and open a settle watch. -/
  | setTarget (seq : Byte) (k : RailId) (flags : BitVec 5) (value : BitVec 16)
  /-- QUERY (R441). A QUERY frame is answered with the requested item. -/
  | query (seq : Byte) (k : RailId) (flags : BitVec 5) (value : BitVec 16)
  /-- PING (R442). A PING frame is answered ACCEPTED with its value echoed. -/
  | ping (seq : Byte) (k : RailId) (flags : BitVec 5) (value : BitVec 16)
  /-- BAD_FRAME (R438). An accepted frame of reserved type is answered BAD_FRAME. -/
  | badFrame (ty : Byte) (seq : Byte) (k : RailId) (flags : BitVec 5) (value : BitVec 16)
  /-- LINK_FRAME_ERROR (R436). A frame with a wrong CRC or a stop bit of 0 is discarded and counted. -/
  | linkFrameError (frame : BitVec 48) (stop : Bool)
  /-- GL_CLK_STOP (R431). GL_CLK stopped for 2 µs abandons the frames in progress. -/
  | glClkStop (receiving : Bool) (resumes : Bool := false)
  /-- ACK (R443). A queued ACK frame is sent when the clock and spacing allow. -/
  | ack
  /-- SETTLED (R444). A queued SETTLED frame is sent while no ACK waits. -/
  | settled
  /-- SETTLE_TIMEOUT (R445). An open settle watch reaches SET_TMO and closes with TIMEOUT. -/
  | settleTimeout (k : RailId)
  /-- LOAD_LAPSE (R450). No accepted frame for LINK_WDT marks the load lapsed. -/
  | loadLapse
  /-- LINK_AUTH_WRITE (R447). The claim owner writes LINK_AUTH to grant or revoke rail authority. -/
  | linkAuthWrite (h : HostId) (data : Word)
  /-- BEGIN (R483). An IMG_CTL BEGIN starts a replacement by invalidating the target slot. -/
  | imgBegin (h : HostId) (len : BitVec 16) (answers : Bool)
  /-- IMG_DATA_WRITE (R484). A word written to IMG_DATA is buffered, the header is judged, and body bytes are programmed. -/
  | imgDataWrite (h : HostId) (data : Word)
  /-- COMMIT (R485). An IMG_CTL COMMIT programs the rest and the header, then reads the copy back. -/
  | imgCommit (h : HostId)
  /-- ABORT (R486). An IMG_CTL ABORT, the end of the arm or a claim change aborts the replacement. -/
  | imgAbort (h : HostId)
  /-- EEPROM_PAGE_WRITE (R487). A 64-byte EEPROM page is written with BWP low and polled to completion. -/
  | eepromPageWrite (answer : EepromAnswer) (losses : Nat := 0)
  /-- REPLACEMENT_CHECK_DONE (R485). The read-back judgement ends the replacement as DONE or FAILED. -/
  | replacementCheckDone (answer : EepromAnswer := .answers) (losses : Nat := 0)
  /-- NVM_OPERATION_START (R500). The next queued NVM request starts once leave is granted. -/
  | nvmOperationStart
  /-- NVM_OPERATION_DONE (R497). An NVM operation completes and is verified, retried or failed. -/
  | nvmOperationDone (verified : Bool)
  /-- PROGRAM (R501). NVM_CMD PROGRAM writes the page buffer to its user-area page. -/
  | nvmProgram (h : HostId)
  /-- CAL_SAVE (R501). NVM_CMD CAL_SAVE writes the loop or bank calibration record. -/
  | calSave (h : HostId) (arg : BitVec 3)
  /-- REC_ERASE (R501). NVM_CMD REC_ERASE writes an erased marker into a calibration record. -/
  | recErase (h : HostId) (arg : BitVec 3)
  /-- FLUSH (R501). NVM_CMD FLUSH commits every counter with a whole unit pending. -/
  | flush (h : HostId)
  /-- NVM_DATA_ACCESS (R503). An NVM_DATA access moves four bytes of the page or buffer and advances OFFSET. -/
  | nvmDataAccess (h : HostId) (write : Option Word)
  /-- COUNTER_COMMIT (R509). A due spread counter programs unary bytes, carrying when its page is full. -/
  | counterCommit (c : Fin 73)
  /-- RECORD_RETRY (R499). A record write not queued is requested again 100 ms later. -/
  | recordRetry (r : Fin 81)
  /-- MARGIN_READ (R515). Once a minute one page is margin-read and queued for refresh if it differs. -/
  | marginRead (differs : Bool)
  /-- JOURNAL_LOAD (R533). A read of JRN_E[0] loads the entry at the host's pointer into its buffer. -/
  | journalLoad (h : HostId) (ecc : Ecc := .ok)
  /-- JOURNAL_POP (R533). A read of JRN_E[7] pops the loaded entry and advances the pointer. -/
  | journalPop (h : HostId)
  /-- JOURNAL_MOVE_OLDEST (R533). A JRN_HCTL write moves the host's pointer to the oldest entry. -/
  | journalMoveOldest (h : HostId)
  /-- JOURNAL_MOVE_NEWEST (R533). A JRN_HCTL write moves the host's pointer past the newest entry. -/
  | journalMoveNewest (h : HostId)
  /-- XMEM_DISCOVERY (R534). The port reads the SFDP table and sets up the memory, or marks it absent. -/
  | xmemDiscovery (sfdp : Sfdp)
  /-- JOURNAL_HEAD_SEARCH (R540). The port finds the journal head in the region, with leave. -/
  | journalHeadSearch
  /-- JOURNAL_BURST (R539). A ready journal burst copies ring entries to XMEM once it holds a credit and leave. -/
  | journalBurst (ecc : List Ecc := [])
  /-- XMEM_BURST_DONE (R536). The memory reports a burst complete and its credit is freed. -/
  | xmemBurstDone
  /-- XMEM_STALL (R537). An operation exceeding its time limit stalls the port and frees every credit. -/
  | xmemStall
  /-- XMEM_RECOVERY (R537). A successful status read each second ends a stall and resumes copying. -/
  | xmemRecovery
  /-- XMEM_PREFETCH (R538). A write of XM_IDX.ADDR starts a 64-byte prefetch. -/
  | xmemPrefetch (h : HostId) (data : Word)
  /-- XMEM_WINDOW_ADVANCE (R538). A read of XM_DATA[15] advances ADDR by 64 and starts the next prefetch. -/
  | xmemWindowAdvance (h : HostId)
  /-- ARM (R542). An REC_CTL write of ARM moves the recorder from IDLE to ARMED. -/
  | recArm (h : HostId)
  /-- TRIG (R542). An REC_CTL write of TRIG is a host trigger. -/
  | recTrig (h : HostId)
  /-- STOP (R542). An REC_CTL write of STOP disarms the recorder or truncates the capture. -/
  | recStop (h : HostId)
  /-- RELEASE (R542). An REC_CTL write of RELEASE moves a FROZEN recorder to IDLE. -/
  | recRelease (h : HostId)
  /-- RECORDER_FRAME (R541). At each frame instant the recorder samples every channel into its buffer. -/
  | recorderFrame
  /-- RECORDER_BURST (R543). A recorder burst writes buffered frames to the region and may complete the capture. -/
  | recorderBurst (ecc : Ecc)
  /-- REC_BDATA_READ (R543). A read of REC_BDATA returns frozen frames and advances OFFSET. -/
  | recBdataRead (h : HostId) (ecc : Ecc := .ok)
  /-- DRAW_ARBITER_SAMPLE (R548). Every 10 µs the supply current is measured and waiting requests are granted or the charger is paused. -/
  | drawArbiterSample (microvolts : Nat)
  /-- LEAVE_WAIT_LONG (R547). A request waiting 1 s for leave latches event 184. -/
  | leaveWaitLong (r : Fin 8)
  /-- KA_MONITOR_RUN (R558). Every 250 ms the keep-alive monitor converts VCELL, the NTC and T_j, checks the seal and steps the charger. -/
  | kaMonitorRun (m : KaReadings)
  /-- KA_SOURCE_LOSS (R556). The keep-alive source is lost, the domain runs from the cell or enters Brumation, and SRC_GOOD deasserts. -/
  | kaSourceLoss
  /-- KA_SOURCE_QUALIFIED (R556). The source present for 100 ms qualifies and the absence is classed short or long. -/
  | kaSourceQualified
  /-- CELL_CUTOFF (R557). VCELL below cut-off for 1 s disconnects the cell. -/
  | cellCutoff
  /-- RTC_SET (R560). A write of RTC_SET1.SET loads the staged seconds at the next tick and clears TINV. -/
  | rtcSet (h : HostId) (data : Word)
  /-- RTC_READ (R559). A read of RTC0 latches RTC1 at the same instant. -/
  | rtcRead (h : HostId)
  /-- RTC_TRIM_INTERVAL (R561). Every 2^20 crystal cycles the RTC adds or skips TRIM cycles. -/
  | rtcTrimInterval
  /-- CLR_FAULT (R568). A write of CHG_CTL.CLR_FAULT takes the charger out of FAULT. -/
  | clrFault (h : HostId)
  /-- SERVICE_KEY_RELEASE (R572). The release of a service-key press opens or restarts an arm, or latches event 194. -/
  | serviceKeyRelease
  /-- SERVICE_ARM_EXPIRY (R573). The arm window runs out and the arm ends. -/
  | serviceArmExpiry
  /-- CLOSE (R573). A write of SVC_CTL.CLOSE ends the service arm. -/
  | svcClose (h : HostId)
  /-- BRUMATION_ARM (R578). A write of BRUM_CTL.ARM during an arm arms Brumation and writes the residue block. -/
  | brumationArm (h : HostId)
  /-- DISARM (R579). A write of BRUM_CTL.DISARM disarms Brumation and marks the residue block stale. -/
  | brumDisarm (h : HostId)
  /-- RESIDUE_HOURLY_WRITE (R578). While Brumation is armed, the residue block is written again every hour. -/
  | residueHourlyWrite
  /-- BRUMATION_WAKE (R581). SERVICE_N held for 1 s, or the source appearing, ends Brumation with a POWER_ON reset. -/
  | brumationWake (byKey : Bool)
  /-- KEEPALIVE_DOMAIN_POWER_UP (R559). The keep-alive domain is powered from nothing, releases its own power-on reset, starts the RTC from 0 with TINV set and loses its retained contents. -/
  | keepaliveDomainPowerUp (sourcePresent : Bool)
  /-- KA_SOURCE_RETURN (R556). The pre-regulator source reappears above 4.5 V, the keep-alive feed switches back from the cell, a disconnected cell is reconnected and source qualification begins. -/
  | kaSourceReturn
  /-- CLEARING_READ (R409). A read of a register with RC fields other than peaks, EV_DCNT, JRN_E[7] and XM_DATA[15] commits the clearing of those fields at the end of the fourth byte's acknowledge clock. -/
  | clearingRead (h : HostId) (r : ReadAccess)
  /-- TRANSACTION_END (R403). A STOP or repeated START at a byte boundary ends a management-bus transaction, discarding a partly moved word or a PEC write without its code byte and counting a protocol error. -/
  | transactionEnd (h : HostId) (write : Bool) (position : Byte) (bytes : Nat)
  /-- COMMIT_HOLD_LIMIT (R412). A host-initiated NVM commit still not done 13 ms after its commit point releases MSCL and continues without the hold. -/
  | commitHoldLimit
  /-- SERVICE_KEY_PRESS (R571). SERVICE_N is accepted low after 20 ms, SVC_STAT.KEY sets and the start of a press is recorded. -/
  | serviceKeyPress
  /-- TEST_ACCESS_PORT_INSTRUCTION (R599). An IEEE 1149.1 instruction is loaded into the test access port; EXTEST, CLAMP or HIGHZ take over the pins while RESET_N is low, and leaving them returns the pins to reset state. -/
  | testAccessPortInstruction (load : TapLoad) (resetNLow : Bool)
  deriving DecidableEq, Repr

end Sys2Proof
end

