-- ==== Sys2Proof/Config.lean ====
section
/-! DEFINITION. What one implementation fixes and the manual leaves open: opaque constants and free values.
Nothing in Lean can evaluate them, so a claim that holds holds for every choice. -/

namespace Sys2Proof.Config

/-- REVISION.MINOR, "silicon" (R366). UNVERIFIED: fixed in the device, no value in the manual (log 6). -/
opaque revMinor : BitVec 8

/-- REVISION.SCREEN, "silicon" (R366): the ordering code (log 6). -/
opaque revScreen : Bool

/-- Free: at an exact tie, whether `round` takes the upper neighbour (the manual writes `round` and states no tie rule; log 7). -/
opaque tieUp : Int → Int → Bool

/-- Free: whether a quotient whose rounding the manual does not state is shown rounded up (log 8). -/
opaque roundUp : Int → Int → Bool

/-- Free: the result of a quotient whose divisor is 0 and for which the manual states none (log 9). -/
opaque divByZero : Int → Int

/-- Free: whether a RESET_N pulse of this many ns, from 150 to below 200, acts (R361; log 10). -/
opaque resetPulseActs : Nat → Bool

/-- The factory conversion of a die sensor, by channel: raw mean in sixteenths of a code to 1/16 °C (R318; log 11). -/
opaque dieTemp : Nat → Nat → Int

/-- The factory limits of a reference channel, 42 to 55: whether a raw code is inside (R364; log 12). -/
opaque refInLimits : Nat → Nat → Bool

/-- The rails whose settings lie in a word of the image shadow, bit k for rail k (R33; log 13). -/
opaque shadowRails : Nat → BitVec 8

/-- The number of 128-bit words of the image shadow (R33, R364; log 13). -/
opaque shadowWords : Nat

/-- Free: fine steps from 100 µs after a reset's beginning, its instant the operand, to the end of boot step 1 (R30, R361; log 144). -/
opaque bootStep1 : Nat → Nat

/-- Free values drawn one after another by the counter State.free (log 14). -/
opaque freeNat : Nat → Nat

end Sys2Proof.Config
end

