-- ==== Sys2Proof/Machine/State.lean ====
section
/-! DEFINITION. The state of the block as plain data, its faults and refusals, and the state right after reset.
Times are absolute and in fine steps (1/16 tick, R10) on the scale of `State.now` unless a field says otherwise. -/

namespace Sys2Proof.Machine

/-- Why the machine stops. No rule of the manual stops the block: every command ends in a next state, so there is no reason. -/
inductive Fault where
  deriving DecidableEq, Repr

/-- Why a command has no meaning. -/
inductive Refusal where
  /-- Raised by an arm of `exec` that has no meaning yet; no arm is left so. Safe: nothing is claimed of it. -/
  | notModelled (mnemonic : String)
  deriving DecidableEq, Repr

/-- A sparse store: strictly rising keys, and no entry equal to what an unlisted key reads as. -/
abbrev Store (w : Nat) := List (Nat × BitVec w)

/-- What the device as a whole is doing. -/
inductive Phase where
  /-- In reset, or boot steps 1 to 6 not complete (R29, R30). -/
  | inReset
  /-- Boot complete: STANDBY, READY or RUN (R357). -/
  | up
  /-- SAFE-IDLE (R360, R478). -/
  | safeIdle
  /-- KEEPALIVE: only the keep-alive domain is powered (R359). -/
  | keepAlive
  /-- Brumation: the keep-alive domain has lost power on purpose (R580). -/
  | brumation
  /-- The keep-alive domain has no supply at all (R557). -/
  | unpowered
  deriving DecidableEq, Repr

/-- The device power states that a command can leave or reach with CORE powered (R357, R368). -/
inductive Power where
  | standby | ready | run | keepalive
  deriving DecidableEq, Repr

/-- Rail states (R235). -/
inductive RailState where
  | off | prepare | softstart | regulate | slew | stopping | safe | hiccup
  deriving DecidableEq, Repr

/-- Actual tile states (R290, R314). -/
inductive TileAct where
  | cold | ready | active | dropped | excluded
  deriving DecidableEq, Repr

/-- What a tile becomes when its fade-out ends (R189, R293, R325). -/
inductive FadeGoal where
  | ready | hostOut | thermalOut
  deriving DecidableEq, Repr

/-- A Moult fade with its factor f, 0 to 8 (R190). -/
inductive Fade where
  | none
  | fadeIn (f : Nat)
  | fadeOut (f : Nat) (goal : FadeGoal)
  deriving DecidableEq, Repr

/-- A PRD and PRD_FRAC shadow that waits for a valley (R54), with the time its write completed. -/
structure PrdPend where
  /-- New PRD, ticks (R54). -/
  prd : Nat
  /-- New PRD_FRAC, sixteenths of a tick (R54). -/
  frac : Nat
  /-- When the write completed (R54). -/
  writtenAt : Int
  deriving DecidableEq, Repr

/-- A write of the duty shadow that completes at a later time (R17, R52). -/
structure DutyWrite where
  /-- CMP (R52). -/
  cmp : Nat
  /-- FINE (R52). -/
  fine : Nat
  /-- When the write completes (R52). -/
  writtenAt : Int
  /-- The rail's duty that it converts (R115). -/
  d : Int
  deriving DecidableEq, Repr

/-- One carrier's part in a glide (R150): start phase, move and steps taken. -/
structure CarrierGlide where
  /-- Phase at the start of the glide (R150). -/
  p0 : Int
  /-- The whole move (R150). -/
  move : Int
  /-- Steps taken (R150). -/
  steps : Nat
  deriving DecidableEq, Repr

/-- A carrier: a tile's own (R41) or a rail's reference carrier (R105). -/
structure Carrier where
  /-- The carrier runs (R56, R105). -/
  running : Bool := false
  /-- The latest reload point was a peak (R41; CARRIER.SLOPE, R73). -/
  atPeak : Bool := false
  /-- Time of the latest reload point. -/
  time : Int := 0
  /-- Active PRD, ticks (R41, R67). -/
  prd : Nat := 0
  /-- Active PRD_FRAC, sixteenths of a tick (R42, R67). -/
  frac : Nat := 0
  /-- Pending PRD change (R54; RELOAD_STAT.PRD_PEND, R70). -/
  pend : Option PrdPend := none
  /-- A PRD write that completes later, or that a valley has found late (R54). -/
  coming : Option PrdPend := none
  /-- The 4-bit accumulator of R42. -/
  acc : Nat := 0
  /-- Hold ticks due at the present or next peak (R42; CARRIER.HOLD, R73). -/
  holdTicks : Nat := 0
  /-- The whole hold at the present or next peak, fine steps: hold ticks, glide step and correction (R50). -/
  hold : Int := 0
  /-- One-time correction due at the next peak (R146). -/
  corr : Int := 0
  /-- Phase after the origin, 1/65,536 period (R145; PHASE.PHASE, R172). -/
  phase : Nat := 0
  /-- Part in the present glide (R150; PHASE.GLIDING, R172). -/
  glide : Option CarrierGlide := none
  /-- A glide step has been settled for the next peak (R153). -/
  stepDue : Bool := false
  /-- The next peak falls no later than the start of the glide and takes no step of it (R150). -/
  skipStep : Bool := false
  /-- Target phase of an incoming tile, taken in one forward step at its next peak (R155). -/
  jump : Option Nat := none
  deriving DecidableEq, Repr

/-- Compare values of a tile: active and shadow (R52, R68, R69). -/
structure Duty where
  /-- DUTY.CMP (R68). -/
  cmp : Nat := 0
  /-- DUTY.FINE (R68). -/
  fine : Nat := 0
  /-- DUTY_SHD.CMP (R69). -/
  shdCmp : Nat := 0
  /-- DUTY_SHD.FINE (R69). -/
  shdFine : Nat := 0
  /-- DUTY_SHD.PEND (R69). -/
  shdPend : Bool := false
  /-- Time the shadow write completed (R52). -/
  shdAt : Int := 0
  /-- The rail's duty that the shadow converts (R115). -/
  shdD : Int := 0
  /-- The loop engine's write under way: it completes 8 ticks before the reload point it is aimed at (R17, R52). -/
  coming : Option DutyWrite := none
  deriving DecidableEq, Repr

/-- The course of one output: instants from which it has a level, latest first, settled ones to come among them; low before all. -/
abbrev Wave := List (Int × Bool)

/-- The two outputs of a tile: what they have done and what is settled for them (R50). -/
structure Edges where
  /-- The high output (R50). -/
  hi : Wave := []
  /-- The low output (R50). -/
  lo : Wave := []
  /-- `low_on_at` of R50: the settled turn-on, whether or not diode emulation suppresses it (R242). -/
  lowOnAt : Option Int := none
  /-- `plan == PULSE` of R50. -/
  plan : Bool := false
  /-- The high pulse settled for the present period: rising edge, then falling edge (R84, R286). -/
  settledRise : Option Int := none
  settledFall : Option Int := none
  /-- A settled falling edge was forced by a trip or the high side was forced on (R85). -/
  forced : Bool := false
  deriving DecidableEq, Repr

/-- Trip input and trip handling of a tile (R58 to R61, R71, R619). -/
structure Trip where
  /-- The synchronised trip input is active, as the latest command that tells of it shows; TRIP_STAT.LEVEL in a read, which tells of it
  (R61, R71). -/
  active : Bool := false
  /-- TRIP_STAT.HELD: high side held off until the next peak (R59). -/
  held : Bool := false
  /-- Low side held off until the next peak (R60). -/
  lowHeld : Bool := false
  /-- TRIP_STAT.LATCH (R61). -/
  latch : Bool := false
  /-- The latch has been cleared and the tile waits for its next peak (R61). -/
  resume : Bool := false
  /-- TRIP_STAT.TRIP_CNT, 16 bits. -/
  count : Nat := 0
  /-- A trip has ended the present period (R59: event once per period). -/
  inPeriod : Bool := false
  /-- Consecutive periods ended by a trip (R619). -/
  run : Nat := 0
  /-- The TRIP source has fired and its cause is present (R619). -/
  fired : Bool := false
  deriving DecidableEq, Repr

/-- Current samples of a tile (R84 to R87, R102, R103). -/
structure TileSense where
  /-- Latest valley and peak samples since the tile left COLD. -/
  iv : Option Int := none
  ip : Option Int := none
  /-- Latest corrected sample IC and its instant (R86, R242). -/
  ic : Int := 0
  icAt : Int := 0
  /-- The corrected sample before it: in force until 24 ticks after `icAt` (R242). -/
  icPrev : Int := 0
  icPrevAt : Int := 0
  /-- Latest raw samples, newest first, at most four (R86, R281). -/
  raws : List Nat := []
  /-- Edge samples of the present pulse (R85). -/
  riseSample : Option Int := none
  fallSample : Option Int := none
  /-- IEDGE: last valid pair. -/
  imin : Int := 0
  imax : Int := 0
  /-- IAVG.ITILE. -/
  itile : Int := 0
  /-- IAVG.VALID. -/
  valid : Bool := false
  /-- IAVG.EVALID. -/
  evalid : Bool := false
  /-- A valid pair has been taken since the tile left COLD (R281). -/
  pairSeen : Bool := false
  /-- Settled width of the last period's high pulse, where no trip ended it (R286). -/
  width : Option Int := none
  deriving DecidableEq, Repr

/-- Balance and detector state of a tile (R117, R279 to R281, R312). -/
structure TileProt where
  /-- Trim accumulator, 2^-34 of a period. -/
  trimAcc : Int := 0
  /-- OCT: consecutive samples above OC_HI, below OC_LO. -/
  ocHi : Nat := 0
  ocLo : Nat := 0
  /-- OCT: the latest sample was beyond a limit (R278). -/
  ocPresent : Bool := false
  /-- OPEN: consecutive valleys at which the conditions hold (R280). -/
  openCnt : Nat := 0
  /-- SENSE: consecutive samples out of range (R281). -/
  rangeCnt : Nat := 0
  /-- SENSE: consecutive periods with ripple below RIP_MIN (R281). -/
  flatCnt : Nat := 0
  /-- FAULT[7:0] cause bits. -/
  fault : BitVec 8 := 0
  /-- FAULT.CLASS. -/
  cls : BitVec 5 := 0
  /-- FAULT.OC_CNT. -/
  ocCount : Nat := 0
  deriving DecidableEq, Repr

/-- Stage health estimates of a tile (R286 to R289). -/
structure Health where
  /-- Inductance estimate, 0.01 uH, held unrounded (log 15). -/
  lEst : Rat := 0
  /-- Resistance estimate, 0.01 mOhm, held unrounded (log 15). -/
  rEst : Rat := 0
  /-- Updates since boot or re-admission. -/
  lUpd : Nat := 0
  rUpd : Nat := 0
  /-- The estimate lies outside its band (R289). -/
  lOut : Bool := false
  rOut : Bool := false
  deriving DecidableEq, Repr

/-- A tile's part in a Leap or Leap-back (R215 to R221, R228). -/
structure TileLeap where
  /-- Under the present Leap or Leap-back. -/
  under : Bool := false
  /-- Sample from which the estimate runs (R218). -/
  i0 : Int := 0
  /-- Slopes with 16 fraction bits, IC units per tick (R218). -/
  qUp : Int := 0
  qDn : Int := 0
  /-- Release position (R220). -/
  pos : Nat := 0
  /-- Detection instant of the response that the tile is under (R219). -/
  since : Int := 0
  /-- A released READY tile's low-side interval: time of release and ticks of on-time (R221). -/
  lowFrom : Option Int := none
  onTotal : Nat := 0
  /-- Released and waiting for its next peak or valley (R221, R228). -/
  waiting : Bool := false
  deriving DecidableEq, Repr

/-- Filter and reload counters of a tile (R70, R72). -/
structure TileStat where
  /-- FILTER_STAT.HS_DROP (R72). -/
  hsDrop : Nat := 0
  /-- FILTER_STAT.HS_STR (R72). -/
  hsStr : Nat := 0
  /-- FILTER_STAT.LS_DROP (R72). -/
  lsDrop : Nat := 0
  /-- FILTER_STAT.LS_STR (R72). -/
  lsStr : Nat := 0
  /-- RELOAD_STAT.LATE_CNT (R70). -/
  lateCnt : Nat := 0
  /-- RELOAD_STAT.LATE (R70). -/
  late : Bool := false
  deriving DecidableEq, Repr

/-- A tile as it stood when a stop of its rail, a Tail-drop or a thermal exclusion took it out of ACTIVE or READY: what the detectors of
that cycle judge (R269). -/
structure TileWas where
  /-- The cycle of the stop. -/
  cycle : Nat
  /-- STATE.ACT, the fade and the carrier before the stop. -/
  act : TileAct
  fade : Fade
  car : Carrier
  /-- Trim accumulator, the slot's trip period and the Leap part before the stop. -/
  trimAcc : Int
  inPeriod : Bool
  under : Bool
  /-- Settled width of the last period's high pulse (R286). -/
  width : Option Int
  deriving DecidableEq, Repr

/-- One phase tile (R62). -/
structure Tile where
  /-- STATE.ACT. -/
  act : TileAct := .excluded
  /-- STATE.REASON (R290). -/
  reason : Nat := 0
  /-- STATE.GEN. -/
  gen : BitVec 16 := 0
  /-- The tile before its latest stop or removal (R269). -/
  was : Option TileWas := none
  /-- STATE.RAIL and STATE.ASSIGNED: the image's assignment (R21). -/
  rail : Option RailId := none
  /-- PHASE.SLOT; none reads 0x3F. -/
  slot : Option Nat := none
  /-- STATE.FADE_IN, STATE.FADE_OUT and the factor of R190. -/
  fade : Fade := .none
  /-- Has been ACTIVE since boot, and when it left ACTIVE (R148). -/
  wasActive : Bool := false
  leftAt : Nat := 0
  /-- When it became READY (R191). -/
  readyAt : Nat := 0
  /-- REQ.REQ, REQ.PEND, REQ.CREF (R313). -/
  reqOut : Bool := false
  reqPend : Bool := false
  cref : Nat := 0
  /-- Diode emulation acts on the tile (R241). -/
  emulating : Bool := false
  /-- A stop has driven both outputs low from the tile's valley (R250). -/
  lowed : Bool := false
  /-- Admitted, and waiting for its next valley (R18). -/
  entering : Bool := false
  /-- Run-time writes of settings that wait for a valley, oldest first, with the time each completed (R55). -/
  setWait : List (TileSetting × Word × Int) := []
  /-- The settings in force at the tile (R55). -/
  cfgNow : Word := 0
  deadNow : Word := 0
  minpNow : Word := 0
  blankNow : Word := 0
  /-- The tile's own carrier (R41). -/
  car : Carrier := {}
  /-- Compare values (R52). -/
  duty : Duty := {}
  /-- Settled output edges (R50). -/
  edg : Edges := {}
  /-- Trip input (R58). -/
  trip : Trip := {}
  /-- Current samples (R84). -/
  sen : TileSense := {}
  /-- Balance and detectors (R279). -/
  prot : TileProt := {}
  /-- Stage health (R286). -/
  hea : Health := {}
  /-- Part in a Leap (R215). -/
  leap : TileLeap := {}
  /-- The slopes q_up and q_dn held for the next Leap, recomputed at every VIN_FAST update (R218). -/
  slopeUp : Int := 1
  slopeDn : Int := 1
  /-- Filter and reload counters (R70). -/
  st : TileStat := {}
  deriving DecidableEq, Repr

/-- Autozero of a loop (R88). -/
inductive Autozero where
  | idle
  /-- Waits for leave; byStart: with the 5 ms limit of a start. -/
  | requested (byStart : Bool) (since : Nat)
  /-- Runs: samples of the window ADC taken on the DAC, and their sum. -/
  | running (byStart : Bool) (n : Nat) (sum : Int)
  deriving DecidableEq, Repr

/-- The sense front end of a loop (R74 to R89, R98 to R101). -/
structure FrontEnd where
  /-- SNS_VOUT.VOUT. -/
  vout : Nat := 0
  /-- The latest output-sense conversion, raw. -/
  coarse : Nat := 0
  /-- A coarse conversion has been taken. -/
  coarseSeen : Bool := false
  /-- SNS_VOUT.WIN and the codes each sample was judged against, newest first, at most 17 samples (R75, R77, R212). -/
  window : List (Int × Int) := []
  /-- Instant of the latest window sample (R75). -/
  winAt : Int := 0
  /-- SNS_VOUT.RANGE_EXT. -/
  rangeExt : Bool := false
  /-- In-range LIk conversions since the last start, newest first, at most 8 (R82). -/
  vinRecent : List Nat := []
  /-- SNS_VIN.VIN_FAST. -/
  vinFast : Nat := 0
  /-- VIN_SLOW with its 20 internal bits. -/
  vinSlow : Nat := 0
  /-- An in-range conversion has been taken since power-up. -/
  vinSeen : Bool := false
  /-- Consecutive out-of-range conversions (R83). -/
  vinBad : Nat := 0
  /-- SNS_STAT.VIN_FROZEN. -/
  vinFrozen : Bool := false
  /-- SNS_DAC.DAC: the code the DAC took last (R76). -/
  dac : Int := 0
  /-- SNS_DAC.AZ. -/
  az : Int := 0
  /-- SNS_STAT[5:0]. -/
  stat : BitVec 6 := 0
  /-- SNS_STAT.AZ_REQ and SNS_STAT.AZ_BUSY (R88, R101). -/
  autozero : Autozero := .idle
  /-- The last values of REF and the instants from which they held, newest first (R245, R274). -/
  refs : List (Int × Nat) := []
  /-- Sum and count of the pre-bias average (R81). -/
  pbSum : Nat := 0
  pbN : Nat := 0
  deriving DecidableEq, Repr

/-- A preload that waits for an update (R123): that of V1 (R239) or that of the end of a Leap (R223). -/
inductive Preload where
  | none | start | leap
  deriving DecidableEq, Repr

/-- The compensator and command path of a loop (R109 to R126, R130, R134 to R137). -/
structure Engine where
  /-- Compensator state e[n-1] (R110). -/
  e1 : Int := 0
  /-- Compensator state e[n-2] (R110). -/
  e2 : Int := 0
  /-- Compensator state e[n-3] (R110). -/
  e3 : Int := 0
  /-- Compensator state u[n-1] (R110). -/
  u1 : Int := 0
  /-- Compensator state u[n-2] (R110). -/
  u2 : Int := 0
  /-- Compensator state u[n-3] (R110). -/
  u3 : Int := 0
  /-- Output y of the latest update (R223). -/
  yLast : Int := 0
  /-- Feedforward and anti-windup limits (R113). -/
  ff : Int := 32768
  ylo : Int := 0
  yhi : Int := 0
  /-- IMEAN as formed at the latest valley of a counted tile (R116). -/
  imean : Int := 0
  /-- CSET.ACT, CSET.SRC. -/
  setAct : Nat := 0
  setForced : Bool := false
  /-- CSET.PSET, CSET.PEND. -/
  setPend : Option Nat := none
  /-- Time of the pending switch request (R119). -/
  setAskedAt : Int := 0
  /-- The preload that the next update applies (R123). -/
  preload : Preload := .none
  /-- DCMD.D, ERRMON.ERR, ERRMON.FFG source. -/
  d : Int := 0
  /-- ERRMON.ERR (R136). -/
  err : Int := 0
  /-- ERRMON.FFG (R136). -/
  ffShown : Int := 0
  /-- UPD_STAT.SAT_CNT (R135). -/
  satCnt : Nat := 0
  /-- UPD_STAT.SAT (R135). -/
  sat : Bool := false
  /-- UPD_STAT.FF_SAT (R135). -/
  ffSat : Bool := false
  /-- UPD_STAT.SW_REFUSED (R135). -/
  swRefused : Bool := false
  /-- UPD_STAT.SW_CNT (R135). -/
  swCnt : Nat := 0
  /-- The update aimed at the next reference valley has been made (R106). -/
  aimed : Bool := false
  /-- Reference of the slew engine, rail code with 16 fraction bits (R125). -/
  ref : Nat := 0
  /-- REF.SRC. -/
  srcLink : Bool := false
  deriving DecidableEq, Repr

/-- Starting, stopping and power-good of a rail (R235 to R257, R266). -/
structure Sequencer where
  /-- STATE.STATE (R235, R257). -/
  state : RailState := .off
  /-- STATE.CAUSE. -/
  cause : Nat := 0
  /-- STATE.PGOOD. -/
  pgood : Bool := false
  /-- STATE.PB_HIGH and the start of the wait (R240). -/
  pbHigh : Bool := false
  pbWaitFrom : Nat := 0
  /-- Entry to PREPARE: the pre-bias takes conversions from here (R81). -/
  prepFrom : Nat := 0
  /-- The wait has latched its event (R240). -/
  pbTold : Bool := false
  /-- The wait has ended for this start (R240). -/
  pbWaitDone : Bool := false
  /-- Accepted LENk pin level; none: no level has been accepted since reset, and LEN reads 0 (R254, R257). -/
  lenPin : Option Bool := none
  /-- STATE.RETRY. -/
  retry : Nat := 0
  /-- PB_STAT. -/
  pb : Nat := 0
  /-- PB_STAT.TRACK_MAX (R266). -/
  trackMax : Nat := 0
  /-- Preparation: the pre-bias reading is in; preparation is complete, and when (R238). -/
  pbDone : Bool := false
  prepDone : Option Nat := none
  /-- V1, the reference valley at which SOFTSTART was entered (R238). -/
  v1 : Int := 0
  /-- Start of the present shortfall (R245). -/
  shortFrom : Option Nat := none
  /-- Entry times of HICCUP, and of REGULATE or SLEW without interruption (R247, R248). -/
  hiccupFrom : Nat := 0
  steadyFrom : Nat := 0
  /-- End point E of a stop, where it ends and with which cause (R250). -/
  stopEnd : Nat := 0
  stopSafe : Bool := false
  stopCause : Nat := 0
  /-- The reference has reached E (R250). -/
  stopReached : Bool := false
  /-- A stop is requested and waits for its dependency or the end of a Leap (R249, R255, R225): ends in SAFE, cause. -/
  stopWait : Option (Bool × Nat) := none
  /-- PGOOD of START_DEP has been asserted since (R255). -/
  depFrom : Option Nat := none
  depMet : Bool := false
  /-- In window since (R252); consecutive conversions out of window. -/
  winFrom : Option Nat := none
  winOut : Nat := 0
  /-- Diode emulation has ended for this run (R241). -/
  deEnded : Bool := true
  /-- When PGOODk was last asserted (R255). -/
  pgoodAt : Nat := 0
  deriving DecidableEq, Repr

/-- The kind of glide in progress (R170). -/
inductive GlideKind where
  | none | rotation | respace
  deriving DecidableEq, Repr

/-- Lock state of a rail (R159, R170). -/
inductive LockState where
  | free | acquiring | locked
  deriving DecidableEq, Repr

/-- Interleave, rotation and origin of a rail (R143 to R160, R170, R171). -/
structure Interleave where
  /-- A valley of the origin, and its half-period P16 in sixteenths of a tick (R143). -/
  originAt : Int := 0
  p16 : Nat := 0
  /-- ILV_STAT.GLIDE (R150, R170). -/
  glide : GlideKind := .none
  /-- A re-spacing glide is due at the next reference valley (R154). -/
  respaceDue : Bool := false
  /-- A decided add: the tile that comes in (R155, R188), and whether it has been placed. -/
  adding : Option TileId := none
  /-- The re-spacing that is due or in progress belongs to an add or a shed, or one of these still fades (R187, R210). -/
  change : Bool := false
  /-- ILV_STAT.ROT_DUE (R170). -/
  rotDue : Bool := false
  /-- Reference valleys counted towards the next rotation (R168). -/
  rotValleys : Nat := 0
  /-- ILV_STAT.ROT_PTR (R170). -/
  rotPtr : Nat := 0
  /-- ILV_CNT.ROT_CNT (R171). -/
  rotCnt : Nat := 0
  /-- ILV_CNT.ABORT_CNT (R171). -/
  abortCnt : Nat := 0
  /-- ILV_STAT.SYNC (R159, R170). -/
  lock : LockState := .free
  /-- Consecutive periods with a phase error below 16 fine steps (R159). -/
  quiet : Nat := 0
  /-- Selected SYNC_IN edge: its time, and edges counted since entering ACQUIRING or LOCKED (R159). -/
  edgeAt : Int := 0
  edgeNo : Nat := 0
  /-- Reference valleys counted in ACQUIRING and LOCKED, for the odd-numbered valleys of R160. -/
  valleyNo : Nat := 0
  /-- The latest P16* was out of range (R158). -/
  outOfRange : Bool := false
  deriving DecidableEq, Repr

/-- Operating point of a rail: bins, present entry and Moult (R180 to R193, R209, R210). -/
structure Moult where
  /-- MAP_STAT.VBIN (R209). -/
  vbin : Nat := 0
  /-- MAP_STAT.IBIN (R209). -/
  ibin : Nat := 0
  /-- MAP_STAT.TBIN (R209). -/
  tbin : Nat := 0
  /-- MAP_STAT.ENTRY: index of the latest lookup. -/
  entryIdx : Nat := 0
  /-- MAP_STAT.SAFE. -/
  safe : Bool := false
  /-- The present entry (R183). -/
  entry : Word := 0
  /-- Frequency code and set that the map has in effect (R183, R184). -/
  fcode : Nat := 0
  mapSet : Nat := 0
  /-- LSET in force at the Leap detector (R183). -/
  lset : Nat := 0
  /-- A frequency change that waits for release (MOULT_STAT.FREQ_PEND) and the set requested with it. -/
  freqPend : Option Nat := none
  setWithFreq : Option Nat := none
  /-- A released frequency change, applied by the next update aimed at a reference valley (R122). -/
  freqGo : Option Nat := none
  /-- Valleys of the add dwell (R186). -/
  addCnt : Nat := 0
  /-- Valleys of the shed dwell (R186). -/
  shedCnt : Nat := 0
  /-- MOULT_STAT.ADDS (R210). -/
  adds : Nat := 0
  /-- MOULT_STAT.SHEDS (R210). -/
  sheds : Nat := 0
  /-- IR of the latest reference valley (R180). -/
  ir : Int := 0
  deriving DecidableEq, Repr

/-- Detectors, throttle and faults of a rail (R267 to R285, R304 to R307). -/
structure RailProt where
  /-- OV: consecutive conversions beyond the limit (R272). -/
  ovCnt : Nat := 0
  /-- UV: consecutive conversions beyond the limit (R274). -/
  uvCnt : Nat := 0
  /-- OVW: consecutive window samples beyond (R273). -/
  ovwCnt : Nat := 0
  /-- UVW: consecutive window samples beyond (R273). -/
  uvwCnt : Nat := 0
  /-- OCR: consecutive reference valleys above ILIM_EFF (R277). -/
  ocrCnt : Nat := 0
  /-- The latest judgement of each source held: OV, OVW, UV, UVW, OCR (R278). -/
  present : BitVec 5 := 0
  /-- OCR has fired since the rail last left OFF, SAFE or HICCUP (R277). -/
  ocrFired : Bool := false
  /-- RAIL_FAULT[6:0]. -/
  fault : BitVec 7 := 0
  /-- RAIL_FAULT.CLASS. -/
  cls : BitVec 5 := 0
  /-- FAULT_CNT. -/
  cntOv : Nat := 0
  cntUv : Nat := 0
  cntOcr : Nat := 0
  cntThr : Nat := 0
  /-- THR_STAT.DTHR. -/
  dthr : Nat := 0
  /-- The rail has left OFF, so DTHR has been set (R278). -/
  dthrSet : Bool := false
  /-- PROT_STAT.ILIM_EFF. -/
  ilimEff : Nat := 0
  /-- A Tail-drop waits for its first reference valley (R284); the throttle of R284 is in force. -/
  dropCheck : Bool := false
  dropThrottle : Bool := false
  deriving DecidableEq, Repr

/-- State of the Leap detector (R211, R233). ARMED is IDLE while the conditions of R211 hold (`leapStateCode`). -/
inductive LeapState where
  | idle | leap | leapBack | holdoff
  deriving DecidableEq, Repr

/-- Leap unit of a rail (R211 to R234). -/
structure LeapUnit where
  /-- LEAP_STAT.STATE (R211, R233). -/
  state : LeapState := .idle
  /-- LEAP_STAT.FIRST (R233). -/
  first : Nat := 0
  /-- LEAP_STAT.CAUSE: 0 CURRENT or floor, 1 ERROR, 2 TMAX, 3 REMOVED or rail state. -/
  cause : Nat := 0
  /-- LEAP_STAT.TMAX_HIT (R233). -/
  tmaxHit : Bool := false
  /-- Detection instant D. -/
  detAt : Int := 0
  /-- Start of the error release Tr, and its spacing in ticks (R220). -/
  errRelease : Option Int := none
  spacing : Nat := 0
  /-- TMAX has passed in the present Leap (R222, R233). -/
  tmaxSeen : Bool := false
  /-- y_pre of R223. -/
  yPre : Int := 0
  /-- Start of the hold-off (R224). -/
  holdoffFrom : Int := 0
  /-- The present hold-off has counted a missed response (R224). -/
  missedNow : Bool := false
  /-- LEAP_CNT.LEAP_CNT (R234). -/
  cntLeap : Nat := 0
  /-- LEAP_CNT.LB_CNT (R234). -/
  cntBack : Nat := 0
  /-- LEAP_CNT.MISSED (R234). -/
  cntMissed : Nat := 0
  deriving DecidableEq, Repr

/-- An open settle watch (R445). -/
structure Watch where
  /-- SEQ of the command (R445). -/
  seq : Byte
  /-- When the watch opened (R445). -/
  openedAt : Nat
  /-- The rail has been in window since (R445). -/
  inWinFrom : Option Nat
  /-- TARGET since it opened: a different one supersedes the watch (R445). -/
  target : Nat
  deriving DecidableEq, Repr

/-- A settle watch that has closed: another outcome of the same housekeeping cycle may have the lower FLAGS (R445). -/
structure ClosedWatch where
  watch : Watch
  /-- The housekeeping cycle, and the outcome reported so far. -/
  cycle : Nat
  flags : BitVec 5
  value : BitVec 16
  deriving DecidableEq, Repr

/-- What the Gulsan link keeps of a rail (R440, R445, R459). -/
structure LinkRail where
  /-- LINK_LAST.SEQ (R459). -/
  seq : Byte := 0
  /-- LINK_LAST.VALUE (R459). -/
  value : BitVec 16 := 0
  /-- LINK_LAST.VALID (R459). -/
  valid : Bool := false
  /-- The open settle watch; LINK_LAST.PEND (R445, R459). -/
  watch : Option Watch := none
  /-- The watch that closed last (R445). -/
  closed : Option ClosedWatch := none
  /-- Outcome of the command of `seq` and `value`, once its watch has closed; its SETTLED frame has been sent (R440). -/
  outcome : Option (BitVec 5 × BitVec 16) := none
  told : Bool := false
  deriving DecidableEq, Repr

/-- A rail as it stood before it entered OFF, SAFE or HICCUP in one cycle: what the detectors of that cycle judge (R269). -/
structure RailWas where
  /-- The cycle of the transition. -/
  cycle : Nat
  /-- The row of R236 that made the latest transition of that cycle, counted from the top. -/
  row : Nat
  /-- STATE.STATE, LEAP_STAT.STATE and whether the reference carrier ran, before. -/
  st : RailState
  leap : LeapState
  running : Bool
  /-- Detector counts before (R272 to R277). -/
  ovCnt : Nat
  uvCnt : Nat
  ovwCnt : Nat
  uvwCnt : Nat
  ocrCnt : Nat
  deriving DecidableEq, Repr

/-- One rail with its loop engine. -/
structure Rail where
  /-- The rail before its latest entry to OFF, SAFE or HICCUP (R269). -/
  was : Option RailWas := none
  /-- The reference carrier (R105). -/
  car : Carrier := {}
  /-- Sense front end (R74). -/
  fe : FrontEnd := {}
  /-- Compensator and command path (R109). -/
  eng : Engine := {}
  /-- Sequencer (R235). -/
  seq : Sequencer := {}
  /-- Interleave (R143). -/
  ilv : Interleave := {}
  /-- Operating point (R180). -/
  mo : Moult := {}
  /-- Detectors (R267). -/
  prot : RailProt := {}
  /-- Leap unit (R211). -/
  leap : LeapUnit := {}
  /-- What the link keeps (R440). -/
  link : LinkRail := {}
  deriving DecidableEq, Repr

/-- One channel of the housekeeping ADC (R316 to R334, R342). -/
structure HkChannel where
  /-- Raw samples of the present round, at most 16. -/
  round : List Nat := []
  /-- Latest fast samples, newest first, at most 16. -/
  fastRaws : List Nat := []
  /-- Latest fast readings, newest first, at most 17 (R330). -/
  fastReads : List Int := []
  /-- CH_DATA.VALUE. -/
  value : Int := 0
  /-- Raw mean of the last round, in sixteenths of a code (R318, R321, R331). -/
  raw16 : Nat := 0
  /-- Rise of the latest reading over about 1 ms, 1/16 °C (R327). -/
  rise : Int := 0
  /-- Previous round reading (R330). -/
  lastRound : Option Int := none
  /-- CH_DATA.FAST (R342). -/
  inFast : Bool := false
  /-- CH_DATA.WARN (R342). -/
  warn : Bool := false
  /-- CH_DATA.SHUT (R342). -/
  shut : Bool := false
  /-- CH_DATA.BROKEN (R342). -/
  broken : Bool := false
  /-- CH_DATA.BCAUSE (R342). -/
  bcause : Nat := 0
  /-- A reading has been made; CH_DATA.VALID (R342). -/
  hasReading : Bool := false
  /-- Factor g of R322, 1/256. -/
  g : Nat := 256
  /-- Latest single conversion, raw (R618). -/
  latest : Nat := 0
  deriving DecidableEq, Repr

/-- Housekeeping and thermal manager (R316 to R343). -/
structure Housekeeping where
  /-- The 36 external and 28 internal channel places (R316). -/
  ch : Vector HkChannel 64 := Vector.replicate 64 {}
  /-- Next channel of the pass and pass number 0 to 15 (R317). -/
  next : Nat := 0
  pass : Nat := 0
  /-- HK_STAT.ROUNDS (R338). -/
  rounds : Nat := 0
  /-- HK_STAT.TSD (R338). -/
  tsd : Bool := false
  /-- HK_STAT.TSD_LATCH (R338). -/
  tsdLatch : Bool := false
  /-- Start of the present die shutdown (R328). -/
  tsdFrom : Nat := 0
  /-- The grace of the latest die shutdown runs (R328). -/
  graceOn : Bool := false
  /-- Channels whose cross-check waits for a round (R333): bit c. -/
  xchkWait : BitVec 36 := 0
  /-- Checks that wait for the first whole round after power-up of a bank or a request (R333). -/
  xchkNext : BitVec 36 := 0
  /-- HK_STAT.XCHK_SKIP (R338). -/
  xchkSkip : Bool := false
  /-- THERM[k].THERM and THERM[k].LIMCH. -/
  therm : Vector (Nat × Nat) 8 := Vector.replicate 8 (256, 0)
  deriving DecidableEq, Repr

/-- Device power, domains and supplies (R344 to R372). -/
structure PowerUnit where
  /-- What the device as a whole does; PWR_STAT.SAFE_IDLE (R357, R360, R368). -/
  phase : Phase := .inReset
  /-- PWR_STAT.STATE, TARGET, TRANS and the STOPMODE of the command in force. -/
  state : Power := .standby
  target : Power := .standby
  trans : Bool := false
  stopMode : Bool := false
  /-- DOM_STAT: loop groups, banks, HK, XMI (R370). -/
  lga : Bool := false
  /-- DOM_STAT.LGB (R370). -/
  lgb : Bool := false
  /-- DOM_STAT.TB (R370). -/
  banks : BitVec 4 := 0
  /-- DOM_STAT.HK (R370). -/
  hk : Bool := true
  /-- DOM_STAT.XMI (R370). -/
  xmi : Bool := false
  /-- DOM_CTL.BANK_EN as wanted (R369). -/
  bankWant : BitVec 4 := 0
  /-- The bank that has been granted leave and ramps (R355). -/
  ramping : Option BankId := none
  /-- SUP_STAT.WARN (R371). -/
  warn : Bool := false
  /-- SUP_STAT.DIP (R371). -/
  dip : Bool := false
  /-- SUP_STAT.PF (R371). -/
  pf : Bool := false
  /-- SUP_STAT.DIP_CNT (R371). -/
  dipCnt : Nat := 0
  /-- SUP_STAT.VSUP_MIN (R371). -/
  vsupMin : Nat := 0
  /-- VSUP conversions seen in the present warning. -/
  vsupSeen : Bool := false
  /-- The power-fail monitor is armed; a snapshot is committed (R348, R349). -/
  pfArmed : Bool := true
  pfCommitted : Bool := false
  /-- Its program has failed its verify once (R497). -/
  pfRetried : Bool := false
  /-- The snapshot's page as assembled, empty until no NVM operation runs (R348, R513). -/
  pfPage : List Byte := []
  /-- A further power-fail crossing has come before the committed snapshot was complete (R349). -/
  pfAgain : Bool := false
  /-- When the reset is left: 100 µs after its last source clears, but for a RESET_N that the test access port's command holds low (R30,
  R361). -/
  outAt : Nat := 960000
  /-- DOM_CTL.XMI_EN (R369). -/
  xmiEn : Bool := false
  /-- VXIO in mV, as the pin stands (R596). -/
  vxio : Nat := 0
  /-- HK and XMI as they were on before a transition to KEEPALIVE powered them down (R357, R358). -/
  undo : Option (Bool × Bool) := none
  /-- RST_STAT.PF_SNAP. -/
  pfSnap : Bool := false
  /-- PLL_STAT.LOCK, REF_OK, PPM_VALID, REF_PPM (R373). -/
  lock : Bool := true
  refOk : Bool := true
  ppmValid : Bool := false
  refPpm : BitVec 16 := 0
  /-- End of boot, then of each measuring window (R353). -/
  bootEnd : Nat := 0
  /-- In RUN: the time up to which whole seconds stand in `ka.hourSec` (R382). -/
  runFrom : Nat := 0
  deriving DecidableEq, Repr

/-- Self-test and scrub (R364, R374). -/
structure Test where
  /-- A sweep waits for leave or runs. -/
  busy : Bool := false
  /-- The sweep runs (R364). -/
  running : Bool := false
  /-- BIST_STAT.FAIL (R374). -/
  fail : Bool := false
  /-- The running sweep has met a failure. -/
  sweepBad : Bool := false
  /-- Words that the sweep's scrub pass has yet to read: map, ring, recorder, shadow (R364). -/
  passMap : Nat := 0
  passRing : Nat := 0
  passRec : Nat := 0
  passImg : Nat := 0
  /-- BIST_STAT.FAIL_CH (R374). -/
  failCh : Nat := 0
  /-- BIST_STAT.RUNS (R374). -/
  runs : Nat := 0
  /-- ECC_CNT.SBE_RING (R374). -/
  sbeRing : Nat := 0
  /-- ECC_CNT.SBE_REC (R374). -/
  sbeRec : Nat := 0
  /-- ECC_CNT.SBE_IMG (R374). -/
  sbeImg : Nat := 0
  /-- ECC_CNT.DBE (R374). -/
  dbe : Nat := 0
  /-- Next word of each memory's scrub: map, ring, recorder, shadow. -/
  scrubMap : Nat := 0
  scrubRing : Nat := 0
  scrubRec : Nat := 0
  scrubImg : Nat := 0
  deriving DecidableEq, Repr

/-- Map access and map errors (R194, R196, R201, R202). -/
structure MapUnit where
  /-- Entries, frequency tables and safe entries by index (R174, R177). -/
  mem : Store 32 := []
  /-- Words marked bad until the next boot. -/
  bad : List Nat := []
  /-- MAP_ECC.SBE_CNT (R201). -/
  sbe : Nat := 0
  /-- MAP_ECC.DBE_CNT (R201). -/
  dbe : Nat := 0
  /-- MAP_ECC.DBE (R201). -/
  dbeFlag : Bool := false
  /-- MAP_ECC.RD_ERR (R201). -/
  rdErr : Bool := false
  /-- MAP_BAD.WORD (R202). -/
  badWord : Nat := 0
  /-- MAP_BAD.VALID (R202). -/
  badValid : Bool := false
  deriving DecidableEq, Repr

/-- Sums of one telemetry window for a rail (R375 to R377). -/
structure RailWindow where
  /-- Telemetry samples in the window (R376). -/
  n : Nat := 0
  /-- Sum of VOUT (R376). -/
  v : Nat := 0
  /-- Sum of VIN_SLOW (R376). -/
  vin : Nat := 0
  /-- Sum of rail currents (R376). -/
  i : Int := 0
  /-- Sum of powers (R376). -/
  p : Int := 0
  /-- Temperature readings (R376). -/
  tn : Nat := 0
  /-- Sum of the temperature readings (R376). -/
  t : Int := 0
  deriving DecidableEq, Repr

/-- Sums of one telemetry window for a tile. -/
structure TileWindow where
  /-- Current readings in the window (R376). -/
  n : Nat := 0
  /-- Sum of the tile's currents (R376). -/
  i : Int := 0
  /-- Temperature readings (R376). -/
  tn : Nat := 0
  /-- Sum of the temperature readings (R376). -/
  t : Int := 0
  deriving DecidableEq, Repr

/-- A held peak: extremes since the last clear and the latest judged value (R379, R380). -/
structure Peak where
  /-- Highest since the last clear (R379). -/
  hi : Int := 0
  /-- Lowest since the last clear (R379). -/
  lo : Int := 0
  /-- Latest judged value, none before the first (R380). -/
  last : Option Int := none
  deriving DecidableEq, Repr

/-- Held peaks of a rail: voltage, current, power, temperature (R379). -/
structure RailPeaks where
  v : Peak := {}
  i : Peak := {}
  p : Peak := {}
  t : Peak := {}
  deriving DecidableEq, Repr

/-- Held peaks of a tile: current and temperature (R379). -/
structure TilePeaks where
  i : Peak := {}
  t : Peak := {}
  deriving DecidableEq, Repr

/-- A whole telemetry window: the averages of one instant (R377). -/
structure TelWindow where
  /-- The rails' sums (R376). -/
  rails : Vector RailWindow 8 := Vector.replicate 8 {}
  /-- The tiles' sums (R376). -/
  tiles : Vector TileWindow 48 := Vector.replicate 48 {}
  /-- Its sequence number, WIN.SEQ (R391). -/
  seq : Nat := 0
  deriving DecidableEq, Repr

/-- Telemetry (R375 to R382, R390 to R393). -/
structure Telemetry where
  /-- Sums of the running window, and its telemetry samples. -/
  cur : TelWindow := {}
  /-- Telemetry samples in the running window (R376). -/
  samples : Nat := 0
  /-- The published window, and one that waits for a transaction to end (R378). -/
  pub : TelWindow := {}
  /-- A whole window that waits for a transaction to end; TEL_STAT.DEFER (R378, R390). -/
  wait : Option TelWindow := none
  /-- TEL_STAT.SEQ (R390). -/
  seq : Nat := 0
  /-- TEL_STAT.SKIP (R390). -/
  skip : Nat := 0
  /-- Held peaks of the rails (R379). -/
  railPeaks : Vector RailPeaks 8 := Vector.replicate 8 {}
  /-- Held peaks of the tiles (R379). -/
  tilePeaks : Vector TilePeaks 48 := Vector.replicate 48 {}
  /-- Energy of each rail toward the next kWh, joules with 48 fraction bits (R382). -/
  energy : Vector Int 8 := Vector.replicate 8 0
  deriving DecidableEq, Repr

/-- One event source (R383, R386, R388, R397). -/
structure EventSource where
  /-- EV_LATCH.LATCH (R396). -/
  latch : Bool := false
  /-- EV_DDATA.DETAIL (R397). -/
  detail : Word := 0
  /-- EV_DCNT.COUNT (R397). -/
  count : Nat := 0
  /-- Housekeeping cycle of the latest occurrence. -/
  cycle : Option Nat := none
  /-- Housekeeping cycle of the latest occurrence that went to the journal (R271, R383). -/
  jrnCycle : Option Nat := none
  deriving DecidableEq, Repr

/-- An entry of the event queue (R384, R529). -/
structure QueueEntry where
  /-- Source number, or record code when `record`. -/
  id : Nat
  /-- Detail word (R384). -/
  detail : Word
  /-- Detection cycle (R384). -/
  cyc : Nat
  /-- RTC stamp of the detection cycle: seconds, then TINV and fraction (R527). -/
  sec : BitVec 40
  /-- Fraction of that stamp, with TINV (R527). -/
  frac : BitVec 16
  /-- The entry is of class fault (R529). -/
  cls : Bool
  /-- A host's or link's record (R529). -/
  record : Bool
  /-- Host of a record (R529). -/
  host : Option HostId
  /-- LOSS flag of R27. -/
  loss : Bool
  /-- CORRUPT and SNAP flags, for entries made from a fault page (R514). -/
  corrupt : Bool
  /-- SNAP flag (R514). -/
  snap : Bool
  /-- SEQ and SNAP bytes carried from a fault page (R529); none: taken by the writer. -/
  seq : Option (BitVec 24)
  /-- SNAP bytes carried from a fault page (R529). -/
  snapBytes : Option (BitVec 128)
  /-- A later cycle has begun since it entered, so none of that cycle goes before it (R26). -/
  settled : Bool := false
  deriving DecidableEq, Repr

/-- The event system (R383 to R397). -/
structure Events where
  /-- The 256 sources (R383). -/
  src : Vector EventSource 256 := Vector.replicate 256 {}
  /-- The event queue, oldest first (R384). A record of an RTC setting that is still to be taken stands behind what comes before that
  take (R560). -/
  queue : List QueueEntry := []
  /-- EV_QSTAT.OVF_CNT (R396). -/
  ovfCnt : Nat := 0
  /-- EV_QSTAT.OVF (R396). -/
  ovf : Bool := false
  /-- The next entry that enters carries LOSS (R27). -/
  lossNext : Bool := false
  /-- The latest cycle in which a clear met ALERT_N low: it stays low to the end of that cycle (R385, R386). -/
  alertCyc : Option Nat := none
  deriving DecidableEq, Repr

/-- Index registers and buffers that exist once for each host (R416). -/
structure HostRegs where
  /-- Address pointer (R402). -/
  ptr : Addr := 0
  /-- COEF_IDX of each rail (R139). -/
  coefIdx : Vector Word 8 := Vector.replicate 8 0
  /-- MAP_IDX (R199). -/
  mapIdx : Word := 0
  /-- EV_DIDX (R397). -/
  evDidx : Word := 0
  /-- NVM_IDX (R521). -/
  nvmIdx : Word := 0
  /-- PAGE has changed since this host's latest accepted write of NVM_DATA (R503). -/
  pageMoved : Bool := false
  /-- XM_IDX (R553). -/
  xmIdx : Word := 0
  /-- REC_BIDX (R554). -/
  recBidx : Word := 0
  /-- Journal read pointer: number of the next entry; entry buffer; an entry is loaded and not popped (R533). -/
  jrnPtr : Nat := 0
  /-- The entry buffer, JRN_E (R533). -/
  jrnBuf : BitVec 256 := 0
  /-- The entry that JRN_E[0] has loaded and JRN_E[7] would pop (R533). -/
  jrnLoaded : Option Nat := none
  /-- JRN_HSTAT.SKIPPED (R552). -/
  skipped : Nat := 0
  /-- External memory window: the 64 bytes that the prefetch holds (R538). -/
  xmHeld : Option (List Byte) := none
  /-- REFUSED_x (R427). -/
  refCnt : Nat := 0
  /-- REFUSED_x.CLAIM_CNT (R427). -/
  claimCnt : Nat := 0
  /-- HB_x.COUNT, time of the latest refreshing write, not lapsed (R417, R426). -/
  hbCount : Byte := 0
  /-- Time of the latest refreshing write (R417). -/
  hbAt : Option Nat := none
  /-- HB_x.ALIVE and CLAIM.ALIVE_x: not lapsed (R417, R426). -/
  alive : Bool := false
  deriving DecidableEq, Repr

/-- The form of a bus transaction, settled at its START (R402, R406). -/
structure TxnShape where
  /-- It carries LEN and a code. -/
  coded : Bool := false
  /-- It moves registers from the host. -/
  write : Bool := true
  /-- Bytes before its first data byte. -/
  lead : Nat := 3
  deriving DecidableEq, Repr

/-- The management bus target (R398 to R428). -/
structure Bus where
  /-- Host A's own registers (R416). -/
  hostA : HostRegs := {}
  /-- Host B's own registers (R416). -/
  hostB : HostRegs := {}
  /-- BUS_CFG.MADDR (R399, R595). -/
  maddr : BitVec 3 := 0
  /-- CLAIM.OWNER and CHG_CNT. -/
  owner : Option HostId := none
  /-- CLAIM.CHG_CNT (R425). -/
  chgCnt : Nat := 0
  /-- BUS_STAT[4:1]: PROTO, PEC, TOUT, REL. -/
  stat : BitVec 4 := 0
  /-- ERR_CNT.PROTO_CNT (R428). -/
  protoCnt : Nat := 0
  /-- ERR_CNT.PEC_CNT (R428). -/
  pecCnt : Nat := 0
  /-- ERR_CNT.TOUT_CNT (R428). -/
  toutCnt : Nat := 0
  /-- ERR_CNT.REL_CNT (R428). -/
  relCnt : Nat := 0
  /-- The transaction in progress: its host, and whether it addresses the telemetry block (R378). -/
  txn : Option (HostId × Bool) := none
  /-- The form that it took at its START (R402, R406). -/
  shape : TxnShape := {}
  /-- Data byte of the transaction at which its code byte arrived, 0 before it (R407); its one error for surplus bytes is counted. -/
  codeAt : Nat := 0
  surplus : Bool := false
  /-- Register words that the latest read has sent, in order (R401, R404). -/
  sent : List Word := []
  /-- The code byte that it has sent (R408). -/
  sentCode : Option Byte := none
  /-- The latest byte was answered N (R403, R405, R407). -/
  nak : Bool := false
  /-- MSCL is held for a host-initiated commit, since (R412). -/
  holdFrom : Option Nat := none
  /-- What a write that started such a commit still moves once MSCL is released (R412): its host, the address, how many of its 16
  words are left, and the words. -/
  rest : Option (HostId × Nat × Nat × List Word) := none
  /-- RTC1 as latched by a read of RTC0, for each read (R559). -/
  rtc1 : Word := 0
  deriving DecidableEq, Repr

/-- The word of the last register sent (R404). -/
def Bus.rdata (b : Bus) : Word := b.sent.getLastD 0

/-- A frame to the load (R434, R437). -/
structure LinkFrame where
  /-- TYPE (R437). -/
  ty : Byte
  /-- SEQ (R437). -/
  seq : Byte
  /-- RAIL (R437). -/
  rail : RailId
  /-- FLAGS (R437). -/
  flags : BitVec 5
  /-- VALUE (R437). -/
  value : BitVec 16
  deriving DecidableEq, Repr

/-- The Gulsan link (R429 to R459). -/
structure Link where
  /-- LINK_STAT.LOAD_ALIVE, and the latest accepted frame. -/
  alive : Bool := false
  /-- Time of the latest accepted frame (R446). -/
  rxAt : Option Nat := none
  /-- The watchdog has lapsed since the link was last alive (R446). -/
  everLapsed : Bool := false
  /-- LINK_STAT.CLK_ACTIVE. -/
  clkActive : Bool := false
  /-- ACK frames that wait, oldest first (R438). -/
  acks : List LinkFrame := []
  /-- SETTLED frames that wait, oldest first (R438). -/
  settled : List LinkFrame := []
  /-- The latest frame sent on GL_DO. -/
  sent : Option LinkFrame := none
  /-- LINK_ERR.CRC_CNT (R456). -/
  crcCnt : Nat := 0
  /-- LINK_ERR.FRM_CNT (R456). -/
  frmCnt : Nat := 0
  /-- LINK_ERR.DUP_CNT (R456). -/
  dupCnt : Nat := 0
  /-- LINK_ERR.SOVF_CNT (R456). -/
  sovfCnt : Nat := 0
  /-- LINK_CNT.RX_CNT (R457). -/
  rxCnt : Nat := 0
  /-- LINK_CNT.REF_CNT (R457). -/
  refCnt : Nat := 0
  /-- Fall-back holds: both heartbeats are lapsed, as judged (R446). -/
  fallback : Bool := false
  deriving DecidableEq, Repr

/-- Source of an image copy (R460, R490). -/
inductive ImageSource where
  | none | eeprom | xmem
  deriving DecidableEq, Repr

/-- State of a replacement (R494). -/
inductive ReplState where
  | idle | receiving | checking | done | failed | aborted
  deriving DecidableEq, Repr

/-- The image loader: running copy, marks and replacement (R460 to R495). -/
structure Loader where
  /-- BOOT_STAT.SRC (R490). -/
  src : ImageSource := .none
  /-- BOOT_STAT.SLOT (R490). -/
  slotB : Bool := false
  /-- BOOT_STAT.FALLBACK (R490). -/
  fallback : Bool := false
  /-- BOOT_STAT.BOOTSEL: the strap as sampled at boot (R490). -/
  bootsel : Bootsel := .low
  /-- BOOT_STAT.CLASS_LOCK (R490). -/
  classLock : Bool := false
  /-- BOOT_STAT.CLASS_CHG (R490). -/
  classChg : Bool := false
  /-- BOOT_STAT.REASON_A (R490). -/
  reasonA : Nat := 0
  /-- BOOT_STAT.REASON_B (R490). -/
  reasonB : Nat := 0
  /-- BOOT_STAT.ARB_CNT (R490). -/
  arbCnt : Nat := 0
  /-- BOOT_STAT.BOOT_T (R490). -/
  bootT : Nat := 0
  /-- BOOT_GEN.GEN (R491). -/
  gen : Word := 0
  /-- FLAGS of the running copy (R469). -/
  flags : BitVec 16 := 0
  /-- IMG_ID0.ID_HI and IMG_ID1.ID_LO (R491). -/
  imageId : BitVec 64 := 0
  /-- Registers whose IMG fields the image marks run-time writable (R473), by address. -/
  rtMarks : List Nat := []
  /-- Coefficients of rail k run-time writable (R140), bit k. -/
  coefRt : BitVec 8 := 0
  /-- Map run-time writable (R197). -/
  mapRt : Bool := false
  /-- SAFE-IDLE: the seal rule of R479 applies. -/
  idleSeal : Bool := false
  /-- IMG_STAT.STATE (R494). -/
  repl : ReplState := .idle
  /-- IMG_STAT.RESULT (R494). -/
  result : Nat := 0
  /-- IMG_STAT.SRC: the target's source (R494). -/
  tgtSrc : ImageSource := .none
  /-- IMG_STAT.SLOT: the target is slot B (R494). -/
  tgtB : Bool := false
  /-- LEN of the replacement (R492). -/
  len : Nat := 0
  /-- IMG_PROG.OFFSET (R495). -/
  offset : Nat := 0
  /-- Received header bytes, and body bytes not yet programmed with the offset of the first. -/
  header : List Byte := []
  /-- Body bytes not yet programmed; IMG_PROG.FREE counts their places (R484, R495). -/
  buffer : List Byte := []
  /-- Offset of the first of them (R484). -/
  progAt : Nat := 64
  /-- COMMIT accepted: the rest and then the header are programmed (R485). -/
  committing : Bool := false
  /-- The header has been programmed (R485). -/
  headerDone : Bool := false
  /-- 0x00 is still to be written over the target slot's MAGIC (R483, R485, R486). -/
  clearMagic : Bool := false
  /-- Next sector of the target slot to be erased, on XMEM (R487). -/
  eraseNext : Option Nat := none
  deriving DecidableEq, Repr

/-- A request of the NVM queue (R499). -/
inductive NvmJob where
  /-- Write record r: 0 BOOT, 1 FSUM, 2 CAL_LOOP, 3 to 6 CAL_TILE, 7 SEAL, 8 + c HIGH[c]; erased: with the marker. -/
  | record (r : Nat) (erased : Bool)
  /-- Commit counter c: 0 unary bytes, or a step of the carry (R510): 1 HIGH, 2 erase, 3 header. -/
  | counter (c : Nat) (step : Nat)
  /-- Repair of counter c at boot (R511): erase first or not. -/
  | repair (c : Nat) (erase : Bool)
  /-- Erase a page. -/
  | erasePage (page : Nat)
  /-- Refresh a page (R515). -/
  | refresh (page : Nat)
  /-- Residue block: page 440 + i, and the marker page 445 as fresh or stale (R512, R579). -/
  | residue (i : Nat)
  | markFresh
  | markStale
  /-- Host commands (R501). -/
  | hostProgram
  | hostSave (arg : Nat)
  | hostErase (arg : Nat)
  deriving DecidableEq, Repr

/-- Host command state (R520). -/
inductive NvmHostState where
  | idle | waiting | running | done | failed
  deriving DecidableEq, Repr

/-- One spread counter (R508, R509, R526). -/
structure SpreadCounter where
  /-- Whole unary pages counted: the H of the HIGH record (R509, R510). -/
  h : Nat := 0
  /-- CNT_STAT.G (R526). -/
  g : BitVec 32 := 0
  /-- CNT_STAT.PAGE (R526). -/
  page : Nat := 0
  /-- CNT_STAT.U (R526). -/
  u : Nat := 0
  /-- End of the latest commit since boot. -/
  lastCommit : Option Nat := none
  /-- A FLUSH is pending. -/
  flush : Bool := false
  /-- A repair of R511 is outstanding, and whether its page is still to be erased (case 1). -/
  repairing : Bool := false
  eraseFirst : Bool := false
  /-- The k unary bytes of a running commit. -/
  k : Nat := 0
  /-- Spare page to move to in a running carry, and the next step of that carry: 0 none (R510). -/
  moveTo : Option Nat := none
  /-- Next step of a carry: 0 none (R510). -/
  carry : Nat := 0
  deriving DecidableEq, Repr

/-- The latest read of a record (R525). -/
structure RecordStat where
  /-- REC_STAT[r].SEQ (R525). -/
  seq : BitVec 32 := 0
  /-- REC_STAT[r].VALID0 (R525). -/
  valid0 : Bool := false
  /-- REC_STAT[r].VALID1 (R525). -/
  valid1 : Bool := false
  /-- REC_STAT[r].USED (R525). -/
  used : Bool := false
  /-- REC_STAT[r].PRESENT (R525). -/
  present : Bool := false
  /-- REC_STAT[r].ERASED (R525). -/
  erased : Bool := false
  /-- REC_STAT[r].EQ (R525). -/
  eq : Bool := false
  deriving DecidableEq, Repr

/-- The on-chip NVM and its controller (R496 to R526). -/
structure Nvm where
  /-- 512 pages of 64 bytes; an unlisted byte reads 0xFF (R496). -/
  mem : Store 8 := []
  /-- Operation in progress, whether it was a host's, and whether its first verify failed (R497, R500). -/
  op : Option NvmJob := none
  /-- The operation is a host's (R500). -/
  opHost : Bool := false
  /-- Its first verify failed (R500). -/
  retried : Bool := false
  /-- What the operation does: 1 page write, 2 program, 3 erase; its page, offset in the page and bytes (R496). -/
  opKind : Nat := 0
  /-- Page of the operation (R496). -/
  opPage : Nat := 0
  /-- Offset in the page (R496). -/
  opAt : Nat := 0
  /-- Bytes of the operation (R496). -/
  opBytes : List Byte := []
  /-- Jobs that wait, oldest first; NVM_QSTAT.FILL (R499, R523). -/
  queue : List NvmJob := []
  /-- Residue block in the making, and its next step: page 440 + i, then 5 the marker; a stale mark is outstanding (R512, R579). -/
  resBuf : List Byte := []
  /-- Next step of the residue block: page 440 + i, then 5 the marker (R512). -/
  resNext : Option Nat := none
  /-- A stale mark is outstanding (R579). -/
  stale : Bool := false
  /-- The host command that waits (R501). -/
  hostJob : Option NvmJob := none
  /-- NVM_HOST.STATE (R520). -/
  hostState : NvmHostState := .idle
  /-- NVM_HOST.RESULT (R520). -/
  hostResult : Nat := 0
  /-- NVM_HOST.HOST (R520). -/
  hostB : Bool := false
  /-- NVM_HOST.BUF_PAGE (R520). -/
  bufPage : Nat := 0
  /-- NVM_HOST.BUF_VALID (R520). -/
  bufValid : Bool := false
  /-- The page buffer, 64 bytes (R502). -/
  buf : List Byte := []
  /-- A PROGRAM has ended or PAGE has changed since the buffer was loaded. -/
  bufStale : Bool := true
  /-- Time of the latest margin read since boot (R515). -/
  marginAt : Option Nat := none
  /-- NVM_QSTAT.FULL_CNT (R523). -/
  fullCnt : Nat := 0
  /-- NVM_CNT.REFRESH_CNT (R524). -/
  refreshCnt : Nat := 0
  /-- NVM_CNT.VFAIL_CNT (R524). -/
  vfailCnt : Nat := 0
  /-- NVM_CNT.EQSEQ_CNT (R524). -/
  eqseqCnt : Nat := 0
  /-- NVM_CNT.REC_LOST (R524). -/
  recLost : Nat := 0
  /-- NVM_STAT.PF_SKIP (R518). -/
  pfSkip : Bool := false
  /-- NVM_STAT.RES_LOST (R518). -/
  resLost : Bool := false
  /-- NVM_STAT.SCAN (R518). -/
  scan : Nat := 0
  /-- Event 175 has latched since boot (R516). -/
  spareEvent : Bool := false
  /-- REC_STAT of the eight records (R525). -/
  recs : Vector RecordStat 8 := Vector.replicate 8 {}
  /-- The 73 spread counters (R508). -/
  cnt : Vector SpreadCounter 73 := Vector.replicate 73 {}
  /-- Record writes refused by a full queue, with the time of refusal (R499). -/
  retries : List (Nat × Nat) := []
  /-- Pages whose refresh is merged into a waiting write of their record (R499, R515). -/
  merged : List Nat := []
  deriving DecidableEq, Repr

/-- A journal entry in the ring (R527, R528, R531). -/
structure JournalEntry where
  /-- Number of the entry since boot; orders the ring. -/
  no : Nat
  /-- Stamp, seconds (R527). -/
  sec : BitVec 40
  /-- Stamp, fraction with TINV (R527). -/
  frac : BitVec 16
  /-- Flags byte (R528). -/
  flags : BitVec 8
  /-- ID byte (R528). -/
  id : Byte
  /-- SEQ (R532). -/
  seq : BitVec 24
  /-- Detail word (R528). -/
  detail : Word
  /-- SNAP bytes (R530). -/
  snap : BitVec 128
  /-- When it was written; the XMEM journal holds it (R539). -/
  writtenAt : Nat
  /-- The XMEM journal holds it (R539). -/
  inXmem : Bool
  deriving DecidableEq, Repr

/-- The journal ring (R531, R552). -/
structure Journal where
  /-- Oldest first, at most 1,024. -/
  ring : List JournalEntry := []
  /-- Number of the next entry (R531). -/
  nextNo : Nat := 0
  /-- JRN_STAT.OVR (R552). -/
  ovr : Bool := false
  /-- JRN_CNT.OVR_CNT (R552). -/
  ovrCnt : Nat := 0
  /-- JRN_CNT.PIN_OVF (R552). -/
  pinOvf : Nat := 0
  deriving DecidableEq, Repr

/-- A burst that holds a credit of the XMEM port (R536). -/
inductive XBurst where
  /-- Journal: entries (numbers) and their bytes, written at an entry slot; or the erase of a sector of the region. -/
  | journal (nos : List Nat) (slot : Nat) (bytes : List Byte)
  | journalErase (sector : Nat)
  /-- Journal, on a RAM that needs no erase: `n` bytes of 0xFF written in a sector of the region from a byte of it on (R534). -/
  | journalFill (sector off n : Nat)
  | prefetch (h : HostId) (addr : Nat)
  /-- Recorder: bytes at a memory address, `final` the completion of the header; or the erase of the sector at an address. -/
  | recorder (addr : Nat) (bytes : List Byte) (final : Bool)
  | recorderErase (addr : Nat)
  /-- Image replacement: a page or the MAGIC bytes; or the erase of the sector at an address (R487). -/
  | image (addr : Nat) (bytes : List Byte)
  | imageErase (addr : Nat)
  deriving DecidableEq, Repr

/-- The external memory and its port (R534 to R540, R553). -/
structure Xmem where
  /-- Content of the memory; an unlisted byte reads 0xFF. -/
  mem : Store 8 := []
  /-- XM_STAT.PRESENT (R553). -/
  present : Bool := false
  /-- The XMEM pads work at 3.3 V, as sensed at the latest power-up of XMI (R596). -/
  pad33 : Bool := false
  /-- XM_STAT.STALL (R553). -/
  stall : Bool := false
  /-- XM_STAT.STALL_CNT (R553). -/
  stallCnt : Nat := 0
  /-- XM_STAT.JREADY (R553). -/
  jready : Bool := false
  /-- XM_STAT.JDIS: the journal region is out of service (R553). -/
  jdis : Bool := false
  /-- XM_STAT.RDIS: the recorder region is out of service (R553). -/
  rdis : Bool := false
  /-- XM_STAT.JFMT (R553). -/
  jfmt : Bool := false
  /-- XM_STAT.DENS (R553). -/
  dens : Nat := 0
  /-- XM_JHEAD.INDEX (R553). -/
  head : Nat := 0
  /-- The head's sector has its next sector erased. -/
  erasedFor : Option Nat := none
  /-- Bytes of that next sector which a RAM has been told to fill with 0xFF (R534). -/
  filled : Nat := 0
  /-- log2 of the page size, and the maximum program and erase times in µs, as SFDP declares them (R534). -/
  pageLog : Nat := 8
  progMax : Option Nat := none
  eraseMax : Option Nat := none
  /-- Bursts staged, in the order in which the memory takes them: the credits in use (R536). -/
  bursts : List XBurst := []
  /-- Since when the memory works on the first of them; none: it waits for a journal burst that takes the freed credit (R536). -/
  began : Option Nat := none
  /-- Prefetches that wait for a credit. -/
  prefetchWait : List (HostId × Nat) := []
  /-- Entries overwritten in the ring before they reached the memory, since the stall (R549). -/
  lost : Nat := 0
  deriving DecidableEq, Repr

/-- State of the recorder (R542). -/
inductive RecState where
  | idle | armed | capture | frozen
  deriving DecidableEq, Repr

/-- The recorder (R541 to R544, R554). -/
structure Recorder where
  /-- REC_STAT.STATE (R554). -/
  state : RecState := .idle
  /-- REC_STAT.TRUNC (R554). -/
  trunc : Bool := false
  /-- REC_STAT.CORRUPT (R554). -/
  corrupt : Bool := false
  /-- Bytes in the buffer, earliest first. -/
  buffer : List Byte := []
  /-- Pre-trigger frames held while ARMED, oldest first, each as its bytes. -/
  pre : List (List Byte) := []
  /-- Capture number, frames of it taken and stored. -/
  num : Nat := 0
  /-- Pre-trigger frames of the capture (R543). -/
  preTaken : Nat := 0
  /-- Post-trigger frames taken (R543). -/
  postTaken : Nat := 0
  /-- No more frames are taken: the rest is written (R543). -/
  ending : Bool := false
  /-- Trigger: source and host flag, stamp (R544). -/
  trigSrc : Nat := 0
  /-- The trigger was a host's (R544). -/
  trigHost : Bool := false
  /-- Stamp of the trigger (R544). -/
  trigStamp : BitVec 56 := 0
  /-- Start address of the capture and bytes written. -/
  base : Nat := 0
  /-- Bytes written (R544). -/
  written : Nat := 0
  /-- Bytes of the capture whose sectors have been erased (R544). -/
  erasedTo : Nat := 0
  /-- Next free byte of the region, relative to its base. -/
  nextOff : Nat := 0
  /-- REC_CNT.CAPTURES (R554). -/
  captures : Nat := 0
  /-- REC_CNT.MISSED (R554). -/
  missed : Nat := 0
  /-- REC_CNT.TRUNC_CNT (R554). -/
  truncCnt : Nat := 0
  /-- REC_LAST.SECTOR (R554). -/
  lastSector : Nat := 0
  /-- REC_LAST.NUM (R554). -/
  lastNum : Nat := 0
  deriving DecidableEq, Repr

/-- Who asks the draw arbiter for leave (R547). -/
inductive DrawUser where
  | bank (b : BankId)
  | nvmCritical
  | autozero (k : RailId)
  | nvm
  | xmJournal
  | xmPrefetch
  | xmRecorder
  | xmImage
  | bist
  | charger
  deriving DecidableEq, Repr

/-- A waiting request: who, since when, and whether event 184 has latched for it. -/
structure DrawRequest where
  /-- Who asks (R547). -/
  user : DrawUser
  /-- Since when (R547). -/
  since : Nat
  /-- Event 184 has latched for it (R548). -/
  long : Bool
  deriving DecidableEq, Repr

/-- A grant held: who, its cost in mA, since when. -/
structure DrawGrant where
  /-- Who holds it (R547). -/
  user : DrawUser
  /-- Its cost, mA (R547). -/
  cost : Nat
  /-- Since when (R547). -/
  since : Nat
  deriving DecidableEq, Repr

/-- The draw arbiter (R547, R548, R551). -/
structure Draw where
  /-- Latest shunt samples in microvolts, newest first, at most 64. -/
  samples : List Nat := []
  /-- DRAW_STAT.I_MEAS (R551). -/
  imeas : Nat := 0
  /-- Requests that wait; DRAW_WAIT.WAITING (R547, R551). -/
  waiting : List DrawRequest := []
  /-- Grants held; DRAW_STAT.GRANTED and DRAW_WAIT.ACTIVE (R547, R551). -/
  active : List DrawGrant := []
  /-- DRAW_WAIT.LONG_CNT (R551). -/
  longCnt : Nat := 0
  /-- DRAW_WAIT.PREEMPT_CNT (R551). -/
  preemptCnt : Nat := 0
  deriving DecidableEq, Repr

/-- Seal states (R575, R584). -/
inductive SealState where
  | closed | opened | short
  deriving DecidableEq, Repr

/-- Charger states (R586). -/
inductive ChargerState where
  | off | wait | precond | charge | done | tempHold | fault
  deriving DecidableEq, Repr

/-- The cell charger (R562 to R568, R586). -/
structure Charger where
  /-- CHG_CFG and CHG_NTC as the keep-alive domain holds them; loaded since its power-up (R569). -/
  cfg : Word := 0
  /-- CHG_NTC as the domain holds it (R569). -/
  ntc : Word := 0
  /-- Both have been loaded since its power-up (R569). -/
  loaded : Bool := false
  /-- CHG_STAT.STATE (R586). -/
  state : ChargerState := .off
  /-- The state TEMP_HOLD or WAIT left. -/
  left : ChargerState := .off
  /-- WAIT restarts the timers (long absence). -/
  restart : Bool := false
  /-- CHG_STAT.CV (R586). -/
  cv : Bool := false
  /-- CHG_STAT.FCAUSE (R586). -/
  fcause : Nat := 0
  /-- CHG_STAT.PAUSED (R586). -/
  paused : Bool := false
  /-- f in 1/256 (R565). -/
  frac : Nat := 256
  /-- CHG_STAT.NTC_FAULT (R586). -/
  ntcFault : Bool := false
  /-- CHG_STAT.IOUT (R586). -/
  iout : Byte := 0
  /-- Timers in quarter milliseconds of the run: units of 1/1,024 of 250 ms runs (R566). -/
  preTmr : Nat := 0
  fullTmr : Nat := 0
  /-- Consecutive runs: over-voltage, termination (R563, R564). -/
  ovRuns : Nat := 0
  termRuns : Nat := 0
  deriving DecidableEq, Repr

/-- The retained seal record (R576, R577, R584). -/
structure SealRecord where
  /-- SEAL_STAT.STATE (R584). -/
  state : SealState := .closed
  /-- Stamp of the latest change, SEAL_T0.SEC and SEAL_T1.SEC_HI (R584). -/
  sec : BitVec 40 := 0
  /-- SEAL_T1.FRAC and SEAL_T1.TINV (R584). -/
  frac : BitVec 16 := 0
  /-- SEAL_STAT.CHG_CNT (R584). -/
  chg : Word := 0
  /-- A change that no boot has reported (R577). -/
  unreported : Bool := false
  /-- SEAL_STAT.UNMON (R584). -/
  unmon : Bool := false
  /-- SEAL_STAT.LOST (R584). -/
  lost : Bool := false
  /-- Latest check, for the two consecutive checks of R576. -/
  lastRead : Option SealState := none
  deriving DecidableEq, Repr

/-- The keep-alive domain: everything that a reset leaves alone (R354, R558 to R586). -/
structure KeepAlive where
  /-- The domain has a supply (R354, R557). -/
  powered : Bool := true
  /-- RTC count in 1/32,768 s at `rtcAt`, RTC1.TINV (R559). -/
  rtcBase : Nat := 0
  /-- Time at which the count was `rtcBase` (R559). -/
  rtcAt : Nat := 0
  /-- RTC1.TINV (R559). -/
  tinv : Bool := true
  /-- A setting that the RTC takes at its next tick: the new count, and that instant (R560). -/
  rtcNew : Option (Nat × Nat) := none
  /-- RTC_SET0 (R585). -/
  set0 : Word := 0
  /-- RTC_SET1 (R585). -/
  set1 : Word := 0
  /-- RTC_CAL. -/
  trim : Byte := 0
  /-- KA_STAT (R585). -/
  src : Bool := false
  /-- KA_STAT.ON_CELL (R585). -/
  onCell : Bool := false
  /-- Brumation: the cell path has been opened at the loss of the source (R580). -/
  brum : Bool := false
  /-- KA_STAT.SRC_GOOD (R585). -/
  srcGood : Bool := false
  /-- KA_STAT.RET_OK (R585). -/
  retOk : Bool := false
  /-- The retained SRAM holds contents whose CRC is correct (R558). -/
  retValid : Bool := false
  /-- KA_STAT.ABS_CNT (R585). -/
  absCnt : Nat := 0
  /-- KA_STAT.LAST_ABS (R585). -/
  lastAbs : Nat := 0
  /-- Present source since, latest loss at; an absence is being measured. -/
  srcFrom : Nat := 0
  /-- Latest loss of the source, while an absence is measured (R582). -/
  lossAt : Option Nat := none
  /-- The pending absence in ms; CORE has stayed powered since the loss (R582). -/
  absence : Nat := 0
  /-- CORE has stayed powered since the loss (R582). -/
  coreThrough : Bool := false
  /-- VCELL of the latest run and since when it has been below cut-off (R557). -/
  vcell : BitVec 13 := 0
  /-- KA_MON.NTC (R585). -/
  ntc : BitVec 10 := 0
  /-- KA_MON.TJ (R585). -/
  tj : Int := -64
  /-- VCELL has been below cut-off since (R557). -/
  cutFrom : Option Nat := none
  /-- The cell is cut off (R557). -/
  cellOff : Bool := false
  /-- The charger (R562). -/
  chg : Charger := {}
  /-- The seal record (R576). -/
  sealRec : SealRecord := {}
  /-- Retained SRAM: pending counts P of the spread counters, hour residue in seconds, next journal SEQ, snapshot number (R509, R512, R532, R513). -/
  pend : Vector Nat 73 := Vector.replicate 73 0
  /-- Hour residue, seconds (R512). -/
  hourSec : Nat := 0
  /-- Next journal SEQ; JRN_SEQ.NEXT (R532). -/
  nextSeq : BitVec 24 := 0
  /-- Snapshot number (R513). -/
  snapNo : BitVec 24 := 0
  /-- A snapshot was skipped: event 170 is due at the next boot (R513). -/
  pfSkipped : Bool := false
  /-- Latest reset cause (R361) and the kind of a clock fault (R363). -/
  cause : Nat := 0
  /-- Kind of a clock fault (R363). -/
  clockFault : Option ClockFault := none
  /-- SVC_STAT.KEY (R584). -/
  key : Bool := false
  /-- When SERVICE_N fell (R571). -/
  pressAt : Nat := 0
  /-- CORE was powered when the press began (R572). -/
  pressReady : Bool := false
  /-- End of the arm; SVC_STAT.ARM and SVC_STAT.REMAIN (R572, R584). -/
  armUntil : Option Nat := none
  /-- SVC_STAT.SEAL_ARM (R584). -/
  sealArm : Bool := false
  /-- SVC_STAT.REJ (R584). -/
  rej : Nat := 0
  /-- SVC_STAT.ARM_CNT (R584). -/
  armCnt : Nat := 0
  /-- BRUM_STAT.ARMED (R586). -/
  armed : Bool := false
  /-- BRUM_STAT.ENDED (R586). -/
  ended : Bool := false
  /-- BRUM_STAT.END_CAUSE (R586). -/
  endCause : Nat := 0
  /-- Brumation has ended and the next boot reports it: 1 SERVICE_N, 2 source (R581). -/
  woke : Nat := 0
  /-- When the residue block was last written (R578). -/
  residueAt : Nat := 0
  deriving DecidableEq, Repr

/-- The synchronisation unit (R157, R162, R166, R167). -/
structure Sync where
  /-- Latest edges' time in ticks, and intervals, newest first, at most 8. -/
  lastEdge : Option Nat := none
  /-- Latest intervals in ticks, newest first, at most 8 (R157). -/
  intervals : List Nat := []
  /-- Consecutive edges with an interval in range, and out of range. -/
  good : Nat := 0
  /-- Consecutive edges with an interval out of range (R157). -/
  bad : Nat := 0
  /-- SYNC_STAT.PRESENT (R166). -/
  present : Bool := false
  /-- SYNC_STAT.LOST (R166). -/
  lost : Bool := false
  /-- SYNC_STAT.RANGE (R166). -/
  range : Bool := false
  /-- SYNC_STAT.LOSS_CNT (R166). -/
  lossCnt : Nat := 0
  /-- SYNC_MEAS.PERIOD (R167). -/
  period : Nat := 0
  /-- SYNC_OUT: rise and fall of the latest pulse (R162). -/
  outRise : Option Int := none
  outFall : Option Int := none
  deriving DecidableEq, Repr

/-- The test access port (R599). -/
structure Tap where
  /-- Instruction register (R599). -/
  ins : TapInstruction := .idcode
  /-- RESET_N is low. -/
  resetLow : Bool := false
  deriving DecidableEq, Repr

/-- The whole state of the block. -/
structure State where
  /-- Commands that wait, first in first out. -/
  pending : List Instr := []
  /-- Time, fine steps (the model's own clock, log 2). -/
  now : Nat := 0
  /-- Count of free values drawn (the model's own field, log 14). -/
  free : Nat := 0
  /-- Register words set by the image or the hosts, by address; unlisted reads 0 (R473, R9). -/
  settings : Store 32 := []
  /-- Coefficient words: index 128·k + 8·set + word (R141). -/
  coef : Store 32 := []
  /-- The four temperature tables, 17 breakpoints each, 1/16 °C (R318). -/
  tempTab : Store 16 := []
  /-- Content of the boot-bus EEPROM; an unlisted byte reads 0xFF (R463). -/
  eeprom : Store 8 := []
  /-- The phase tiles (R62). -/
  tiles : Vector Tile 48 := Vector.replicate 48 {}
  /-- The rails with their loop engines (R109). -/
  rails : Vector Rail 8 := Vector.replicate 8 {}
  /-- Device power and domains (R344). -/
  pwr : PowerUnit := {}
  /-- Self-test and scrub (R364). -/
  test : Test := {}
  /-- Operating map memory (R174). -/
  map : MapUnit := {}
  /-- Housekeeping (R316). -/
  hk : Housekeeping := {}
  /-- Telemetry (R375). -/
  tel : Telemetry := {}
  /-- Event system (R383). -/
  ev : Events := {}
  /-- Management bus (R398). -/
  bus : Bus := {}
  /-- Gulsan link (R429). -/
  link : Link := {}
  /-- Image loader (R460). -/
  ldr : Loader := {}
  /-- On-chip NVM (R496). -/
  nvm : Nvm := {}
  /-- Journal ring (R531). -/
  jrn : Journal := {}
  /-- External memory (R534). -/
  xm : Xmem := {}
  /-- Recorder (R541). -/
  rcd : Recorder := {}
  /-- Draw arbiter (R547). -/
  draw : Draw := {}
  /-- Keep-alive domain (R558). -/
  ka : KeepAlive := {}
  /-- Synchronisation unit (R157). -/
  sync : Sync := {}
  /-- Test access port (R599). -/
  tap : Tap := {}
  deriving DecidableEq, Repr

/-- The machine right after reset, before boot: every field at the value of its "After reset" entry, where the manual gives
one, else at the value log 4 names; the keep-alive domain just powered (cause POWER_ON), no image anywhere. -/
def State.reset : State := {}

end Sys2Proof.Machine
end

