-- ==== Sys2Proof/Machine/Arith.lean ====
section
/-! DEFINITION. Numbers, bit fields, sparse stores, checksums and vectors of like units: the plain helpers that the meanings share. -/

namespace Sys2Proof.Machine

/-! ### Bit fields (R3, R4) -/

/-- Field [hi:lo] of a number. -/
def nfld (n hi lo : Nat) : Nat := (n >>> lo) % 2 ^ (hi + 1 - lo)

/-- Field [hi:lo] of a register word, unsigned. -/
def fld (w : Word) (hi lo : Nat) : Nat := nfld w.toNat hi lo

/-- Bit i of a register word. -/
def bitOf (w : Word) (i : Nat) : Bool := w.toNat.testBit i

/-- Two's complement reading of the low `n` bits of a number (R4). -/
def signed (n v : Nat) : Int :=
  if 2 * (v % 2 ^ n) < 2 ^ n then (v % 2 ^ n : Nat) else ((v % 2 ^ n : Nat) : Int) - (2 ^ n : Nat)

/-- Field [hi:lo] of a register word, two's complement (R4). -/
def sfld (w : Word) (hi lo : Nat) : Int := signed (hi + 1 - lo) (fld w hi lo)

/-- The low `n` bits of an integer in two's complement, as a number (R4). -/
def wrap (n : Nat) (v : Int) : Nat := (v % (2 ^ n : Nat)).toNat

/-- A word from a number: its low 32 bits. -/
def word (n : Nat) : Word := BitVec.ofNat 32 n

/-- A number placed at bit lo, at most `width` bits wide. -/
def at_ (v width lo : Nat) : Nat := (v % 2 ^ width) <<< lo

/-- A truth value placed at bit lo. -/
def atB (b : Bool) (lo : Nat) : Nat := if b then 1 <<< lo else 0

/-- An integer placed at bit lo in two's complement of `width` bits. -/
def atI (v : Int) (width lo : Nat) : Nat := wrap width v <<< lo

/-- `old` with the bits of `mask` taken from `new`. -/
def merge (old new mask : Word) : Word := (old &&& ~~~mask) ||| (new &&& mask)

/-! ### Arithmetic of the manual's pseudocode -/

/-- `sat(x, lo, hi)`. -/
def sat (x lo hi : Int) : Int := if x < lo then lo else if hi < x then hi else x

/-- A counter that saturates. -/
def satInc (n top : Nat) : Nat := if n < top then n + 1 else top

/-- `>>` on a signed value: an arithmetic shift. -/
def ashr (x : Int) (n : Nat) : Int := x / (2 ^ n : Nat)

/-- Quotient rounded toward negative infinity. A zero divisor gives a free value (log 9). -/
def quotDown (n d : Int) : Int := if d = 0 then Config.divByZero n else if 0 < d then n / d else (-n) / (-d)

/-- Quotient rounded toward zero. -/
def quotZero (n d : Int) : Int := if d = 0 then Config.divByZero n else n.tdiv d

/-- Quotient rounded up. -/
def quotUp (n d : Int) : Int := if d = 0 then Config.divByZero n else -(quotDown (-n) d)

/-- `round(n / d)`: to the nearest integer; at an exact tie the direction is free (log 7). -/
def roundQ (n d : Int) : Int :=
  if d = 0 then Config.divByZero n
  else
    let n' := if 0 < d then n else -n
    let d' := if 0 < d then d else -d
    let f := n' / d'
    let r := n' - f * d'
    if 2 * r < d' then f
    else if d' < 2 * r then f + 1
    else if Config.tieUp n' d' then f + 1 else f

/-- A quotient whose rounding the manual does not state: down or up, freely (log 8). -/
def quotFree (n d : Int) : Int :=
  if d = 0 then Config.divByZero n
  else
    let f := quotDown n d
    if f * d = n then f else if Config.roundUp n d then f + 1 else f

/-! ### Sparse stores -/

/-- The value at key `k`; `d` where the key is not listed. -/
def Store.get {w : Nat} (d : BitVec w) : Store w → Nat → BitVec w
  | [], _ => d
  | (a, v) :: rest, k => if a = k then v else Store.get d rest k

/-- Every entry but that of key `k`. -/
def Store.erase {w : Nat} : Store w → Nat → Store w
  | [], _ => []
  | (a, v) :: rest, k => if a = k then rest else (a, v) :: Store.erase rest k

/-- The entry (k, v) at its place among rising keys. -/
def Store.put {w : Nat} : Store w → Nat → BitVec w → Store w
  | [], k, v => [(k, v)]
  | (a, u) :: rest, k, v =>
    if k < a then (k, v) :: (a, u) :: rest
    else if k = a then (k, v) :: rest
    else (a, u) :: Store.put rest k v

/-- Write `v` at key `k`, keeping the canonical form: writing what an unlisted key reads as removes the entry. -/
def Store.set {w : Nat} (d : BitVec w) (s : Store w) (k : Nat) (v : BitVec w) : Store w :=
  if v = d then Store.erase s k else Store.put s k v

/-- Every key of the store is above `k`. -/
def Store.above {w : Nat} (k : Nat) : Store w → Bool
  | [] => true
  | (a, _) :: rest => decide (k < a) && Store.above k rest

/-- The canonical form: keys strictly rising, no entry equal to the default. -/
def Store.wf {w : Nat} (d : BitVec w) : Store w → Bool
  | [] => true
  | (a, v) :: rest => decide (v ≠ d) && Store.above a rest && Store.wf d rest

/-- Write consecutive values from key `k`. -/
def Store.setMany {w : Nat} (d : BitVec w) (s : Store w) (k : Nat) : List (BitVec w) → Store w
  | [] => s
  | v :: vs => Store.setMany d (Store.set d s k v) (k + 1) vs

/-- A store of consecutive values from key `k` on, in canonical form. -/
def Store.ofList {w : Nat} (d : BitVec w) (k : Nat) : List (BitVec w) → Store w
  | [] => []
  | v :: vs => if v = d then Store.ofList d (k + 1) vs else (k, v) :: Store.ofList d (k + 1) vs

/-- What an erased or never written byte of a non-volatile memory reads as (log 16). -/
def blank : Byte := 0xFF

/-- `n` bytes of a memory from address `a`. -/
def Store.bytes (s : Store 8) (a : Nat) : Nat → List Byte
  | 0 => []
  | n + 1 => Store.get blank s a :: Store.bytes s (a + 1) n

/-! ### Bytes -/

/-- Most significant byte first: the number that a list of bytes spells. -/
def beNat : List Byte → Nat := fun bs => bs.foldl (fun acc b => acc * 256 + b.toNat) 0

/-- A number as `n` bytes, most significant first. -/
def beBytes (n v : Nat) : List Byte :=
  (List.range n).map fun i => BitVec.ofNat 8 (v >>> (8 * (n - 1 - i)))

/-! ### Checksums -/

/-- One byte of a CRC of width `w`, polynomial `poly`, most significant bit first. -/
def crcByte (w poly : Nat) (crc : Nat) (b : Byte) : Nat :=
  (List.range 8).foldl
    (fun c _ => if c.testBit (w - 1) then ((c <<< 1) ^^^ poly) % 2 ^ w else (c <<< 1) % 2 ^ w)
    (crc ^^^ (b.toNat <<< (w - 8)))

/-- CRC of width `w`, most significant bit first, from the start value. -/
def crc (w poly start : Nat) (bs : List Byte) : Nat := bs.foldl (crcByte w poly) start

/-- One byte of a reflected CRC-32. -/
def crc32Byte (crc : Nat) (b : Byte) : Nat :=
  (List.range 8).foldl
    (fun c _ => if c.testBit 0 then (c >>> 1) ^^^ 0xEDB88320 else c >>> 1)
    (crc ^^^ b.toNat)

/-- Reflected CRC-32, start and final inversion 0xFFFF_FFFF. -/
def crc32 (bs : List Byte) : Nat := (bs.foldl crc32Byte 0xFFFFFFFF) ^^^ 0xFFFFFFFF

/-! ### Vectors of like units -/

/-- Every entry changed by a function of its index. -/
def mapList {α : Type} (f : Nat → α → α) : Nat → List α → List α
  | _, [] => []
  | i, a :: as => f i a :: mapList f (i + 1) as

theorem mapList_length {α : Type} (f : Nat → α → α) (i : Nat) (l : List α) : (mapList f i l).length = l.length := by
  induction l generalizing i with
  | nil => rfl
  | cons a as ih => simp [mapList, ih]

/-- Every entry of a vector changed by a function of its index. -/
def mapVec {α : Type} {n : Nat} (f : Nat → α → α) (v : Vector α n) : Vector α n :=
  ⟨⟨mapList f 0 v.toList⟩, by simp [mapList_length]⟩

/-- One entry of a vector changed. -/
def modVec {α : Type} {n : Nat} (v : Vector α n) (i : Fin n) (f : α → α) : Vector α n := v.set i (f (v.get i))

/-- The indices below n, as Fin. -/
def finList (n : Nat) : List (Fin n) := List.finRange n

/-- The index that a number names, modulo n. -/
def finOf (n : Nat) (h : 0 < n) (i : Nat) : Fin n := ⟨i % n, Nat.mod_lt _ h⟩

/-- Rail index from a number. -/
def railOf (i : Nat) : RailId := finOf 8 (by decide) i

/-- Tile index from a number. -/
def tileOf (i : Nat) : TileId := finOf 48 (by decide) i

/-- Replace the low entries: the first `n` of a list with the new one in front. -/
def pushKeep {α : Type} (n : Nat) (a : α) (l : List α) : List α := (a :: l).take n

end Sys2Proof.Machine
end

