-- ==== Sys2Proof/Machine/RegMap.lean ====
section
/-! DEFINITION. The register address map: every register, its address (R34), and which of its bits carry which access code (R6). -/

namespace Sys2Proof.Machine

/-- Registers of a loop block (R93, R127, R229, R256, R295). -/
inductive LoopReg where
  | state
  | cmd
  | target
  | slew
  | ref
  | ff
  | limit
  | bal
  | cset
  | updStat
  | errmon
  | dcmd
  | tlim
  | ssCfg
  | stopCfg
  | floor
  | track
  | hiccup
  | pgCfg
  | seq
  | pbStat
  | ovCfg
  | uvCfg
  | ocrCfg
  | tdetCfg
  | openCfg
  | hlthCfg
  | respRail
  | respTile
  | thrStat
  | protStat
  | railFault
  | faultCnt
  | leapCfg
  | leapSet (j : Fin 4)
  | leapImax
  | leapStat
  | leapCnt
  | rotCfg
  | syncLoop
  | ilvStat
  | ilvCnt
  | moultCfg
  | moultCtl
  | mapStat
  | moultStat
  | coefIdx
  | coefData
  | snsCfg
  | snsCal
  | snsRatio
  | snsIscale
  | snsVout
  | snsVin
  | snsDac
  | snsStat
  deriving DecidableEq, Repr

/-- Registers of a tile block (R62). -/
inductive TileReg where
  | cfg
  | deadtime
  | minp
  | tblank
  | prd
  | duty
  | dutyShd
  | reloadStat
  | tripStat
  | filterStat
  | carrier
  | phase
  | iavg
  | iedge
  | ical
  | trim
  | oclim
  | healthL
  | healthR
  | healthBand
  | fault
  | req
  | state
  | admission
  deriving DecidableEq, Repr

/-- Every register. -/
inductive Reg where
  | loop (k : RailId) (r : LoopReg)
  | tile (t : TileId) (r : TileReg)
  | ident
  | revision
  | pwrCmd
  | pwrStat
  | domCtl
  | domStat
  | supStat
  | rstStat
  | rstCmd
  | syncCfg
  | syncStat
  | syncMeas
  | pllStat
  | evCfg (i : Fin 64)
  | evLatch (i : Fin 8)
  | evSum
  | evFirst
  | evQstat
  | evDidx
  | evDdata
  | evDcnt
  | svcCfg
  | svcStat
  | svcCtl
  | sealStat
  | sealT0
  | sealT1
  | drawCfg
  | drawCost
  | drawStat
  | drawWait
  | busCfg
  | busStat
  | claim
  | hbA
  | hbB
  | refusedA
  | refusedB
  | errCnt
  | linkCfg
  | linkAuth
  | linkStat
  | linkErr
  | linkCnt
  | linkRail (k : Fin 8)
  | linkLast (k : Fin 8)
  | hkCfg
  | tsdCfg
  | hkStat
  | hkCtl
  | fastList (i : Fin 2)
  | chCfg (c : Fin 36)
  | chData (c : Fin 64)
  | therm (k : Fin 8)
  | telCfg
  | telStat
  | telCtl
  | trVolt (k : Fin 8)
  | trVpeak (k : Fin 8)
  | trCurr (k : Fin 8)
  | trCpeak (k : Fin 8)
  | trPower (k : Fin 8)
  | trPpeak (k : Fin 8)
  | trTemp (k : Fin 8)
  | trWin (k : Fin 8)
  | ttCurr (t : Fin 48)
  | ttCpeak (t : Fin 48)
  | ttTemp (t : Fin 48)
  | lifeEnergy (k : Fin 8)
  | lifeStarts (k : Fin 8)
  | lifeLeaps (k : Fin 8)
  | lifeHours
  | lifeTrips (t : Fin 48)
  | jrnStat
  | jrnCnt
  | jrnSeq
  | jrnHctl
  | jrnHstat
  | jrnE (j : Fin 8)
  | xmCfg
  | xmStat
  | xmJrg
  | xmRrg
  | xmJhead
  | xmIdx
  | xmHstat
  | xmData (i : Fin 16)
  | recCfg
  | recCtl
  | recStat
  | recCnt
  | recLast
  | recBidx
  | recBdata
  | recPost
  | recCh (i : Fin 16)
  | nvmStat
  | nvmCmd
  | nvmHost
  | nvmIdx
  | nvmData
  | nvmQstat
  | nvmCnt
  | nvmRec (r : Fin 8)
  | cntStat (c : Fin 73)
  | bootStat
  | bootGen
  | imgId0
  | imgId1
  | imgCtl
  | imgData
  | imgStat
  | imgProg
  | kaStat
  | rtc0
  | rtc1
  | rtcSet0
  | rtcSet1
  | rtcCal
  | chgCfg
  | chgNtc
  | chgStat
  | chgTmr
  | chgCtl
  | kaMon
  | brumCtl
  | brumStat
  | mapIdx
  | mapData
  | mapEcc
  | mapBad
  | mapRegion (k : Fin 8)
  | mapVbin (k : Fin 8)
  | mapIbin (k : Fin 8)
  | mapTbin (k : Fin 8)
  | bistCmd
  | bistStat
  | scrub
  | eccCnt
  deriving DecidableEq, Repr

/-- The bits of a register under each access code of R6; every other bit is RO or reserved. -/
structure Access where
  img : Nat := 0
  rw : Nat := 0
  rwa : Nat := 0
  w1c : Nat := 0
  rc : Nat := 0
  wo : Nat := 0
  deriving DecidableEq, Repr

/-- Offset of a loop register in its block. -/
def LoopReg.offset : LoopReg → Nat
  | .state => 0x000
  | .cmd => 0x004
  | .target => 0x008
  | .slew => 0x00C
  | .ref => 0x010
  | .ff => 0x014
  | .limit => 0x018
  | .bal => 0x01C
  | .cset => 0x020
  | .updStat => 0x024
  | .errmon => 0x028
  | .dcmd => 0x02C
  | .tlim => 0x030
  | .ssCfg => 0x040
  | .stopCfg => 0x044
  | .floor => 0x048
  | .track => 0x04C
  | .hiccup => 0x050
  | .pgCfg => 0x054
  | .seq => 0x058
  | .pbStat => 0x05C
  | .ovCfg => 0x080
  | .uvCfg => 0x084
  | .ocrCfg => 0x088
  | .tdetCfg => 0x08C
  | .openCfg => 0x090
  | .hlthCfg => 0x094
  | .respRail => 0x098
  | .respTile => 0x09C
  | .thrStat => 0x0A0
  | .protStat => 0x0A4
  | .railFault => 0x0A8
  | .faultCnt => 0x0AC
  | .leapCfg => 0x0C0
  | .leapSet j => 0x0C4 + 4 * j.val
  | .leapImax => 0x0D4
  | .leapStat => 0x0D8
  | .leapCnt => 0x0DC
  | .rotCfg => 0x0E0
  | .syncLoop => 0x0E4
  | .ilvStat => 0x0E8
  | .ilvCnt => 0x0EC
  | .moultCfg => 0x0F0
  | .moultCtl => 0x0F4
  | .mapStat => 0x0F8
  | .moultStat => 0x0FC
  | .coefIdx => 0x100
  | .coefData => 0x104
  | .snsCfg => 0x180
  | .snsCal => 0x184
  | .snsRatio => 0x188
  | .snsIscale => 0x18C
  | .snsVout => 0x190
  | .snsVin => 0x194
  | .snsDac => 0x198
  | .snsStat => 0x19C

/-- Offset of a tile register in its block. -/
def TileReg.offset : TileReg → Nat
  | .cfg => 0x00
  | .deadtime => 0x04
  | .minp => 0x08
  | .tblank => 0x0C
  | .prd => 0x10
  | .duty => 0x14
  | .dutyShd => 0x18
  | .reloadStat => 0x1C
  | .tripStat => 0x20
  | .filterStat => 0x24
  | .carrier => 0x28
  | .phase => 0x2C
  | .iavg => 0x30
  | .iedge => 0x34
  | .ical => 0x38
  | .trim => 0x3C
  | .oclim => 0x40
  | .healthL => 0x44
  | .healthR => 0x48
  | .healthBand => 0x4C
  | .fault => 0x50
  | .req => 0x54
  | .state => 0x58
  | .admission => 0x5C

/-- Address of a register (R34). -/
def Reg.addr : Reg → Nat
  | .loop k r => 0x1000 + 0x200 * k.val + r.offset
  | .tile t r => 0x2000 + 0x80 * t.val + r.offset
  | .ident => 0x0000
  | .revision => 0x0004
  | .pwrCmd => 0x0010
  | .pwrStat => 0x0014
  | .domCtl => 0x0018
  | .domStat => 0x001C
  | .supStat => 0x0020
  | .rstStat => 0x0024
  | .rstCmd => 0x0028
  | .syncCfg => 0x0100
  | .syncStat => 0x0104
  | .syncMeas => 0x0108
  | .pllStat => 0x0180
  | .evCfg i => 0x0200 + 0x4 * i.val
  | .evLatch i => 0x0300 + 0x4 * i.val
  | .evSum => 0x0320
  | .evFirst => 0x0324
  | .evQstat => 0x0328
  | .evDidx => 0x0380
  | .evDdata => 0x0384
  | .evDcnt => 0x0388
  | .svcCfg => 0x0400
  | .svcStat => 0x0404
  | .svcCtl => 0x0408
  | .sealStat => 0x040C
  | .sealT0 => 0x0410
  | .sealT1 => 0x0414
  | .drawCfg => 0x0500
  | .drawCost => 0x0504
  | .drawStat => 0x0508
  | .drawWait => 0x050C
  | .busCfg => 0x0600
  | .busStat => 0x0604
  | .claim => 0x0608
  | .hbA => 0x060C
  | .hbB => 0x0610
  | .refusedA => 0x0614
  | .refusedB => 0x0618
  | .errCnt => 0x061C
  | .linkCfg => 0x0680
  | .linkAuth => 0x0684
  | .linkStat => 0x0688
  | .linkErr => 0x068C
  | .linkCnt => 0x0690
  | .linkRail k => 0x06A0 + 0x4 * k.val
  | .linkLast k => 0x06C0 + 0x4 * k.val
  | .hkCfg => 0x0800
  | .tsdCfg => 0x0804
  | .hkStat => 0x0808
  | .hkCtl => 0x080C
  | .fastList i => 0x0810 + 0x4 * i.val
  | .chCfg c => 0x0900 + 0x4 * c.val
  | .chData c => 0x0A00 + 0x4 * c.val
  | .therm k => 0x0B00 + 0x4 * k.val
  | .telCfg => 0x4000
  | .telStat => 0x4004
  | .telCtl => 0x4008
  | .trVolt k => 0x4100 + 0x20 * k.val
  | .trVpeak k => 0x4104 + 0x20 * k.val
  | .trCurr k => 0x4108 + 0x20 * k.val
  | .trCpeak k => 0x410C + 0x20 * k.val
  | .trPower k => 0x4110 + 0x20 * k.val
  | .trPpeak k => 0x4114 + 0x20 * k.val
  | .trTemp k => 0x4118 + 0x20 * k.val
  | .trWin k => 0x411C + 0x20 * k.val
  | .ttCurr t => 0x4200 + 0x10 * t.val
  | .ttCpeak t => 0x4204 + 0x10 * t.val
  | .ttTemp t => 0x4208 + 0x10 * t.val
  | .lifeEnergy k => 0x4800 + 0x10 * k.val
  | .lifeStarts k => 0x4804 + 0x10 * k.val
  | .lifeLeaps k => 0x4808 + 0x10 * k.val
  | .lifeHours => 0x4880
  | .lifeTrips t => 0x4900 + 0x4 * t.val
  | .jrnStat => 0x5000
  | .jrnCnt => 0x5004
  | .jrnSeq => 0x5008
  | .jrnHctl => 0x500C
  | .jrnHstat => 0x5010
  | .jrnE j => 0x5040 + 0x4 * j.val
  | .xmCfg => 0x5100
  | .xmStat => 0x5104
  | .xmJrg => 0x5108
  | .xmRrg => 0x510C
  | .xmJhead => 0x5110
  | .xmIdx => 0x5114
  | .xmHstat => 0x5118
  | .xmData i => 0x5140 + 0x4 * i.val
  | .recCfg => 0x5200
  | .recCtl => 0x5204
  | .recStat => 0x5208
  | .recCnt => 0x520C
  | .recLast => 0x5210
  | .recBidx => 0x5214
  | .recBdata => 0x5218
  | .recPost => 0x521C
  | .recCh i => 0x5240 + 0x4 * i.val
  | .nvmStat => 0x6000
  | .nvmCmd => 0x6004
  | .nvmHost => 0x6008
  | .nvmIdx => 0x600C
  | .nvmData => 0x6010
  | .nvmQstat => 0x6014
  | .nvmCnt => 0x6018
  | .nvmRec r => 0x6040 + 0x4 * r.val
  | .cntStat c => 0x6100 + 0x4 * c.val
  | .bootStat => 0x6800
  | .bootGen => 0x6804
  | .imgId0 => 0x6808
  | .imgId1 => 0x680C
  | .imgCtl => 0x6810
  | .imgData => 0x6814
  | .imgStat => 0x6818
  | .imgProg => 0x681C
  | .kaStat => 0x7000
  | .rtc0 => 0x7004
  | .rtc1 => 0x7008
  | .rtcSet0 => 0x700C
  | .rtcSet1 => 0x7010
  | .rtcCal => 0x7014
  | .chgCfg => 0x7018
  | .chgNtc => 0x701C
  | .chgStat => 0x7020
  | .chgTmr => 0x7024
  | .chgCtl => 0x7028
  | .kaMon => 0x702C
  | .brumCtl => 0x7030
  | .brumStat => 0x7034
  | .mapIdx => 0x8000
  | .mapData => 0x8004
  | .mapEcc => 0x8008
  | .mapBad => 0x800C
  | .mapRegion k => 0x8040 + 0x10 * k.val
  | .mapVbin k => 0x8044 + 0x10 * k.val
  | .mapIbin k => 0x8048 + 0x10 * k.val
  | .mapTbin k => 0x804C + 0x10 * k.val
  | .bistCmd => 0xF000
  | .bistStat => 0xF004
  | .scrub => 0xF008
  | .eccCnt => 0xF00C

/-- The loop register at an offset. -/
def loopRegAt : Nat → Option LoopReg
  | 0x000 => some .state
  | 0x004 => some .cmd
  | 0x008 => some .target
  | 0x00C => some .slew
  | 0x010 => some .ref
  | 0x014 => some .ff
  | 0x018 => some .limit
  | 0x01C => some .bal
  | 0x020 => some .cset
  | 0x024 => some .updStat
  | 0x028 => some .errmon
  | 0x02C => some .dcmd
  | 0x030 => some .tlim
  | 0x040 => some .ssCfg
  | 0x044 => some .stopCfg
  | 0x048 => some .floor
  | 0x04C => some .track
  | 0x050 => some .hiccup
  | 0x054 => some .pgCfg
  | 0x058 => some .seq
  | 0x05C => some .pbStat
  | 0x080 => some .ovCfg
  | 0x084 => some .uvCfg
  | 0x088 => some .ocrCfg
  | 0x08C => some .tdetCfg
  | 0x090 => some .openCfg
  | 0x094 => some .hlthCfg
  | 0x098 => some .respRail
  | 0x09C => some .respTile
  | 0x0A0 => some .thrStat
  | 0x0A4 => some .protStat
  | 0x0A8 => some .railFault
  | 0x0AC => some .faultCnt
  | 0x0C0 => some .leapCfg
  | 0x0C4 => some (.leapSet 0)
  | 0x0C8 => some (.leapSet 1)
  | 0x0CC => some (.leapSet 2)
  | 0x0D0 => some (.leapSet 3)
  | 0x0D4 => some .leapImax
  | 0x0D8 => some .leapStat
  | 0x0DC => some .leapCnt
  | 0x0E0 => some .rotCfg
  | 0x0E4 => some .syncLoop
  | 0x0E8 => some .ilvStat
  | 0x0EC => some .ilvCnt
  | 0x0F0 => some .moultCfg
  | 0x0F4 => some .moultCtl
  | 0x0F8 => some .mapStat
  | 0x0FC => some .moultStat
  | 0x100 => some .coefIdx
  | 0x104 => some .coefData
  | 0x180 => some .snsCfg
  | 0x184 => some .snsCal
  | 0x188 => some .snsRatio
  | 0x18C => some .snsIscale
  | 0x190 => some .snsVout
  | 0x194 => some .snsVin
  | 0x198 => some .snsDac
  | 0x19C => some .snsStat
  | _ => none

/-- The tile register at an offset. -/
def tileRegAt : Nat → Option TileReg
  | 0x00 => some .cfg
  | 0x04 => some .deadtime
  | 0x08 => some .minp
  | 0x0C => some .tblank
  | 0x10 => some .prd
  | 0x14 => some .duty
  | 0x18 => some .dutyShd
  | 0x1C => some .reloadStat
  | 0x20 => some .tripStat
  | 0x24 => some .filterStat
  | 0x28 => some .carrier
  | 0x2C => some .phase
  | 0x30 => some .iavg
  | 0x34 => some .iedge
  | 0x38 => some .ical
  | 0x3C => some .trim
  | 0x40 => some .oclim
  | 0x44 => some .healthL
  | 0x48 => some .healthR
  | 0x4C => some .healthBand
  | 0x50 => some .fault
  | 0x54 => some .req
  | 0x58 => some .state
  | 0x5C => some .admission
  | _ => none

/-- The registers that exist once, by address. -/
def singleRegAt : Nat → Option Reg
  | 0x0000 => some .ident
  | 0x0004 => some .revision
  | 0x0010 => some .pwrCmd
  | 0x0014 => some .pwrStat
  | 0x0018 => some .domCtl
  | 0x001C => some .domStat
  | 0x0020 => some .supStat
  | 0x0024 => some .rstStat
  | 0x0028 => some .rstCmd
  | 0x0100 => some .syncCfg
  | 0x0104 => some .syncStat
  | 0x0108 => some .syncMeas
  | 0x0180 => some .pllStat
  | 0x0320 => some .evSum
  | 0x0324 => some .evFirst
  | 0x0328 => some .evQstat
  | 0x0380 => some .evDidx
  | 0x0384 => some .evDdata
  | 0x0388 => some .evDcnt
  | 0x0400 => some .svcCfg
  | 0x0404 => some .svcStat
  | 0x0408 => some .svcCtl
  | 0x040C => some .sealStat
  | 0x0410 => some .sealT0
  | 0x0414 => some .sealT1
  | 0x0500 => some .drawCfg
  | 0x0504 => some .drawCost
  | 0x0508 => some .drawStat
  | 0x050C => some .drawWait
  | 0x0600 => some .busCfg
  | 0x0604 => some .busStat
  | 0x0608 => some .claim
  | 0x060C => some .hbA
  | 0x0610 => some .hbB
  | 0x0614 => some .refusedA
  | 0x0618 => some .refusedB
  | 0x061C => some .errCnt
  | 0x0680 => some .linkCfg
  | 0x0684 => some .linkAuth
  | 0x0688 => some .linkStat
  | 0x068C => some .linkErr
  | 0x0690 => some .linkCnt
  | 0x0800 => some .hkCfg
  | 0x0804 => some .tsdCfg
  | 0x0808 => some .hkStat
  | 0x080C => some .hkCtl
  | 0x4000 => some .telCfg
  | 0x4004 => some .telStat
  | 0x4008 => some .telCtl
  | 0x4880 => some .lifeHours
  | 0x5000 => some .jrnStat
  | 0x5004 => some .jrnCnt
  | 0x5008 => some .jrnSeq
  | 0x500C => some .jrnHctl
  | 0x5010 => some .jrnHstat
  | 0x5100 => some .xmCfg
  | 0x5104 => some .xmStat
  | 0x5108 => some .xmJrg
  | 0x510C => some .xmRrg
  | 0x5110 => some .xmJhead
  | 0x5114 => some .xmIdx
  | 0x5118 => some .xmHstat
  | 0x5200 => some .recCfg
  | 0x5204 => some .recCtl
  | 0x5208 => some .recStat
  | 0x520C => some .recCnt
  | 0x5210 => some .recLast
  | 0x5214 => some .recBidx
  | 0x5218 => some .recBdata
  | 0x521C => some .recPost
  | 0x6000 => some .nvmStat
  | 0x6004 => some .nvmCmd
  | 0x6008 => some .nvmHost
  | 0x600C => some .nvmIdx
  | 0x6010 => some .nvmData
  | 0x6014 => some .nvmQstat
  | 0x6018 => some .nvmCnt
  | 0x6800 => some .bootStat
  | 0x6804 => some .bootGen
  | 0x6808 => some .imgId0
  | 0x680C => some .imgId1
  | 0x6810 => some .imgCtl
  | 0x6814 => some .imgData
  | 0x6818 => some .imgStat
  | 0x681C => some .imgProg
  | 0x7000 => some .kaStat
  | 0x7004 => some .rtc0
  | 0x7008 => some .rtc1
  | 0x700C => some .rtcSet0
  | 0x7010 => some .rtcSet1
  | 0x7014 => some .rtcCal
  | 0x7018 => some .chgCfg
  | 0x701C => some .chgNtc
  | 0x7020 => some .chgStat
  | 0x7024 => some .chgTmr
  | 0x7028 => some .chgCtl
  | 0x702C => some .kaMon
  | 0x7030 => some .brumCtl
  | 0x7034 => some .brumStat
  | 0x8000 => some .mapIdx
  | 0x8004 => some .mapData
  | 0x8008 => some .mapEcc
  | 0x800C => some .mapBad
  | 0xF000 => some .bistCmd
  | 0xF004 => some .bistStat
  | 0xF008 => some .scrub
  | 0xF00C => some .eccCnt
  | _ => none

/-- The entry of a register array that starts at `base`, has `n` entries and lies `step` bytes apart. -/
def arrayAt (base step n : Nat) (h : 0 < n) (f : Fin n → Reg) (a : Nat) : Option Reg :=
  if base ≤ a ∧ (a - base) % step = 0 ∧ (a - base) / step < n then some (f (finOf n h ((a - base) / step))) else none

/-- The array registers, by address. -/
def arrayRegAt (a : Nat) : Option Reg :=
  arrayAt 0x0200 0x4 64 (by decide) .evCfg a
  <|> arrayAt 0x0300 0x4 8 (by decide) .evLatch a
  <|> arrayAt 0x06A0 0x4 8 (by decide) .linkRail a
  <|> arrayAt 0x06C0 0x4 8 (by decide) .linkLast a
  <|> arrayAt 0x0810 0x4 2 (by decide) .fastList a
  <|> arrayAt 0x0900 0x4 36 (by decide) .chCfg a
  <|> arrayAt 0x0A00 0x4 64 (by decide) .chData a
  <|> arrayAt 0x0B00 0x4 8 (by decide) .therm a
  <|> arrayAt 0x4100 0x20 8 (by decide) .trVolt a
  <|> arrayAt 0x4104 0x20 8 (by decide) .trVpeak a
  <|> arrayAt 0x4108 0x20 8 (by decide) .trCurr a
  <|> arrayAt 0x410C 0x20 8 (by decide) .trCpeak a
  <|> arrayAt 0x4110 0x20 8 (by decide) .trPower a
  <|> arrayAt 0x4114 0x20 8 (by decide) .trPpeak a
  <|> arrayAt 0x4118 0x20 8 (by decide) .trTemp a
  <|> arrayAt 0x411C 0x20 8 (by decide) .trWin a
  <|> arrayAt 0x4200 0x10 48 (by decide) .ttCurr a
  <|> arrayAt 0x4204 0x10 48 (by decide) .ttCpeak a
  <|> arrayAt 0x4208 0x10 48 (by decide) .ttTemp a
  <|> arrayAt 0x4800 0x10 8 (by decide) .lifeEnergy a
  <|> arrayAt 0x4804 0x10 8 (by decide) .lifeStarts a
  <|> arrayAt 0x4808 0x10 8 (by decide) .lifeLeaps a
  <|> arrayAt 0x4900 0x4 48 (by decide) .lifeTrips a
  <|> arrayAt 0x5040 0x4 8 (by decide) .jrnE a
  <|> arrayAt 0x5140 0x4 16 (by decide) .xmData a
  <|> arrayAt 0x5240 0x4 16 (by decide) .recCh a
  <|> arrayAt 0x6040 0x4 8 (by decide) .nvmRec a
  <|> arrayAt 0x6100 0x4 73 (by decide) .cntStat a
  <|> arrayAt 0x8040 0x10 8 (by decide) .mapRegion a
  <|> arrayAt 0x8044 0x10 8 (by decide) .mapVbin a
  <|> arrayAt 0x8048 0x10 8 (by decide) .mapIbin a
  <|> arrayAt 0x804C 0x10 8 (by decide) .mapTbin a

/-- The register at an address; none where the address is unmapped (R34, R35). -/
def decodeAddr (a : Nat) : Option Reg :=
  if a % 4 ≠ 0 then none
  else if 0x1000 ≤ a ∧ a < 0x2000 then (loopRegAt ((a - 0x1000) % 0x200)).map (.loop (railOf ((a - 0x1000) / 0x200)))
  else if 0x2000 ≤ a ∧ a < 0x3800 then (tileRegAt ((a - 0x2000) % 0x80)).map (.tile (tileOf ((a - 0x2000) / 0x80)))
  else match singleRegAt a with
    | some r => some r
    | none => arrayRegAt a

/-- Access codes of the loop registers, by their field tables. -/
def LoopReg.access : LoopReg → Access
  | .cmd => { rw := 0x3, wo := 0x10 }
  | .target => { rw := 0xFFFF }
  | .slew => { img := 0xFFFFFF }
  | .ff => { img := 0x1FFFF }
  | .limit => { img := 0xFFFFFFFF }
  | .bal => { img := 0xFFFFFFFF }
  | .cset => { rw := 0x1F0000 }
  | .updStat => { rc := 0xFF00FFFF, w1c := 0x60000 }
  | .tlim => { img := 0xFFFFFFFF }
  | .ssCfg => { img := 0x3FFFFFF }
  | .stopCfg => { img := 0xFFFFFF }
  | .floor => { img := 0xFFFF }
  | .track => { img := 0xFFFFFFFF }
  | .hiccup => { img := 0xFFFFFF }
  | .pgCfg => { img := 0xFFFF0FFF }
  | .seq => { img := 0xFFFF0FF7 }
  | .ovCfg => { img := 0xFFFFFFFF }
  | .uvCfg => { img := 0xFFFFFF }
  | .ocrCfg => { img := 0xFFFFFFFF }
  | .tdetCfg => { img := 0xFFFFFFFF }
  | .openCfg => { img := 0xFFFFFFFF }
  | .hlthCfg => { img := 0xFFFF00FF }
  | .respRail => { img := 0xFFFFF }
  | .respTile => { img := 0xFFFFF }
  | .railFault => { w1c := 0x7F, rwa := 0x80000000 }
  | .faultCnt => { rc := 0xFFFFFFFF }
  | .leapCfg => { img := 0xFFFF3FF7 }
  | .leapSet _ => { img := 0x3FFFFFFF }
  | .leapImax => { img := 0xFFFFFFFF }
  | .leapStat => { w1c := 0x4000000 }
  | .leapCnt => { rc := 0xFFFFFFFF }
  | .rotCfg => { img := 0xFFFF }
  | .syncLoop => { img := 0xFFF003F }
  | .ilvCnt => { rc := 0xFFFFFF }
  | .moultCfg => { img := 0x7FFFFFFF }
  | .moultCtl => { img := 0xFFFF, rw := 0x7F0000 }
  | .moultStat => { rc := 0xFFFF0000 }
  | .coefIdx => { rw := 0x1F7 }
  | .coefData => { img := 0xFFFFFF }
  | .snsCfg => { img := 0x3FFF }
  | .snsCal => { rwa := 0xFFFF0FFF }
  | .snsRatio => { img := 0xFFFFFFFF }
  | .snsIscale => { img := 0x1FFFF }
  | .snsStat => { w1c := 0x3F, wo := 0x80000000 }
  | .state | .ref | .errmon | .dcmd | .pbStat | .thrStat | .protStat | .ilvStat | .mapStat | .snsVout | .snsVin | .snsDac => {}

/-- Access codes of the tile registers, by their field tables. -/
def TileReg.access : TileReg → Access
  | .cfg => { img := 0xFF }
  | .deadtime => { img := 0xFFF0FFF }
  | .minp => { img := 0xFFF }
  | .tblank => { img := 0x3FF }
  | .reloadStat => { rc := 0xFFFF, w1c := 0x10000 }
  | .tripStat => { rc := 0xFFFF, w1c := 0x10000 }
  | .filterStat => { rc := 0xFFFFFFFF }
  | .ical => { rwa := 0xFFFFFFFF }
  | .oclim => { img := 0xFFFFFFFF }
  | .healthL => { img := 0xFFFF0000 }
  | .healthR => { img := 0xFFFF0000 }
  | .healthBand => { img := 0xFFFF }
  | .fault => { w1c := 0xFF, rwa := 0x8000, rc := 0xFFFF0000 }
  | .req => { rc := 0xFF00 }
  | .admission => { wo := 0x3FFFF }
  | .prd | .duty | .dutyShd | .carrier | .phase | .iavg | .iedge | .trim | .state => {}

/-- Access codes of every register, by the field tables. The RC fields of JRN_E and XM_DATA are those of the last register. -/
def Reg.access : Reg → Access
  | .loop _ r => r.access
  | .tile _ r => r.access
  | .pwrCmd => { wo := 0x7 }
  | .domCtl => { rw := 0x3F }
  | .supStat => { w1c := 0x6, rc := 0xFF00 }
  | .rstCmd => { wo := 0xFF }
  | .syncCfg => { img := 0xFFFFF1F }
  | .syncStat => { w1c := 0x6, rc := 0xFF00 }
  | .evCfg _ => { img := 0xFFFFFFFF }
  | .evLatch _ => { w1c := 0xFFFFFFFF }
  | .evQstat => { rc := 0xFF0000, w1c := 0x1000000 }
  | .evDidx => { rw := 0x1FF }
  | .evDcnt => { rc := 0xFFFF }
  | .svcCfg => { img := 0x7FF }
  | .svcStat => { rc := 0xFF00 }
  | .svcCtl => { wo := 0x1 }
  | .sealStat => { w1c := 0xC }
  | .drawCfg => { img := 0xFFFFFFFF }
  | .drawCost => { img := 0xFFFFFFFF }
  | .drawWait => { rc := 0xFFFF0000 }
  | .busCfg => { img := 0xFFFF0008 }
  | .busStat => { w1c := 0x1E }
  | .claim => { wo := 0x300, rc := 0xFF0000 }
  | .hbA => { rw := 0xFF }
  | .hbB => { rw := 0xFF }
  | .refusedA => { rc := 0xFFFFFFFF }
  | .refusedB => { rc := 0xFFFFFFFF }
  | .errCnt => { rc := 0xFFFFFFFF }
  | .linkCfg => { img := 0xFFFFFF01 }
  | .linkAuth => { rw := 0xFF }
  | .linkErr => { rc := 0xFFFFFFFF }
  | .linkCnt => { rc := 0xFFFFFFFF }
  | .linkRail _ => { img := 0xFFFFFFFF }
  | .hkCfg => { img := 0x3FFFFF }
  | .tsdCfg => { img := 0xFF3F }
  | .hkStat => { w1c := 0xA00000 }
  | .hkCtl => { wo := 0x1 }
  | .chCfg _ => { img := 0xFFFFFFF }
  | .telCfg => { img := 0xFF }
  | .telStat => { rc := 0xFF0000 }
  | .telCtl => { wo := 0x1 }
  | .trVpeak _ => { rc := 0xFFFFFFFF }
  | .trCpeak _ => { rc := 0xFFFFFF }
  | .trPpeak _ => { rc := 0xFFFFFFFF }
  | .trTemp _ => { rc := 0xFFFF0000 }
  | .ttCpeak _ => { rc := 0xFFFFFFFF }
  | .ttTemp _ => { rc := 0xFFFF0000 }
  | .jrnStat => { w1c := 0x40000 }
  | .jrnCnt => { rc := 0xFFFFFF }
  | .jrnHctl => { wo := 0x3 }
  | .jrnHstat => { rc := 0xFFFF0000 }
  | .jrnE j => if j = 7 then { rc := 0xFFFFFFFF } else {}
  | .xmCfg => { img := 0x3 }
  | .xmStat => { w1c := 0x20, rc := 0xFF0000 }
  | .xmJrg => { img := 0x3FFF3FFF }
  | .xmRrg => { img := 0x3FFF3FFF }
  | .xmIdx => { rw := 0x3FFFFFF }
  | .xmData i => if i = 15 then { rc := 0xFFFFFFFF } else {}
  | .recCfg => { img := 0xFFFFFF7F }
  | .recCtl => { wo := 0xF }
  | .recCnt => { rc := 0xFFFFFFFF }
  | .recBidx => { rw := 0xFFFF }
  | .recPost => { img := 0xFFFFFF }
  | .recCh _ => { img := 0x3FF03FF }
  | .nvmStat => { w1c := 0x6 }
  | .nvmCmd => { wo := 0x77 }
  | .nvmIdx => { rw := 0x1FF003F }
  | .nvmData => { rw := 0xFFFFFFFF }
  | .nvmQstat => { rc := 0xFF00 }
  | .nvmCnt => { rc := 0xFFFFFFFF }
  | .bootStat => { rwa := 0x80 }
  | .imgCtl => { rwa := 0xFFFF0003 }
  | .imgData => { rwa := 0xFFFFFFFF }
  | .kaStat => { rc := 0xFF00 }
  | .rtcSet0 => { rw := 0xFFFFFFFF }
  | .rtcSet1 => { rw := 0xFF, wo := 0x80000000 }
  | .rtcCal => { rwa := 0xFF }
  | .chgCfg => { img := 0x1FF }
  | .chgNtc => { img := 0x3FF03FF }
  | .chgCtl => { wo := 0x1 }
  | .brumCtl => { rwa := 0x1, wo := 0x2 }
  | .brumStat => { w1c := 0x2 }
  | .mapIdx => { rw := 0x17FFF }
  | .mapData => { img := 0xFFFFFFFF }
  | .mapEcc => { rc := 0xFFFFFF, w1c := 0x3000000 }
  | .mapRegion _ => { img := 0xFFFFFFF }
  | .mapVbin _ => { img := 0xFFFFFFFF }
  | .mapIbin _ => { img := 0xFFFFFFFF }
  | .mapTbin _ => { img := 0xFFFFFF }
  | .bistCmd => { wo := 0x1 }
  | .bistStat => { w1c := 0x2, rc := 0xFFFF0000 }
  | .scrub => { img := 0xFF }
  | .eccCnt => { rc := 0xFFFFFFFF }
  | .ident | .revision | .pwrStat | .domStat | .rstStat | .syncMeas | .pllStat | .evSum => {}
  | .evFirst | .evDdata | .sealT0 | .sealT1 | .drawStat | .linkStat | .linkLast _ | .fastList _ => {}
  | .chData _ | .therm _ | .trVolt _ | .trCurr _ | .trPower _ | .trWin _ | .ttCurr _ | .lifeEnergy _ => {}
  | .lifeStarts _ | .lifeLeaps _ | .lifeHours | .lifeTrips _ | .jrnSeq | .xmJhead | .xmHstat | .recStat => {}
  | .recLast | .recBdata | .nvmHost | .nvmRec _ | .cntStat _ | .bootGen | .imgId0 | .imgId1 => {}
  | .imgStat | .imgProg | .rtc0 | .rtc1 | .chgStat | .chgTmr | .kaMon | .mapBad => {}

end Sys2Proof.Machine
end

