-- ==== Sys2Proof/Machine/Operands.lean ====
section
/-! DEFINITION. The settings: named fields of the register words that the image and the hosts set (R9, R473). -/

namespace Sys2Proof.Machine

/-- The setting word of a register; 0 where nothing set it. -/
def setWord (s : State) (r : Reg) : Word := Store.get 0 s.settings r.addr

/-- The setting word of loop k. -/
def loopW (s : State) (k : RailId) (r : LoopReg) : Word := setWord s (.loop k r)

/-- The setting word of tile t. -/
def tileW (s : State) (t : TileId) (r : TileReg) : Word := setWord s (.tile t r)

/-- `s` with a register's setting word replaced. -/
def putWord (s : State) (r : Reg) (w : Word) : State := { s with settings := Store.set 0 s.settings r.addr w }

/-! ### Tile settings (R63 to R66, R104, R308 to R311). CFG, DEADTIME, MINP and TBLANK act as taken at the tile's valley (R55). -/

/-- CFG.RELOAD: valleys. -/
def reloadValley (ti : Tile) : Bool := fld ti.cfgNow 1 0 == 1 || fld ti.cfgNow 1 0 == 3
/-- CFG.RELOAD: peaks. -/
def reloadPeak (ti : Tile) : Bool := fld ti.cfgNow 1 0 == 2 || fld ti.cfgNow 1 0 == 3

/-- CFG.MINP_MODE (R49). -/
inductive MinpMode where
  | drop | stretch | split
  deriving DecidableEq, Repr

def minpMode (ti : Tile) : MinpMode :=
  match fld ti.cfgNow 3 2 with
  | 1 => .stretch
  | 2 => .split
  | _ => .drop

def tripEn (ti : Tile) : Bool := bitOf ti.cfgNow 4
/-- CFG.TRIP_POL: the level at which the trip input is active. -/
def tripPol (ti : Tile) : Bool := bitOf ti.cfgNow 5
/-- CFG.TRIP_MODE: true latched. -/
def tripLatched (ti : Tile) : Bool := bitOf ti.cfgNow 6
/-- CFG.TRIP_LS. -/
def tripLs (ti : Tile) : Bool := bitOf ti.cfgNow 7
def dtr (ti : Tile) : Int := fld ti.deadNow 11 0
def dtf (ti : Tile) : Int := fld ti.deadNow 27 16
def minp (ti : Tile) : Int := fld ti.minpNow 11 0
/-- TBLANK, ticks. -/
def tblank (ti : Tile) : Int := fld ti.blankNow 9 0
def icalOffset (s : State) (t : TileId) : Int := fld (tileW s t .ical) 15 0
def icalGain (s : State) (t : TileId) : Int := fld (tileW s t .ical) 31 16
def ocHi (s : State) (t : TileId) : Int := sfld (tileW s t .oclim) 15 0
def ocLo (s : State) (t : TileId) : Int := sfld (tileW s t .oclim) 31 16
def lNom (s : State) (t : TileId) : Nat := fld (tileW s t .healthL) 31 16
def rNom (s : State) (t : TileId) : Nat := fld (tileW s t .healthR) 31 16
def lBand (s : State) (t : TileId) : Nat := fld (tileW s t .healthBand) 7 0
def rBand (s : State) (t : TileId) : Nat := fld (tileW s t .healthBand) 15 8

/-! ### Sense settings (R94 to R97) -/

/-- D = 2^DECIM. -/
def decimN (s : State) (k : RailId) : Nat := 2 ^ fld (loopW s k .snsCfg) 2 0
def azStart (s : State) (k : RailId) : Bool := bitOf (loopW s k .snsCfg) 3
def vinTc (s : State) (k : RailId) : Nat := fld (loopW s k .snsCfg) 7 4
/-- ESKEW, ticks. -/
def eskew (s : State) (k : RailId) : Int := fld (loopW s k .snsCfg) 13 8
def calOffset (s : State) (k : RailId) : Int := sfld (loopW s k .snsCal) 11 0
def calGain (s : State) (k : RailId) : Int := fld (loopW s k .snsCal) 31 16
def senseRatio (s : State) (k : RailId) : Int := fld (loopW s k .snsRatio) 15 0
def vinRatio (s : State) (k : RailId) : Int := fld (loopW s k .snsRatio) 31 16
/-- RT, mV/A with 8 fraction bits. -/
def rtScale (s : State) (k : RailId) : Int := fld (loopW s k .snsIscale) 15 0
def unidir (s : State) (k : RailId) : Bool := bitOf (loopW s k .snsIscale) 16

/-! ### Loop settings (R128 to R141) -/

def target (s : State) (k : RailId) : Nat := fld (loopW s k .target) 15 0
def slewRate (s : State) (k : RailId) : Nat := fld (loopW s k .slew) 23 0
def vnom (s : State) (k : RailId) : Int := fld (loopW s k .ff) 15 0
def ffEn (s : State) (k : RailId) : Bool := bitOf (loopW s k .ff) 16
def dmin (s : State) (k : RailId) : Int := fld (loopW s k .limit) 15 0
def dmax (s : State) (k : RailId) : Int := fld (loopW s k .limit) 31 16
def kb (s : State) (k : RailId) : Int := fld (loopW s k .bal) 15 0
def trimMax (s : State) (k : RailId) : Int := fld (loopW s k .bal) 30 16
def balEn (s : State) (k : RailId) : Bool := bitOf (loopW s k .bal) 31
def forceSet (s : State) (k : RailId) : Nat := fld (loopW s k .cset) 19 16
def forceCset (s : State) (k : RailId) : Bool := bitOf (loopW s k .cset) 20
def tMin (s : State) (k : RailId) : Nat := fld (loopW s k .tlim) 15 0
def tMax (s : State) (k : RailId) : Nat := fld (loopW s k .tlim) 31 16

/-- Key of a coefficient word in `State.coef`. -/
def coefKey (k : RailId) (set word : Nat) : Nat := 128 * k.val + 8 * (set % 16) + word % 8

/-- Coefficient word (R141). -/
def coefWord (s : State) (k : RailId) (set word : Nat) : Word := Store.get 0 s.coef (coefKey k set word)

/-- Bcode_i (i = 0 to 3) or A_{i-3} (i = 4 to 6) of a set, 24-bit two's complement. -/
def coefI (s : State) (k : RailId) (set i : Nat) : Int := sfld (coefWord s k set i) 23 0

/-- BSHIFT of a set. -/
def bshift (s : State) (k : RailId) (set : Nat) : Nat := fld (coefWord s k set 7) 3 0

/-- A set is valid for switch-over (R121). -/
def setValid (s : State) (k : RailId) (set : Nat) : Bool :=
  decide (2097152 + coefI s k set 4 + coefI s k set 5 + coefI s k set 6 = 0) && decide (fld (coefWord s k set 7) 23 0 ≤ 14)

/-! ### Interleave and synchronisation settings (R165, R168, R169) -/

def siEn (s : State) : Bool := bitOf (setWord s .syncCfg) 0
def soEn (s : State) : Bool := bitOf (setWord s .syncCfg) 1
def soRail (s : State) : RailId := railOf (fld (setWord s .syncCfg) 4 2)
def soWidth (s : State) : Int := fld (setWord s .syncCfg) 15 8
def soPhase (s : State) : Int := fld (setWord s .syncCfg) 27 16
def rotInt (s : State) (k : RailId) : Nat := fld (loopW s k .rotCfg) 15 0
def lockEn (s : State) (k : RailId) : Bool := bitOf (loopW s k .syncLoop) 0
def syncMult (s : State) (k : RailId) : Nat := fld (loopW s k .syncLoop) 5 1
def syncOfs (s : State) (k : RailId) : Int := fld (loopW s k .syncLoop) 27 16

/-! ### Map and Moult settings (R177, R178, R203 to R208) -/

/-- PRD of frequency code f of rail k (R177). -/
def prdOf (s : State) (k : RailId) (f : Nat) : Nat := fld (Store.get 0 s.map.mem (0x4000 + 16 * k.val + f % 16)) 15 0
/-- Safe entry of rail k (R177). -/
def safeEntry (s : State) (k : RailId) : Word := Store.get 0 s.map.mem (0x4080 + k.val)
def entNt (w : Word) : Nat := fld w 5 0
def entFcode (w : Word) : Nat := fld w 9 6
def entCset (w : Word) : Nat := fld w 13 10
def entLset (w : Word) : Nat := fld w 15 14
def entIlscale (w : Word) : Nat := fld w 23 16
def rgBase (s : State) (k : RailId) : Nat := fld (setWord s (.mapRegion k)) 13 0
def rgNv (s : State) (k : RailId) : Nat := fld (setWord s (.mapRegion k)) 17 14 + 1
def rgNi (s : State) (k : RailId) : Nat := fld (setWord s (.mapRegion k)) 23 18 + 1
def rgNt (s : State) (k : RailId) : Nat := fld (setWord s (.mapRegion k)) 26 24 + 1
def rgEn (s : State) (k : RailId) : Bool := bitOf (setWord s (.mapRegion k)) 27
def addDwell (s : State) (k : RailId) : Nat := fld (loopW s k .moultCfg) 7 0
def shedDwell (s : State) (k : RailId) : Nat := fld (loopW s k .moultCfg) 23 8
def nMin (s : State) (k : RailId) : Nat := fld (loopW s k .moultCfg) 29 24
def moultEn (s : State) (k : RailId) : Bool := bitOf (loopW s k .moultCfg) 30
def readyT (s : State) (k : RailId) : Nat := fld (loopW s k .moultCtl) 15 0
def forceN (s : State) (k : RailId) : Nat := fld (loopW s k .moultCtl) 21 16
def forceMoult (s : State) (k : RailId) : Bool := bitOf (loopW s k .moultCtl) 22

/-! ### Leap settings (R230 to R232) -/

def leapEn (s : State) (k : RailId) : Bool := bitOf (loopW s k .leapCfg) 0
def lbEn (s : State) (k : RailId) : Bool := bitOf (loopW s k .leapCfg) 1
def estEn (s : State) (k : RailId) : Bool := bitOf (loopW s k .leapCfg) 2
/-- TMAX in ticks: steps of 100 ns are 60 ticks. -/
def leapTmax (s : State) (k : RailId) : Int := 60 * fld (loopW s k .leapCfg) 13 4
/-- HOLDOFF in ticks. -/
def leapHoldoff (s : State) (k : RailId) : Int := 60 * fld (loopW s k .leapCfg) 31 16
def leapV (s : State) (k : RailId) (j : Nat) : Int := fld (loopW s k (.leapSet (finOf 4 (by decide) j))) 8 0
def leapS (s : State) (k : RailId) (j : Nat) : Int := fld (loopW s k (.leapSet (finOf 4 (by decide) j))) 20 9
def relV (s : State) (k : RailId) (j : Nat) : Int := fld (loopW s k (.leapSet (finOf 4 (by decide) j))) 29 21
def leapImax (s : State) (k : RailId) : Int := sfld (loopW s k .leapImax) 15 0
def lbFloor (s : State) (k : RailId) : Int := sfld (loopW s k .leapImax) 31 16

/-! ### Start and stop settings (R258 to R265) -/

/-- CMD.REQ is ON. -/
def reqOn (s : State) (k : RailId) : Bool := fld (loopW s k .cmd) 1 0 == 1
def ssSlew (s : State) (k : RailId) : Nat := fld (loopW s k .ssCfg) 23 0
def pbDisch (s : State) (k : RailId) : Bool := bitOf (loopW s k .ssCfg) 24
def deEnd (s : State) (k : RailId) : Bool := bitOf (loopW s k .ssCfg) 25
def stopSlew (s : State) (k : RailId) : Nat := fld (loopW s k .stopCfg) 23 0
def stopFloor (s : State) (k : RailId) : Nat := fld (loopW s k .floor) 15 0
def trackWin (s : State) (k : RailId) : Int := fld (loopW s k .track) 15 0
/-- TRACK_T, µs. -/
def trackT (s : State) (k : RailId) : Nat := fld (loopW s k .track) 31 16
/-- HICCUP_T, ms. -/
def hiccupT (s : State) (k : RailId) : Nat := fld (loopW s k .hiccup) 15 0
def retryN (s : State) (k : RailId) : Nat := fld (loopW s k .hiccup) 23 16
def pgWin (s : State) (k : RailId) : Int := fld (loopW s k .pgCfg) 11 0
/-- PG_DLY, 10 µs. -/
def pgDly (s : State) (k : RailId) : Nat := fld (loopW s k .pgCfg) 23 16
def pgFilt (s : State) (k : RailId) : Nat := fld (loopW s k .pgCfg) 31 24
def lenEn (s : State) (k : RailId) : Bool := bitOf (loopW s k .seq) 0
def lenPol (s : State) (k : RailId) : Bool := bitOf (loopW s k .seq) 1
/-- LEN_MODE: true stops at once. -/
def lenMode (s : State) (k : RailId) : Bool := bitOf (loopW s k .seq) 2
def startDep (s : State) (k : RailId) : RailId := railOf (fld (loopW s k .seq) 6 4)
def sdepEn (s : State) (k : RailId) : Bool := bitOf (loopW s k .seq) 7
def stopDep (s : State) (k : RailId) : RailId := railOf (fld (loopW s k .seq) 10 8)
def tdepEn (s : State) (k : RailId) : Bool := bitOf (loopW s k .seq) 11
/-- SEQ_DLY, 10 µs. -/
def seqDly (s : State) (k : RailId) : Nat := fld (loopW s k .seq) 31 16

/-! ### Protection settings (R296 to R303) -/

def ovLvl (s : State) (k : RailId) : Nat := fld (loopW s k .ovCfg) 15 0
def ovN (s : State) (k : RailId) : Nat := fld (loopW s k .ovCfg) 23 16
def wsN (s : State) (k : RailId) : Nat := fld (loopW s k .ovCfg) 31 24
def uvWin (s : State) (k : RailId) : Int := fld (loopW s k .uvCfg) 15 0
def uvN (s : State) (k : RailId) : Nat := fld (loopW s k .uvCfg) 23 16
def ilim (s : State) (k : RailId) : Nat := fld (loopW s k .ocrCfg) 15 0
def ocrN (s : State) (k : RailId) : Nat := fld (loopW s k .ocrCfg) 23 16
def thrStep (s : State) (k : RailId) : Int := fld (loopW s k .ocrCfg) 31 24
def ocN (s : State) (k : RailId) : Nat := fld (loopW s k .tdetCfg) 3 0
def tripN (s : State) (k : RailId) : Nat := fld (loopW s k .tdetCfg) 11 4
def sfN (s : State) (k : RailId) : Nat := fld (loopW s k .tdetCfg) 19 12
/-- RIP_MIN in IC units: 4 a step. -/
def ripMin (s : State) (k : RailId) : Int := 4 * fld (loopW s k .tdetCfg) 31 20
def openI (s : State) (k : RailId) : Int := fld (loopW s k .openCfg) 15 0
def openMean (s : State) (k : RailId) : Int := fld (loopW s k .openCfg) 31 16
def lTc (s : State) (k : RailId) : Nat := fld (loopW s k .hlthCfg) 3 0
def rTc (s : State) (k : RailId) : Nat := fld (loopW s k .hlthCfg) 7 4
def rmeasI (s : State) (k : RailId) : Int := fld (loopW s k .hlthCfg) 31 16

/-- Response code of source i of a response register (R302, R303). -/
def respCode (w : Word) (i : Nat) : Nat := fld w (4 * i + 2) (4 * i)
/-- Class bit of source i of a response register. -/
def respClass (w : Word) (i : Nat) : Bool := bitOf w (4 * i + 3)

/-! ### Events (R383, R395) -/

/-- The configuration byte of source e. -/
def evByte (s : State) (e : Nat) : Nat :=
  let w := setWord s (.evCfg (finOf 64 (by decide) (e / 4)))
  fld w (8 * (e % 4) + 7) (8 * (e % 4))
def evEn (s : State) (e : Nat) : Bool := (evByte s e).testBit 0
def evLatchEn (s : State) (e : Nat) : Bool := (evByte s e).testBit 1
def evAlert (s : State) (e : Nat) : Bool := (evByte s e).testBit 2
def evJrnl (s : State) (e : Nat) : Bool := (evByte s e).testBit 3
def evRec (s : State) (e : Nat) : Bool := (evByte s e).testBit 4
def evResp (s : State) (e : Nat) : Nat := evByte s e / 32

end Sys2Proof.Machine
end

