-- ==== Sys2Proof/Machine/Flags.lean ====
section
/-! DEFINITION. What the state shows without being stored: times, tile sets, output levels, status bits and pin levels. -/

namespace Sys2Proof.Machine

/-! ### Times. One fine step is 1/9,600 µs (R10). -/

/-- Fine steps in a number of µs. -/
def us (n : Nat) : Nat := 9600 * n
/-- Fine steps in a number of ms. -/
def ms (n : Nat) : Nat := 9600000 * n
/-- Fine steps in a number of seconds. -/
def secs (n : Nat) : Nat := 9600000000 * n
/-- Fine steps in a number of ticks. -/
def ticks (n : Int) : Int := 16 * n
/-- The housekeeping cycle of the present instant: 128 fine steps each (R10). -/
def cycleOf (s : State) : Nat := s.now / 128

/-- The RTC's settings after those that its latest tick has taken (R560): the count, the instant at which it was that, and TINV. -/
def rtcTaken (s : State) : Nat × Nat × Bool :=
  match s.ka.rtcNew with
  | some (base, at') => if at' ≤ s.now then (base, at', false) else (s.ka.rtcBase, s.ka.rtcAt, s.ka.tinv)
  | none => (s.ka.rtcBase, s.ka.rtcAt, s.ka.tinv)
/-- RTC1.TINV. -/
def rtcInvalid (s : State) : Bool := (rtcTaken s).2.2

/-- RTC count in 1/32,768 s (R559), crystal at its nominal rate against `now`. -/
def rtcCount (s : State) : Nat := (rtcTaken s).1 + (s.now - (rtcTaken s).2.1) * 32768 / secs 1
/-- RTC seconds, 40 bits. -/
def rtcSec (s : State) : BitVec 40 := BitVec.ofNat 40 (rtcCount s / 32768)
/-- FRAC of a stamp: TINV and the fraction of the second (R527). -/
def rtcFrac (s : State) : BitVec 16 := BitVec.ofNat 16 (rtcCount s % 32768 + atB (rtcInvalid s) 15)
/-- The stamp of the present cycle: seconds, then TINV and fraction, 56 bits (R527). -/
def rtcStamp (s : State) : BitVec 56 := BitVec.ofNat 56 ((rtcSec s).toNat * 65536 + (rtcFrac s).toNat)

/-- RTC1 as it stands. -/
def rtc1Word (s : State) : Word :=
  word (((rtcSec s).toNat >>> 32) + at_ (rtcCount s % 32768) 15 8 + atB (rtcInvalid s) 31)

/-- Entries in the event queue; a record of an RTC setting that is still to be taken is none yet (R396, R560). -/
def queueFill (s : State) : Nat := (s.ev.queue.filter fun q => decide (q.cyc ≤ cycleOf s)).length

/-! ### Units and their parts -/

def State.tile (s : State) (t : TileId) : Tile := s.tiles.get t
def State.rail (s : State) (k : RailId) : Rail := s.rails.get k

/-- Every tile index. -/
def allTiles : List TileId := finList 48
/-- Every rail index. -/
def allRails : List RailId := finList 8

/-- The tiles that the image assigns to rail k, ascending: its rotation list (R147). -/
def tilesOf (s : State) (k : RailId) : List TileId := allTiles.filter fun t => (s.tile t).rail == some k

/-- Bank of a tile: twelve tiles each. -/
def bankOf (t : TileId) : BankId := finOf 4 (by decide) (t.val / 12)
/-- Stage port of a tile (R5). -/
def portOf (t : TileId) : PortId := finOf 24 (by decide) (t.val / 2)
/-- The tiles of a bank. -/
def bankTiles (b : BankId) : List TileId := allTiles.filter fun t => bankOf t == b

/-- The bank of tile t is powered (R24, R370). -/
def bankOn (s : State) (t : TileId) : Bool := s.pwr.banks.getLsbD (bankOf t).val
/-- The loop group domain of rail k is powered: LGA for 0 to 3, LGB for 4 to 7 (R24). -/
def groupOn (s : State) (k : RailId) : Bool := if k.val < 4 then s.pwr.lga else s.pwr.lgb

/-- The keep-alive domain has its power. -/
def kaOn (s : State) : Bool := s.pwr.phase != .brumation && s.pwr.phase != .unpowered && !s.ka.brum
/-- A part of the device has power: the keep-alive domain, or the rest of it on its way into Brumation (R580). -/
def deviceOn (s : State) : Bool := s.pwr.phase != .brumation && s.pwr.phase != .unpowered
/-- CORE is powered and out of reset. -/
def coreOn (s : State) : Bool := s.pwr.phase == .up || s.pwr.phase == .safeIdle

/-! ### Tile sets of a rail -/

def isActive (ti : Tile) : Bool := ti.act == .active
def isFadingOut (ti : Tile) : Bool := match ti.fade with | .fadeOut _ _ => true | _ => false
def isFadingIn (ti : Tile) : Bool := match ti.fade with | .fadeIn _ => true | _ => false
def isFading (ti : Tile) : Bool := ti.fade != .none

/-- QA: tiles assigned (R276). -/
def qaOf (s : State) (k : RailId) : Nat := (tilesOf s k).length
/-- Q: assigned tiles neither DROPPED nor EXCLUDED (R276). -/
def qOf (s : State) (k : RailId) : Nat :=
  ((tilesOf s k).filter fun t => (s.tile t).act != .dropped && (s.tile t).act != .excluded).length
/-- N: ACTIVE tiles that hold a slot (R144). -/
def nOf (s : State) (k : RailId) : Nat :=
  ((tilesOf s k).filter fun t => isActive (s.tile t) && (s.tile t).slot.isSome).length
/-- A: ACTIVE or READY, or COLD in a powered bank (R185). -/
def aOf (s : State) (k : RailId) : Nat :=
  ((tilesOf s k).filter fun t =>
    let ti := s.tile t
    ti.act == .active || ti.act == .ready || (ti.act == .cold && bankOn s t)).length
/-- M: ACTIVE tiles not fading out, and the tile of a decided add (R186). -/
def mOf (s : State) (k : RailId) : Nat :=
  ((tilesOf s k).filter fun t => isActive (s.tile t) && !isFadingOut (s.tile t)).length
    + (match (s.rail k).ilv.adding with
       | some t => if isActive (s.tile t) then 0 else 1
       | none => 0)

/-- The tile in slot n of rail k. -/
def tileInSlot (s : State) (k : RailId) (n : Nat) : Option TileId := (tilesOf s k).find? fun t => (s.tile t).slot == some n

/-- IAVG.RANGE: one of the latest four raw samples read 0 or 4,095 (R86). -/
def iRange (ti : Tile) : Bool := ti.sen.raws.any fun r => r == 0 || r == 4095

/-- Counted for balance (R116). -/
def counted (ti : Tile) : Bool := isActive ti && !isFading ti && ti.sen.valid && !iRange ti
def countedTiles (s : State) (k : RailId) : List TileId := (tilesOf s k).filter fun t => counted (s.tile t)
/-- Mean ITILE of the counted tiles, rounded toward zero; 0 without any (R116). -/
def meanNow (s : State) (k : RailId) : Int :=
  let l := countedTiles s k
  if l = [] then 0 else (l.foldl (fun a t => a + (s.tile t).sen.itile) 0).tdiv l.length

/-- IMEAN as it was formed at the latest valley of a counted tile (R116). -/
def imean (s : State) (k : RailId) : Int := (s.rail k).eng.imean

/-- A Leap or Leap-back of the rail is in progress (R186). -/
def leapActive (s : State) (k : RailId) : Bool := (s.rail k).leap.state == .leap || (s.rail k).leap.state == .leapBack
/-- Tiles under the present Leap or Leap-back. -/
def underTiles (s : State) (k : RailId) : List TileId := (tilesOf s k).filter fun t => (s.tile t).leap.under

/-- LEAP_STAT.STATE: 0 IDLE, 1 ARMED, 2 LEAP, 3 LEAP-BACK, 4 HOLDOFF (R233); ARMED while the conditions of R211 or R226 hold. -/
def leapStateCode (s : State) (k : RailId) : Nat :=
  match (s.rail k).leap.state with
  | .leap => 2
  | .leapBack => 3
  | .holdoff => 4
  | .idle =>
    if (leapEn s k || lbEn s k) && ((s.rail k).seq.state == .regulate || (s.rail k).seq.state == .slew) then 1 else 0

/-- States in which a rail runs: SOFTSTART, REGULATE, SLEW, STOPPING. -/
def switching (st : RailState) : Bool := st == .softstart || st == .regulate || st == .slew || st == .stopping
/-- REGULATE or SLEW. -/
def steady (st : RailState) : Bool := st == .regulate || st == .slew
/-- OFF, SAFE or HICCUP. -/
def railOut (st : RailState) : Bool := st == .off || st == .safe || st == .hiccup
def railSt (s : State) (k : RailId) : RailState := (s.rail k).seq.state

/-- STATE.STATE (R235). -/
def railCode : RailState → Nat
  | .off => 0 | .prepare => 1 | .softstart => 2 | .regulate => 3
  | .slew => 4 | .stopping => 5 | .safe => 6 | .hiccup => 7

/-- STATE.ACT (R314). -/
def actCode : TileAct → Nat
  | .cold => 0 | .ready => 1 | .active => 2 | .dropped => 3 | .excluded => 4

/-- The rail throttles: DTHR < DMAX (R278); not before the rail has first left OFF, which sets DTHR (R309 gives 0 after reset). -/
def throttles (s : State) (k : RailId) : Bool := (s.rail k).prot.dthrSet && decide (((s.rail k).prot.dthr : Int) < dmax s k)

/-- REF.REF: the reference rounded to a rail code (R125). -/
def refCode (s : State) (k : RailId) : Nat := ((s.rail k).eng.ref + 0x8000) / 65536

/-- Effective Moult target T (R185). -/
def moultNt (s : State) (k : RailId) : Nat :=
  if forceMoult s k then forceN s k
  else if !moultEn s k then qaOf s k
  else entNt (s.rail k).mo.entry
def moultTgt (s : State) (k : RailId) : Nat := min (max (moultNt s k) (nMin s k)) (aOf s k)

/-- A tile of the rail fades out for Moult or, as in a shed, for a host exclusion (R189, R293, log 154). -/
def shedFading (s : State) (k : RailId) : Bool :=
  (tilesOf s k).any fun t => match (s.tile t).fade with
    | .fadeOut _ .ready => true
    | .fadeOut _ .hostOut => true
    | _ => false

/-- An add or shed is in progress: from its decision to the end of its re-spacing glide (R187). -/
def changeBusy (s : State) (k : RailId) : Bool :=
  let i := (s.rail k).ilv
  i.adding.isSome || shedFading s k || i.respaceDue || i.glide == .respace

/-- MOULT_STAT.BUSY: an add or a shed is in progress, not only the re-spacing after another loss of a tile (R187, R210). -/
def moultBusy (s : State) (k : RailId) : Bool := (s.rail k).ilv.change && changeBusy s k

/-- Rail k is busy (R187): with an add or shed, or during any other glide. -/
def railBusy (s : State) (k : RailId) : Bool := changeBusy s k || (s.rail k).ilv.glide != .none

/-! ### Tile outputs (R50, R56) -/

/-- The level of an output at time x. -/
def Wave.at (w : Wave) (x : Int) : Bool := match w.find? fun p => decide (p.1 ≤ x) with | some p => p.2 | none => false

/-- The output has level b from n on: what was settled for later is not made. -/
def Wave.hold (w : Wave) (n : Int) (b : Bool) : Wave :=
  let w' := w.filter fun p => decide (p.1 < n)
  if Wave.at w' n = b then w' else (n, b) :: w'

/-- The level from x on is b until the next change; nothing else moves. -/
def Wave.put (w : Wave) (x : Int) (b : Bool) : Wave :=
  (w.filter fun p => decide (x < p.1)) ++ (x, b) :: (w.filter fun p => decide (p.1 < x))

/-- The pulse that is on just before n ends at n; one that is settled after it stays. -/
def Wave.endPulse (w : Wave) (n : Int) : Wave :=
  ((w.filter fun p => decide (n ≤ p.1)).reverse.dropWhile fun p => !p.2).reverse ++ Wave.hold w n false

/-- What has been settled up to x. -/
def Wave.upTo (w : Wave) (x : Int) : Wave := w.filter fun p => decide (p.1 ≤ x)

/-- The instants at which the level changes, latest first, each with the level it changes to. -/
def Wave.edges : Wave → Wave
  | [] => []
  | p :: w => if p.2 = (match w with | q :: _ => q.2 | [] => false) then Wave.edges w else p :: Wave.edges w

/-- The latest change to level b by x. -/
def Wave.last (w : Wave) (b : Bool) (x : Int) : Option Int :=
  ((Wave.edges w).find? fun p => p.2 == b && decide (p.1 ≤ x)).map (·.1)

/-- Without what lies before x, but for the level that it leaves: TBLANK and the dead times reach no further back than 20,000 fine steps. -/
def Wave.trim (w : Wave) (x : Int) : Wave :=
  (w.filter fun p => decide (x < p.1)) ++ ((w.filter fun p => decide (p.1 ≤ x)).take 1)

/-- Time with the output on from a to b, fine steps. -/
def Wave.onTime : Wave → Int → Int → Int
  | [], _, _ => 0
  | p :: w, a, b => (if p.2 then max 0 (b - max a p.1) else 0) + Wave.onTime w a (min b p.1)

/-- The high side is on at time x. -/
def highAt (e : Edges) (x : Int) : Bool := Wave.at e.hi x

/-- The low side is on at time x. -/
def lowAt (e : Edges) (x : Int) : Bool := Wave.at e.lo x

/-- An edge of either output lies in a tick from `a` to `b` (R58). -/
def Edges.edgeIn (e : Edges) (a b : Int) : Bool :=
  (Wave.edges e.hi ++ Wave.edges e.lo).any fun p => decide (a ≤ p.1 / 16) && decide (p.1 / 16 ≤ b)

/-- What lies far back is forgotten (R46, R58). -/
def Edges.record (e : Edges) (x : Int) : Edges := { e with hi := Wave.trim e.hi (x - 20000), lo := Wave.trim e.lo (x - 20000) }

/-- The present instant as a signed time. -/
def nowI (s : State) : Int := s.now
/-- Output Hx of tile t; low in reset and during boot. -/
def outHigh (s : State) (t : TileId) : Bool := s.pwr.phase == .up && highAt (s.tile t).edg (nowI s)
/-- Output Lx of tile t. -/
def outLow (s : State) (t : TileId) : Bool := s.pwr.phase == .up && lowAt (s.tile t).edg (nowI s)

/-- REF as it stood at the instant `x`, as far back as the samples of one conversion reach (R245, R274). -/
def refAt (s : State) (k : RailId) (x : Int) : Nat :=
  match (s.rail k).fe.refs.find? fun p => decide (p.1 ≤ x) with
  | some p => p.2
  | none => refCode s k

/-- The conversion instant of the output-sense conversion whose result is available now: 48 ticks back (R80). -/
def convAt (s : State) : Int := nowI s - 768

/-! ### Faults and pins -/

/-- A class bit of rail k or of one of its tiles is set (R271). -/
def railClassSet (s : State) (k : RailId) : Bool :=
  (s.rail k).prot.cls != 0 || (tilesOf s k).any fun t => (s.tile t).prot.cls != 0

/-- Some class bit is set anywhere. -/
def anyClass (s : State) : Bool :=
  allRails.any (fun k => (s.rail k).prot.cls != 0) || allTiles.any (fun t => (s.tile t).prot.cls != 0) || s.ldr.classChg

/-- Level of FAULT_N: low while a class bit is set or a rail is in SAFE, in reset, during boot and in SAFE-IDLE (R271, R29, R478). -/
def faultN (s : State) : Bool :=
  s.pwr.phase == .up && !(anyClass s || allRails.any fun k => railSt s k == .safe)

/-- Sources that hold ALERT_N low (R385). -/
def alertSrc (s : State) (e : Nat) : Bool :=
  evLatchEn s e && evAlert s e && (s.ev.src.get (finOf 256 (by decide) e)).latch

/-- Some source holds ALERT_N low. -/
def alerts (s : State) : Bool := (List.range 256).any (alertSrc s)

/-- Level of ALERT_N: true released (R385), not before the cycle after the last such source; held low in SAFE-IDLE (R478). -/
def alertN (s : State) : Bool :=
  !(s.pwr.phase == .safeIdle || (s.pwr.phase == .up && (alerts s || s.ev.alertCyc == some (cycleOf s))))

/-- A service arm is open (R572). -/
def armOpen (s : State) : Bool := s.ka.armUntil.isSome

/-- Command authority over rail k is LINK (R446). -/
def linkFbEn (s : State) (k : RailId) : Bool := bitOf (setWord s .linkCfg) (8 + k.val)
def linkAuth (s : State) (k : RailId) : Bool :=
  bitOf (setWord s .linkAuth) k.val || (linkFbEn s k && s.link.fallback)

end Sys2Proof.Machine
end

