-- ==== Sys2Proof/Machine/Ops.lean ====
section
/-! DEFINITION. The operations that the meanings share: changing one unit, raising an event, the NVM queue and the draw
arbiter's waiting list, a rail's entry to OFF, SAFE or HICCUP, and a tile's leaving its set. -/

namespace Sys2Proof.Machine

/-- The device is still in reset: a source is active, or has cleared less than 100 µs ago (R361). -/
def inReset (s : State) : Bool := s.pwr.phase == .inReset && (s.tap.resetLow || decide (s.now < s.pwr.outAt))

/-- The end of boot step 1 has passed: the supplies and the clock stand, in boot from that instant and with CORE powered (R29, R351).
It comes at most 1.0 ms after the reset has been left (R30; log 144). -/
def pastStep1 (s : State) : Bool :=
  coreOn s || (s.pwr.phase == .inReset && !s.tap.resetLow && decide (s.pwr.outAt + min (Config.bootStep1 s.pwr.outAt) (ms 1) ≤ s.now))

/-! ### Changing one unit -/

def State.modTile (s : State) (t : TileId) (f : Tile → Tile) : State := { s with tiles := modVec s.tiles t f }
def State.modRail (s : State) (k : RailId) (f : Rail → Rail) : State := { s with rails := modVec s.rails k f }
def State.mapTiles (s : State) (f : TileId → Tile → Tile) : State :=
  { s with tiles := mapVec (fun i ti => f (tileOf i) ti) s.tiles }
def State.mapRails (s : State) (f : RailId → Rail → Rail) : State :=
  { s with rails := mapVec (fun i r => f (railOf i) r) s.rails }
def State.modFe (s : State) (k : RailId) (f : FrontEnd → FrontEnd) : State := s.modRail k fun r => { r with fe := f r.fe }
def State.modEng (s : State) (k : RailId) (f : Engine → Engine) : State := s.modRail k fun r => { r with eng := f r.eng }
def State.modSeq (s : State) (k : RailId) (f : Sequencer → Sequencer) : State := s.modRail k fun r => { r with seq := f r.seq }
def State.modIlv (s : State) (k : RailId) (f : Interleave → Interleave) : State := s.modRail k fun r => { r with ilv := f r.ilv }
def State.modMo (s : State) (k : RailId) (f : Moult → Moult) : State := s.modRail k fun r => { r with mo := f r.mo }
def State.modProt (s : State) (k : RailId) (f : RailProt → RailProt) : State := s.modRail k fun r => { r with prot := f r.prot }
def State.modLeap (s : State) (k : RailId) (f : LeapUnit → LeapUnit) : State := s.modRail k fun r => { r with leap := f r.leap }

/-- Change the tiles of rail k. -/
def State.modTilesOf (s : State) (k : RailId) (f : Tile → Tile) : State :=
  { s with tiles := mapVec (fun _ ti => if ti.rail == some k then f ti else ti) s.tiles }

/-- Time moves on to instant x, never back (log 2). -/
def State.advance (s : State) (x : Int) : State := { s with now := max s.now x.toNat }

/-- An empty queue: one tick of 16 fine steps passes and nothing else changes (log 2). -/
def idle (s : State) : State := { s with now := s.now + 16 }

/-- Take a free value and move on to the next (log 14). -/
def State.drawFree (s : State) : Nat × State := (Config.freeNat s.free, { s with free := s.free + 1 })

/-- One refused write counted against a host (R7). -/
def HostRegs.refuse (h : HostRegs) : HostRegs := { h with refCnt := satInc h.refCnt 65535 }
/-- The registers of a host (R416). -/
def State.host (s : State) (h : HostId) : HostRegs := match h with | .a => s.bus.hostA | .b => s.bus.hostB
def State.modHost (s : State) (h : HostId) (f : HostRegs → HostRegs) : State :=
  match h with
  | .a => { s with bus := { s.bus with hostA := f s.bus.hostA } }
  | .b => { s with bus := { s.bus with hostB := f s.bus.hostB } }
/-- One refused write is counted (R7); nothing else changes. -/
def refuse (h : HostId) (s : State) : State := s.modHost h HostRegs.refuse

/-- The charger carries current in this state. -/
def chgDraws (st : ChargerState) : Bool := st == .precond || st == .charge

/-- The charger's current is stopped: it delivers none, and it is paused where it charges or waits to (R566, R586). -/
def Charger.pause (c : Charger) : Charger :=
  { c with paused := chgDraws c.state || c.state == .wait, cv := false, iout := 0 }

/-! ### The draw arbiter's waiting list (R547) -/

/-- Rank of a request (R547). -/
def drawRank : DrawUser → Nat
  | .bank _ => 1 | .nvmCritical => 2 | .autozero _ => 3 | .nvm => 4
  | .xmJournal => 5 | .xmPrefetch | .xmRecorder | .xmImage => 6 | .bist => 7 | .charger => 8

def leaveWaits (s : State) (u : DrawUser) : Bool := s.draw.waiting.any fun r => r.user == u
/-- A grant for `u` is held. -/
def leaveHeld (s : State) (u : DrawUser) : Bool := s.draw.active.any fun g => g.user == u

/-- Ask for leave, unless `u` asks already. -/
def askLeave (u : DrawUser) (s : State) : State :=
  if leaveWaits s u then s
  else { s with draw := { s.draw with waiting := s.draw.waiting ++ [{ user := u, since := s.now, long := false }] } }
/-- Requests of `u` that wait, and grants that it holds. -/
def leaveWaiting (s : State) (u : DrawUser) : Nat := (s.draw.waiting.filter fun r => r.user == u).length
def leaveGrants (s : State) (u : DrawUser) : Nat := (s.draw.active.filter fun g => g.user == u).length

/-- A user of several bursts asks until `n` requests of it wait (R547). -/
def askLeaves (u : DrawUser) (n : Nat) (s : State) : State :=
  { s with draw := { s.draw with
      waiting := s.draw.waiting ++ List.replicate (n - leaveWaiting s u) { user := u, since := s.now, long := false } } }
/-- Withdraw a waiting request. -/
def dropLeave (u : DrawUser) (s : State) : State :=
  { s with draw := { s.draw with waiting := s.draw.waiting.filter fun r => r.user != u } }

/-- The list without the first element that meets `p`. -/
def eraseFirst {α : Type} (p : α → Bool) : List α → List α
  | [] => []
  | a :: as => if p a then as else a :: eraseFirst p as

/-- Release a grant (R547). -/
def releaseLeave (u : DrawUser) (s : State) : State :=
  { s with draw := { s.draw with active := eraseFirst (fun g => g.user == u) s.draw.active } }

/-! ### The NVM queue (R499, R500) -/

/-- A request for the FSUM record is critical (R499). -/
def jobCritical (j : NvmJob) : Bool := match j with | .record 1 _ => true | _ => false

/-- The next request: a host command, a critical request, the oldest remaining one (R500). -/
def nextJob (n : Nvm) : Option NvmJob :=
  match n.hostJob with
  | some j => some j
  | none =>
    match n.queue.find? jobCritical with
    | some j => some j
    | none => n.queue.head?

/-- The NVM holds leave, at either rank. -/
def nvmLeave (s : State) : Bool := leaveHeld s .nvmCritical || leaveHeld s .nvm

/-- While no operation runs and a request waits, the NVM asks for leave at the rank of its next request (R497, R547). -/
def nvmAsk (s : State) : State :=
  if s.nvm.op.isSome || nvmLeave s then s
  else
    match nextJob s.nvm with
    | none => dropLeave .nvm (dropLeave .nvmCritical s)
    | some j =>
      if s.nvm.hostJob.isNone && jobCritical j then askLeave .nvmCritical (dropLeave .nvm s)
      else askLeave .nvm (dropLeave .nvmCritical s)

/-- Requests in the queue, a waiting host command among them. -/
def nvmFill (n : Nvm) : Nat := n.queue.length + (if n.hostJob.isSome then 1 else 0)

/-- The record whose copy is page p, but for the keep-alive records, which a refresh treats by pages (R515). -/
def recOfPage (p : Nat) : Option Nat :=
  if p < 32 then none
  else if p < 38 then some ((p - 32) / 2)
  else if p < 46 then some ((p - 38) / 2 + 3)
  else if 64 ≤ p ∧ p < 210 then some ((p - 64) / 2 + 8)
  else none

/-- The record that a waiting request writes: a refresh of one of its copies and the first step of a carry, which writes HIGH, among them
(R499, R510, R515). -/
def jobRecord (j : NvmJob) : Option Nat :=
  match j with
  | .record r _ => some r
  | .refresh p => recOfPage p
  | .counter c 1 => some (8 + c)
  | _ => none

/-- What a waiting request is once a further one for the same record has merged into it: the write of the newest data (R499). -/
def jobMerged (old new : NvmJob) : NvmJob :=
  match old, new with
  | _, .refresh _ => old
  | .counter _ _, _ => old
  | _, _ => new

/-- The page of a refresh that merges with a request of another kind or page. -/
def mergedPage (old new : NvmJob) : List Nat :=
  match old, new with
  | _, .refresh p => [p]
  | .refresh p, _ => [p]
  | _, _ => []

/-- Queue a request: merged with an equal one, and with one that writes the same record (log 181); a critical request replaces the oldest non-critical
one of a full queue; a record write refused by a full queue is asked again 100 ms later (R499). -/
def nvmRequest (j : NvmJob) (s : State) : State :=
  if s.nvm.queue.contains j then s
  else if let some old := s.nvm.queue.find? fun x => (jobRecord j).isSome && jobRecord x == jobRecord j then
    nvmAsk { s with nvm := { s.nvm with queue := s.nvm.queue.map fun x => if x = old then jobMerged old j else x
                                        merged := s.nvm.merged ++ mergedPage old j } }
  else if nvmFill s.nvm < 16 then nvmAsk { s with nvm := { s.nvm with queue := s.nvm.queue ++ [j] } }
  else
    let n := { s.nvm with fullCnt := satInc s.nvm.fullCnt 255 }
    if jobCritical j then
      let gone := (n.queue.find? fun x => !jobCritical x).bind jobRecord
      nvmAsk { s with nvm := { n with queue := eraseFirst (fun x => !jobCritical x) n.queue ++ [j]
                                      merged := n.merged.filter fun p => recOfPage p != gone } }
    else
      match j with
      | .record r _ => { s with nvm := { n with retries := n.retries ++ [(r, s.now)] } }
      | _ => { s with nvm := n }

/-- The fault summary is written at every change of a class bit (R507). -/
def fsumChanged (s : State) : State := nvmRequest (.record 1 false) s

/-- An increment of lifetime counter c (R381, R509). -/
def lifeInc (c : Fin 73) (s : State) : State := { s with ka := { s.ka with pend := modVec s.ka.pend c (· + 1) } }

/-! ### Details (R388) -/

def tileDetail (s : State) (t : TileId) (cause : Nat) (dropped : Bool) : Word :=
  let ti := s.tile t
  word (cause + at_ (match ti.rail with | some k => k.val | none => 0) 3 8 + atB dropped 11 + ti.gen.toNat * 65536)

def loopDetail (s : State) (k : RailId) (cause : Nat) : Word :=
  word (cause + at_ (railCode (railSt s k)) 4 8 + at_ (s.rail k).fe.vout 16 16)

/-! ### The event queue (R26, R27, R384) -/

/-- Entry q goes before entry x: it is of an earlier cycle than the take of an RTC setting that x records (R560), or both are of one cycle
and q has the lower source number (R26). Entries that boot recovers from a fault page, which bring their own SEQ, keep the order in
which they are entered (R514). -/
def goesBefore (q x : QueueEntry) : Bool :=
  decide (q.cyc < x.cyc)
    || (x.cyc == q.cyc && !x.settled && !x.record && !q.record && x.seq.isNone && q.seq.isNone && decide (q.id < x.id))

/-- Place an entry in the order of the queue. -/
def placeEntry (q : QueueEntry) : List QueueEntry → List QueueEntry
  | [] => [q]
  | x :: xs => if goesBefore q x then q :: x :: xs else x :: placeEntry q xs

/-- An entry enters the queue, or is discarded where the queue holds 512 (R27). -/
def enqueue (q : QueueEntry) (s : State) : State :=
  if 512 ≤ s.ev.queue.length then
    { s with ev := { s.ev with ovfCnt := satInc s.ev.ovfCnt 255, ovf := true, lossNext := true } }
  else
    { s with ev := { s.ev with queue := placeEntry { q with loss := q.loss || s.ev.lossNext } s.ev.queue, lossNext := false } }

/-- An entry stamped at the present cycle. -/
def entryNow (s : State) (id : Nat) (detail : Word) (cls record : Bool) (host : Option HostId) : QueueEntry :=
  { id := id, detail := detail, cyc := cycleOf s, sec := rtcSec s, frac := rtcFrac s, cls := cls, record := record, host := host,
    loss := false, corrupt := false, snap := false, seq := none, snapBytes := none }

/-- A record entry: written whatever EV_CFG holds (R529). -/
def recordEntry (code : Nat) (detail : Word) (h : HostId) (s : State) : State :=
  enqueue (entryNow s code detail false true (some h)) s

/-- A later cycle begins within one command: the words of a transaction fall into cycles of their own (R26, R383, R403). -/
def laterCycle (s : State) : State :=
  { s with ev := { s.ev with src := mapVec (fun _ x => { x with cycle := none, jrnCycle := none }) s.ev.src
                             queue := s.ev.queue.map fun q => { q with settled := true } }
           tiles := mapVec (fun _ ti => { ti with was := none }) s.tiles
           rails := mapVec (fun _ r => { r with was := none }) s.rails }

/-! ### The recorder's trigger (R542 to R544) -/

def recNch (s : State) : Nat := fld (setWord s .recCfg) 5 0
def recAuto (s : State) : Bool := bitOf (setWord s .recCfg) 6
def recDiv (s : State) : Nat := fld (setWord s .recCfg) 15 8
def recPre (s : State) : Nat := fld (setWord s .recCfg) 31 16
def recPost (s : State) : Nat := fld (setWord s .recPost) 23 0
/-- Base and size in bytes of the recorder region (R535, R553). -/
def recBase (s : State) : Nat := 4096 * fld (setWord s .xmRrg) 13 0
def recSize (s : State) : Nat := 4096 * fld (setWord s .xmRrg) 29 16

/-- Descriptor word of channel i: index and kind. -/
def recDesc (s : State) (i : Nat) : Nat := fld (setWord s (.recCh (finOf 16 (by decide) (i / 2)))) (16 * (i % 2) + 9) (16 * (i % 2))

/-- The header as first written: completion fields blank (R544). -/
def recHeader (s : State) (r : Recorder) : List Byte :=
  [0x5A, 0x52, 0x45, 0x43] ++ beBytes 4 r.num ++ beBytes 7 r.trigStamp.toNat
    ++ [BitVec.ofNat 8 (atB r.trigHost 7), BitVec.ofNat 8 r.trigSrc, BitVec.ofNat 8 (recNch s), BitVec.ofNat 8 (recDiv s), 0xFF]
    ++ beBytes 4 r.preTaken ++ List.replicate 8 0xFF ++ List.replicate 32 0x00
    ++ (List.range 32).flatMap fun i => if i < recNch s then beBytes 2 (recDesc s i) else [0x00, 0x00]

/-- Largest possible capture in bytes (R544). -/
def recLargest (s : State) : Nat := 128 + 2 * recNch s * (recPre s + recPost s)

/-- A trigger in ARMED begins a capture; in any other state it counts as missed (R542). -/
def startCapture (e : Nat) (host : Bool) (s : State) : State :=
  let r := s.rcd
  let off := (r.nextOff + 4095) / 4096 * 4096
  let off := if recSize s < off + recLargest s then 0 else off
  let r := { r with
    state := .capture, trunc := false, corrupt := false, num := r.num + 1, preTaken := r.pre.length, postTaken := 0, ending := false
    trigSrc := if host then 0 else e, trigHost := host, trigStamp := rtcStamp s, base := off, written := 0, erasedTo := 0 }
  { s with rcd := { r with buffer := recHeader s r ++ r.pre.flatten, pre := [] } }

/-! ### Events (R383 to R387) -/

/-- How an operation raises an event: source and detail. -/
abbrev Raise := Nat → Word → State → State

/-- Sources that are always journaled (R383), beside class faults. -/
def alwaysJournaled (e : Nat) : Bool :=
  e == 132 || e == 133 || e == 134 || e == 148 || e == 167 || e == 192 || e == 193 || e == 195

/-- Detail, count and latch of an occurrence (R384 steps 1 and 2). -/
def latchSrc (e : Nat) (detail : Word) (s : State) : State :=
  { s with ev := { s.ev with src := modVec s.ev.src (finOf 256 (by decide) e) fun x =>
      { x with detail := detail, count := satInc x.count 65535, latch := x.latch || evLatchEn s e } } }

/-- The cycle of the latest occurrence. -/
def markSrc (e : Nat) (s : State) : State :=
  { s with ev := { s.ev with src := modVec s.ev.src (finOf 256 (by decide) e) fun x => { x with cycle := some (cycleOf s) } } }

/-- The cycle of the latest occurrence that went to the journal. -/
def markJrn (e : Nat) (s : State) : State :=
  { s with ev := { s.ev with src := modVec s.ev.src (finOf 256 (by decide) e) fun x => { x with jrnCycle := some (cycleOf s) } } }

/-- The source has occurred in the present cycle: a further occurrence counts as the same (R383). -/
def occurredNow (s : State) (e : Nat) : Bool := (s.ev.src.get (finOf 256 (by decide) e)).cycle == some (cycleOf s)

/-! ### Rails: PGOOD, settle watches, leaving -/

/-- PGOODk changes level; the start dependencies on it begin or lose their wait (R252, R255). Asserting it again changes nothing. -/
def setPgood (k : RailId) (b : Bool) (s : State) : State :=
  s.mapRails fun j r =>
    let r := if j = k then { r with seq := { r.seq with pgood := b, pgoodAt := if b && !r.seq.pgood then s.now else r.seq.pgoodAt } } else r
    if sdepEn s j && startDep s j == k then
      if b then (if r.seq.depFrom.isSome then r else { r with seq := { r.seq with depFrom := some s.now } })
      else { r with seq := { r.seq with depFrom := none, depMet := false } }
    else r

/-- A SETTLED frame enters its queue of 16; the oldest is discarded where it is full (R444). -/
def pushSettled (raise : Raise) (f : LinkFrame) (s : State) : State :=
  match s.link.settled with
  | o :: rest =>
    if 16 ≤ s.link.settled.length then
      raise 151 (word (at_ o.rail.val 3 0 + o.seq.toNat * 256))
        { s with link := { s.link with settled := rest ++ [f], sovfCnt := satInc s.link.sovfCnt 255 } }
    else { s with link := { s.link with settled := s.link.settled ++ [f] } }
  | [] => { s with link := { s.link with settled := [f] } }

/-- SETTLED of a watch (R445). -/
def settledFrame (k : RailId) (w : Watch) (flags : BitVec 5) (value : BitVec 16) : LinkFrame :=
  { ty := 0x92, seq := w.seq, rail := k, flags := flags, value := value }

/-- What rail k keeps of a watch that closes in a housekeeping cycle with an outcome, or has closed in it (R440, R445). -/
def LinkRail.report (l : LinkRail) (w : Watch) (cycle : Nat) (flags : BitVec 5) (value : BitVec 16) : LinkRail :=
  let l := { l with closed := some { watch := w, cycle := cycle, flags := flags, value := value } }
  if l.valid && w.seq == l.seq then { l with outcome := some (flags, value), told := false } else l

/-- The watch of rail k that closed in the present housekeeping cycle (R445). -/
def closedNow (s : State) (k : RailId) : Option ClosedWatch :=
  match (s.rail k).link.closed with
  | some c => if c.cycle = cycleOf s then some c else none
  | none => none

/-- The watch that rail k has closed in the present housekeeping cycle meets a further outcome: the lower FLAGS is reported, its frame
still unsent (R445; log 156). A watch that has been opened since stays open. -/
def recloseWatch (k : RailId) (flags : BitVec 5) (value : BitVec 16) (s : State) : State :=
  match closedNow s k with
  | none => s
  | some c =>
    let old := settledFrame k c.watch c.flags c.value
    if flags < c.flags ∧ old ∈ s.link.settled then
      let s := s.modRail k fun r => { r with link := r.link.report c.watch (cycleOf s) flags value }
      { s with link := { s.link with settled := s.link.settled.map fun f => if f = old then settledFrame k c.watch flags value else f } }
    else s

/-- The settle watch of rail k closes with an outcome; where none is open, the outcome meets the one that has just closed (R445). -/
def closeWatch (raise : Raise) (k : RailId) (flags : BitVec 5) (value : BitVec 16) (s : State) : State :=
  match (s.rail k).link.watch with
  | some w =>
    pushSettled raise (settledFrame k w flags value)
      (s.modRail k fun r => { r with link := { r.link.report w (cycleOf s) flags value with watch := none } })
  | none => recloseWatch k flags value s

/-- The watch is ABANDONED at an entry to STOPPING, OFF, SAFE or HICCUP (R445). -/
def abandonWatch (raise : Raise) (k : RailId) (s : State) : State :=
  closeWatch raise k 2 (BitVec.ofNat 16 (railCode (railSt s k))) s

/-- The next tick after an instant. -/
def nextTick (x : Int) : Int := (x / 16 + 1) * 16

/-! ### Output edges -/

/-- The high side goes off at n: a running pulse ends, a later one is not started. The pulse of the period is cut by that where it would
be on at n or rise later (R85). -/
def Edges.cutHigh (e : Edges) (n : Int) : Edges :=
  { e with hi := Wave.hold e.hi n false, plan := false, forced := e.forced || highAt e n || e.hi.any fun p => p.2 && decide (n ≤ p.1) }

/-- The low side goes off at n, and a later turn-on is not made. -/
def Edges.cutLow (e : Edges) (n : Int) : Edges := { e with lo := Wave.hold e.lo n false, lowOnAt := none }

/-- Both outputs are low from n on (R19, R56). -/
def Edges.halt (e : Edges) (n : Int) : Edges := { ((e.cutHigh n).cutLow n) with settledRise := none, settledFall := none }

/-- A tile enters COLD, READY, DROPPED or EXCLUDED from a set: one change of ACT (R290), slot and fade gone. -/
def Tile.setAct (ti : Tile) (a : TileAct) (reason : Nat) : Tile :=
  { ti with act := a, reason := reason, gen := if a = ti.act then ti.gen else ti.gen + 1, slot := none, fade := .none }

/-- What a tile loses on entering COLD, DROPPED or EXCLUDED: carrier stopped at 0 (R56), both outputs low from the next tick (R19),
trim cleared (R117), sampling and Leap part over (R84, R225), and its over-current judgement with its samples (R278). The sample
words keep what they show (R102, R103). -/
def Tile.stopped (ti : Tile) (now : Nat) : Tile :=
  { ti with
    car := { ti.car with running := false, atPeak := false, holdTicks := 0, hold := 0, pend := none, coming := none, corr := 0, glide := none,
                          stepDue := false, skipStep := false, jump := none }
    edg := ti.edg.halt (nextTick now), leap := {}, emulating := false, lowed := false, entering := false
    sen := { ti.sen with riseSample := none, fallSample := none, width := none }
    trip := { ti.trip with held := false, lowHeld := false, resume := false, inPeriod := false, fired := false }
    prot := { ti.prot with trimAcc := 0, ocPresent := false } }

/-- A tile leaves ACTIVE or READY for a stopped state; the time it left ACTIVE is kept (R148). -/
def Tile.leave (ti : Tile) (now : Nat) (a : TileAct) (reason : Nat) : Tile :=
  let ti := if ti.act = .active then { ti with leftAt := now } else ti
  (ti.setAct a reason).stopped now

/-- A tile becomes COLD, or EXCLUDED where an accepted exclusion waits (R293) or a thermal exclusion fades (R325). -/
def Tile.leaveCold (ti : Tile) (now : Nat) (reason : Nat) : Tile :=
  let thermal := match ti.fade with | .fadeOut _ .thermalOut => true | _ => false
  if thermal then { ti.leave now .excluded 14 with reqPend := false }
  else if ti.reqPend then { ti.leave now .excluded 6 with reqPend := false }
  else ti.leave now .cold reason

/-- The slots above the leaving tile's move down by one (R154). -/
def closeSlot (k : RailId) (slot : Option Nat) (s : State) : State :=
  match slot with
  | none => s
  | some j => s.modTilesOf k fun ti => match ti.slot with | some n => if j < n then { ti with slot := some (n - 1) } else ti | none => ti

/-- A detected Leap or Leap-back ends: hold-off follows, and the next update preloads (R222 to R224). `cause`: that of the last
release, none where the response released no tile; LEAP_STAT.CAUSE takes it at this end (log 164). -/
def endLeap (k : RailId) (cause : Option Nat) (s : State) : State :=
  (s.modRail k fun r =>
    { r with
      leap := { r.leap with state := .holdoff, cause := cause.getD r.leap.cause, errRelease := none, holdoffFrom := s.now, missedNow := false,
                            tmaxHit := r.leap.tmaxHit || r.leap.tmaxSeen }
      eng := { r.eng with preload := .leap } }).modTilesOf k fun ti => { ti with leap := { ti.leap with under := false } }

/-- Where the rail goes on after a Leap with no tile left under it (R222). -/
def leapCheck (k : RailId) (cause : Option Nat) (s : State) : State :=
  if leapActive s k && (underTiles s k).isEmpty then endLeap k cause s else s

/-- The rail as it stands, or as it stood before an earlier transition of the same cycle (R236, R269). -/
def Rail.asWas (r : Rail) (cycle row : Nat) : RailWas :=
  let new : RailWas :=
    { cycle := cycle, row := row, st := r.seq.state, leap := r.leap.state, running := r.car.running, ovCnt := r.prot.ovCnt,
      uvCnt := r.prot.uvCnt, ovwCnt := r.prot.ovwCnt, uvwCnt := r.prot.uvwCnt, ocrCnt := r.prot.ocrCnt }
  match r.was with
  | some w => if w.cycle = cycle then { w with row := row } else new
  | none => new

/-- STOPPING begins, by row 5 or 7 of R236: diode emulation on every tile, end point E = min(STOP_FLOOR, REF) (R250). The detectors of this
cycle still see the rail as it stood (R269, R445). -/
def beginStopping (raise : Raise) (k : RailId) (toSafe : Bool) (cause : Nat) (s : State) : State :=
  let s := setPgood k false s
  let s := s.modTilesOf k fun ti => if ti.act = .active then { ti with emulating := true } else ti
  let s := s.modRail k fun r =>
    { r with
      was := some (r.asWas (cycleOf s) (if toSafe then 5 else 7))
      seq := { r.seq with state := .stopping, stopEnd := min (stopFloor s k) (refCode s k), stopSafe := toSafe, stopCause := cause,
                          stopReached := false, stopWait := none, shortFrom := none, winFrom := none, winOut := 0, deEnded := false } }
  abandonWatch raise k s

/-- The stop dependency allows a host or LENk stop (R255). -/
def stopDepOk (s : State) (k : RailId) : Bool := !tdepEn s k || railOut (railSt s (stopDep s k))

/-- A stop that waited begins once nothing holds it any more (R225, R255). Only a rail that switches has a stop that waits. -/
def resumeStop (raise : Raise) (k : RailId) (s : State) : State :=
  match (s.rail k).seq.stopWait with
  | none => s
  | some (safe, cause) =>
    if switching (railSt s k) && !leapActive s k && (safe || stopDepOk s k) then beginStopping raise k safe cause s else s

/-- Every waiting stop is judged again, after a rail has entered OFF, SAFE or HICCUP (R255). -/
def resumeStops (raise : Raise) (s : State) : State := allRails.foldl (fun s k => resumeStop raise k s) s

/-- The tile as it stands, for the detectors of a cycle in which its rail stops or it is removed (R269). -/
def Tile.asWas (ti : Tile) (cycle : Nat) : TileWas :=
  { cycle := cycle, act := ti.act, fade := ti.fade, car := ti.car, trimAcc := ti.prot.trimAcc, inPeriod := ti.trip.inPeriod,
    under := ti.leap.under, width := ti.sen.width }

/-- What the detectors of this cycle judge in place of the tile that leaves its set now (R269). -/
def Tile.keepWas (ti : Tile) (cycle : Nat) : Option TileWas :=
  if ti.act = .active ∨ ti.act = .ready then some (ti.asWas cycle) else ti.was

/-- Entry to OFF, SAFE or HICCUP (R238): every ACTIVE or READY tile becomes COLD, outputs low from the next tick; compensator
history, switch and frequency requests, dwell counters and detector counts clear; a glide is abandoned; a Leap ends. Stops that
waited for the rail begin (R255). `row`: the row of R236 that makes the transition, counted from the top, 1 to 7; 8 for any
other, a code 4 in HICCUP among them. An autozero that the start still waits for keeps its request (log 139). -/
def enterOut (raise : Raise) (k : RailId) (st : RailState) (cause row : Nat) (s : State) : State :=
  let s := s.modTilesOf k fun ti =>
    if ti.act = .active ∨ ti.act = .ready then { ti.leaveCold s.now 4 with was := some (ti.asWas (cycleOf s)) } else ti
  let s := setPgood k false s
  let s := s.modRail k fun r =>
    { r with
      was := some (r.asWas (cycleOf s) row)
      car := { r.car with running := false, pend := none, coming := none, corr := 0, glide := none, stepDue := false, skipStep := false, jump := none }
      eng := { r.eng with e1 := 0, e2 := 0, e3 := 0, u1 := 0, u2 := 0, u3 := 0, setPend := none, preload := .none, aimed := false }
      seq := { r.seq with state := st, cause := cause, pbHigh := false, pbDone := false, prepDone := none, shortFrom := none,
                          retry := if st = .off then 0 else r.seq.retry, hiccupFrom := s.now, stopReached := false, stopWait := none,
                          winFrom := none, winOut := 0, deEnded := true }
      ilv := { r.ilv with glide := .none, respaceDue := false, adding := none, change := false,
                          abortCnt := if r.ilv.glide = .none then r.ilv.abortCnt else satInc r.ilv.abortCnt 255 }
      mo := { r.mo with freqPend := none, setWithFreq := none, freqGo := none, addCnt := 0, shedCnt := 0 }
      prot := { r.prot with ovCnt := 0, uvCnt := 0, ovwCnt := 0, uvwCnt := 0, ocrCnt := 0, present := 0, ocrFired := false,
                            dropCheck := false, dropThrottle := false }
      leap := if r.leap.state = .leap ∨ r.leap.state = .leapBack then
                { r.leap with state := .holdoff, cause := 3, holdoffFrom := s.now, missedNow := false,
                              tmaxHit := r.leap.tmaxHit || r.leap.tmaxSeen, errRelease := none }
              else r.leap }
  resumeStops raise (abandonWatch raise k s)

/-- The row of R236 that has moved the rail in the present cycle into OFF, SAFE or HICCUP; 99 where none has. A condition of the
same cycle takes effect in its place only from a row nearer the top. -/
def movedRow (s : State) (k : RailId) : Nat :=
  match (s.rail k).was with
  | some w => if w.cycle = cycleOf s then w.row else 99
  | none => 99

/-- A tile as it stood before a stop or removal of this cycle. -/
def Tile.before (ti : Tile) (cycle : Nat) : Tile :=
  match ti.was with
  | some v =>
    if v.cycle = cycle then
      { ti with act := v.act, fade := v.fade, car := v.car, prot := { ti.prot with trimAcc := v.trimAcc }
                trip := { ti.trip with inPeriod := v.inPeriod }, leap := { ti.leap with under := v.under }
                sen := { ti.sen with width := v.width } }
    else ti
  | none => ti

/-- A rail as it stood before a stop of this cycle. In STOPPING its detectors go on counting. -/
def Rail.before (r : Rail) (cycle : Nat) : Rail :=
  match r.was with
  | some w =>
    if w.cycle = cycle then
      { r with car := { r.car with running := w.running }, seq := { r.seq with state := w.st }, leap := { r.leap with state := w.leap }
               prot := if railOut r.seq.state then
                   { r.prot with ovCnt := w.ovCnt, uvCnt := w.uvCnt, ovwCnt := w.ovwCnt, uvwCnt := w.uvwCnt, ocrCnt := w.ocrCnt }
                 else r.prot }
    else r
  | none => r

/-- Rail k and its tiles as the detectors of this cycle see them: as they stood before a stop or a removal of this cycle (R269). -/
def State.before (s : State) (k : RailId) : State :=
  (s.modTilesOf k fun ti => ti.before (cycleOf s)).modRail k fun r => r.before (cycleOf s)

/-- An immediate stop into SAFE (R268 code 5 and 6, R236). A rail in SAFE stays as it is, and one in OFF, unless a lower row of R236
moved it there in this cycle. -/
def safeNow (raise : Raise) (k : RailId) (cause : Nat) (s : State) : State :=
  match railSt s k with
  | .safe => s
  | .off => if 2 < movedRow s k ∧ movedRow s k < 99 then enterOut raise k .safe cause 2 s else s
  | _ => enterOut raise k .safe cause 2 s

/-- A fault's orderly stop (code 4, R236, R249): at once, but for a Leap in progress, which it waits out (R225). A stop that a
die shutdown has turned towards SAFE keeps its cause 7 (R327). A rail that this
cycle has moved to HICCUP stays there; one that an orderly stop has moved from PREPARE to OFF goes to SAFE. -/
def orderlySafe (raise : Raise) (k : RailId) (cause : Nat) (s : State) : State :=
  match railSt s k with
  | .prepare => enterOut raise k .safe cause 4 s
  | .hiccup => if movedRow s k ≤ 4 then s else enterOut raise k .safe cause 8 s
  | .softstart | .regulate | .slew =>
    if leapActive s k then
      s.modSeq k fun q => { q with stopWait := some (true, match q.stopWait with | some (true, 7) => 7 | _ => cause) }
    else beginStopping raise k true cause s
  | .stopping => s.modSeq k fun q => { q with stopSafe := true, stopCause := if q.stopSafe && q.stopCause == 7 then 7 else cause }
  | .off => if movedRow s k = 6 then enterOut raise k .safe cause 4 s else s
  | .safe => s

/-- An orderly stop by the host, LENk or PWR_CMD (R249): PREPARE goes to OFF at once; a running rail waits for its dependency
(R255) and for the end of a Leap (R225), where a fault's stop that waits already goes before it, then enters STOPPING. -/
def orderlyOff (raise : Raise) (k : RailId) (cause : Nat) (s : State) : State :=
  match railSt s k with
  | .prepare => enterOut raise k .off cause 6 s
  | .softstart | .regulate | .slew =>
    if leapActive s k || !stopDepOk s k then
      s.modSeq k fun q => { q with stopWait := match q.stopWait with | some (true, c) => some (true, c) | _ => some (false, cause) }
    else beginStopping raise k false cause s
  | .off | .safe | .hiccup | .stopping => s

/-- RESP 4 and RESP 6 act on every rail (R387); STATE.CAUSE reads 6. -/
def respAction (raise : Raise) (code : Nat) (s : State) : State :=
  if code = 4 then allRails.foldl (fun s k => if railSt s k = .stopping then s else orderlySafe raise k 6 s) s
  else if code = 6 then allRails.foldl (fun s k => safeNow raise k 6 s) s
  else s

/-- The journal takes a class fault whatever its source's journal flag (R271): an entry of its own, or the mark in the entry that
the source has made in this cycle. -/
def journalClass (e : Nat) (detail : Word) (s : State) : State :=
  if (s.ev.src.get (finOf 256 (by decide) e)).jrnCycle = some (cycleOf s) then
    { s with ev := { s.ev with queue := s.ev.queue.map fun q =>
      if q.id = e ∧ q.cyc = cycleOf s ∧ q.record = false then { q with cls := true } else q } }
  else enqueue (entryNow s e detail true false none) (markJrn e s)

/-- The host that an event of the management bus or of Brumation concerns, by its detail or by its name (R421, R528, R582; log 157). -/
def eventHost (e : Nat) (detail : Word) : Option HostId :=
  if e = 128 ∨ e = 129 ∨ (132 ≤ e ∧ e ≤ 134) ∨ e = 137 ∨ e = 203 ∨ e = 204 then some (if bitOf detail 0 then .b else .a)
  else if e = 135 then some .a
  else if e = 136 then some .b
  else none

/-- One occurrence of source e with its detail (R383, R384). `fuel` bounds the events that an event causes: a recorder trigger
(180) and a discarded SETTLED entry (151), after which no further one follows. -/
def occurF : Nat → Bool → Nat → Word → State → State
  | 0, _, _, _, s => s
  | n + 1, cls, e, detail, s =>
    if occurredNow s e then (if cls then journalClass e detail s else s)
    else
      let en := evEn s e
      let journal := (en && evJrnl s e) || alwaysJournaled e || cls
      let s := markSrc e s
      let s := if en then latchSrc e detail s else s
      let s := if journal then enqueue (entryNow s e detail cls false (eventHost e detail)) (markJrn e s) else s
      let s := if en && evRec s e then
          (if s.rcd.state = .armed then occurF n false 180 (word (e % 256)) (startCapture e false s)
           else { s with rcd := { s.rcd with missed := satInc s.rcd.missed 255 } })
        else s
      if en && decide (64 ≤ e) then respAction (fun e d s => occurF n false e d s) (evResp s e) s else s

/-- An occurrence of source e. -/
def occur (e : Nat) (detail : Word) (s : State) : State := occurF 4 false e detail s
/-- An occurrence that is a class fault (R271). -/
def occurClass (e : Nat) (detail : Word) (s : State) : State := occurF 4 true e detail s

/-- A trigger by the host (R542). -/
def hostTrigger (s : State) : State :=
  if s.rcd.state = .armed then occur 180 (word 256) (startCapture 0 true s)
  else { s with rcd := { s.rcd with missed := satInc s.rcd.missed 255 } }

/-! ### Stops that a command makes -/

/-- A rail enters OFF, SAFE or HICCUP by a row of R236. -/
def railToOut (k : RailId) (st : RailState) (cause row : Nat) (s : State) : State := enterOut occur k st cause row s

/-- A tile under Leap or Leap-back is taken out of it (R225), which may end the response; then a stop may begin. -/
def leapRemove (t : TileId) (s : State) : State :=
  match (s.tile t).rail with
  | none => s
  | some k =>
    if (s.tile t).leap.under then
      resumeStop occur k (leapCheck k (some 3) (s.modTile t fun ti => { ti with leap := { ti.leap with under := false } }))
    else s

/-- With no add, shed or re-spacing left, the change is over (R187). -/
def settleChange (k : RailId) (s : State) : State := if changeBusy s k then s else s.modIlv k fun i => { i with change := false }

/-- With Q = 0 a rail that runs enters SAFE as by code 5; one that a row of R236 further down has moved in this cycle does too (R236, R285,
R326). -/
def noTileLeft (k : RailId) (cause : Nat) (s : State) : State :=
  if qOf s k = 0 ∧ (railOut (railSt s k) = false ∨ (2 < movedRow s k ∧ movedRow s k < 99)) then safeNow occur k cause s else s

/-- A tile leaves its rail's set at once, by Tail-drop or thermal exclusion (R283, R325): outputs low, its slot closed, and a
re-spacing glide due at the next reference valley where it held one (R154, R156). With no tile left the rail enters SAFE (R285, R326). -/
def removeTile (t : TileId) (a : TileAct) (reason : Nat) (s : State) : State :=
  let slot := (s.tile t).slot
  let was := (s.tile t).keepWas (cycleOf s)
  let s := leapRemove t s
  let s := s.modTile t fun ti => { ti.leave s.now a reason with reqPend := false, was := was }
  match (s.tile t).rail with
  | none => s
  | some k =>
    let s := closeSlot k slot s
    let s := settleChange k (s.modIlv k fun i =>
      { i with respaceDue := i.respaceDue || slot.isSome, adding := if i.adding = some t then none else i.adding })
    noTileLeft k (if a = .excluded then 7 else 6) s

end Sys2Proof.Machine
end

