-- ==== Sys2Proof/Machine/Protect.lean ====
section
/-! DEFINITION. Protection, Tail-drop and stage health: the fault sources, their responses, the detectors, and the commands of
the chapter (R267 to R315, R619). -/

namespace Sys2Proof.Machine

/-! ### Responses (R268) -/

/-- Entry to HICCUP; with CMD.REQ at OFF, or while the device leaves RUN, the rail goes on to OFF (R236, R238, R358). -/
def enterHiccup (k : RailId) (cause : Nat) (s : State) : State :=
  let s := railToOut k .hiccup cause 3 s
  if reqOn s k && s.pwr.target == .run then s else railToOut k .off 1 3 s

/-- A fault of code 7, or a failed start: RETRY increments, and the rail enters HICCUP, or SAFE where RETRY exceeds RETRY_N
(R246, R247). It acts in STOPPING too (R251), and before a row of R236 further down that has moved the rail in this cycle. -/
def hiccupFault (k : RailId) (cause : Nat) (s : State) : State :=
  if railOut (railSt s k) && (decide (movedRow s k ≤ 3) || decide (6 < movedRow s k)) then s
  else
    let s := s.modSeq k fun q => { q with retry := satInc q.retry 255 }
    if retryN s k < (s.rail k).seq.retry && retryN s k != 255 then railToOut k .safe 5 2 s else enterHiccup k cause s

/-- Codes 4 to 7 act on the rail; 6 on every rail that is not OFF (R268). STATE.CAUSE reads 6. -/
def railResponse (k : RailId) (code : Nat) (s : State) : State :=
  match code with
  | 4 => orderlySafe occur k 6 s
  | 5 => safeNow occur k 6 s
  | 6 => allRails.foldl (fun s j => safeNow occur j 6 s) s
  | 7 => hiccupFault k 6 s
  | _ => s

/-- Sources of a rail, in the order of RESP_RAIL (R302). -/
inductive RailSource where
  | ov | ovw | uv | uvw | ocr
  deriving DecidableEq, Repr

def RailSource.idx : RailSource → Nat
  | .ov => 0 | .ovw => 1 | .uv => 2 | .uvw => 3 | .ocr => 4

/-- Sources of a tile, in the order of RESP_TILE (R303). -/
inductive TileSource where
  | trip | oct | opened | sense | health
  deriving DecidableEq, Repr

def TileSource.idx : TileSource → Nat
  | .trip => 0 | .oct => 1 | .opened => 2 | .sense => 3 | .health => 4

/-- Causes of a tile source: the bit of FAULT (R312). -/
inductive TileCause where
  | tripRep | ocHigh | ocLow | openPhase | range | flat | lDrift | rDrift
  deriving DecidableEq, Repr

def TileCause.bit : TileCause → Nat
  | .tripRep => 0 | .ocHigh => 1 | .ocLow => 2 | .openPhase => 3 | .range => 4 | .flat => 5 | .lDrift => 6 | .rDrift => 7

def TileCause.source : TileCause → TileSource
  | .tripRep => .trip | .ocHigh => .oct | .ocLow => .oct | .openPhase => .opened
  | .range => .sense | .flat => .sense | .lDrift => .health | .rDrift => .health

/-- Reason of a Tail-drop (R290). -/
def TileCause.reason : TileCause → Nat
  | .tripRep => 12 | .ocHigh => 11 | .ocLow => 11 | .openPhase => 8 | .range => 9 | .flat => 10 | .lDrift => 13 | .rDrift => 13

/-- Set bit i of a bit vector. -/
def setBit {w : Nat} (b : BitVec w) (i : Nat) : BitVec w := b ||| (1#w <<< i)

/-- A source of rail k fires (R268): cause bit and counter, class fault (R271), response, event. -/
def fireRail (k : RailId) (src : RailSource) (s : State) : State :=
  let i := src.idx
  let w := loopW s k .respRail
  let code := respCode w i
  let cls := respClass w i
  let s := s.modProt k fun p =>
    { p with
      fault := setBit p.fault i
      present := setBit p.present i
      cls := if cls then setBit p.cls i else p.cls
      cntOv := if i < 2 then satInc p.cntOv 255 else p.cntOv
      cntUv := if i = 2 ∨ i = 3 then satInc p.cntUv 255 else p.cntUv
      cntOcr := if i = 4 then satInc p.cntOcr 255 else p.cntOcr }
  let s := if cls then fsumChanged s else s
  let s := railResponse k code s
  if code = 0 then
    if cls then journalClass (48 + k.val) (loopDetail s k i) s else s
  else if cls then occurClass (48 + k.val) (loopDetail s k i) s
  else occur (48 + k.val) (loopDetail s k i) s

/-- Tail-drop (R283, R285): DROPPED with the reason of the source; the reference valley that follows judges the capacity left
(R284). A tile already out of its rail's set stays. -/
def tailDrop (t : TileId) (reason : Nat) (s : State) : State :=
  match (s.tile t).act, (s.tile t).rail with
  | .dropped, _ => s
  | .excluded, _ => s
  | _, none => s
  | _, some k => (removeTile t .dropped reason s).modProt k fun p => { p with dropCheck := true }

/-- A source of tile t fires (R268). `detail` is the cause in the event's detail (R388). -/
def fireTile (t : TileId) (c : TileCause) (detail : Nat) (always : Bool) (s : State) : State :=
  match (s.tile t).rail with
  | none => s
  | some k =>
    let i := c.source.idx
    let w := loopW s k .respTile
    let code := respCode w i
    let cls := respClass w i
    let s := s.modTile t fun ti =>
      { ti with prot := { ti.prot with
          fault := setBit ti.prot.fault c.bit
          cls := if cls then setBit ti.prot.cls i else ti.prot.cls
          ocCount := if i = 1 then satInc ti.prot.ocCount 65535 else ti.prot.ocCount } }
    let s := if cls then fsumChanged s else s
    let dropped := code == 3 && (s.tile t).act != .dropped && (s.tile t).act != .excluded
    let s := if code = 3 then tailDrop t c.reason s else railResponse k code s
    if code = 0 && !always then
      if cls then journalClass t.val (tileDetail s t detail dropped) s else s
    else if cls then occurClass t.val (tileDetail s t detail dropped) s
    else occur t.val (tileDetail s t detail dropped) s

/-! ### Rail voltage (R272 to R275) -/

/-- Count of consecutive judgements that hold, kept from growing past one above the filter length. -/
def filt (cond : Bool) (cnt n : Nat) : Nat := if cond then min (cnt + 1) (n + 1) else 0

/-- Clear bit i of the causes present where the latest judgement does not hold (R278). -/
def clrPresent (b : BitVec 5) (i : Nat) (holds : Bool) : BitVec 5 := if holds then b else b &&& ~~~(1#5 <<< i)

/-- OV and UV judge a conversion, also in the cycle of a stop (R269, R272, R274, R275). -/
def judgeCoarse (k : RailId) (raw : Nat) (s : State) : State :=
  let v := s.before k
  let r := v.rail k
  let st := r.seq.state
  let runsOv := st == .prepare || switching st
  let isOv := runsOv && (decide (ovLvl s k < r.fe.vout) || raw == 4095)
  let runsUv := steady st && r.leap.state != .leap && !throttles s k
  let isUv := runsUv && decide ((r.fe.vout : Int) < (refAt s k (convAt s) : Int) - uvWin s k)
  let ov := filt isOv r.prot.ovCnt (ovN s k)
  let uv := filt isUv r.prot.uvCnt (uvN s k)
  let fireOv := decide (ov = ovN s k) && isOv
  let fireUv := decide (uv = uvN s k) && isUv
  let out := railOut (railSt s k)
  let s := s.modProt k fun p =>
    { p with ovCnt := if out then p.ovCnt else ov, uvCnt := if out then p.uvCnt else uv, present := clrPresent (clrPresent p.present 0 isOv) 2 isUv }
  let s := if fireOv then fireRail k .ov s else s
  if fireUv then fireRail k .uv s else s

/-- OVW and UVW judge a raw window sample, also in the cycle of a stop (R269, R273, R275). -/
def judgeWindow (k : RailId) (w : Int) (s : State) : State :=
  let r := (s.before k).rail k
  let on := r.seq.state == .regulate && decide (0 < wsN s k)
  let isHi := on && r.leap.state != .leapBack && decide (w = 511)
  let isLo := on && r.leap.state != .leap && !throttles s k && decide (w = -512)
  let hi := filt isHi r.prot.ovwCnt (wsN s k)
  let lo := filt isLo r.prot.uvwCnt (wsN s k)
  let out := railOut (railSt s k)
  let s := s.modProt k fun p =>
    { p with ovwCnt := if out then p.ovwCnt else hi, uvwCnt := if out then p.uvwCnt else lo, present := clrPresent (clrPresent p.present 1 isHi) 3 isLo }
  let s := if isHi && decide (hi = wsN s k) then fireRail k .ovw s else s
  if isLo && decide (lo = wsN s k) then fireRail k .uvw s else s

/-! ### Current limits and throttle (R276 to R278, R284) -/

/-- ILIM_EFF = ILIM × (ILSCALE / 128) × (Q / QA) × THERM, rounded toward zero (R276); THERM in 1/256 (R343). A value above
65,535 is judged whole, and shown by its low 16 bits (log 174). -/
def ilimEffOf (s : State) (k : RailId) : Nat :=
  let therm := (s.hk.therm.get k).1
  let den := 128 * qaOf s k * 256
  if den = 0 then 0 else ilim s k * entIlscale (s.rail k).mo.entry * qOf s k * therm / den

/-- A cause of code 2 is present on the rail (R278). -/
def throttleCause (s : State) (k : RailId) : Bool :=
  let w := loopW s k .respRail
  let v := loopW s k .respTile
  let p := (s.rail k).prot
  p.dropThrottle
    || (List.range 5).any (fun i => respCode w i == 2 && p.present.getLsbD i)
    || (tilesOf s k).any fun t =>
        let ti := s.tile t
        (respCode v 0 == 2 && (ti.trip.fired || ti.trip.latch))
        || (respCode v 1 == 2 && ti.prot.ocPresent)
        || (respCode v 4 == 2 && (ti.hea.lOut || ti.hea.rOut))

/-- OCR at a reference valley (R277): fires once in a run of valleys with IR above ILIM_EFF; once it has fired, its cause is
present at every such valley. It judges also in the cycle of a stop (R269). -/
def judgeOcr (k : RailId) (s : State) : State :=
  let r := (s.before k).rail k
  let out := railOut (railSt s k)
  let above := switching r.seq.state && decide ((r.prot.ilimEff : Int) * 256 < r.mo.ir)
  let cnt := filt above r.prot.ocrCnt (ocrN s k)
  let s := s.modProt k fun p =>
    { p with ocrCnt := if out then p.ocrCnt else cnt,
             present := if above && p.ocrFired then setBit p.present 4 else clrPresent p.present 4 above }
  if above && decide (cnt = ocrN s k) then
    fireRail k .ocr (s.modProt k fun p => { p with ocrFired := true })
  else s

/-- The capacity left after a Tail-drop is judged at the first reference valley that follows it (R284). -/
def judgeDrop (k : RailId) (s : State) : State :=
  let p := (s.rail k).prot
  let above := decide ((p.ilimEff : Int) * 256 < (s.rail k).mo.ir)
  let code := respCode (loopW s k .respRail) 4
  let begins := p.dropCheck && above && decide (code < 4)
  let s := s.modProt k fun p =>
    { p with dropCheck := false, dropThrottle := (p.dropThrottle || begins) && above,
             fault := if begins then setBit p.fault 6 else p.fault }
  if begins then occur (48 + k.val) (loopDetail s k 9) s else s

/-- YLO and YHI of the present gain (R113), with DTHR in the place of DMAX (R278). FF is 32,768 while FF_EN = 0. -/
def antiWindup (k : RailId) (s : State) : State :=
  let top : Int := (s.rail k).prot.dthr
  s.modEng k fun e => { e with ylo := (dmin s k * 2 ^ 37).tdiv e.ff, yhi := (top * 2 ^ 37).tdiv e.ff }

/-- The rail has begun to throttle where it did not before (R278): event THROTTLE, RAIL_FAULT.THR and THR_CNT. -/
def throttleBegin (k : RailId) (was : Bool) (s : State) : State :=
  if !was && throttles s k then
    let s := s.modProt k fun p => { p with fault := setBit p.fault 5, cntThr := satInc p.cntThr 255 }
    occur (48 + k.val) (loopDetail s k 6) s
  else s

/-- The duty ceiling moves at a reference valley, and the anti-windup limits with it (R278). -/
def stepThrottle (k : RailId) (s : State) : State :=
  let d : Int := (s.rail k).prot.dthr
  let d' := if throttleCause s k then max (d - thrStep s k) (dmin s k) else min (d + thrStep s k) (dmax s k)
  throttleBegin k (throttles s k) (antiWindup k (s.modProt k fun p => { p with dthr := d'.toNat }))

/-! ### Tile above-current (R279) -/

/-- OCT judges a corrected sample of an ACTIVE or READY tile. -/
def judgeOct (t : TileId) (ic : Int) (s : State) : State :=
  match (s.tile t).rail with
  | none => s
  | some k =>
    let p := (s.tile t).prot
    let isHi := decide (ocHi s t < ic)
    let isLo := decide (ic < ocLo s t)
    let hi := filt isHi p.ocHi (ocN s k)
    let lo := filt isLo p.ocLo (ocN s k)
    let fireHi := isHi && decide (hi = ocN s k)
    let fireLo := isLo && decide (lo = ocN s k)
    let s := s.modTile t fun ti =>
      { ti with prot := { ti.prot with ocHi := hi, ocLo := lo,
                                       ocPresent := (ti.prot.ocPresent && (isHi || isLo)) || fireHi || fireLo } }
    let s := if fireHi then fireTile t .ocHigh 2 false s else s
    if fireLo then fireTile t .ocLow 3 false s else s

/-! ### Open phase and sense failure (R280 to R282) -/

/-- OPEN and SENSE at a valley of a tile, also in the cycle of a stop (R269); where both complete in one valley the tile records OPEN
(R282), and where RANGE and FLAT do it records RANGE (log 151). A Leap-back holds the count as a Leap does (log 177). -/
def judgeOpenSense (t : TileId) (newPair : Bool) (s : State) : State :=
  match (s.tile t).rail with
  | none => s
  | some k =>
    let v := s.before k
    let ti := v.tile t
    let judged := isActive ti && !isFading ti && steady (railSt v k) && !leapActive v k
    let holds := decide (|ti.sen.itile| ≤ openI s k) && decide (ti.prot.trimAcc = trimMax s k * 65536)
                  && decide (openMean s k ≤ imean s k)
    let open' := if judged then filt holds ti.prot.openCnt 16 else ti.prot.openCnt
    let fireOpen := judged && holds && decide (open' = 16)
    let live := ti.act == .active || ti.act == .ready
    let rng := live && (if unidir s k then ti.sen.raws.any (· == 4095) else iRange ti)
    let range' := if live then filt rng ti.prot.rangeCnt (sfN s k) else ti.prot.rangeCnt
    let fireRange := rng && decide (range' = sfN s k)
    let span := ti.sen.imax - ti.sen.imin
    let neighbours := ((tilesOf s k).filter fun u =>
      let o := v.tile u
      u != t && isActive o && o.sen.pairSeen && decide (2 * ripMin s k ≤ o.sen.imax - o.sen.imin)).length
    let flatPeriod := isActive ti && newPair
    let isFlat := flatPeriod && decide (span < ripMin s k) && decide (2 ≤ neighbours)
    let flat' :=
      if isFlat then min (ti.prot.flatCnt + 1) (sfN s k + 1)
      else if flatPeriod && decide (ripMin s k ≤ span) then 0 else ti.prot.flatCnt
    let fireFlat := isFlat && decide (flat' = sfN s k)
    let s := s.modTile t fun ti =>
      { ti with prot := { ti.prot with openCnt := open', rangeCnt := range', flatCnt := flat' } }
    if fireOpen then fireTile t .openPhase 4 false s
    else if fireRange then fireTile t .range 5 false s
    else if fireFlat then fireTile t .flat 6 false s
    else s

/-! ### Stage health (R286 to R289) -/

/-- 36.62 µV: one step of 2.4 V / 65,536, in volts (R13). -/
def codeVolt : Rat := 24 / 655360
/-- RT in V/A: mV/A with 8 fraction bits (R97). -/
def rtVolt (s : State) (k : RailId) : Rat := (rtScale s k : Rat) / 256000
/-- Output voltage of rail k in volts (R80, R218). -/
def vOutVolt (s : State) (k : RailId) : Rat := ((s.rail k).fe.vout : Rat) * codeVolt * (senseRatio s k : Rat) / 16
/-- Input voltage of rail k in volts (R82, R218). -/
def vInVolt (s : State) (k : RailId) : Rat := ((s.rail k).fe.vinFast : Rat) * codeVolt * (vinRatio s k : Rat) / 16
/-- Seconds in a number of fine steps. -/
def fineSec (x : Int) : Rat := (x : Rat) / 9600000000

/-- The estimate as its register shows it: rounded down to a step where the manual states no rounding, freely up (log 8). -/
def estShown (q : Rat) : Nat := (min 65535 (max 0 (quotFree q.num q.den))).toNat

/-- HEALTH fires once on each crossing out of a band (R289). -/
def judgeHealth (t : TileId) (s : State) : State :=
  let ti := s.tile t
  match ti.rail with
  | none => s
  | some k =>
    let ln : Rat := lNom s t
    let rn : Rat := rNom s t
    let lb : Rat := lBand s t
    let rb : Rat := rBand s t
    let lOut := decide (2 ^ lTc s k ≤ ti.hea.lUpd) && lBand s t != 0
      && (decide (ti.hea.lEst < ln * (1 - lb / 256)) || decide (ln * (1 + lb / 256) < ti.hea.lEst))
    let rOut := decide (2 ^ rTc s k ≤ ti.hea.rUpd) && rBand s t != 0 && decide (rn * (1 + rb / 64) < ti.hea.rEst)
    let fireL := lOut && !ti.hea.lOut
    let fireR := rOut && !ti.hea.rOut
    let s := s.modTile t fun ti => { ti with hea := { ti.hea with lOut := lOut, rOut := rOut } }
    let s := if fireL then fireTile t .lDrift 7 false s else s
    if fireR then fireTile t .rDrift 8 false s else s

/-- One inductance update (R286): WH is the settled high-pulse width in fine steps. A span of 0 leaves the quotient open (log 9). -/
def updateL (t : TileId) (wh : Int) (s : State) : State :=
  match (s.tile t).rail with
  | none => s
  | some k =>
    let ti := s.tile t
    let span := ti.sen.imax - ti.sen.imin
    let dI : Rat := (span : Rat) * codeVolt / rtVolt s k
    let te : Rat := fineSec (16 * eskew s k)
    let vi := vInVolt s k
    let vo := vOutVolt s k
    -- 0.01 µH a step
    let lm : Rat := if dI = 0 then Config.divByZero wh else ((vi - vo) * fineSec wh - vi * te) / dI * 100000000
    let upd (h : Health) : Health := { h with lEst := h.lEst + (lm - h.lEst) / (2 ^ lTc s k : Nat), lUpd := h.lUpd + 1 }
    judgeHealth t (s.modTile t fun ti => { ti with hea := upd ti.hea })

/-- The trim of a tile as it shows (R117). -/
def trimOf (ti : Tile) : Int := ashr ti.prot.trimAcc 16

/-- One resistance update of a counted tile with the given trim at a reference valley (R287); HEALTH judges it afterwards. A mean current of 0 leaves the
quotient open (log 9). -/
def updateR (t : TileId) (k : RailId) (mean trim : Int) (tm : Rat) (s : State) : State :=
  -- 0.01 mΩ a step
  let amps : Rat := (mean : Rat) * codeVolt / rtVolt s k
  let dR : Rat := if amps = 0 then Config.divByZero trim else ((trim : Rat) - tm) / 262144 * vInVolt s k / amps * 100000
  let upd (h : Health) : Health :=
    { h with rEst := h.rEst + ((rNom s t : Rat) + dR - h.rEst) / (2 ^ rTc s k : Nat), rUpd := h.rUpd + 1 }
  s.modTile t fun ti => { ti with hea := upd ti.hea }

/-- Resistance tracking at a reference valley, also in the cycle of a stop (R269, R287): every counted tile's estimate, then their bands. "No tile" is taken as no ACTIVE or
READY tile of the rail (log 152); a Leap-back holds the tracking as a Leap does (log 177). -/
def trackR (k : RailId) (s : State) : State :=
  let v := s.before k
  let ts := countedTiles v k
  let m := imean s k
  let atBound := (tilesOf s k).any fun t =>
    let ti := v.tile t
    (ti.act == .active || ti.act == .ready) &&
      (decide (ti.prot.trimAcc = trimMax s k * 65536) || decide (ti.prot.trimAcc = -(trimMax s k * 65536)))
  if railSt v k = .regulate ∧ 2 ≤ ts.length ∧ rmeasI s k ≤ m ∧ atBound = false ∧ leapActive v k = false then
    let tm : Rat := ((ts.foldl (fun a t => a + trimOf (v.tile t)) 0 : Int) : Rat) / ts.length
    ts.foldl (fun s t => judgeHealth t s) (ts.foldl (fun s t => updateR t k m (trimOf (v.tile t)) tm s) s)
  else s

/-- The estimates start again from the nominal values (R288). -/
def restartHealth (t : TileId) (s : State) : State :=
  s.modTile t fun ti => { ti with hea := { lEst := lNom s t, rEst := rNom s t } }

/-! ### Class bits (R271) -/

/-- RAIL_FAULT.CLASS_CLR: every class bit whose cause bit is clear (R271, R306); a record entry names what was cleared (R529). -/
def clearRailClass (h : HostId) (k : RailId) (s : State) : State :=
  let p := (s.rail k).prot
  let keep : BitVec 5 := BitVec.ofNat 5 p.fault.toNat
  let cleared := p.cls &&& ~~~keep
  if cleared = 0 then s
  else
    recordEntry 1 (word ((Reg.loop k .railFault).addr + cleared.toNat * 65536)) h
      (fsumChanged (s.modProt k fun p => { p with cls := p.cls &&& keep }))

/-- The class bits of a tile that its cause bits keep (R312). -/
def tileKeep (f : BitVec 8) : BitVec 5 :=
  BitVec.ofNat 5 (atB (f.getLsbD 0) 0 + atB (f.getLsbD 1 || f.getLsbD 2) 1 + atB (f.getLsbD 3) 2
    + atB (f.getLsbD 4 || f.getLsbD 5) 3 + atB (f.getLsbD 6 || f.getLsbD 7) 4)

/-- FAULT.CLASS_CLR of a tile (R271, R312). -/
def clearTileClass (h : HostId) (t : TileId) (s : State) : State :=
  let p := (s.tile t).prot
  let keep := tileKeep p.fault
  let cleared := p.cls &&& ~~~keep
  if cleared = 0 then s
  else
    recordEntry 1 (word ((Reg.tile t .fault).addr + cleared.toNat * 65536)) h
      (fsumChanged (s.modTile t fun ti => { ti with prot := { ti.prot with cls := ti.prot.cls &&& keep } }))

/-! ### Admission and exclusion (R291 to R294) -/

/-- A tile returns to its rail's set: COLD, reason ADMIT, detector counts cleared, estimates restarted (R294). -/
def readmit (t : TileId) (s : State) : State :=
  restartHealth t (s.modTile t fun ti =>
    let ti := ti.leave s.now .cold 7
    { ti with
      reqOut := false, reqPend := false
      prot := { ti.prot with ocHi := 0, ocLo := 0, ocPresent := false, openCnt := 0, rangeCnt := 0, flatCnt := 0 }
      trip := { ti.trip with run := 0, fired := false } })

/-- The port's sensor reads below its warning level, 0.5 °C a step, and is not broken (R292, R326). -/
def portCool (s : State) (t : TileId) : Bool :=
  let c := s.hk.ch.get ⟨(portOf t).val, by have := (portOf t).isLt; omega⟩
  let warn : Int := 8 * sfld (setWord s (.chCfg ⟨(portOf t).val, by have := (portOf t).isLt; omega⟩)) 9 0
  decide (c.value < warn) && !c.broken

/-- ADMIT is allowed in the tile's present state (R292). -/
def admitAllowed (s : State) (t : TileId) : Bool :=
  let ti := s.tile t
  (ti.prot.cls == 0 || armOpen s) &&
  match ti.act with
  | .active | .ready | .cold => false
  | .dropped => armOpen s && !ti.trip.latch
  | .excluded => ti.rail.isSome && (ti.reason == 6 || (ti.reason == 14 && portCool s t))

/-- The tile leaves its rail's set by an exclusion that is under way: accepted and waiting, or a fade (R293, R325). -/
def leaving (ti : Tile) : Bool :=
  ti.reqPend || match ti.fade with | .fadeOut _ .hostOut => true | .fadeOut _ .thermalOut => true | _ => false

/-- Tiles of rail k, other than t, that neither are out of its set nor are leaving it. -/
def staying (s : State) (k : RailId) (t : TileId) : List TileId :=
  (tilesOf s k).filter fun u => u != t && (s.tile u).act != .dropped && (s.tile u).act != .excluded && !leaving (s.tile u)

/-- EXCLUDE is allowed in the tile's present state, unless it would leave Q = 0 on a rail that runs (R292, R293). -/
def excludeAllowed (s : State) (t : TileId) : Bool :=
  let ti := s.tile t
  match ti.rail with
  | none => false
  | some k =>
    match ti.act with
    | .active | .ready | .cold => !((staying s k t).isEmpty && !railOut (railSt s k))
    | .dropped => true
    | .excluded => ti.reason == 14

/-- An accepted exclusion (R293): at once but for an ACTIVE tile, which waits for a reference valley at which the rail is not busy. -/
def excludeTile (t : TileId) (s : State) : State :=
  match (s.tile t).act with
  | .active => s.modTile t fun ti => { ti with reqOut := true, reqPend := true }
  | .ready | .cold =>
    match (s.tile t).rail with
    | none => s
    | some k =>
      let s := leapRemove t s
      settleChange k ((s.modTile t fun ti => { ti.leave s.now .excluded 6 with reqOut := true, reqPend := false }).modIlv k fun i =>
        { i with adding := if i.adding = some t then none else i.adding })
  | .dropped => s.modTile t fun ti => { ti.leave s.now .excluded 6 with reqOut := true, reqPend := false }
  | .excluded => s.modTile t fun ti => { ti with reason := 6, reqOut := true }

/-- A conditional ADMIT write (R291, R292, R315): action 1 ADMIT, 2 EXCLUDE; the claim has been judged. -/
def admitWrite (h : HostId) (t : TileId) (gen : BitVec 16) (action : Nat) (s : State) : State :=
  if action ≠ 1 ∧ action ≠ 2 then refuse h s
  else if gen ≠ (s.tile t).gen then
    refuse h (s.modTile t fun ti => { ti with cref := satInc ti.cref 255 })
  else if action = 1 then
    if admitAllowed s t then
      recordEntry 0 (word (t.val + 256 + gen.toNat * 65536)) h (readmit t s)
    else refuse h s
  else if excludeAllowed s t then
    recordEntry 0 (word (t.val + 512 + gen.toNat * 65536)) h (excludeTile t s)
  else refuse h s

end Sys2Proof.Machine
end

