-- ==== Sys2Proof/Machine/Telemetry.lean ====
section
/-! DEFINITION. Telemetry: samples, windows, held peaks and the energy count (R375 to R382). -/

namespace Sys2Proof.Machine

/-! ### Held peaks (R379, R380) -/

def Peak.judge (p : Peak) (x : Int) : Peak :=
  match p.last with
  | none => { hi := x, lo := x, last := some x }
  | some _ => { hi := max p.hi x, lo := min p.lo x, last := some x }

/-- A clear: the latest judged value, or 0 where there is none (R380). -/
def Peak.clear (p : Peak) : Peak := { p with hi := p.last.getD 0, lo := p.last.getD 0 }

def State.modRailPeaks (s : State) (k : RailId) (f : RailPeaks → RailPeaks) : State :=
  { s with tel := { s.tel with railPeaks := modVec s.tel.railPeaks k f } }
def State.modTilePeaks (s : State) (t : TileId) (f : TilePeaks → TilePeaks) : State :=
  { s with tel := { s.tel with tilePeaks := modVec s.tel.tilePeaks t f } }

/-- Rail power sample P = (VOUT × IR) >> 16 (R375). -/
def railPower (s : State) (k : RailId) : Int := ashr ((s.rail k).fe.vout * (s.rail k).mo.ir) 16

/-- Judged at every output-sense conversion. -/
def peakVolt (k : RailId) (s : State) : State := s.modRailPeaks k fun p => { p with v := p.v.judge (s.rail k).fe.vout }
/-- Judged at every reference valley. -/
def peakCurr (k : RailId) (s : State) : State :=
  s.modRailPeaks k fun p => { p with i := p.i.judge (s.rail k).mo.ir, p := p.p.judge (railPower s k) }
/-- Judged at every valley of a tile that is ACTIVE or READY with IAVG.VALID = 1. -/
def peakTile (t : TileId) (s : State) : State :=
  let ti := s.tile t
  if (ti.act == .active || ti.act == .ready) && ti.sen.valid then s.modTilePeaks t fun p => { p with i := p.i.judge ti.sen.itile }
  else s

/-- Every peak of the block is cleared (R380). -/
def clearPeaks (s : State) : State :=
  { s with tel := { s.tel with
      railPeaks := mapVec (fun _ p => { v := p.v.clear, i := p.i.clear, p := p.p.clear, t := p.t.clear }) s.tel.railPeaks
      tilePeaks := mapVec (fun _ p => { i := p.i.clear, t := p.t.clear }) s.tel.tilePeaks } }

/-! ### Samples and windows (R375 to R378) -/

/-- IR as telemetry counts it: 0 while the rail is OFF, SAFE or HICCUP (R375). -/
def telCurrent (s : State) (k : RailId) : Int := if railOut (railSt s k) then 0 else (s.rail k).mo.ir

/-- TEL_CFG.WIN_MS × 100 samples (R377). -/
def windowLen (s : State) : Nat := 100 * fld (setWord s .telCfg) 7 0

/-- ΔE in joules of a positive power sample (R382). -/
def energyStep (s : State) (k : RailId) (p : Int) : Rat :=
  (p : Rat) * 65536 * (codeVolt * (senseRatio s k : Rat) / 16) * (codeVolt / rtVolt s k) / 100000

/-- ΔE as the accumulator takes it: joules with 48 fraction bits (R382), rounded freely (log 70). -/
def energyBits (s : State) (k : RailId) (p : Int) : Int :=
  let q := energyStep s k p * 2 ^ 48
  quotFree q.num q.den

/-- 3.6 MJ in the accumulator's steps. -/
def kwhBits : Int := 3600000 * 2 ^ 48

/-- Energy of one sample of rail k; each 3.6 MJ moves into LIFE[k].ENERGY (R381, R382). -/
def addEnergy (k : RailId) (p : Int) (s : State) : State :=
  let e := s.tel.energy.get k + energyBits s k p
  let n := (e / kwhBits).toNat
  let s := { s with tel := { s.tel with energy := modVec s.tel.energy k fun _ => e - kwhBits * n } }
  (List.range n).foldl (fun s _ => lifeInc (finOf 73 (by decide) k.val) s) s

/-- One telemetry sample (R375). -/
def telSample (s : State) : State :=
  let cur := s.tel.cur
  let rails := mapVec (fun i (w : RailWindow) =>
    let k := railOf i
    if groupOn s k then
      let v := (s.rail k).fe.vout
      let c := telCurrent s k
      { w with n := w.n + 1, v := w.v + v, vin := w.vin + (s.rail k).fe.vinFast, i := w.i + c, p := w.p + ashr (v * c) 16 }
    else w) cur.rails
  let tiles := mapVec (fun i (w : TileWindow) =>
    let ti := s.tile (tileOf i)
    if (ti.act == .active || ti.act == .ready) && ti.sen.valid then { w with n := w.n + 1, i := w.i + ti.sen.itile } else w) cur.tiles
  let s := { s with tel := { s.tel with cur := { cur with rails := rails, tiles := tiles }, samples := s.tel.samples + 1 } }
  allRails.foldl (fun s k =>
    let p := ashr ((s.rail k).fe.vout * telCurrent s k) 16
    if groupOn s k && decide (0 < p) then addEnergy k p s else s) s

/-- TELEMETRY_SAMPLE, from the end of boot while CORE is powered (R375). -/
def telemetrySample (s : State) : State := if s.pwr.phase = .up then telSample s else s

/-- A transaction addresses the telemetry block (R378). -/
def telBusy (s : State) : Bool := match s.bus.txn with | some (_, true) => true | _ => false

/-- Publish a window that stands for `n` ended windows. -/
def publish (w : TelWindow) (n : Nat) (s : State) : State :=
  let q := (s.tel.seq + n) % 65536
  { s with tel := { s.tel with pub := { w with seq := q }, seq := q, wait := none } }

/-- TELEMETRY_SWAP: a deferred window is published once no transaction addresses the block (R378). -/
def telemetrySwap (s : State) : State :=
  if telBusy s then s
  else match s.tel.wait with
    | none => s
    | some w => publish w w.seq s

/-- TELEMETRY_WINDOW_END: the window is published, or waits for the transaction to end; a second one replaces it (R377, R378). One
deferred to a transaction that has ended is published first. -/
def telemetryWindowEnd (s : State) : State :=
  if s.pwr.phase = .up ∧ windowLen s ≤ s.tel.samples ∧ 0 < windowLen s then
    let s := telemetrySwap s
    let w := s.tel.cur
    let s := { s with tel := { s.tel with cur := {}, samples := 0 } }
    if telBusy s then
      match s.tel.wait with
      | none => { s with tel := { s.tel with wait := some { w with seq := 1 } } }
      | some o => { s with tel := { s.tel with wait := some { w with seq := o.seq + 1 }, skip := satInc s.tel.skip 255 } }
    else publish w 1 s
  else s

/-- The device is in RUN. -/
def inRun (s : State) : Bool := s.pwr.phase == .up && s.pwr.state == .run

/-- The whole seconds of RUN that have passed join those carried toward the next hour (R382; log 142). -/
def runSettle (s : State) : State :=
  if inRun s then
    let n := (s.now - s.pwr.runFrom) / secs 1
    { s with ka := { s.ka with hourSec := s.ka.hourSec + n }, pwr := { s.pwr with runFrom := s.pwr.runFrom + n * secs 1 } }
  else s

/-- HOUR_COUNT: each completed hour in RUN (R381, R382). -/
def hourCount (s : State) : State :=
  let t := runSettle s
  if inRun s && decide (3600 ≤ t.ka.hourSec) then lifeInc 24 { t with ka := { t.ka with hourSec := t.ka.hourSec - 3600 } } else s

end Sys2Proof.Machine
end

