-- ==== Sys2Proof/Machine/Tile.lean ====
section
/-! DEFINITION. Phase tiles: carriers, shadows and reload points, the minimum-pulse filter, trips, current samples, fades, and
the commands of chapter 2 that a carrier or a pin makes (R41 to R61, R84 to R87, R117, R242). -/

namespace Sys2Proof.Machine

/-! ### Carriers (R41, R42, R143, R145) -/

/-- F of R145 for a phase that may lie outside one period. -/
def phaseF (ph : Int) (prd frac : Nat) : Int := ashr (ph * (32 * prd + 2 * frac : Nat) + 32768) 16

/-- The peak that follows the latest valley. -/
def Carrier.nextPeak (c : Carrier) : Int := c.time + 16 * c.prd
/-- The valley that follows the latest peak. -/
def Carrier.nextValley (c : Carrier) : Int := c.time + c.hold + 16 * c.prd
/-- Hold ticks that the next peak will have (R42). -/
def Carrier.ticksDue (c : Carrier) : Nat := (c.acc + 2 * c.frac) / 16

/-- Change of F of the next glide step (R150). -/
def Carrier.stepSize (c : Carrier) : Int :=
  match c.glide with
  | none => 0
  | some g =>
    let at' (j : Nat) : Int := phaseF (g.p0 + ((j : Int) * g.move).tdiv 64) c.prd c.frac
    if g.steps < 64 then at' (g.steps + 1) - at' g.steps else 0

/-- Forward move of an incoming tile to its target phase, fine steps (R155). -/
def Carrier.jumpSize (c : Carrier) : Int :=
  match c.jump with
  | none => 0
  | some p => phaseF ((c.phase + (p + 65536 - c.phase) % 65536 : Nat) : Int) c.prd c.frac - phaseF c.phase c.prd c.frac

/-- A glide step is taken at the next peak: one settled at the valley before it, or, at a peak after the start of the glide,
one that no pause holds (R150, R153). -/
def Carrier.stepTaken (c : Carrier) (paused : Bool) : Bool :=
  match c.glide with
  | some g => decide (g.steps < 64) && !c.skipStep && (c.stepDue || !paused)
  | none => false

/-- The whole hold of the next peak, as it is settled at the valley before it (R50). -/
def Carrier.holdDue (c : Carrier) (paused : Bool) : Int :=
  16 * c.ticksDue + (if c.stepTaken paused then c.stepSize else 0) + c.corr + c.jumpSize

/-- The carrier reaches PRD: hold ticks, glide step, correction and jump of this peak. -/
def Carrier.toPeak (c : Carrier) (paused : Bool) : Carrier :=
  let took := c.stepTaken paused
  let glide := if took then c.glide.map fun g => { g with steps := min (g.steps + 1) 64 } else c.glide
  let phase : Nat := match c.jump with
    | some p => p
    | none =>
      match glide with
      | some g => if took then wrap 16 (g.p0 + ((g.steps : Int) * g.move).tdiv 64) else c.phase
      | none => c.phase
  { c with atPeak := true, time := c.nextPeak, holdTicks := c.ticksDue, hold := c.holdDue paused, acc := (c.acc + 2 * c.frac) % 16
           corr := 0, glide := glide, phase := phase, stepDue := false, skipStep := false, jump := none }

/-- The carrier stands at its valley x. -/
def Carrier.toValley (c : Carrier) (x : Int) : Carrier := { c with atPeak := false, time := x, hold := 0, holdTicks := c.ticksDue }

/-- The next glide step is settled at a valley, unless the glide is paused (R153). -/
def Carrier.settleStep (c : Carrier) (paused : Bool) : Carrier :=
  { c with stepDue := c.stepDue || (!paused && (match c.glide with | some g => decide (g.steps < 64) | none => false)) }

/-- Correction of a new period (R146): c, or c and one new period where c is below −1/16 of it. -/
def corrOf (phase prd frac prd' frac' : Nat) : Int :=
  let c := phaseF phase prd' frac' - phaseF phase prd frac
  let period : Int := (32 * prd' + 2 * frac' : Nat)
  if -period ≤ 16 * c then c else c + period

/-- A carrier that starts now at a phase after the origin valley `o`, with the period it is given and its accumulator at 0 (R42):
its first valley from now on is the one of R145, before it a peak with the hold ticks that the accumulator then gives. -/
def startCarrier (c : Carrier) (o : Int) (prd frac phase : Nat) (now : Int) : Carrier :=
  let period : Int := (32 * prd + 2 * frac : Nat)
  let first := o + phaseF phase prd frac
  let v := if period = 0 then first else first + ((now - first) / period + 1) * period
  let peak := v - 16 * prd - 16 * (2 * frac / 16 : Nat)
  let early := decide (now < peak)
  { c with
    running := true, atPeak := !early, time := if early then peak - 16 * prd else v - 16 * prd
    prd := prd, frac := frac, pend := none, coming := none, acc := 0, holdTicks := 0, hold := 0, corr := 0, phase := phase
    glide := none, stepDue := false, skipStep := false, jump := none }

/-- A PRD write that has completed by x becomes the pending one (R54). -/
def Carrier.land (c : Carrier) (x : Int) : Carrier :=
  match c.coming with
  | some p => if p.writtenAt ≤ x then { c with pend := some p, coming := none } else c
  | none => c

/-- A PRD change is pending at x (R54). -/
def Carrier.waits (c : Carrier) (x : Int) : Bool := (c.land x).pend.isSome

/-- The period that is in force once what is written has transferred (R54). -/
def Carrier.nextPeriod (c : Carrier) : Nat × Nat :=
  match c.coming <|> c.pend with
  | some p => (p.prd, p.frac)
  | none => (c.prd, c.frac)

/-- The PRD shadow meets a valley x (R54, R146): the change that transfers there, and the carrier with what still waits. -/
def Carrier.meet (c : Carrier) (x : Int) : Option PrdPend × Carrier :=
  let c := c.land (x - 32)
  match c.pend with
  | some p =>
    if p.writtenAt ≤ x - 32 then
      (some p, ({ c with prd := p.prd, frac := p.frac, pend := none, corr := c.corr + corrOf c.phase c.prd c.frac p.prd p.frac }).land x)
    else (none, c.land x)
  | none => (none, c.land x)

/-- A glide of rail k takes no steps now (R153). -/
def glidePaused (s : State) (k : RailId) : Bool :=
  let st := railSt s k
  st == .prepare || st == .softstart || st == .stopping || leapActive s k

/-! ### Slopes (R218) -/

/-- A rational shown as an integer; where the manual states no rounding, freely (log 8). -/
def ratFree (q : Rat) : Int := quotFree q.num q.den

/-- L_est of the Leap prediction, henries (R218, R288). -/
def lEstHenry (s : State) (k : RailId) (t : TileId) : Rat :=
  let h := (s.tile t).hea
  (if estEn s k && decide (2 ^ lTc s k ≤ h.lUpd) then h.lEst else (lNom s t : Rat)) / 100000000

/-- A slope in IC units per tick with 16 fraction bits, floored at one unit of them (R218). -/
def slopeOf (s : State) (k : RailId) (t : TileId) (volts : Rat) : Int :=
  let l := lEstHenry s k t
  max 1 (if l = 0 then Config.divByZero t.val else ratFree (volts / 600000000 / l * (rtVolt s k / codeVolt) * 65536))

def qUpOf (s : State) (k : RailId) (t : TileId) : Int := slopeOf s k t (vInVolt s k - vOutVolt s k)
def qDnOf (s : State) (k : RailId) (t : TileId) : Int := slopeOf s k t (vOutVolt s k)

/-- The slopes that the next Leap takes are recomputed, at every VIN_FAST update (R218). -/
def holdSlopes (k : RailId) (s : State) : State :=
  s.mapTiles fun t ti => if ti.rail == some k then { ti with slopeUp := qUpOf s k t, slopeDn := qDnOf s k t } else ti

/-! ### Low-side turn-on and diode emulation (R46, R242) -/

/-- The corrected sample in force at time x: each counts from 24 ticks after its instant (R242). -/
def TileSense.inForce (sen : TileSense) (x : Int) : Int := if sen.icAt + 384 ≤ x then sen.ic else sen.icPrev

/-- The low side turns on at x, unless diode emulation suppresses the pulse (R242); a low pulse that still runs goes on to its end. -/
def Tile.turnLowOn (ti : Tile) (x : Int) : Edges :=
  { ti.edg with
    lowOnAt := some x
    lo := if ti.emulating && decide (ti.sen.inForce x ≤ 0) then ti.edg.lo.filter fun p => decide (p.1 < x) else Wave.hold ti.edg.lo x true }

/-- A settle point that plans no high pulse while the low side is off: it turns on there, or DTF after the latest falling edge (R50). -/
def Tile.complement (ti : Tile) (x : Int) : Edges :=
  let e := ti.edg
  if lowAt e x || e.lo.any fun p => p.2 && decide (x < p.1) then e
  else ti.turnLowOn (match Wave.last e.hi false x with | some f => max x (f + dtf ti) | none => x)

/-! ### The minimum-pulse filter (R49, R50) -/

/-- The low-off before a high pulse that should rise at r, settled at p (R50): a low pulse lasts at least MINP, but one that diode
emulation has ended is over (R242). -/
def Tile.lowOffFor (ti : Tile) (r p : Int) : Int :=
  let off := max (r - dtr ti) p
  match ti.edg.lo with
  | (l, true) :: _ => max off (l + minp ti)
  | (f, false) :: _ => max off f
  | [] => off

/-- A high pulse is planned to rise at r, or later where the low side needs it (R46, R50). -/
def Tile.planPulse (ti : Tile) (r p : Int) : Tile :=
  let off := ti.lowOffFor r p
  { ti with edg := { ti.edg with plan := true, hi := Wave.hold ti.edg.hi (off + dtr ti) true, lo := Wave.hold ti.edg.lo off false
                                 settledRise := some (off + dtr ti), settledFall := none, forced := false } }

/-- No high pulse is planned at p (R50). -/
def Tile.planNone (ti : Tile) (p : Int) : Tile :=
  let ti := { ti with edg := { ti.edg with plan := false, settledRise := none, settledFall := none } }
  { ti with edg := ti.complement p }

/-- at_peak(P) of R50, with V the next valley. -/
def Tile.settlePeak (ti : Tile) (p v : Int) : Tile :=
  if highAt ti.edg p then ti
  else
    let h : Int := 16 * ti.duty.cmp + ti.duty.fine
    if ti.car.prd ≤ ti.duty.cmp then ti.planPulse p p
    else if h = 0 then ti.planNone p
    else if 2 * h < minp ti then
      if minpMode ti = .drop ∨ (minpMode ti = .split ∧ 4 * h < minp ti) then
        { ti with st := { ti.st with hsDrop := satInc ti.st.hsDrop 255 } }.planNone p
      else { ti with st := { ti.st with hsStr := satInc ti.st.hsStr 255 } }.planPulse (v - (minp ti + 1) / 2) p
    else ti.planPulse (v - h) p

/-- at_valley(V) of R50; `hold` is that of the next peak. -/
def Tile.settleValley (ti : Tile) (v hold : Int) : Tile :=
  let e := ti.edg
  if highAt e v = false ∧ e.plan = false then { ti with edg := ti.complement v }
  else if ti.car.prd ≤ ti.duty.cmp then ti
  else
    let h : Int := 16 * ti.duty.cmp + ti.duty.fine
    let rise := ((e.hi.find? fun p => p.2).map (·.1)).getD v
    let fall := max (v + h) (rise + minp ti)
    let wl := (v + 32 * ti.car.prd + hold - h) - dtr ti - (fall + dtf ti)
    if wl ≤ 0 ∧ minp ti = 0 then ti
    else
      let put (fall : Int) (ti : Tile) : Tile :=
        { ti with edg := { ti.turnLowOn (fall + dtf ti) with hi := Wave.hold ti.edg.hi fall false, settledFall := some fall, plan := false } }
      if wl < minp ti then
        if minpMode ti = .drop ∨ (minpMode ti = .split ∧ 2 * wl < minp ti) then
          { ti with st := { ti.st with lsDrop := satInc ti.st.lsDrop 255 } }
        else put (fall - (minp ti - wl + 1) / 2) { ti with st := { ti.st with lsStr := satInc ti.st.lsStr 255 } }
      else put fall ti

/-- The tile settles its pulses: ACTIVE on a switching rail, from V1 on, past the valley that follows its admission, and no rank 1
to 4 command or stop holds its outputs (R18, R19, R50, R239). -/
def settles (s : State) (k : RailId) (ti : Tile) (x : Int) : Bool :=
  isActive ti && switching (railSt s k) && !ti.leap.under && !ti.trip.latch && !ti.trip.resume && !ti.lowed && !ti.entering
    && decide ((s.rail k).seq.v1 ≤ x)

/-! ### Forced outputs (R57, R59, R61, R221, R228) -/

/-- The high side is forced on by a Leap detected at d, whose command reaches the tile at x. Where it is on at d, it simply stays on;
else no settled edge moves it any more (R217), while the low side follows its settled edges until x (R57, R216). -/
def Tile.forceHigh (ti : Tile) (d x : Int) : Edges :=
  let e := { ti.edg with lowOnAt := none, plan := false, forced := true }
  if highAt e d then { e with hi := Wave.upTo e.hi d, lo := Wave.upTo e.lo d }
  else
    let lo := Wave.upTo e.lo x
    if Wave.at lo x then { e with hi := Wave.hold (Wave.upTo e.hi d) (x + 16 + dtr ti) true, lo := Wave.hold lo (x + 16) false }
    else
      let r := match Wave.last lo false x with | some f => max (x + 16) (f + dtr ti) | none => x + 16
      { e with hi := Wave.hold (Wave.upTo e.hi d) r true, lo := lo }

/-- The low side is forced on by a command that reaches the tile at x; until the next tick both sides follow their settled edges
(R57, R228). Diode emulation judges the turn-on (R242). -/
def Tile.forceLow (ti : Tile) (x : Int) : Edges :=
  let n := x + 16
  let ti := { ti with edg := { ti.edg.cutHigh n with lo := Wave.upTo ti.edg.lo (n - 1) } }
  if highAt ti.edg (n - 1) then ti.turnLowOn (n + dtf ti)
  else if lowAt ti.edg (n - 1) then ti.edg
  else ti.turnLowOn (match Wave.last ti.edg.hi false n with | some f => max n (f + dtf ti) | none => n)

/-- Ticks with the forced side on since the response was detected, at x (R219, R228): whole ticks of the time that it has been on (log 168). -/
def Tile.forcedTicks (ti : Tile) (back : Bool) (x : Int) : Int :=
  Wave.onTime (if back then ti.edg.lo else ti.edg.hi) ti.leap.since x / 16

/-! ### Shadow transfer (R52 to R54) -/

/-- A late write is counted. -/
def Tile.late (ti : Tile) : Tile := { ti with st := { ti.st with lateCnt := satInc ti.st.lateCnt 65535, late := true } }

/-- A shadow write that has completed by x stands in the shadow (R52). -/
def Duty.land (d : Duty) (x : Int) : Duty :=
  match d.coming with
  | some w => if w.writtenAt ≤ x then { d with shdCmp := w.cmp, shdFine := w.fine, shdPend := true, shdAt := w.writtenAt, shdD := w.d, coming := none } else d
  | none => d

/-- The shadow takes a write that completes at x; the one before it stands there until then (R53). -/
def Duty.write (d : Duty) (cmp fine : Nat) (from' now x : Int) : Duty :=
  { d.land now with coming := some { cmp := cmp, fine := fine, writtenAt := x, d := from' } }

/-- The duty shadow meets a reload point x that RELOAD selects: what completed two ticks before it transfers, and a later write is
late (R52). -/
def Tile.takeDuty (ti : Tile) (x : Int) : Tile :=
  let d := ti.duty.land (x - 32)
  let d := if d.shdPend && decide (d.shdAt ≤ x - 32) then { d with cmp := d.shdCmp, fine := d.shdFine, shdPend := false } else d
  let d := d.land x
  let ti := { ti with duty := d }
  if d.shdPend then ti.late else ti

/-- Transfers of a valley: a PRD change with the duty shadow, or the duty shadow alone under VALLEY and BOTH (R52, R54, R146). Where a
PRD write misses the valley, that write alone counts LATE, not the duty write that waits for it (log 150). -/
def Tile.takeValley (ti : Tile) (x : Int) : Tile :=
  let (took, c) := ti.car.meet x
  let ti := { ti with car := c }
  if took.isSome then (if c.pend.isSome then (ti.takeDuty x).late else ti.takeDuty x)
  else if c.pend.isSome then ti.late
  else if reloadValley ti then ti.takeDuty x
  else ti

/-- One setting takes effect at the tile. -/
def Tile.putSetting (ti : Tile) (w : TileSetting × Word × Int) : Tile :=
  match w.1 with
  | .cfg => { ti with cfgNow := w.2.1 }
  | .deadtime => { ti with deadNow := w.2.1 }
  | .minp => { ti with minpNow := w.2.1 }
  | .tblank => { ti with blankNow := w.2.1 }

/-- Settings written at least two ticks before a valley take effect there, each by its own write (R55). -/
def Tile.takeSettings (ti : Tile) (x : Int) : Tile :=
  let ti' := (ti.setWait.filter fun w => decide (w.2.2 ≤ x - 32)).foldl Tile.putSetting ti
  { ti' with setWait := ti.setWait.filter fun w => decide (x - 32 < w.2.2) }

/-! ### From the rail's duty to the shadows (R115, R190) -/

/-- The fade factor in eighths; none where the tile does not fade. -/
def fadeFactor (ti : Tile) : Option Nat :=
  match ti.fade with
  | .none => none
  | .fadeIn f => some f
  | .fadeOut f _ => some f

/-- The tile as it will stand at the first reload point at which a duty shadow that completes at x transfers, looked for over n peaks
and valleys. -/
def Tile.reloadFrom (paused : Bool) (x : Int) : Nat → Tile → Tile
  | 0, ti => ti
  | n + 1, ti =>
    if ti.car.atPeak then
      let y := ti.car.nextValley
      let ti := ti.takeSettings y
      let (took, c) := ti.car.meet y
      if x + 32 ≤ y ∧ (took.isSome ∨ (c.pend.isNone ∧ reloadValley ti)) then { ti with car := c }
      else Tile.reloadFrom paused x n { ti with car := (c.toValley y).settleStep paused }
    else
      let y := ti.car.nextPeak
      let ti := { ti with car := ti.car.toPeak paused }
      if x + 32 ≤ y ∧ reloadPeak ti ∧ ti.car.waits y = false then ti else Tile.reloadFrom paused x n ti

/-- The period that will be active at the reload point where a duty shadow that completes at x transfers (R115). -/
def Tile.duePeriod (ti : Tile) (paused : Bool) (x : Int) : Nat × Nat :=
  if ti.car.running then
    let c := (Tile.reloadFrom paused x 64 ti).car
    (c.prd, c.frac)
  else ti.car.nextPeriod

/-- CMP and FINE of a tile for duty d, in a shadow that completes at x (R115, R190, R278). -/
def tileDuty (s : State) (k : RailId) (ti : Tile) (d x : Int) : Nat × Nat :=
  let (prd, frac) := ti.duePeriod (glidePaused s k) x
  let dt := sat (d + ashr ti.prot.trimAcc 16 * 64) (dmin s k * 512) ((s.rail k).prot.dthr * 512)
  let dt := match fadeFactor ti with | some f => ashr (dt * f) 3 | none => dt
  let h := (ashr (dt * (16 * prd + frac : Nat) + 8388608) 24).toNat
  if 16 * prd ≤ h then (prd, 0) else (h / 16, h % 16)

/-! ### CARRIER_PEAK -/

/-- A trip's period ends at a peak (R59, R60, R61, R619). -/
def Tile.endTripPeriod (ti : Tile) : Tile :=
  { ti with trip := { ti.trip with held := false, inPeriod := false, resume := false, lowHeld := false
                                   run := if ti.trip.inPeriod then ti.trip.run + 1 else 0
                                   fired := ti.trip.fired && ti.trip.inPeriod } }

/-- The edge pair and the pulse width of the period that ends at the peak x, of a pulse that no trip or Leap has cut (R85, R286). A pulse
whose settled end lies after x makes its pair in the next period (log 178). -/
def Tile.endPair (ti : Tile) (x : Int) : Tile :=
  if ti.edg.settledFall.any fun f => decide (x < f) then { ti with sen := { ti.sen with evalid := false, width := none } }
  else
    let whole := ti.edg.settledRise.isSome && ti.edg.settledFall.isSome && !ti.edg.forced
    let pair := match ti.sen.riseSample, ti.sen.fallSample with
      | some a, some b => if whole then some (a, b) else none
      | _, _ => none
    let width := match ti.edg.settledRise, ti.edg.settledFall with
      | some r, some f => if whole then some (f - r) else none
      | _, _ => none
    { ti with
      edg := { ti.edg with settledRise := none, settledFall := none, forced := false }
      sen := { ti.sen with
        imin := (pair.map (·.1)).getD ti.sen.imin, imax := (pair.map (·.2)).getD ti.sen.imax
        evalid := pair.isSome, pairSeen := ti.sen.pairSeen || pair.isSome, width := width
        riseSample := none, fallSample := none } }

/-- The TRIP source fires where the period that ends at a peak, ended by a trip, is the TRIP_N-th in a row (R619). -/
def tripPeriods (k : RailId) (t : TileId) (ended : Bool) (s : State) : State :=
  if ended && !(s.tile t).trip.fired && decide ((s.tile t).trip.run = tripN s k) then
    fireTile t .tripRep 1 false (s.modTile t fun ti => { ti with trip := { ti.trip with fired := true } })
  else s

/-- The forced outputs of a tile that rejoins a Leap or Leap-back at its peak x, after a trip, though not before the command has reached
it (R20, R216, R225, R228). -/
def Tile.rejoin (ti : Tile) (x : Int) (back : Bool) : Tile :=
  { ti with edg := if back then ti.turnLowOn (max (x + dtf ti) (ti.leap.since + 112)) else ti.forceHigh x (max x (ti.leap.since + 96)) }

/-- The edges since D still count: the tile is under a Leap, or is a READY tile in the low-side interval that follows (R219, R221). -/
def Tile.keepsEdges (ti : Tile) : Bool := ti.leap.under || (ti.act == .ready && ti.leap.lowFrom.isSome)

/-- A peak of a running carrier at x: the trip's hold ends, RELOAD may transfer the shadow, and the next rising edge is settled. A READY
tile released from a Leap while a trip held its low side off has its low-side interval from here (R60, R221). -/
def peakOf (s : State) (k : RailId) (ti : Tile) (x : Int) : Tile :=
  let back := (s.rail k).leap.state == .leapBack
  let lowBack := ti.trip.lowHeld
  let resumes := ti.trip.resume
  let rejoins := ti.leap.under && !ti.trip.latch && (resumes || (if back then lowBack else ti.trip.held))
  let ti := { ti with edg := if ti.keepsEdges then ti.edg else ti.edg.record x, car := ti.car.toPeak (glidePaused s k) }
  let ti := (ti.endPair x).endTripPeriod
  let ti := if reloadPeak ti && !ti.car.waits x then ti.takeDuty x else ti
  let ti := { ti with leap := { ti.leap with waiting := false } }
  if settles s k ti x then
    let ti := if lowBack && !lowAt ti.edg x then { ti with edg := ti.turnLowOn (x + dtf ti) } else ti
    ti.settlePeak x ti.car.nextValley
  else if rejoins then ti.rejoin x back
  else if ti.act = .ready ∧ ti.leap.lowFrom.isSome ∧ ti.trip.latch = false then
    if lowBack then { ti with edg := ti.turnLowOn (x + dtf ti) }
    else if resumes then { ti with edg := ti.complement x }
    else ti
  else ti

/-- The tile's rail has been stopped in the present cycle; its detectors still judge (R269). -/
def stoppedNow (s : State) (ti : Tile) : Bool := match ti.was with | some w => w.cycle == cycleOf s | none => false

/-- A peak that would have come in the cycle of the rail's stop still ends a tripped period for TRIP_N (R269, R619). -/
def lastPeak (t : TileId) (s : State) : State :=
  match (s.tile t).rail with
  | none => s
  | some k =>
    let ti := (s.before k).tile t
    if ti.car.running && !ti.car.atPeak && !(s.tile t).car.running && decide (ti.car.nextPeak / 128 = (cycleOf s : Int)) then
      let ended := ti.trip.inPeriod || (s.tile t).trip.inPeriod
      let s := (s.advance ti.car.nextPeak).modTile t fun x =>
        { x with trip := { x.trip with run := if ended then x.trip.run + 1 else 0, inPeriod := false } }
      tripPeriods k t ended s
    else s

/-- A tile carrier reaches PRD. The trip's hold ends, RELOAD may transfer the shadow, and the next rising edge is settled. -/
def carrierPeak (t : TileId) (s : State) : State :=
  let ti := s.tile t
  match ti.rail with
  | none => s
  | some k =>
    if !ti.car.running then lastPeak t s
    else if ti.car.atPeak then s
    else
      let x := ti.car.nextPeak
      let s := s.advance x
      tripPeriods k t ti.trip.inPeriod (s.modTile t fun ti => peakOf s k ti x)

/-! ### CARRIER_VALLEY, stage by stage -/

/-- Time, settings and transfers of the valley. -/
def valleyTake (t : TileId) (x : Int) (s : State) : State :=
  s.modTile t fun ti =>
    let ti := ({ ti with edg := if ti.keepsEdges then ti.edg else ti.edg.record x }.takeSettings x).takeValley x
    { ti with car := ti.car.toValley x }

/-- A stop drives both outputs low from the tile's valley (R250). -/
def valleyStop (k : RailId) (t : TileId) (x : Int) (s : State) : State :=
  if railSt s k = .stopping ∧ (s.rail k).seq.stopReached then s.modTile t fun ti => { ti with edg := ti.edg.halt x, lowed := true } else s

/-- ITILE is formed (R87). -/
def valleyCurrent (t : TileId) (s : State) : State :=
  s.modTile t fun ti =>
    match ti.sen.iv, ti.sen.ip with
    | some a, some b => { ti with sen := { ti.sen with itile := ashr (a + b) 1, valid := true } }
    | _, _ => ti

/-- IMEAN is formed anew at a valley of a counted tile (R116). -/
def valleyMean (k : RailId) (t : TileId) (s : State) : State :=
  if counted (s.tile t) then s.modEng k fun e => { e with imean := meanNow s k } else s

/-- The balance integrator (R117). -/
def valleyBalance (k : RailId) (t : TileId) (s : State) : State :=
  let run := balEn s k && counted (s.tile t) && decide (2 ≤ (countedTiles s k).length) && !leapActive s k
  let bound := trimMax s k * 65536
  let m := imean s k
  s.modTile t fun ti =>
    let acc := if run then sat (ti.prot.trimAcc + (m - ti.sen.itile) * kb s k) (-bound) bound else ti.prot.trimAcc
    { ti with prot := { ti.prot with trimAcc := acc } }

/-- Inductance tracking of the period that ended (R286), also in the cycle of a stop (R269). -/
def valleyHealth (k : RailId) (t : TileId) (s : State) : State :=
  let ti := (s.before k).tile t
  let s' := s.modTile t fun ti => { ti with sen := { ti.sen with width := none } }
  match ti.sen.width with
  | none => s'
  | some w =>
    if isActive ti && !isFading ti && !ti.leap.under && ti.sen.evalid && decide (0 < ti.sen.imin)
        && decide (ripMin s k ≤ ti.sen.imax - ti.sen.imin) then updateL t w s'
    else s'

/-- Detectors of the valley (R280, R281): EVALID tells of the period that ended at the peak before it. -/
def valleyDetect (t : TileId) (s : State) : State := judgeOpenSense t (s.tile t).sen.evalid (peakTile t s)

/-- Diode emulation ends at the tile's first valley after its end condition (R241). -/
def valleyEmulation (k : RailId) (t : TileId) (s : State) : State :=
  if (s.rail k).seq.deEnded ∧ railSt s k ≠ .stopping then s.modTile t fun ti => { ti with emulating := false } else s

/-- A fade-out ends: the tile leaves ACTIVE (R189, R293, R325); a re-spacing glide is due where it still held its slot (R154, R155).
Only an exclusion can leave Q = 0 (R326). -/
def fadeEnd (k : RailId) (t : TileId) (goal : FadeGoal) (s : State) : State :=
  let slot := (s.tile t).slot
  let s := s.modTile t fun ti =>
    match goal with
    | .thermalOut => { ti.leave s.now .excluded 14 with reqPend := false }
    | .hostOut => { ti.leave s.now .excluded 6 with reqPend := false }
    | .ready =>
      if ti.reqPend then { ti.leave s.now .excluded 6 with reqPend := false }
      else if readyT s k = 0 then { (ti.setAct .ready 2).leave s.now .cold 3 with leftAt := s.now }
      else { ti.setAct .ready 2 with edg := ti.edg.halt s.now, readyAt := s.now, leftAt := s.now, emulating := false }
  let s := if slot.isSome then (closeSlot k slot s).modIlv k fun i => { i with respaceDue := true } else s
  noTileLeft k 7 s

/-- The fade factor advances at the tile's valley (R190), not while the tile is under Leap. -/
def valleyFade (k : RailId) (t : TileId) (s : State) : State :=
  let ti := s.tile t
  if ti.leap.under then s
  else
    match ti.fade with
    | .none => s
    | .fadeIn f => s.modTile t fun ti => { ti with fade := if 8 ≤ f + 1 then .none else .fadeIn (f + 1) }
    | .fadeOut 0 goal => fadeEnd k t goal s
    | .fadeOut (f + 1) goal => s.modTile t fun ti => { ti with fade := .fadeOut f goal }

/-- A shadow that the tile stage has yet to convert takes the trim and the fade factor of the valley x (R107, R117); where the factor
has moved, every shadow that waits is converted with it (R190). -/
def valleyConvert (k : RailId) (t : TileId) (x : Int) (moved : Bool) (s : State) : State :=
  s.modTile t fun ti =>
    let d := ti.duty
    let d := match d.coming with
      | some w =>
        if moved ∨ x ≤ w.writtenAt - 544 then
          let (cmp, fine) := tileDuty s k ti w.d w.writtenAt
          { d with coming := some { w with cmp := cmp, fine := fine } }
        else d
      | none => d
    let d := if moved && d.shdPend then
        let (cmp, fine) := tileDuty s k ti d.shdD d.shdAt
        { d with shdCmp := cmp, shdFine := fine }
      else d
    { ti with duty := d }

/-- The next glide step and the pulses are settled (R50, R153). -/
def valleySettle (k : RailId) (t : TileId) (x : Int) (s : State) : State :=
  let paused := glidePaused s k
  s.modTile t fun ti =>
    if ti.car.running then
      let ti := { ti with car := ti.car.settleStep paused, entering := false, leap := { ti.leap with waiting := false } }
      if settles s k ti x && !ti.trip.lowHeld then
        if (s.rail k).seq.v1 < x then ti.settleValley x (ti.car.holdDue paused) else { ti with edg := ti.complement x }
      else ti
    else ti

/-- A valley that would have come in the cycle of the rail's stop is still judged (R269). -/
def lastValley (k : RailId) (t : TileId) (s : State) : State :=
  let ti := (s.before k).tile t
  if ti.car.running && ti.car.atPeak && !(s.tile t).car.running && decide (ti.car.nextValley / 128 = (cycleOf s : Int)) then
    valleyHealth k t (valleyDetect t (valleyCurrent t (s.advance ti.car.nextValley)))
  else s

/-- A tile carrier reaches 0. -/
def carrierValley (t : TileId) (s : State) : State :=
  let ti := s.tile t
  match ti.rail with
  | none => s
  | some k =>
    if !ti.car.running then lastValley k t s
    else if !ti.car.atPeak then s
    else
      let x := ti.car.nextValley
      let s := valleyTake t x (s.advance x)
      let s := valleyBalance k t (valleyMean k t (valleyCurrent t (valleyStop k t x s)))
      let s := valleyHealth k t (valleyDetect t s)
      let fade := (s.tile t).fade
      let s := valleyFade k t (valleyEmulation k t s)
      let s := if (s.tile t).act == .active || (s.tile t).act == .ready then valleyConvert k t x ((s.tile t).fade != fade) s else s
      valleySettle k t x s

/-! ### Trips (R58 to R61) -/

/-- The sample of a tick lies inside blanking: within TBLANK ticks after an edge of either output (R58). -/
def blankedAt (ti : Tile) (tick : Int) : Bool := ti.edg.edgeIn (tick - tblank ti) (tick - 1)

/-- Three consecutive samples, the last at this tick, all lie outside blanking (R59). -/
def tripClear (ti : Tile) (tick : Int) : Bool :=
  !blankedAt ti tick && !blankedAt ti (tick - 1) && !blankedAt ti (tick - 2)

/-- A trip that ends, at n, the high pulse which a READY tile's release from a Leap left running shortens the on-time that its low-side
interval is predicted from (R221). -/
def Tile.recount (ti : Tile) (n : Int) : Tile :=
  if ti.act = .ready ∧ ti.leap.lowFrom.isSome ∧ highAt ti.edg (n - 1) then
    { ti with leap := { ti.leap with onTotal := (ti.forcedTicks false n).toNat } }
  else ti

/-- A latched trip at next-tick time n (R61, R619): both outputs low, LATCH, the TRIP source fires with detail 9. -/
def tripLatch (t : TileId) (n : Int) (s : State) : State :=
  let s := leapRemove t s
  let s := s.modTile t fun ti =>
    { ti.recount n with edg := (ti.edg.cutHigh n).cutLow n
                        trip := { ti.trip with latch := true, held := true, resume := false, count := satInc ti.trip.count 65535 } }
  fireTile t .tripRep 9 true s

/-- The low side has gone off for a high pulse that is still to come at n or later. -/
def Edges.gaveWay (e : Edges) (dtr n : Int) (forced : Bool) : Bool :=
  e.hi.any fun p => p.2 && decide (n ≤ p.1) && Wave.last e.lo false (n - 1) == some (p.1 - dtr) && (forced || e.settledRise == some p.1)

/-- The outputs after a cycle-by-cycle trip at next-tick time n (R59, R60). With the high side off and TRIP_LS = 0, a low side that is on
stays on, one that went off for the pulse that is not started turns on again, and one that diode emulation ended stays off. A READY tile
under Leap keeps its low side off until its release or rejoining (R56, log 167); one that has been released has its low-side interval
DTF after the forced fall (R221). -/
def Tile.tripCut (ti : Tile) (n : Int) : Tile :=
  let was := highAt ti.edg (n - 1)
  let gave := ti.edg.gaveWay (dtr ti) n ti.leap.under
  let ti := { ti.recount n with edg := ti.edg.cutHigh n, trip := { ti.trip with held := true, lowHeld := tripLs ti } }
  if tripLs ti then { ti with edg := ti.edg.cutLow n }
  else if !isActive ti then (if was && ti.leap.lowFrom.isSome then { ti with edg := ti.turnLowOn (n + dtf ti) } else ti)
  else if was then { ti with edg := ti.turnLowOn (n + dtf ti) }
  else
    let ti := { ti with edg := { ti.edg with lo := ti.edg.lo.filter fun p => decide (p.1 < n) || p.2 } }
    if gave then { ti with edg := ti.complement n } else ti

/-- A cycle-by-cycle trip (R59, R60): once per period it counts. -/
def tripCycle (t : TileId) (n : Int) (s : State) : State :=
  let first := !(s.tile t).trip.inPeriod
  let s := s.modTile t fun ti => ti.tripCut n
  if first then
    let s := s.modTile t fun ti =>
      { ti with trip := { ti.trip with inPeriod := true, count := satInc ti.trip.count 65535 } }
    occur t.val (tileDetail s t 0 false) s
  else s

/-- TRIP_RECOGNISED at tick: the third consecutive sample outside blanking with the pin at the level of TRIP_POL (R59, R63). A latched
tile that trips again counts and fires again (R61). -/
def tripRecognised (t : TileId) (tick : Nat) (s : State) : State :=
  let ti := s.tile t
  match ti.rail with
  | none => s
  | some k =>
    if (ti.act == .active || ti.act == .ready || stoppedNow s ti) && tripEn ti && tripClear ti tick then
      let s := s.advance (16 * tick)
      let s := lifeInc (finOf 73 (by decide) (25 + t.val)) s
      let s := s.modTile t fun ti => { ti with trip := { ti.trip with active := true } }
      if tripLatched ti then tripLatch t (16 * tick + 16) s else tripCycle t (16 * tick + 16) s
    else s

/-! ### Low-side ends (R221, R242) -/

/-- LOW_SIDE_FORCE_END: the predicted current of a released READY tile has reached zero. -/
def lowSideForceEnd (t : TileId) (tick : Nat) (s : State) : State :=
  let ti := s.tile t
  match ti.leap.lowFrom with
  | none => s
  | some r =>
    let i := ti.leap.i0 * 65536 + ti.leap.qUp * ti.leap.onTotal - ti.leap.qDn * (((16 * tick : Nat) : Int) - r).tdiv 16
    if ti.act = .ready ∧ i ≤ 0 then
      (s.advance (16 * tick)).modTile t fun ti =>
        { ti with edg := ti.edg.cutLow (16 * tick), leap := { ti.leap with lowFrom := none } }
    else s

/-- Diode emulation ends the low pulse that is on at x in the next tick, or as settled where that is sooner; the next high pulse keeps
DTR after that (R242). -/
def Tile.endLow (ti : Tile) (x : Int) : Edges :=
  let lo := Wave.endPulse ti.edg.lo (x + 16)
  let off := (Wave.last lo false (x + 16)).getD (x + 16)
  { ti.edg with lo := lo, hi := ti.edg.hi.map fun p => if p.2 = true ∧ x < p.1 then (max p.1 (off + dtr ti), true) else p }

/-- DE_LOW_SIDE_OFF: diode emulation ends a low pulse whose predicted current has reached zero (R242). -/
def deLowSideOff (t : TileId) (tick : Nat) (s : State) : State :=
  let ti := s.tile t
  match ti.rail with
  | none => s
  | some k =>
    let x : Int := 16 * tick
    let from' := if ti.sen.icAt + 384 ≤ x then ti.sen.icAt else ti.sen.icPrevAt
    let i := ti.sen.inForce x * 65536 - qDnOf s k t * ((x - from') / 16)
    if ti.emulating && isActive ti && lowAt ti.edg x && decide (i ≤ 0) then
      (s.advance x).modTile t fun ti => { ti with edg := ti.endLow x }
    else s

/-! ### Current samples (R84 to R86) -/

/-- The tick of an instant. -/
def tickOf (x : Int) : Int := x / 16 * 16

/-- The instant of an edge sample, ESKEW ticks before the settled edge, where it keeps 24 ticks from the valley and peak samples around
it (R84, R85). -/
def edgeSampleAt (s : State) (k : RailId) (c : Carrier) (edge : Int) : Option Int :=
  let x := tickOf (edge - 16 * eskew s k)
  if tickOf c.time + 384 ≤ x ∧ x + 384 ≤ tickOf (if c.atPeak then c.nextValley else c.nextPeak) then some x else none

/-- The instant of a sample, none where R85 omits it. -/
def sampleAt (s : State) (k : RailId) (ti : Tile) (which : SampleKind) : Option Int :=
  let c := ti.car
  match which with
  | .valley => some (tickOf (if c.atPeak then c.nextValley else c.time))
  | .peak => some (tickOf (if c.atPeak then c.time else c.nextPeak))
  | .rising => if ti.edg.forced || ti.leap.under then none else ti.edg.settledRise.bind (edgeSampleAt s k c)
  | .falling =>
    if ti.edg.settledRise.isNone || ti.edg.forced || ti.leap.under then none else ti.edg.settledFall.bind (edgeSampleAt s k c)

/-- The corrected sample (R86). -/
def icOf (s : State) (t : TileId) (r : Nat) : Int :=
  sat (ashr ((16 * (r : Int) - icalOffset s t) * icalGain s t) 15) (-32768) 32767

/-- A sample replaces i_s, which may change the turn-on it comes in time for (R242). -/
def Tile.rejudgeDe (ti : Tile) (now : Int) : Tile :=
  match ti.edg.lowOnAt with
  | none => ti
  | some x =>
    if ti.emulating && decide (now < x) then
      { ti with edg := { ti.edg with lo := if ti.sen.inForce x ≤ 0 then ti.edg.lo.filter fun p => p.1 != x else Wave.put ti.edg.lo x true } }
    else ti

/-- TILE_CURRENT_SAMPLE: a conversion completes and is corrected, and OCT judges it. -/
def tileCurrentSample (t : TileId) (which : SampleKind) (r : BitVec 12) (s : State) : State :=
  let ti := s.tile t
  match ti.rail with
  | none => s
  | some k =>
    if (ti.act == .active || ti.act == .ready) && ti.car.running then
      match sampleAt s k ti which with
      | none => s
      | some x =>
        let s := s.advance x
        let ic := icOf s t r.toNat
        let s := s.modTile t fun ti =>
          let sen := { ti.sen with ic := ic, icAt := x, icPrev := ti.sen.ic, icPrevAt := ti.sen.icAt, raws := pushKeep 4 r.toNat ti.sen.raws }
          let sen := match which with
            | .valley => { sen with iv := some ic }
            | .peak => { sen with ip := some ic }
            | .rising => { sen with riseSample := some ic }
            | .falling => { sen with fallSample := some ic }
          ({ ti with sen := sen }).rejudgeDe s.now
        judgeOct t ic s
    else if stoppedNow s ti then judgeOct t (icOf s t r.toNat) s
    else s

/-! ### The rows -/

def execCarrierPeak (t : TileId) (s : State) : Host.Outcome State Fault Refusal := .next (carrierPeak t s)
def execCarrierValley (t : TileId) (s : State) : Host.Outcome State Fault Refusal := .next (carrierValley t s)
def execTripRecognised (t : TileId) (tick : Nat) (s : State) : Host.Outcome State Fault Refusal := .next (tripRecognised t tick s)
def execLowSideForceEnd (t : TileId) (tick : Nat) (s : State) : Host.Outcome State Fault Refusal := .next (lowSideForceEnd t tick s)
def execDeLowSideOff (t : TileId) (tick : Nat) (s : State) : Host.Outcome State Fault Refusal := .next (deLowSideOff t tick s)
def execTileCurrentSample (t : TileId) (which : SampleKind) (r : BitVec 12) (s : State) : Host.Outcome State Fault Refusal :=
  .next (tileCurrentSample t which r s)

end Sys2Proof.Machine
end

