-- ==== Sys2Proof/Machine/Leap.lean ====
section
/-! DEFINITION. Leap and Leap-back: detection, forcing, release and hold-off (R211 to R234), and the admission order of R148. -/

namespace Sys2Proof.Machine

/-! ### Rotation list and admission order (R147, R148) -/

/-- Insert by rising key; equal keys keep their order. -/
def insertBy {α : Type} (key : α → Nat) (a : α) : List α → List α
  | [] => [a]
  | b :: bs => if key a < key b then a :: b :: bs else b :: insertBy key a bs

/-- Sorted by rising key. -/
def sortBy {α : Type} (key : α → Nat) (l : List α) : List α := l.foldl (fun acc a => insertBy key a acc) []

/-- Place of an element in a list. -/
def indexIn {α : Type} [BEq α] (a : α) : List α → Nat
  | [] => 0
  | b :: bs => if a == b then 0 else indexIn a bs + 1

/-- Place of a tile in its rail's rotation list, counted from ROT_PTR. -/
def rotPlace (s : State) (k : RailId) (t : TileId) : Nat :=
  let l := tilesOf s k
  let n := l.length
  if n = 0 then 0 else (indexIn t l + n - (s.rail k).ilv.rotPtr % n) % n

/-- Key of the admission order: READY first, then tiles never ACTIVE since boot in list order, then those that left earliest (R148);
of two that left in the same instant the lower tile number goes first (log 126). -/
def admitKey (s : State) (k : RailId) (t : TileId) : Nat :=
  let ti := s.tile t
  (if ti.act = .ready then 0 else 2 ^ 101) + (if ti.wasActive then 2 ^ 100 + ti.leftAt else rotPlace s k t)

/-- Tiles that an admission can take, first choice first (R148, R188). -/
def admitOrder (s : State) (k : RailId) : List TileId :=
  sortBy (admitKey s k) ((tilesOf s k).filter fun t =>
    (s.tile t).act == .ready || ((s.tile t).act == .cold && bankOn s t))

/-! ### Detection (R212 to R215, R226, R227) -/

/-- e_L and S of the latest window sample, where four earlier ones are held (R212). -/
def leapTerms (f : FrontEnd) : Option (Int × Int) :=
  match f.window with
  | (w0, d0) :: _ :: _ :: _ :: (w4, d4) :: _ => some (-w0, 256 * (w0 - w4) + 75 * (d0 - d4))
  | _ => none

/-- The conditions of R213. -/
def leapHolds (s : State) (k : RailId) : Bool :=
  let j := (s.rail k).mo.lset
  match leapTerms (s.rail k).fe with
  | some (e, d) => leapEn s k && decide (leapV s k j < e) && decide (d < -16 * leapS s k j)
  | none => false

/-- The conditions of R227. -/
def backHolds (s : State) (k : RailId) : Bool :=
  let j := (s.rail k).mo.lset
  match leapTerms (s.rail k).fe with
  | some (e, d) => lbEn s k && decide (leapV s k j < -e) && decide (16 * leapS s k j < d)
  | none => false

/-- Release positions: the slots from s0 on, then the READY tiles under the Leap in admission order (R220); an ACTIVE tile without a
slot comes after them (log 127). -/
def leapPos (s : State) (k : RailId) (s0 n : Nat) (takes : TileId → Bool) (t : TileId) : Nat :=
  match (s.tile t).slot with
  | some j => if n = 0 then 0 else (j + n - s0 % n) % n
  | none => n + indexIn t ((admitOrder s k).filter fun u => (s.tile u).act == .ready && takes u)

/-- A tile comes under a Leap or Leap-back detected at d; the command reaches it 6 ticks later (R215, R216; for Leap-back log 128).
It takes the slopes held at d (R218). A tile held off by a trip, or waiting for its peak after a cleared latch, is forced on from
there. -/
def Tile.under (ti : Tile) (d : Int) (pos : Nat) (back : Bool) : Tile :=
  let x := d + 96
  let ti := { ti with edg := ti.edg.record d }
  { ti with
    edg := if back then (if ti.trip.lowHeld || ti.trip.resume then ti.edg.cutHigh (x + 16) else ti.forceLow x)
           else if ti.trip.held || ti.trip.resume then ti.edg else ti.forceHigh d x
    leap := { under := true, i0 := if ti.sen.valid then ti.sen.itile else 0, qUp := ti.slopeUp, qDn := ti.slopeDn, pos := pos,
              since := d, lowFrom := none, onTotal := 0, waiting := false } }

/-- The tile fades out for a thermal exclusion (R325). -/
def thermalFade (ti : Tile) : Bool := match ti.fade with | .fadeOut _ .thermalOut => true | _ => false

/-- A Leap or Leap-back is detected at D, the present instant (R214, R215, R218, R223). Tiles that fade
out for a thermal exclusion go low at once and take no part (R325). -/
def leapDetect (k : RailId) (back : Bool) (s : State) : State :=
  let d := nowI s
  let n := nOf s k
  let lp := (s.rail k).leap
  let s0 := if n = 0 then 0 else lp.first % n
  let takes (t : TileId) : Bool :=
    let ti := s.tile t
    ti.rail == some k && !ti.trip.latch && !thermalFade ti && (ti.act == .active || (!back && ti.act == .ready))
  let under := allTiles.filter takes
  let prd := (s.rail k).car.prd
  let sp := if n = 0 then (if under.length = 0 then 0 else 2 * prd / under.length) else 2 * prd / n
  let s1 := s.mapTiles fun t ti => if takes t then ti.under d (leapPos s k s0 n takes t) back else ti
  let s1 := s1.modRail k fun r =>
    { r with leap := { r.leap with
        state := if back then .leapBack else .leap, detAt := d, errRelease := none, spacing := sp, tmaxSeen := false
        first := if n = 0 then r.leap.first else (s0 + 1) % n
        yPre := r.eng.yLast
        cntLeap := if back then r.leap.cntLeap else satInc r.leap.cntLeap 65535
        cntBack := if back then satInc r.leap.cntBack 255 else r.leap.cntBack } }
  let s1 := if back then s1 else lifeInc (finOf 73 (by decide) (16 + k.val)) s1
  let s1 := occur (56 + k.val) (word (atB back 0 + at_ s0 6 8 + at_ n 6 16 + at_ under.length 8 24)) s1
  let hot := (tilesOf s k).filter fun t => thermalFade (s.tile t)
  leapCheck k none (hot.foldl (fun s t => removeTile t .excluded 14 s) s1)

/-- What the Leap detector does at a window sample (R211, R213, R220, R224, R227). -/
def leapSample (k : RailId) (s : State) : State :=
  let steadyNow := steady (railSt s k)
  let s := if (s.rail k).leap.state = .holdoff ∧ leapHoldoff s k = 0 then s.modLeap k fun l => { l with state := .idle } else s
  match (s.rail k).leap.state with
  | .idle =>
    if steadyNow && leapHolds s k then leapDetect k false s
    else if steadyNow && backHolds s k then leapDetect k true s
    else s
  | .holdoff =>
    if steadyNow && (leapHolds s k || backHolds s k) && !(s.rail k).leap.missedNow then
      s.modLeap k fun l => { l with missedNow := true, cntMissed := satInc l.cntMissed 255 }
    else s
  | .leap =>
    match (s.rail k).fe.window with
    | (w, _) :: _ =>
      if (s.rail k).leap.errRelease.isNone && decide (-w < relV s k (s.rail k).mo.lset) then
        s.modLeap k fun l => { l with errRelease := some (nowI s) }
      else s
    | [] => s
  | .leapBack =>
    match (s.rail k).fe.window with
    | (w, _) :: _ =>
      if (s.rail k).leap.errRelease.isNone && decide (w < relV s k (s.rail k).mo.lset) then
        s.modLeap k fun l => { l with errRelease := some (nowI s) }
      else s
    | [] => s

/-! ### Release (R219 to R222, R228) -/

/-- Why a tile under Leap is released at time x: 0 CURRENT or floor, 1 ERROR, 2 TMAX (R219, R228). -/
def releaseCause (s : State) (k : RailId) (ti : Tile) (x : Int) : Option Nat :=
  let lp := (s.rail k).leap
  let on := ti.forcedTicks (lp.state == .leapBack) x
  let reached :=
    if lp.state = .leapBack then decide (ti.leap.i0 * 65536 - ti.leap.qDn * on ≤ lbFloor s k * 65536)
    else decide (leapImax s k * 65536 ≤ ti.leap.i0 * 65536 + ti.leap.qUp * on)
  if reached then some 0
  else if lp.detAt + 16 * leapTmax s k ≤ x then some 2
  else match lp.errRelease with
    | some tr => if tr + 16 * (ti.leap.pos * lp.spacing : Nat) ≤ x then some 1 else none
    | none => none

/-- The outputs of a tile released from a Leap at tick-time x (R221). A pulse that has begun, or begins before the next tick, lasts at
least MINP. A READY tile has its low-side interval, at once or from the peak at which a trip's hold ends; its on-time counts to the end
of its pulse. -/
def Tile.releaseHigh (ti : Tile) (x : Int) : Tile :=
  let n := x + 16
  let ran := highAt ti.edg (n - 1)
  let fall := if ran then max n (match Wave.last ti.edg.hi true (n - 1) with | some r => r + minp ti | none => n) else n
  let ti := { ti with edg := ti.edg.cutHigh fall }
  let ti := { ti with
    leap := { ti.leap with under := false, waiting := true
                           lowFrom := if ti.act = .ready then some x else ti.leap.lowFrom
                           onTotal := if ti.act = .ready then (ti.forcedTicks false fall).toNat else ti.leap.onTotal } }
  if ran then { ti with edg := ti.turnLowOn (fall + dtf ti) }
  else if ti.trip.lowHeld || ti.trip.resume then ti
  else { ti with edg := ti.complement n }

/-- LEAP_TILE_RELEASE at tick: the first tick from D + 7 on at which R219 or R228 releases the tile. -/
def leapTileRelease (t : TileId) (tick : Nat) (s : State) : State :=
  let ti := s.tile t
  let x : Int := 16 * tick
  match ti.rail with
  | none => s
  | some k =>
    if ti.leap.under && leapActive s k && decide ((s.rail k).leap.detAt + 112 ≤ x) then
      match releaseCause s k ti x with
      | none => s
      | some c =>
        let back := (s.rail k).leap.state == .leapBack
        let s := s.advance x
        let s := s.modTile t fun ti =>
          if back then { ti with edg := ti.edg.cutLow (x + 16), leap := { ti.leap with under := false, waiting := true } }
          else ti.releaseHigh x
        let s := if c = 2 then s.modLeap k fun l => { l with tmaxSeen := true } else s
        resumeStop occur k (leapCheck k (some c) s)
    else s

/-- LEAP_HOLDOFF_EXPIRY: the detector re-arms HOLDOFF after the end of the response (R224). -/
def leapHoldoffExpiry (k : RailId) (s : State) : State :=
  if (s.rail k).leap.state = .holdoff then
    (s.advance ((s.rail k).leap.holdoffFrom + 16 * leapHoldoff s k)).modLeap k fun l => { l with state := .idle }
  else s

def execLeapTileRelease (t : TileId) (tick : Nat) (s : State) : Host.Outcome State Fault Refusal := .next (leapTileRelease t tick s)
def execLeapHoldoffExpiry (k : RailId) (s : State) : Host.Outcome State Fault Refusal := .next (leapHoldoffExpiry k s)

end Sys2Proof.Machine
end

