-- ==== Sys2Proof/Machine/Sense.lean ====
section
/-! DEFINITION. Sense front ends: window samples with the slew engine, coarse and input-voltage conversions, the pre-bias reading
and autozero (R74 to R89, R113, R125, R126, R243 to R245, R252). -/

namespace Sys2Proof.Machine

/-! ### Reference DAC and slew engine (R76, R125, R126) -/

/-- DAC code of a reference (R76). -/
def dacOf (s : State) (k : RailId) (ref : Nat) : Int := sat (roundQ (ref * calGain s k) 32768 + calOffset s k) 0 65535

/-- REF takes a value at the instant `x`, and the last values stay known for the conversions under way. -/
def setRef (k : RailId) (ref : Nat) (x : Int) (s : State) : State :=
  s.modRail k fun r =>
    { r with eng := { r.eng with ref := ref }, fe := { r.fe with refs := pushKeep 12 (x, (ref + 0x8000) / 65536) r.fe.refs } }

/-- One step of the slew engine toward `tgt` at `rate` (R125). -/
def slewStep (ref tgt rate : Nat) : Nat :=
  if rate = 0 then tgt else if ref < tgt then min (ref + rate) tgt else max (ref - rate) tgt

/-- The present end point of the reference, 16 fraction bits, and its rate; none where it is held or not driven (R235). -/
def refGoal (s : State) (k : RailId) : Option (Nat × Nat) :=
  let q := (s.rail k).seq
  match q.state with
  | .softstart => some (target s k * 65536, ssSlew s k)
  | .regulate => some (target s k * 65536, slewRate s k)
  | .slew => some (target s k * 65536, slewRate s k)
  | .stopping => some (min (q.stopEnd * 65536) (s.rail k).eng.ref, stopSlew s k)
  | _ => none

/-- The rail follows its reference (R126, R236, R241, R250). -/
def followRef (k : RailId) (s : State) : State :=
  let r := s.rail k
  let at' := decide (r.eng.ref = target s k * 65536)
  match r.seq.state with
  | .softstart =>
    if at' then s.modSeq k fun q =>
      { q with state := .regulate, steadyFrom := s.now, winFrom := none, winOut := 0, shortFrom := none
               deEnded := q.deEnded || !deEnd s k }
    else s
  | .regulate =>
    if at' then s
    else s.modRail k fun r =>
      { r with seq := { r.seq with state := .slew }, link := { r.link with watch := r.link.watch.map fun w => { w with inWinFrom := none } } }
  | .slew => if at' then s.modSeq k fun q => { q with state := .regulate } else s
  | .stopping =>
    if r.eng.ref ≤ r.seq.stopEnd * 65536 then s.modSeq k fun q => { q with stopReached := true } else s
  | _ => s

/-- The slew engine runs and the DAC takes its code (R76, R125). -/
def stepRef (k : RailId) (s : State) : State :=
  let ref := match refGoal s k with
    | some (tgt, rate) => slewStep (s.rail k).eng.ref tgt rate
    | none => (s.rail k).eng.ref
  let s := followRef k (setRef k ref (s.rail k).fe.winAt s)
  let dac := dacOf s k (refCode s k)
  s.modFe k fun f => { f with dac := dac }

/-! ### Window samples (R75, R77) -/

/-- w of R75: the input against a DAC code, microvolts; beyond the pin range of 0 V to 2.4 V the nearest end code (R79, R90). -/
def windowCode (microvolts dac : Int) : Int :=
  if microvolts < 0 then -512
  else if 2400000 < microvolts then 511
  else sat (roundQ (microvolts * 65536 - dac * 2400000) 8192000) (-512) 511

/-- w while autozero connects the input to the DAC (R88): what the input then carries against the DAC, 125 µV a code (R75). -/
def zeroCode (microvolts : Int) : Int := sat (roundQ microvolts 125) (-512) 511

/-- A sample counts toward a running autozero, up to the 4,096 that it averages (R88). -/
def Autozero.take (a : Autozero) (w : Int) : Autozero :=
  match a with
  | .running b n sum => if n < 4096 then .running b (n + 1) (sum + w) else a
  | a => a

/-- The instant of the next window sample: on the 6-tick grid (R75). -/
def windowAt (s : State) (k : RailId) : Int :=
  let n := (s.rail k).fe.winAt + 96
  if nowI s ≤ n then n else nowI s / 96 * 96

/-- LSET of the present entry acts from the next window sample, or from the first one after a Leap (R183). -/
def takeLset (k : RailId) (s : State) : State :=
  if leapActive s k then s else s.modMo k fun m => { m with lset := entLset m.entry }

/-- WINDOW_SAMPLE: a sample completes; the Leap detector and the window detectors judge it; the slew engine steps and the DAC takes its
code. `microvolts` is LSk_P − LSk_N, and while autozero runs the input's offset against the DAC (R88). -/
def windowSample (k : RailId) (microvolts : Int) (s : State) : State :=
  if groupOn s k then
    let x := windowAt s k
    let s := s.advance x
    let f := (s.rail k).fe
    let w := match f.autozero with | .running _ _ _ => zeroCode microvolts | _ => windowCode microvolts f.dac
    let hit : BitVec 6 := if w = 511 then 1 else if w = -512 then 2 else 0
    let s := s.modFe k fun f => { f with window := pushKeep 17 (w, f.dac) f.window, winAt := x, stat := f.stat ||| hit, autozero := f.autozero.take w }
    stepRef k (judgeWindow k w (leapSample k (takeLset k s)))
  else s

/-! ### Output sense (R80, R240, R245, R252, R445) -/

/-- VOUT of a sum of n conversions: corrected average in rail code (R80, R81). -/
def voutOf (s : State) (k : RailId) (sum n : Nat) : Nat :=
  (sat (roundQ ((16 * (sum : Int) - n * calOffset s k) * 32768) (n * calGain s k)) 0 65535).toNat

/-- The start's autozero is outstanding; one of the host that had begun before is not waited for (R88, R238). -/
def startZero (a : Autozero) : Bool :=
  match a with
  | .requested b _ => b
  | .running b _ _ => b
  | .idle => false

/-- Preparation is complete once the pre-bias is in and no autozero of the start is outstanding (R238); the reference then stands at
PB, from which the soft start begins (R239; log 41). -/
def prepCheck (k : RailId) (s : State) : State :=
  let r := s.rail k
  if r.seq.state = .prepare ∧ r.seq.pbDone ∧ startZero r.fe.autozero = false ∧ r.seq.prepDone = none then
    setRef k (r.seq.pb * 65536) s.now (s.modSeq k fun q => { q with prepDone := some s.now })
  else s

/-- The pre-bias wait of R240: at the first conversion at or below TARGET the reading is repeated. -/
def prebiasWatch (k : RailId) (s : State) : State :=
  let r := s.rail k
  if r.seq.state = .prepare ∧ r.seq.pbHigh ∧ r.fe.vout ≤ target s k then
    s.modRail k fun r => { r with seq := { r.seq with pbHigh := false, pbWaitDone := true }, fe := { r.fe with pbSum := 0, pbN := 0 } }
  else s

/-- Ramp tracking of a conversion whose result is available from V1 on (R245; log 176). -/
def trackWatch (k : RailId) (s : State) : State :=
  let r := s.rail k
  if r.seq.state = .softstart ∧ r.seq.v1 ≤ nowI s then
    let gap : Int := (refAt s k (convAt s) : Int) - r.fe.vout
    s.modSeq k fun q =>
      { q with trackMax := min 65535 (max q.trackMax gap.toNat)
               shortFrom := if trackWin s k < gap then (if q.shortFrom.isSome then q.shortFrom else some s.now) else none }
  else s

/-- Power-good of a conversion (R252): PG_DLY counts from the first one in window (log 175). -/
def pgoodWatch (k : RailId) (s : State) : State :=
  let r := s.rail k
  if steady r.seq.state then
    if |(r.fe.vout : Int) - refAt s k (convAt s)| ≤ pgWin s k then
      s.modSeq k fun q => { q with winFrom := if q.winFrom.isSome then q.winFrom else some s.now, winOut := 0 }
    else
      let n := min (r.seq.winOut + 1) 255
      let s := s.modSeq k fun q => { q with winFrom := none, winOut := n }
      if r.seq.pgood && decide (pgFilt s k ≤ n) then setPgood k false s else s
  else s

/-- LINK_RAIL[k]: settle window, delay in 10 µs, timeout in ms (R458). -/
def setWin (s : State) (k : RailId) : Int := fld (setWord s (.linkRail k)) 11 0
def setDly (s : State) (k : RailId) : Nat := fld (setWord s (.linkRail k)) 19 12
def setTmo (s : State) (k : RailId) : Nat := fld (setWord s (.linkRail k)) 31 20

/-- The last conversion lies in the window of a settle watch (R445). -/
def inSetWin (s : State) (k : RailId) (w : Watch) : Bool := decide (|((s.rail k).fe.vout : Int) - w.target| ≤ setWin s k)

/-- A settle watch has been in window for SET_DLY (R445). -/
def setDone (s : State) (k : RailId) (w : Watch) : Bool := decide (w.inWinFrom.getD s.now + us (10 * setDly s k) ≤ s.now)

/-- A watch that another outcome has closed in this cycle is judged in the rail state that it met, since SETTLED has the lowest FLAGS
(R445). -/
def closedSettles (k : RailId) (s : State) : State :=
  match closedNow s k with
  | none => s
  | some c =>
    if railSt (s.before k) k = .regulate ∧ inSetWin s k c.watch ∧ setDone s k c.watch then
      recloseWatch k 0 (BitVec.ofNat 16 (s.rail k).fe.vout) s
    else s

/-- The open settle watch judges a conversion. -/
def openSettles (k : RailId) (s : State) : State :=
  let r := s.rail k
  match r.link.watch with
  | none => s
  | some w =>
    if r.seq.state = .regulate ∧ inSetWin s k w then
      if setDone s k w then closeWatch occur k 0 (BitVec.ofNat 16 r.fe.vout) s
      else s.modRail k fun r => { r with link := { r.link with watch := some { w with inWinFrom := some (w.inWinFrom.getD s.now) } } }
    else s.modRail k fun r => { r with link := { r.link with watch := some { w with inWinFrom := none } } }

/-- The settle watches judge a conversion: the open one, and the one that has closed in this cycle (R445). -/
def settleWatch (k : RailId) (s : State) : State := openSettles k (closedSettles k s)

/-- COARSE_CONVERSION: an output-sense conversion completes (R80), is corrected by the SNS_CAL then in force (R89; log 169) and is judged. -/
def coarseConversion (k : RailId) (c : BitVec 12) (s : State) : State :=
  if groupOn s k then
    let v := voutOf s k c.toNat 1
    let s := s.modFe k fun f =>
      { f with coarse := c.toNat, coarseSeen := true, vout := v, stat := if c = 4095 then f.stat ||| 4 else f.stat }
    let r := s.rail k
    let s := if r.seq.state = .prepare ∧ r.seq.pbDone = false ∧ r.seq.pbHigh = false ∧ (r.seq.prepFrom : Int) ≤ convAt s ∧ r.fe.pbN < 64 then
        s.modFe k fun f => { f with pbSum := f.pbSum + c.toNat, pbN := f.pbN + 1 }
      else s
    settleWatch k (pgoodWatch k (trackWatch k (judgeCoarse k c.toNat (peakVolt k (prebiasWatch k s)))))
  else s

/-! ### Input voltage and feedforward (R82, R83, R113) -/

/-- FF from the present VIN_FAST, with the limits that follow it (R113); FF_SAT where it reaches an end of its range (R135). -/
def feedforward (k : RailId) (s : State) : State :=
  let v : Int := (s.rail k).fe.vinFast
  let ff : Int := if v = 0 then 131071 else sat (vnom s k * 32768 / v) 8192 131071
  antiWindup k (s.modEng k fun e =>
    if ffEn s k then { e with ff := ff, ffSat := e.ffSat || ff == 8192 || ff == 131071 } else { e with ff := 32768 })

/-- LIK_CONVERSION: an input-voltage conversion completes. During a freeze every further one out of range sets VIN_RANGE again where
the host has cleared it (log 129). -/
def likConversion (k : RailId) (c : BitVec 12) (s : State) : State :=
  if groupOn s k then
    let n := c.toNat
    if n = 0 ∨ n = 4095 then
      s.modFe k fun f =>
        let bad := min (f.vinBad + 1) 8
        if bad = 8 then { f with vinBad := 8, vinFrozen := true, stat := f.stat ||| 8 } else { f with vinBad := bad }
    else
      let tc := vinTc s k
      let s := s.modFe k fun f =>
        let recent := pushKeep 8 n (if f.vinFrozen then [] else f.vinRecent)
        { f with
          vinBad := 0, vinFrozen := false, vinSeen := true, vinRecent := recent
          vinFast := (quotFree (16 * (recent.sum : Nat)) recent.length).toNat
          vinSlow := if f.vinFrozen || !f.vinSeen then 256 * n else ((f.vinSlow : Int) + ashr (256 * n - f.vinSlow) tc).toNat }
      holdSlopes k (feedforward k s)
  else s

/-! ### Pre-bias (R81, R239, R240) -/

/-- PREBIAS_READING: the average of 64 conversions is handed over. -/
def prebiasReading (k : RailId) (s : State) : State :=
  let r := s.rail k
  if r.seq.state = .prepare ∧ r.fe.pbN = 64 ∧ r.seq.pbDone = false then
    let pb := voutOf s k r.fe.pbSum 64
    let tgt := target s k
    let s := s.modFe k fun f => { f with pbN := 0, pbSum := 0 }
    if r.seq.pbWaitDone then prepCheck k (s.modSeq k fun q => { q with pb := min pb tgt, pbDone := true })
    else if tgt < pb && !pbDisch s k then s.modSeq k fun q => { q with pb := pb, pbHigh := true, pbWaitFrom := s.now }
    else prepCheck k (s.modSeq k fun q => { q with pb := pb, pbDone := true })
  else s

/-! ### Autozero (R88) -/

/-- A request for autozero: of the host while the rail is OFF, or of a start, which takes over one that waits, with 5 ms from the
entry to PREPARE (log 130), and shares one that already runs (log 131). -/
def askAutozero (k : RailId) (byStart : Bool) (s : State) : State :=
  match (s.rail k).fe.autozero with
  | .running b n sum => if byStart && !b then s.modFe k fun f => { f with autozero := .running true n sum } else s
  | .idle => askLeave (.autozero k) (s.modFe k fun f => { f with autozero := .requested byStart s.now })
  | .requested _ _ => if byStart then s.modFe k fun f => { f with autozero := .requested true s.now } else s

/-- AUTOZERO_REQUEST: SNS_STAT.AZ_REQ is accepted only while the rail is OFF. -/
def autozeroAsk (h : HostId) (k : RailId) (s : State) : State :=
  if railSt s k = .off then askAutozero k false s else refuse h s

/-- AUTOZERO_START: autozero begins once leave is granted. -/
def autozeroStart (k : RailId) (s : State) : State :=
  match (s.rail k).fe.autozero with
  | .requested b _ => if leaveHeld s (.autozero k) then s.modFe k fun f => { f with autozero := .running b 0 0 } else s
  | _ => s

/-- AUTOZERO_DONE at tick: its 4,096 window samples are averaged; the result corrects −8·w of R77. -/
def autozeroDone (k : RailId) (tick : Nat) (s : State) : State :=
  match (s.rail k).fe.autozero with
  | .running _ n sum =>
    if n = 4096 then
      let az := quotFree (8 * sum) 4096
      let s := releaseLeave (.autozero k) (s.advance (16 * tick))
      prepCheck k (s.modFe k fun f =>
        if -127 ≤ az ∧ az ≤ 127 then { f with autozero := .idle, az := az } else { f with autozero := .idle, stat := f.stat ||| 32 })
    else s
  | _ => s

/-- AUTOZERO_TIMEOUT: a start does not wait longer than 5 ms for leave. With leave granted in time the autozero goes on. -/
def autozeroTimeout (k : RailId) (s : State) : State :=
  match (s.rail k).fe.autozero with
  | .requested true since =>
    if since + ms 5 ≤ s.now ∧ leaveHeld s (.autozero k) = false then
      prepCheck k (dropLeave (.autozero k) (s.modFe k fun f => { f with autozero := .idle, stat := f.stat ||| 16 }))
    else s
  | _ => s

/-! ### The rows -/

def execWindowSample (k : RailId) (microvolts : Int) (s : State) : Host.Outcome State Fault Refusal := .next (windowSample k microvolts s)
def execCoarseConversion (k : RailId) (c : BitVec 12) (s : State) : Host.Outcome State Fault Refusal := .next (coarseConversion k c s)
def execLikConversion (k : RailId) (c : BitVec 12) (s : State) : Host.Outcome State Fault Refusal := .next (likConversion k c s)
def execPrebiasReading (k : RailId) (s : State) : Host.Outcome State Fault Refusal := .next (prebiasReading k s)
def execAutozeroStart (k : RailId) (s : State) : Host.Outcome State Fault Refusal := .next (autozeroStart k s)
def execAutozeroDone (k : RailId) (tick : Nat) (s : State) : Host.Outcome State Fault Refusal := .next (autozeroDone k tick s)
def execAutozeroTimeout (k : RailId) (s : State) : Host.Outcome State Fault Refusal := .next (autozeroTimeout k s)

end Sys2Proof.Machine
end

