-- ==== Sys2Proof/Machine/LoopEngine.lean ====
section
/-! DEFINITION. Loop engines: the compensator and its update, sets and switch-over, preload, and the conversion of the rail's duty
into each tile's shadow (R105 to R123, R190, R223, R239). -/

namespace Sys2Proof.Machine

/-! ### Error word (R77, R78) -/

/-- ERR of an update, and whether range extension formed it. -/
def errorWord (s : State) (k : RailId) : Int × Bool :=
  let f := (s.rail k).fe
  let l := f.window.take (decimN s k)
  if l.any fun p => p.1 == 511 || p.1 == -512 then
    let dac := match f.window with | (_, d) :: _ => d | [] => f.dac
    (sat (roundQ (75 * (dac - 16 * f.coarse)) 32) (-32768) 32767, true)
  else
    (sat (roundQ (-8 * (l.foldl (fun a p => a + p.1) 0)) l.length + f.az) (-32768) 32767, false)

/-! ### Compensator (R110, R111, R120, R123) -/

/-- Saturation to 40 bits. -/
def sat40 (x : Int) : Int := sat x (-(2 ^ 39)) (2 ^ 39 - 1)

/-- Sum of the error products of a set. -/
def bSum (s : State) (k : RailId) (set : Nat) (e : List Int) : Int :=
  (List.range 4).foldl (fun y i => sat40 (y + coefI s k set i * e.getD i 0 * 2 ^ (14 - bshift s k set))) 0

/-- y of R110 before the anti-windup clamp. -/
def compensate (s : State) (k : RailId) (set : Nat) (e u : List Int) : Int :=
  (List.range 3).foldl (fun y i => sat40 (y - ashr (coefI s k set (4 + i) * u.getD i 0) 21)) (bSum s k set e)

/-- The rail's duty from y (R110). -/
def dutyOf (s : State) (k : RailId) (y : Int) : Int := sat (ashr (y * (s.rail k).eng.ff) 28) (dmin s k * 512) (dmax s k * 512)

/-- The duty held through a Leap, with DTHR for DMAX (R223, R278). -/
def leapDuty (s : State) (k : RailId) : Int :=
  sat (ashr ((s.rail k).leap.yPre * (s.rail k).eng.ff) 28) (dmin s k * 512) ((s.rail k).prot.dthr * 512)

/-- d_p of a start (R239). -/
def startDuty (s : State) (k : RailId) : Int :=
  let v : Int := if ffEn s k then (s.rail k).fe.vinFast else vnom s k
  let den := v * vinRatio s k
  if den = 0 then dmin s k * 512
  else sat (roundQ (2 ^ 24 * (s.rail k).seq.pb * senseRatio s k) den) (dmin s k * 512) (dmax s k * 512)

/-- Preload (R123): the history makes the update start from duty d_p. -/
def preloadWith (dp : Int) (e : Engine) : Engine :=
  let y := sat (quotDown (dp * 2 ^ 28) e.ff) e.ylo e.yhi
  { e with e1 := 0, e2 := 0, e3 := 0, u1 := y, u2 := y, u3 := y, preload := .none }

/-- One update with the active set (R110, R111): err is the new ERR. -/
def runUpdate (s : State) (k : RailId) (err : Int) (e : Engine) : Engine :=
  let raw := compensate s k e.setAct [err, e.e1, e.e2, e.e3] [e.u1, e.u2, e.u3]
  let y := sat raw e.ylo e.yhi
  { e with
    u3 := e.u2, u2 := e.u1, u1 := y, e3 := e.e2, e2 := e.e1, e1 := err, yLast := y
    satCnt := if y = raw then e.satCnt else satInc e.satCnt 65535, sat := y != raw, d := dutyOf s k y }

/-- The history is re-scaled for the new set (R120); `old` is the engine before the update. -/
def switchOver (s : State) (k : RailId) (new : Nat) (err : Int) (old e : Engine) : Engine :=
  let u := sat40 (e.u1 - bSum s k new [err, old.e1, old.e2, old.e3])
  { e with u2 := u, u3 := u }

/-- The new set becomes active. -/
def takeSet (s : State) (k : RailId) (new : Nat) (e : Engine) : Engine :=
  { e with setAct := new, setForced := forceCset s k, setPend := none, swCnt := satInc e.swCnt 255 }

/-! ### Switch requests (R118, R119) -/

/-- The set that FORCE or the map asks for. -/
def wantedSet (s : State) (k : RailId) : Nat := if forceCset s k then forceSet s k else (s.rail k).mo.mapSet

/-- The present source of the active set: forced or not, and the set it asks for. -/
def setSource (s : State) (k : RailId) : Bool × Nat := (forceCset s k, wantedSet s k)

/-- A change of either source from what it was is a switch request; one for the active set is none and withdraws a pending one.
Without a change there is no request: a refused switch stays refused (R118, R119, R121). -/
def requestSet (k : RailId) (was : Bool × Nat) (s : State) : State :=
  if setSource s k = was then s
  else
    let w := wantedSet s k
    s.modEng k fun e =>
      if w = e.setAct then { e with setPend := none, setForced := forceCset s k }
      else if e.setPend = some w then e
      else { e with setPend := some w, setAskedAt := nowI s }

/-- A switch to a set that is not valid is refused (R121). -/
def refuseSet (k : RailId) (s : State) : State :=
  let s := s.modEng k fun e => { e with setPend := none, swRefused := true }
  occur (48 + k.val) (loopDetail s k 8) s

/-! ### Writes to every tile of the rail (R107, R115, R122) -/

/-- Every ACTIVE or READY tile of the rail gets a shadow write that completes at time x. -/
def writeShadows (k : RailId) (d x : Int) (s : State) : State :=
  s.mapTiles fun _ ti =>
    if ti.rail == some k && (ti.act == .active || ti.act == .ready) then
      let (cmp, fine) := tileDuty s k ti d x
      { ti with duty := ti.duty.write cmp fine d (nowI s) x }
    else ti

/-- A carrier gets a period write that completes at time x; one of the period it already has, with none to come, changes nothing. -/
def Carrier.give (c : Carrier) (prd frac : Nat) (now x : Int) : Carrier :=
  if c.pend = none ∧ c.coming = none ∧ c.prd = prd ∧ c.frac = frac then c
  else { c.land now with coming := some { prd := prd, frac := frac, writtenAt := x } }

/-- A new period for the rail's tiles, and for its reference carrier, written at time x (R54, R122, R160). -/
def writePeriod (k : RailId) (prd frac : Nat) (x : Int) (s : State) : State :=
  let give (c : Carrier) : Carrier := c.give prd frac (nowI s) x
  (s.mapTiles fun _ ti =>
    if ti.rail == some k && (ti.act == .active || ti.act == .ready) then { ti with car := give ti.car } else ti).modRail k fun r =>
      { r with car := give r.car }

/-! ### LOOP_UPDATE (R106, R107) -/

/-- A switch can take place at this update: aimed at a reference valley, asked at least one engine cycle before its start, no tile
under Leap (R119). -/
def switchDue (s : State) (k : RailId) (atValley : Bool) (start : Int) : Option Nat :=
  let e := (s.rail k).eng
  match e.setPend with
  | none => none
  | some w => if atValley && !leapActive s k && decide (e.setAskedAt + 32 ≤ start) then some w else none

/-- The update aimed at reload point `aim`. A released frequency change and the set switch released with it wait together for the end
of a Leap (R119, R122, R183). -/
def makeUpdate (k : RailId) (aim : Int) (atValley : Bool) (s : State) : State :=
  let start := aim - 1408
  let s := s.advance start
  let (err, ext) := errorWord s k
  let s := s.modFe k fun f => { f with rangeExt := ext }
  let s := s.modEng k fun e => { e with err := err, ffShown := e.ff }
  let s := match (s.rail k).mo.freqGo with
    | some f => if atValley && !leapActive s k then (writePeriod k (prdOf s k f) (s.rail k).car.nextPeriod.2 (aim - 128) s).modMo k fun m => { m with freqGo := none } else s
    | none => s
  if leapActive s k then
    let d := leapDuty s k
    writeShadows k d (aim - 128) (s.modEng k fun e => { e with d := d })
  else
    let due := switchDue s k atValley start
    let bad := match due with | some w => !setValid s k w | none => false
    let s := if bad then refuseSet k s else s
    let due := if bad then none else due
    let e0 := (s.rail k).eng
    let dp : Option Int := match e0.preload with
      | .none => none
      | .start => some (startDuty s k)
      | .leap => some (leapDuty s k)
    let e1 : Engine := match dp with
      | some dp => runUpdate s k err (preloadWith dp (match due with | some w => takeSet s k w e0 | none => e0))
      | none =>
        let e := runUpdate s k err e0
        match due with
        | some w => takeSet s k w (switchOver s k w err e0 e)
        | none => e
    writeShadows k e1.d (aim - 128) (s.modEng k fun _ => e1)

/-- The reference carrier moves to its next peak. -/
def refToPeak (k : RailId) (s : State) : State := s.modRail k fun r => { r with car := r.car.toPeak (glidePaused s k) }

/-- V1, if preparation is complete and the next reference valley lies at least 96 ticks after it (R238). -/
def startValley (s : State) (k : RailId) : Option Int :=
  let r := s.rail k
  match r.seq.prepDone with
  | none => none
  | some p =>
    let c := if r.car.atPeak then r.car else r.car.toPeak true
    if (p : Int) + 1536 ≤ c.nextValley then some c.nextValley else none

/-- LOOP_UPDATE: the update aimed at the next reference reload point; in PREPARE only that aimed at V1, with the preload of R239. -/
def loopUpdate (k : RailId) (s : State) : State :=
  let r := s.rail k
  if !r.car.running || r.eng.aimed then s
  else if r.seq.state = .prepare then
    match startValley s k with
    | none => s
    | some v =>
      let s := if r.car.atPeak then s else refToPeak k s
      makeUpdate k v true (s.modEng k fun e => { e with aimed := true, preload := .start })
  else if switching r.seq.state then
    if r.car.atPeak then makeUpdate k r.car.nextValley true (s.modEng k fun e => { e with aimed := true })
    else refToPeak k (makeUpdate k r.car.nextPeak false s)
  else s

def execLoopUpdate (k : RailId) (s : State) : Host.Outcome State Fault Refusal := .next (loopUpdate k s)

end Sys2Proof.Machine
end

