-- ==== Sys2Proof/Machine/Thermal.lean ====
section
/-! DEFINITION. Housekeeping measurement and thermal management: rounds, the fast lane, limits, die shutdown, broken sensors and
the cross-check (R316 to R343, R376, R618). Temperatures are in 1/16 °C. -/

namespace Sys2Proof.Machine

/-! ### Settings (R336, R337, R341) -/

abbrev ChanId := Fin 64

def chCfgW (s : State) (c : ChanId) : Word := if h : c.val < 36 then setWord s (.chCfg ⟨c.val, h⟩) else 0
def isStage (c : ChanId) : Bool := decide (c.val < 24)
def isAux (c : ChanId) : Bool := decide (24 ≤ c.val) && decide (c.val < 32)
def isDie (c : ChanId) : Bool := decide (32 ≤ c.val) && decide (c.val < 36)
/-- The channel is read as a temperature (R318, R618). -/
def isTemp (s : State) (c : ChanId) : Bool := isStage c || isDie c || (isAux c && bitOf (chCfgW s c) 22)
/-- CH_CFG.EN; die sensors are always judged (R341). -/
def chEn (s : State) (c : ChanId) : Bool := isDie c || (decide (c.val < 32) && bitOf (chCfgW s c) 23)
def chWarn (s : State) (c : ChanId) : Int := 8 * sfld (chCfgW s c) 9 0
/-- CH_CFG.SHUT; 150.0 °C for a die sensor. -/
def chShut (s : State) (c : ChanId) : Int := if isDie c then 2400 else 8 * sfld (chCfgW s c) 19 10
def chTable (s : State) (c : ChanId) : Nat := fld (chCfgW s c) 21 20
def hkGuard (s : State) : Int := 8 * fld (setWord s .hkCfg) 5 0
def xchkBand (s : State) : Int := 8 * fld (setWord s .hkCfg) 13 6
def throttleMin (s : State) : Int := fld (setWord s .hkCfg) 21 14
def tsdGrace (s : State) : Nat := fld (setWord s .tsdCfg) 5 0
/-- RATE_MAX, 1/16 °C per ms. -/
def rateMax (s : State) : Int := 4 * fld (setWord s .tsdCfg) 15 8

def State.chan (s : State) (c : ChanId) : HkChannel := s.hk.ch.get c
def State.modChan (s : State) (c : ChanId) (f : HkChannel → HkChannel) : State := { s with hk := { s.hk with ch := modVec s.hk.ch c f } }
def allChans : List ChanId := finList 64
def chanOf (i : Nat) : ChanId := finOf 64 (by decide) i

/-- Channels in the fast lane, ascending. -/
def fastList (s : State) : List ChanId := allChans.filter fun c => (s.chan c).inFast

/-- The reading that the limits take: a broken sensor counts as being at SHUT (R331). -/
def effTemp (s : State) (c : ChanId) : Int := if (s.chan c).broken then chShut s c else (s.chan c).value

/-- Ports that carry a tile assigned to rail k. -/
def railPorts (s : State) (k : RailId) : List ChanId :=
  allChans.filter fun c => isStage c && (tilesOf s k).any fun t => (portOf t).val == c.val

/-- The temperature of rail k: the highest reading among its ports' stage NTCs (R180, R376). -/
def railTemp (s : State) (k : RailId) : Int :=
  match railPorts s k with
  | [] => 0
  | c :: cs => cs.foldl (fun m c => max m (effTemp s c)) (effTemp s c)

/-! ### Conversion (R318) -/

/-- Linear interpolation of table `tab` at a raw mean in sixteenths, rounded toward zero. -/
def tableTemp (s : State) (tab raw16 : Nat) : Int :=
  let i := min (raw16 / 4096) 15
  let frac : Int := (raw16 - 4096 * i : Nat)
  let at' (j : Nat) : Int := (Store.get 0 s.tempTab (17 * tab + j)).toInt
  (at' i * 4096 + (at' (i + 1) - at' i) * frac).tdiv 4096

/-- VALUE of a raw mean in sixteenths (R318, R618). -/
def readingOf (s : State) (c : ChanId) (raw16 : Nat) : Int :=
  if isDie c then Config.dieTemp c.val raw16
  else if isTemp s c then tableTemp s (chTable s c) raw16
  else raw16

/-- Mean in sixteenths of a list of raw codes; `d` where the list is empty. -/
def mean16 (l : List Nat) (d : Nat) : Nat := if l = [] then d else (quotFree (16 * (l.sum : Nat)) l.length).toNat

/-! ### The thermal factor (R322, R323) -/

/-- g of a reading (R322). -/
def factorG (s : State) (c : ChanId) : Nat :=
  if (s.chan c).broken then (throttleMin s).toNat
  else
    let t := (s.chan c).value
    let w := chWarn s c
    let h := chShut s c
    if t < w then 256
    else if h ≤ t then (throttleMin s).toNat
    else (max (throttleMin s) (256 - quotDown (256 * (t - w)) (h - w))).toNat

/-- The channels that contribute to THERM of rail k (R323). -/
def thermChans (s : State) (k : RailId) : List ChanId :=
  allChans.filter fun c =>
    (isStage c && (tilesOf s k).any fun t =>
        (portOf t).val == c.val && (s.tile t).act != .dropped && (s.tile t).act != .excluded)
    || isDie c
    || (isAux c && isTemp s c && bitOf (chCfgW s c) 27 && fld (chCfgW s c) 26 24 == k.val)

/-- THERM and LIMCH of every rail: the smallest g and the first channel that has it. -/
def updateTherm (s : State) : State :=
  let best (k : RailId) : Nat × Nat :=
    (thermChans s k).foldl (fun m c => if (s.chan c).g < m.1 then ((s.chan c).g, c.val) else m) (256, 0)
  { s with hk := { s.hk with therm := mapVec (fun i _ => best (railOf i)) s.hk.therm } }

/-! ### Thermal exclusion (R325, R326) -/

/-- A tile of a port at shutdown level leaves its rail; a fade-out that has begun for this goes on (R154, R325). In STOPPING, where no new fade begins (R250), one that is not fading out
leaves at once (log 132). -/
def thermalOut (t : TileId) (s : State) : State :=
  let ti := s.tile t
  match ti.rail with
  | none => s
  | some k =>
    match ti.act with
    | .active =>
      if thermalFade ti then s
      else if (s.rail k).ilv.glide ≠ .none ∨ leapActive s k ∨ (railSt s k = .stopping ∧ isFadingOut ti = false) then removeTile t .excluded 14 s
      else s.modTile t fun ti =>
        { ti with fade := match ti.fade with
            | .none => .fadeOut 8 .thermalOut
            | .fadeIn f => .fadeOut f .thermalOut
            | .fadeOut f _ => .fadeOut f .thermalOut }
    | .ready | .cold => removeTile t .excluded 14 s
    | .dropped | .excluded => s

/-- Every assigned tile of port c leaves (R325). -/
def portOut (c : ChanId) (s : State) : State :=
  (allTiles.filter fun t => (portOf t).val == c.val).foldl (fun s t => thermalOut t s) s

/-! ### Die shutdown (R327, R328) -/

/-- CMD.REQ of rail k. -/
def setReq (k : RailId) (req : Nat) (s : State) : State :=
  putWord s (.loop k .cmd) (merge (loopW s k .cmd) (word req) 3)

/-- t_stop in fine steps: 96 for each window sample (R327). -/
def tStop (s : State) (k : RailId) : Int :=
  let e := min (stopFloor s k) (refCode s k)
  if stopSlew s k = 0 then 0 else 96 * quotUp (((refCode s k : Int) - e) * 65536) (stopSlew s k)

/-- The highest die temperature rise exceeds RATE_MAX. -/
def rateExceeded (s : State) : Bool := (List.range 4).any fun i => decide (rateMax s < (s.chan (chanOf (32 + i))).rise)

/-- STOPPING of rail k has begun in the present cycle: the die shutdown judges it as a rail that switches (R236, R327). -/
def stopBegan (s : State) (k : RailId) : Bool := decide (movedRow s k = 5 ∨ movedRow s k = 7)

/-- The orderly stop of rail k would not end within the grace (R327). -/
def stopTooLong (s : State) (k : RailId) : Bool := decide ((ms (tsdGrace s) : Int) < tStop s k)

/-- What a die shutdown does to rail k; with TSD_GRACE = 0 every stop is immediate. -/
def tsdRail (fast : Bool) (s : State) (k : RailId) : State :=
  let fast := fast || tsdGrace s == 0
  match railSt s k with
  | .off | .safe => s
  | .prepare | .hiccup => safeNow occur k 7 s
  | .stopping =>
    if fast || (stopBegan s k && stopTooLong s k) then safeNow occur k 7 s
    else s.modSeq k fun q => { q with stopSafe := true, stopCause := 7 }
  | .softstart | .regulate | .slew => if fast || stopTooLong s k then safeNow occur k 7 s else orderlySafe occur k 7 s

/-- A later die reading whose rise exceeds RATE_MAX ends the grace of rails still in STOPPING (R328). -/
def dieRate (s : State) : State :=
  if rateExceeded s && s.hk.graceOn then
    allRails.foldl (fun s k =>
      if railSt s k = .stopping ∨ (s.rail k).seq.stopWait.isSome then safeNow occur k 7 s else s) s
  else s

/-- A die sensor at 150 °C or broken: die shutdown begins (R327), or, while it persists, its rise is judged (R328). `fresh`: the
sensor has now reached the level, or is now broken. -/
def dieShut (fresh : Bool) (s : State) : State :=
  if s.hk.tsd then dieRate (if fresh then { s with hk := { s.hk with tsdLatch := true } } else s)
  else
    let fast := rateExceeded s
    let s := { s with hk := { s.hk with tsd := true, tsdLatch := true, tsdFrom := s.now, graceOn := true } }
    let s := allRails.foldl (fun s k => setReq k 0 s) s
    allRails.foldl (tsdRail fast) s

/-- TSD clears when all four die sensors read below 130.0 °C and none is broken (R329), judged once every reading and check of the instant
has acted. -/
def tsdClear (s : State) : State :=
  let cool := (List.range 4).all fun i =>
    let h := s.chan (chanOf (32 + i))
    !h.broken && decide (h.value < 2080)
  if cool then { s with hk := { s.hk with tsd := false } } else s

/-! ### Judging a reading (R322, R325, R327, R330, R331, R334) -/

/-- Event source of a channel's limits. -/
def chSource (c : ChanId) : Nat := if isStage c then 64 + c.val else if isDie c then 56 + c.val else 92

def chDetail (s : State) (c : ChanId) (kind : Nat) : Word := word (c.val + at_ kind 2 6 + atI (s.chan c).value 16 16)

/-- Limits act on the present reading: WARN, SHUT, g, THERM, exclusion and die shutdown. `broke`: the channel has just been marked
broken, which is an occurrence of its own for an NTC or a die sensor (R325, R334). The die shutdown goes before what EV_CFG makes of the
occurrence (R383). -/
def reactCh (c : ChanId) (broke : Bool) (s : State) : State :=
  let h := s.chan c
  let t := effTemp s c
  let w := chWarn s c
  let warn := if w ≤ t then true else if t < w - 32 then false else h.warn
  let shut := decide (chShut s c ≤ t)
  let rising := (warn && !h.warn) || (shut && !h.shut) || (broke && !isAux c)
  let kind := if h.broken then 2 else if shut then 1 else 0
  let s := s.modChan c fun h => { h with warn := warn, shut := shut }
  let s := updateTherm (s.modChan c fun h => { h with g := factorG s c })
  let s := if isDie c then (if shut then dieShut (broke || !h.shut) s else dieRate s) else s
  let s := if rising then occur (chSource c) (chDetail s c kind) s else s
  if shut && isStage c then portOut c s else s

/-- Mark a channel broken (R330). -/
def markBroken (c : ChanId) (cause : Nat) (s : State) : State :=
  let s := if (s.chan c).broken then s else s.modChan c fun h => { h with broken := true, bcause := cause }
  occur (if cause = 3 then 95 else 93) (chDetail s c cause) s

/-- The cause that a reading shows, if any: 0 OPEN, 1 SHORT, 2 STEP (R330); `rise`: its difference from the one it is compared with. -/
def brokenCause (c : ChanId) (raw16 : Nat) (t rise : Int) : Option Nat :=
  let step := decide (320 < |rise|)
  if isDie c then
    if t > 2800 ∨ t < -880 then some 0 else if step then some 2 else none
  else if 65280 < raw16 then some 0
  else if raw16 < 256 then some 1
  else if step then some 2 else none

/-- The temperature peak of every rail with a channel among those read (R379); the readings of a round are judged together. -/
def peakRailTemp (cs : List ChanId) (s : State) : State :=
  (allRails.filter fun k => (railPorts s k).any fun c => chEn s c && cs.contains c).foldl (fun s k =>
    s.modRailPeaks k fun p => { p with t := p.t.judge (railTemp s k) }) s

/-- Temperature peaks of the tiles of a reading (R379). -/
def peakTileTemp (c : ChanId) (s : State) : State :=
  if isStage c && chEn s c then
    (allTiles.filter fun t => (portOf t).val == c.val).foldl (fun s t =>
      s.modTilePeaks t fun p => { p with t := p.t.judge (s.chan c).value }) s
  else s

/-- The reading of a channel with its rise over the one it is compared with (R327). -/
def HkChannel.reads (h : HkChannel) (t : Int) (before : Option Int) : HkChannel :=
  { h with value := t, rise := match before with | some b => t - b | none => 0 }

/-- The reading of channel c, of this raw mean, is judged. -/
def judgeReading (raw16 : ChanId → Nat) (s : State) (c : ChanId) : State :=
  if isTemp s c && chEn s c then
    let found := brokenCause c (raw16 c) (s.chan c).value (s.chan c).rise
    let broke := found.isSome && !(s.chan c).broken
    let s := match found with
      | some b => if broke then markBroken c b s else s
      | none => s
    peakTileTemp c (reactCh c broke s)
  else s

/-! ### The fast lane (R320) -/

/-- Margin key: SHUT − T, then the channel number. -/
def laneKey (s : State) (c : ChanId) : Nat := (chShut s c - effTemp s c + 65536).toNat * 64 + c.val

/-- The lane at a round end: the 8 channels of smallest margin among those that qualify; each entry latches event 94. -/
def fillLane (s : State) : State :=
  let wants (c : ChanId) : Bool :=
    isTemp s c && chEn s c && decide (chWarn s c - hkGuard s - (if (s.chan c).inFast then 32 else 0) ≤ effTemp s c)
  let keep := (sortBy (laneKey s) (allChans.filter wants)).take 8
  let fresh := keep.filter fun c => !(s.chan c).inFast
  let s := { s with hk := { s.hk with ch := mapVec (fun i (h : HkChannel) =>
    let stays := keep.contains (chanOf i)
    if stays && !h.inFast then { h with inFast := true, fastRaws := [], fastReads := [] } else { h with inFast := stays }) s.hk.ch } }
  fresh.foldl (fun s c => occur 94 (chDetail s c 0) s) s

/-- A fast-lane channel leaves below WARN − GUARD − 2.0 °C. -/
def leaveLane (c : ChanId) (s : State) : State :=
  if (s.chan c).inFast && decide (effTemp s c < chWarn s c - hkGuard s - 32) then s.modChan c fun h => { h with inFast := false } else s

/-! ### Cross-check (R331 to R333) -/

/-- Twice the median of a list of readings. -/
def median2 (l : List Int) : Int :=
  let l := sortBy (fun x => (x + 65536).toNat) l
  let n := l.length
  if n % 2 = 1 then 2 * l.getD (n / 2) 0 else l.getD (n / 2 - 1) 0 + l.getD (n / 2) 0

/-- The latest round reading, where the channel is enabled and has one. -/
def roundOf (s : State) (c : ChanId) : Option Int := if chEn s c then (s.chan c).lastRound else none

/-- The readings that channel c is compared with (R332). -/
def neighbours (s : State) (c : ChanId) : List Int :=
  let marked (d : ChanId) : Bool := (s.chan d).broken && decide ((s.chan d).bcause < 2)
  if isStage c then
    let near := (allChans.filter fun d => isStage d && d != c && d.val / 6 == c.val / 6 && !marked d).filterMap (roundOf s)
    if 2 ≤ near.length then near else (allChans.filter fun d => isStage d && d != c).filterMap (roundOf s)
  else if isDie c then (allChans.filter fun d => isDie d && d != c).filterMap (roundOf s)
  else []

/-- The cross-check finds channel c with reading t off its neighbours' median (R332). -/
def offMedian (s : State) (c : ChanId) (t : Int) : Bool :=
  let l := neighbours s c
  decide (2 ≤ l.length) && decide (2 * xchkBand s < |2 * t - median2 l|)

/-- Channel c fails a cross-check now. -/
def xchkFails (s : State) (c : ChanId) : Bool :=
  match roundOf s c with | some t => isTemp s c && offMedian s c t | none => false

/-- Cross-check of one enabled temperature channel with a round reading. -/
def crossCheck (s : State) (c : ChanId) : State :=
  match roundOf s c with
  | none => s
  | some t =>
    if !isTemp s c then s
    else
      let fails := offMedian s c t
      let s := if (neighbours s c).length < 2 then { s with hk := { s.hk with xchkSkip := true } } else s
      if fails then reactCh c (!(s.chan c).broken) (markBroken c 3 s)
      else
        let h := s.chan c
        let inside := decide (256 ≤ h.raw16) && decide (h.raw16 ≤ 65280)
        if h.broken && (decide (2 ≤ h.bcause) || inside) then reactCh c false (s.modChan c fun h => { h with broken := false }) else s

/-- Cross-check of a set of channels, bit c for channel c, in ascending order. -/
def crossChecks (set : BitVec 36) (s : State) : State :=
  (allChans.filter fun c => set.getLsbD c.val).foldl crossCheck s

/-! ### HK_CONVERSION and HK_ROUND_END (R317) -/

/-- HK and CORE are powered and out of reset. -/
def hkRuns (s : State) : Bool := s.pwr.hk && coreOn s

/-- The next channel of the pass from `from'` on that is not in the fast lane. -/
def nextChan (s : State) (from' : Nat) : Option ChanId :=
  (allChans.filter fun c => decide (from' ≤ c.val) && !(s.chan c).inFast).head?

/-- VSUP in 10 mV of one conversion of channel 36 (R618). -/
def vsup10 (raw : Nat) : Nat := (roundQ (15 * raw) 8).toNat

/-- A conversion of VSUP counts toward the lowest of the warning (R346). -/
def vsupTrack (raw : Nat) (s : State) : State :=
  if s.pwr.warn then
    { s with pwr := { s.pwr with vsupMin := if s.pwr.vsupSeen then min s.pwr.vsupMin (vsup10 raw) else vsup10 raw, vsupSeen := true } }
  else s

/-- A single conversion of a channel. -/
def takeRaw (c : ChanId) (raw : Nat) (s : State) : State :=
  let s := s.modChan c fun h => { h with latest := raw, round := pushKeep 16 raw h.round }
  if c.val = 36 then vsupTrack raw s else s

/-- HK_CONVERSION: the next channel of the pass is converted; after 16 passes the round end is due. -/
def hkConversion (raw : BitVec 12) (s : State) : State :=
  if hkRuns s && decide (s.hk.pass < 16) then
    match nextChan s s.hk.next with
    | none => { s with hk := { s.hk with next := 0, pass := s.hk.pass + 1 } }
    | some c =>
      let s := takeRaw c raw.toNat s
      match nextChan s (c.val + 1) with
      | some _ => { s with hk := { s.hk with next := c.val + 1 } }
      | none => { s with hk := { s.hk with next := 0, pass := s.hk.pass + 1 } }
  else s

/-- The round reading of one channel is published. -/
def publishRound (s : State) (c : ChanId) : State :=
  let h := s.chan c
  let raw16 := mean16 (if h.inFast then h.fastRaws else h.round) h.raw16
  let t := readingOf s c raw16
  s.modChan c fun h => { h.reads t h.lastRound with raw16 := raw16, round := [], lastRound := some t, hasReading := true }

/-- Telemetry takes the temperatures of a round (R376). -/
def telRound (s : State) : State :=
  let cur := s.tel.cur
  let rails := mapVec (fun i (w : RailWindow) =>
    if railPorts s (railOf i) = [] then w else { w with tn := w.tn + 1, t := w.t + railTemp s (railOf i) }) cur.rails
  let tiles := mapVec (fun i (w : TileWindow) =>
    let c := chanOf (portOf (tileOf i)).val
    if chEn s c && (s.chan c).hasReading then { w with tn := w.tn + 1, t := w.t + (s.chan c).value } else w) cur.tiles
  if s.pwr.phase = .up then { s with tel := { s.tel with cur := { cur with rails := rails, tiles := tiles } } } else s

/-- The readings of a round: all are published, then each is judged beside the others (R327, R329). -/
def judgeRound (s : State) : State :=
  let s := allChans.foldl publishRound s
  allChans.foldl (judgeReading fun c => (s.chan c).raw16) s

/-- HK_ROUND_END: every channel's round reading is published; waiting cross-checks run; the fast lane is filled. -/
def hkRoundEnd (s : State) : State :=
  if hkRuns s && decide (s.hk.pass = 16) then
    let s := peakRailTemp allChans (judgeRound s)
    let checks := s.hk.xchkWait
    let s := { s with hk := { s.hk with pass := 0, next := 0, rounds := (s.hk.rounds + 1) % 65536,
                                        xchkWait := s.hk.xchkNext, xchkNext := 0 } }
    telRound (fillLane (tsdClear (crossChecks checks s)))
  else s

/-! ### FAST_LANE_TIMER (R321) -/

/-- The raw mean of a channel's fast reading, with the fast samples given (R321). -/
def fastMean (h : HkChannel) (fr : List Nat) : Nat :=
  let four := fr.take 4
  (quotFree (16 * (four.sum : Nat) + (4 - four.length : Nat) * h.raw16) 4).toNat

/-- One fast sample of a channel. -/
def fastSample (raws : Vector (BitVec 12) 64) (s : State) (c : ChanId) : State :=
  let raw := (raws.get c).toNat
  let h := s.chan c
  let fr := pushKeep 16 raw h.fastRaws
  let t := readingOf s c (fastMean h fr)
  s.modChan c fun h => { h.reads t (h.fastReads[15]? <|> h.lastRound) with latest := raw, fastRaws := fr, fastReads := pushKeep 17 t h.fastReads }

/-- The fast readings of the listed channels: all are made, then each is judged beside the others (R320, R327). -/
def fastRound (raws : Vector (BitVec 12) 64) (s : State) : State :=
  let cs := fastList s
  let s := cs.foldl (fastSample raws) s
  let means (c : ChanId) : Nat := fastMean (s.chan c) (s.chan c).fastRaws
  tsdClear (cs.foldl (fun s c => leaveLane c (peakRailTemp [c] (judgeReading means s c))) s)

/-- FAST_LANE_TIMER: each fast-lane channel is converted once, ascending; while the VSUP warning holds, VSUP too (R346). -/
def fastLaneTimer (raws : Vector (BitVec 12) 64) (vsup : BitVec 12) (s : State) : State :=
  if hkRuns s then
    let s := fastRound raws s
    if s.pwr.warn then vsupTrack vsup.toNat (s.modChan (chanOf 36) fun h => { h with latest := vsup.toNat }) else s
  else s

/-- TSD_GRACE_EXPIRY: rails still in STOPPING, or held from it by a Leap, are stopped at once (R328). -/
def tsdGraceExpiry (s : State) : State :=
  if s.hk.graceOn && decide (s.hk.tsdFrom + ms (tsdGrace s) ≤ s.now) then
    let s := { s with hk := { s.hk with graceOn := false } }
    allRails.foldl (fun s k =>
      if railSt s k = .stopping ∨ (s.rail k).seq.stopWait.isSome then safeNow occur k 7 s else s) s
  else s

def execHkConversion (raw : BitVec 12) (s : State) : Host.Outcome State Fault Refusal := .next (hkConversion raw s)
def execHkRoundEnd (s : State) : Host.Outcome State Fault Refusal := .next (hkRoundEnd s)
def execFastLaneTimer (raws : Vector (BitVec 12) 64) (vsup : BitVec 12) (s : State) : Host.Outcome State Fault Refusal :=
  .next (fastLaneTimer raws vsup s)
def execTsdGraceExpiry (s : State) : Host.Outcome State Fault Refusal := .next (tsdGraceExpiry s)

end Sys2Proof.Machine
end

