-- ==== Sys2Proof/Machine/Interleave.lean ====
section
/-! DEFINITION. Interleave, rotation, re-spacing and external synchronisation (R143 to R173). -/

namespace Sys2Proof.Machine

/-! ### Origin (R143, R159, R160) -/

/-- Period of the origin of rail k, fine steps. -/
def originPeriod (s : State) (k : RailId) : Int := 2 * ((s.rail k).ilv.p16 : Int)

/-- The latest origin valley at or before x. -/
def originValley (s : State) (k : RailId) (x : Int) : Int :=
  let i := (s.rail k).ilv
  let p := originPeriod s k
  if p = 0 then i.originAt else i.originAt + (x - i.originAt) / p * p

/-- The origin takes a new half-period from its latest valley on. -/
def setOrigin (k : RailId) (p16 : Nat) (s : State) : State :=
  let o := originValley s k (nowI s)
  s.modIlv k fun i => { i with originAt := o, p16 := p16 }

/-- The reference carrier takes a new half-period at its valley x; the origin takes it at its own valley beside that one. With hold
ticks still to come, the reference carrier may stand up to a tick before it (R145, R160). -/
def followOrigin (k : RailId) (x : Int) (old : Carrier) (p16 : Nat) (s : State) : State :=
  let p := originPeriod s k
  let o := originValley s k (x - phaseF old.phase old.prd old.frac + p / 2)
  s.modIlv k fun i => { i with originAt := o, p16 := p16 }

/-- Programmed PRD: that of the present entry (R160). -/
def progPrd (s : State) (k : RailId) : Nat := prdOf s k (entFcode (s.rail k).mo.entry)

/-! ### Slots and glides (R144, R150 to R156) -/

/-- φ of slot j of n. -/
def phiOf (j n : Nat) : Nat := if n = 0 then 0 else j * 65536 / n

/-- A phase difference wrapped into −32,767 to +32,768. -/
def wrapMove (d : Int) : Int := if d % 65536 ≤ 32768 then d % 65536 else d % 65536 - 65536

/-- A carrier begins its part of a glide toward phase p1 at reference valley `v0`; its peaks after v0 count (R150). -/
def Carrier.beginGlide (c : Carrier) (p1 : Nat) (v0 : Int) : Carrier :=
  { c with
    glide := some { p0 := c.phase, move := wrapMove ((p1 : Int) - c.phase), steps := 0 }
    stepDue := !c.atPeak && decide (c.time = v0), skipStep := !c.atPeak && decide (c.nextPeak ≤ v0) }

def Carrier.endGlide (c : Carrier) : Carrier := { c with glide := none, stepDue := false, skipStep := false }

/-- A tile holds a slot in the set: ACTIVE with a slot. -/
def slotOf (ti : Tile) : Option Nat := if isActive ti then ti.slot else none

/-- A rotation glide begins (R149): slot j moves to slot j + 1, the reference carrier with slot 0. -/
def startRotation (k : RailId) (s : State) : State :=
  let n := nOf s k
  let s := s.modTilesOf k fun ti =>
    match slotOf ti with
    | some j => { ti with car := ti.car.beginGlide (phiOf ((j + 1) % n) n) (nowI s) }
    | none => ti
  s.modRail k fun r =>
    { r with car := r.car.beginGlide (wrap 16 ((r.car.phase : Int) + phiOf (1 % n) n)) (nowI s), ilv := { r.ilv with glide := .rotation, rotDue := false, rotValleys := 0 } }

/-- Fading-out tiles lose their slots (R154). -/
def dropFading (k : RailId) (s : State) : State :=
  ((tilesOf s k).filter fun t => isFadingOut (s.tile t)).foldl (fun s t =>
    let slot := (s.tile t).slot
    closeSlot k slot (s.modTile t fun ti => { ti with slot := none })) s

/-- A re-spacing glide begins (R154): every slot onto its φ of the new N; the reference carrier back to the origin. -/
def startRespace (k : RailId) (s : State) : State :=
  let s := dropFading k s
  let n := nOf s k
  let s := s.modTilesOf k fun ti =>
    match slotOf ti with
    | some j => { ti with car := ti.car.beginGlide (phiOf j n) (nowI s) }
    | none => { ti with car := ti.car.endGlide }
  s.modRail k fun r =>
    { r with car := if r.car.phase = 0 then r.car.endGlide else r.car.beginGlide 0 (nowI s)
             ilv := { r.ilv with glide := .respace, respaceDue := false } }

/-- A glide ends early, every carrier where it stands (R156); an abandoned rotation starts the count again (R149). -/
def abortGlide (k : RailId) (s : State) : State :=
  let s := s.modTilesOf k fun ti => { ti with car := ti.car.endGlide }
  s.modRail k fun r =>
    { r with car := r.car.endGlide
             ilv := { r.ilv with glide := .none, abortCnt := satInc r.ilv.abortCnt 255
                                 rotValleys := if r.ilv.glide = .rotation then 0 else r.ilv.rotValleys } }

/-- Every carrier of the glide has taken its 64th step (R150). -/
def glideDone (s : State) (k : RailId) : Bool :=
  let ok (c : Carrier) : Bool := match c.glide with | some g => g.steps == 64 | none => true
  ok (s.rail k).car && (tilesOf s k).all fun t => !(s.tile t).car.running || ok (s.tile t).car

/-- The reference carrier takes its next reload point from the origin, at least 96 ticks after x (R152). -/
def refToOrigin (k : RailId) (x : Int) (s : State) : State :=
  let half : Int := (s.rail k).ilv.p16
  let o := originValley s k x
  let n := if half = 0 then 0 else -((o - (x + 1536)) / half)
  let at' := o + n * half
  s.modRail k fun r =>
    { r with car := { r.car.endGlide with atPeak := decide (n % 2 = 0), time := at' - 16 * r.car.prd, hold := 0, phase := 0, corr := 0 } }

/-- A rotation ends at reference valley x (R152). -/
def endRotation (k : RailId) (x : Int) (s : State) : State :=
  let n := nOf s k
  let len := (tilesOf s k).length
  let s := s.modTilesOf k fun ti =>
    let ti := { ti with car := ti.car.endGlide }
    match slotOf ti with
    | some j => if n = 0 then ti else { ti with slot := some ((j + 1) % n), car := { ti.car with phase := phiOf ((j + 1) % n) n } }
    | none => ti
  let s := refToOrigin k x s
  s.modIlv k fun i =>
    { i with glide := .none, rotPtr := if len = 0 then 0 else (i.rotPtr + 1) % len, rotCnt := satInc i.rotCnt 65535, rotValleys := 0 }

/-- A re-spacing glide ends. -/
def endRespace (k : RailId) (s : State) : State :=
  (s.modTilesOf k fun ti => { ti with car := ti.car.endGlide }).modRail k fun r =>
    { r with car := r.car.endGlide, ilv := { r.ilv with glide := .none, change := false } }

/-- A PRD change is in progress or pending on the rail (R156): any period write that waits, one of SYNC_IN tracking too (log 171). -/
def periodBusy (s : State) (k : RailId) : Bool :=
  let r := s.rail k
  let waits (c : Carrier) : Bool := c.pend.isSome || c.coming.isSome
  r.mo.freqPend.isSome || r.mo.freqGo.isSome || waits r.car || (tilesOf s k).any fun t => waits (s.tile t).car

/-- Rotations become due and start (R149, R156). `gliding`: a glide was in progress when this valley came, which does not count. -/
def judgeRotation (k : RailId) (gliding : Bool) (s : State) : State :=
  let st := railSt s k
  if !steady st then s
  else
    let int := rotInt s k
    let s := if gliding = false then s.modIlv k fun i => { i with rotValleys := min (i.rotValleys + 1) 65535 } else s
    let due := decide (0 < int) && decide (2 ≤ nOf s k) && ((s.rail k).ilv.rotDue || decide (int ≤ (s.rail k).ilv.rotValleys))
    let s := s.modIlv k fun i => { i with rotDue := due }
    let fading := (tilesOf s k).any fun t => isFading (s.tile t)
    if due && (s.rail k).ilv.glide == .none && !fading && !changeBusy s k && !periodBusy s k && !leapActive s k then startRotation k s
    else s

/-! ### External synchronisation (R157 to R160) -/

/-- M × PERIOD, twice P16*, in sixteenths of a tick (R158). -/
def twoStar (s : State) (k : RailId) : Nat := syncMult s k * s.sync.period
/-- P16*. -/
def p16Star (s : State) (k : RailId) : Nat := (quotFree (twoStar s k) 2).toNat
/-- P16* within 5 % of 16 × the programmed PRD. -/
def starInRange (s : State) (k : RailId) : Bool :=
  let p : Int := 32 * progPrd s k
  decide (20 * |(twoStar s k : Int) - p| ≤ p)

/-- The instant that the target phase gives an origin valley: SYNC_OFS after the selected edge (R159). -/
def syncAim (s : State) (k : RailId) : Int :=
  (s.rail k).ilv.edgeAt + quotFree (syncOfs s k * (2 * p16Star s k : Nat)) 4096

/-- Instant of a period write that the reference carrier takes at its next valley and every tile at its first valley from then on, so that
all keep their places after the origin (R145, R160): four ticks before that valley, or the one after where less than two ticks are left. -/
def periodAt (s : State) (k : RailId) : Int :=
  let c := (s.rail k).car
  let v := if c.atPeak then c.nextValley else (c.toPeak (glidePaused s k)).nextValley
  let v := if nowI s ≤ v - 32 then v else v + 32 * c.prd
  max (nowI s) (v - 64)

/-- The rail returns to FREE: the programmed period without fraction is written, for the next reference valley; where the reference
carrier stands, the origin takes it at once (R159). -/
def syncFree (k : RailId) (s : State) : State :=
  if (s.rail k).ilv.lock = .free then s
  else
    let s := s.modIlv k fun i => { i with lock := .free, quiet := 0 }
    if (s.rail k).car.running then writePeriod k (progPrd s k) 0 (periodAt s k) s else setOrigin k (16 * progPrd s k) s

/-- The origin of rail k is placed at the target phase and runs at P16* (R159). -/
def placeOrigin (k : RailId) (s : State) : State :=
  s.modIlv k fun i => { i with originAt := syncAim s k, p16 := p16Star s k }

/-- The lock state of rail k is judged at an edge of SYNC_IN or at its loss (R158, R159). Event 114 comes once for a run of judgements
out of range, also across an absence of SYNC_IN (log 133). With M > 1 the edge at which the rail leaves FREE is itself the first
selected one (log 134). The quiet periods of ACQUIRING and the slew pass with reference valleys, so not in OFF, SAFE and HICCUP, which have
none (log 163). -/
def syncJudge (edge : Bool) (s : State) (k : RailId) : State :=
  if !lockEn s k then syncFree k s
  else if !s.sync.present then syncFree k s
  else
    let inR := starInRange s k
    let was := (s.rail k).ilv.outOfRange
    let s := s.modIlv k fun i => { i with outOfRange := !inR }
    let s := if inR then s else { s with sync := { s.sync with range := true } }
    let s := if !inR && !was then occur 114 0 s else s
    if !inR then syncFree k s
    else if !edge then s
    else
      match (s.rail k).ilv.lock with
      | .free =>
        let s := s.modIlv k fun i =>
          { i with edgeAt := nowI s, edgeNo := 0, valleyNo := 0, quiet := 0
                   lock := if railSt s k = .off then .locked else .acquiring }
        if railSt s k = .off then occur 113 0 (placeOrigin k s) else s
      | _ =>
        let n := (s.rail k).ilv.edgeNo + 1
        let sel := decide (n % (max 1 (syncMult s k)) = 0)
        let s := s.modIlv k fun i => { i with edgeNo := if sel then 0 else n, edgeAt := if sel then nowI s else i.edgeAt }
        if railOut (railSt s k) then setOrigin k (p16Star s k) s else s

/-- SYNC_IN becomes absent (R157). -/
def syncAbsent (s : State) : State :=
  let s := { s with sync := { s.sync with present := false, lost := true, lossCnt := satInc s.sync.lossCnt 255, period := 0, intervals := [],
                                          good := 0, bad := 0 } }
  let s := if allRails.any fun k => lockEn s k then occur 112 0 s else s
  allRails.foldl (syncJudge false) s

/-- SYNC_CFG.SI_EN = 0: SYNC_IN is ignored and always absent (R165). -/
def syncInOff (s : State) : State :=
  if siEn s then s
  else
    let s := if s.sync.present then syncAbsent s else s
    { s with sync := { s.sync with lastEdge := none, intervals := [], good := 0, bad := 0, period := 0 } }

/-- SYNC_LOOP.LOCK_EN = 0 takes the rail to FREE (R159). -/
def lockOff (k : RailId) (s : State) : State := if lockEn s k then s else syncFree k s

/-- SYNC_IN_EDGE: a rising edge with its timestamp in ticks (R157). -/
def syncInEdge (tick : Nat) (s : State) : State :=
  if siEn s && s.pwr.phase == .up then
    let s := s.advance (16 * tick)
    match s.sync.lastEdge with
    | none => { s with sync := { s.sync with lastEdge := some tick } }
    | some l =>
      let d := tick - l
      let ok := decide (18 ≤ d) && decide (d ≤ 131070)
      let ints := pushKeep 8 d s.sync.intervals
      let good := if ok then min (s.sync.good + 1) 8 else 0
      let bad := if ok then 0 else s.sync.bad + 1
      let present := s.sync.present || decide (good = 8)
      let s := { s with sync := { s.sync with
        lastEdge := some tick, intervals := ints, good := good, bad := bad, present := present
        period := if present then (quotFree (16 * (ints.sum : Nat)) ints.length).toNat else 0 } }
      if s.sync.present && decide (4 ≤ bad) then syncAbsent s else allRails.foldl (syncJudge true) s
  else s

/-- SYNC_IN_LOSS: no rising edge for 2 × PERIOD (R157). -/
def syncInLoss (s : State) : State :=
  match s.sync.lastEdge with
  | none => s
  | some l => if s.sync.present then syncAbsent (s.advance (16 * l + 2 * s.sync.period : Nat)) else s

/-- Phase error of the origin at valley x, wrapped into a half period: positive where the origin is late (R160). -/
def phaseError (s : State) (k : RailId) : Int :=
  let p := originPeriod s k
  if p = 0 then 0
  else
    let d := ((s.rail k).ilv.originAt - syncAim s k) % p
    if 2 * d ≤ p then d else d - p

/-- What the synchronisation unit does at a reference valley (R159, R160). Its period is in force from the next reference valley on (log 40).
The valleys are numbered from 0 at the one that follows the rail's leaving FREE (log 170). -/
def syncValley (k : RailId) (s : State) : State :=
  let i := (s.rail k).ilv
  if i.lock = .free then s
  else
    let e := phaseError s k
    let small := decide (|e| < 16)
    let c : Int := if small || i.valleyNo % 2 == 1 then 0 else if 0 < e then -1 else 1
    let p := max 2400 ((p16Star s k : Int) + c).toNat
    let quiet := if small then min (i.quiet + 1) 16 else 0
    let locks := i.lock == .acquiring && quiet == 16
    let s := s.modIlv k fun i => { i with valleyNo := i.valleyNo + 1, quiet := quiet, lock := if locks then .locked else i.lock }
    let s := if locks then occur 113 0 s else s
    writePeriod k (p / 16) (p % 16) (periodAt s k) s

/-- SYNC_OUT_PULSE: SYNC_OUT rises SO_PHASE after an origin valley of SO_RAIL, for SO_WIDTH ticks (R162). -/
def syncOutPulse (s : State) : State :=
  let k := soRail s
  let p := originPeriod s k
  if soEn s && coreOn s && decide (0 < p) then
    let from' : Int := match s.sync.outRise with | some r => max (nowI s) (r + 1) | none => nowI s
    let o := originValley s k from'
    let at' (n : Int) : Int := 16 * roundQ ((o + n * p) * 4096 + soPhase s * p) 65536
    let x := if from' ≤ at' (-1) then at' (-1) else if from' ≤ at' 0 then at' 0 else at' 1
    (s.advance x) |> fun s => { s with sync := { s.sync with outRise := some x, outFall := some (x + 16 * soWidth s) } }
  else s

/-- Level of SYNC_OUT. -/
def syncOutLevel (s : State) : Bool :=
  soEn s && coreOn s && match s.sync.outRise, s.sync.outFall with
    | some r, some f => decide (r ≤ nowI s) && decide (nowI s < f)
    | _, _ => false

def execSyncInEdge (tick : Nat) (s : State) : Host.Outcome State Fault Refusal := .next (syncInEdge tick s)
def execSyncInLoss (s : State) : Host.Outcome State Fault Refusal := .next (syncInLoss s)
def execSyncOutPulse (s : State) : Host.Outcome State Fault Refusal := .next (syncOutPulse s)

end Sys2Proof.Machine
end

