-- ==== Sys2Proof/Machine/Moult.lean ====
section
/-! DEFINITION. Moult and the operating map: bins, lookups, entry changes, adds and sheds, and REFERENCE_VALLEY (R174 to R197). -/

namespace Sys2Proof.Machine

/-! ### Bins (R180 to R182) -/

/-- The three dimensions: bins, ORIGIN, WIDTH and HYST in the quantity's units. -/
structure BinDim where
  n : Nat
  origin : Int
  width : Int
  hyst : Int
  deriving DecidableEq, Repr

def vDim (s : State) (k : RailId) : BinDim :=
  let w := setWord s (.mapVbin k)
  { n := rgNv s k, origin := 16 * fld w 11 0, width := 16 * fld w 23 12, hyst := 16 * fld w 31 24 }
def iDim (s : State) (k : RailId) : BinDim :=
  let w := setWord s (.mapIbin k)
  { n := rgNi s k, origin := 256 * sfld w 11 0, width := 256 * fld w 23 12, hyst := 256 * fld w 31 24 }
def tDim (s : State) (k : RailId) : BinDim :=
  let w := setWord s (.mapTbin k)
  { n := rgNt s k, origin := 8 * sfld w 9 0, width := 8 * fld w 17 10, hyst := 8 * fld w 23 18 }

/-- `bin_initial` of R181; a dimension of one bin ignores WIDTH (R180). -/
def binInitial (d : BinDim) (x : Int) : Nat :=
  if x < d.origin ∨ d.n ≤ 1 then 0 else min (quotDown (x - d.origin) d.width).toNat (d.n - 1)

/-- `bin_update` of R181. -/
def binUpdate (d : BinDim) (b : Nat) (x : Int) : Nat :=
  if b + 1 < d.n ∧ d.origin + (b + 1 : Nat) * d.width + d.hyst ≤ x then b + 1
  else if 0 < b ∧ d.n ≠ 1 ∧ x < d.origin + b * d.width - d.hyst then b - 1
  else b

/-- VIN_SLOW as shown (R82). -/
def vinSlowShown (s : State) (k : RailId) : Nat := (s.rail k).fe.vinSlow / 16

/-- Index of the entry of the present bins (R176). -/
def entryIndex (s : State) (k : RailId) : Nat :=
  let m := (s.rail k).mo
  rgBase s k + (m.tbin * rgNi s k + m.ibin) * rgNv s k + m.vbin

/-! ### Map words (R33, R194) -/

/-- A double-bit error in map word w: it is marked bad until the next boot (R194), event 224. -/
def markMapBad (w : Nat) (s : State) : State :=
  if s.map.bad.contains w then s
  else
    occur 224 0 { s with
      map := { s.map with bad := w :: s.map.bad, dbe := satInc s.map.dbe 255, dbeFlag := true, badWord := w, badValid := true }
      test := { s.test with dbe := satInc s.test.dbe 255 } }

/-- A read of map word w with the outcome of its check. -/
def readMapWord (w : Nat) (ecc : Ecc) (s : State) : State :=
  if s.map.bad.contains w then s
  else match ecc with
    | .ok => s
    | .single => { s with map := { s.map with sbe := satInc s.map.sbe 65535 } }
    | .double => markMapBad w s

/-- The map word of an entry. -/
def mapWord (idx : Nat) : Nat := idx / 4

/-! ### Entry changes (R183, R184) -/

/-- The present entry changes: NT, ILSCALE and LSET follow by themselves; FCODE and CSET become requests. -/
def takeEntry (k : RailId) (e : Word) (s : State) : State :=
  let m := (s.rail k).mo
  let was := setSource s k
  let s := s.modMo k fun m => { m with entry := e }
  if entFcode e = m.fcode then
    requestSet k was (s.modMo k fun m => { m with freqPend := none, setWithFreq := none, mapSet := entCset e })
  else s.modMo k fun m => { m with freqPend := some (entFcode e), setWithFreq := some (entCset e) }

/-- Bins, lookup and the safe entry at a reference valley (R182, R194): a rail whose present entry lies in a bad word takes its safe
entry in every state and during a Leap too, while the bins are frozen there. -/
def judgeBins (k : RailId) (ecc : Ecc) (s : State) : State :=
  let m := (s.rail k).mo
  let wasBad := !m.safe && s.map.bad.contains (mapWord m.entryIdx)
  let toSafe (s : State) : State := takeEntry k (safeEntry s k) (s.modMo k fun m => { m with safe := true })
  if !rgEn s k then s
  else if leapActive s k || !steady (railSt s k) then (if wasBad then toSafe s else s)
  else
    let v := binUpdate (vDim s k) m.vbin (vinSlowShown s k)
    let i := binUpdate (iDim s k) m.ibin m.ir
    let t := binUpdate (tDim s k) m.tbin (railTemp s k)
    if v = m.vbin ∧ i = m.ibin ∧ t = m.tbin then (if wasBad then toSafe s else s)
    else
      let s := s.modMo k fun m => { m with vbin := v, ibin := i, tbin := t }
      let idx := entryIndex s k
      let s := readMapWord (mapWord idx) ecc (s.modMo k fun m => { m with entryIdx := idx })
      if s.map.bad.contains (mapWord idx) then (if wasBad then toSafe s else s)
      else takeEntry k (Store.get 0 s.map.mem idx) (s.modMo k fun m => { m with safe := false })

/-- The entry of a start (R182, R184, R194, R195): bins from their initial values, the safe entry at once on a bad word; no switch
request arises. -/
def startEntry (k : RailId) (ecc : Ecc) (s : State) : State :=
  let s :=
    if rgEn s k then
      let s := s.modMo k fun m =>
        { m with vbin := binInitial (vDim s k) (vinSlowShown s k), ibin := binInitial (iDim s k) 0, tbin := binInitial (tDim s k) (railTemp s k) }
      let idx := entryIndex s k
      let s := readMapWord (mapWord idx) ecc (s.modMo k fun m => { m with entryIdx := idx })
      if s.map.bad.contains (mapWord idx) then s.modMo k fun m => { m with safe := true, entry := safeEntry s k }
      else s.modMo k fun m => { m with safe := false, entry := Store.get 0 s.map.mem idx }
    else s.modMo k fun m => { m with safe := false, entry := safeEntry s k }
  let s := s.modMo k fun m =>
    { m with fcode := entFcode m.entry, mapSet := entCset m.entry, lset := entLset m.entry, freqPend := none, setWithFreq := none, freqGo := none,
             ir := 0, addCnt := 0, shedCnt := 0 }
  s.modEng k fun e => { e with setAct := wantedSet s k, setForced := forceCset s k, setPend := none }

/-! ### Adds, sheds and exclusions (R148, R155, R185 to R189, R293) -/

/-- A tile enters ACTIVE with a slot. On leaving COLD it has formed no current yet (R87, R102, R281). -/
def Tile.enterActive (ti : Tile) (reason slot : Nat) : Tile :=
  let sen := if ti.act = .cold then { ti.sen with iv := none, ip := none, itile := 0, valid := false, evalid := false, pairSeen := false }
             else ti.sen
  { (ti.setAct .active reason) with slot := some slot, wasActive := true, lowed := false, emulating := false, sen := sen }

/-- ACTIVE tiles of rail k that hold a slot and do not fade out: the set that a re-spacing keeps (R154). -/
def stayingN (s : State) (k : RailId) : Nat :=
  ((tilesOf s k).filter fun t => isActive (s.tile t) && (s.tile t).slot.isSome && !isFadingOut (s.tile t)).length

/-- An add is decided (R188): the tile that comes in; a READY one steps to its target phase at its next peak, and a COLD one keeps its
carrier at 0 until it comes in (R56, R155). -/
def startAdd (k : RailId) (s : State) : State :=
  match (admitOrder s k).head? with
  | none => s
  | some t =>
    let n := stayingN s k
    let s := s.modRail k fun r => { r with mo := { r.mo with adds := satInc r.mo.adds 255 }, ilv := { r.ilv with adding := some t, change := true } }
    s.modTile t fun ti =>
      { ti with car := if ti.act = .ready then { ti.car with jump := some (phiOf n (n + 1)) } else ti.car }

/-- The fade-in of a decided add begins with its glide (R155): fading-out tiles lose their slots (R154), and the tile takes slot N; a
COLD one starts its carrier at its target phase. It acts from its next valley (R18), and emulates where the rail does (R241). Up to its
first valley it converts with f = 0, and a shadow that has landed before stays unscaled (R190; log 172). -/
def beginAdd (k : RailId) (t : TileId) (s : State) : State :=
  let s := dropFading k (s.modIlv k fun i => { i with adding := none })
  let n := nOf s k
  let r := s.rail k
  let o := originValley s k (nowI s)
  if (s.tile t).act = .ready ∨ ((s.tile t).act = .cold ∧ bankOn s t) then
    s.modTile t fun ti =>
      let car := if ti.act = .cold then
          { startCarrier ti.car o r.car.prd r.car.frac (phiOf n (n + 1)) (nowI s) with pend := r.car.pend, coming := r.car.coming }
        else ti.car
      { ti.enterActive 2 n with fade := .fadeIn 0, car := car, entering := true, emulating := !r.seq.deEnded }
  else s

/-- The present factor of a tile that begins to fade out (R190). -/
def fadeFrom (ti : Tile) : Nat := match ti.fade with | .fadeIn f => f | .fadeOut f _ => f | .none => 8

/-- The tile that a shed takes (R189): the one in slot N − 1; where that one fades out already, the one in the highest slot below it
that does not (log 135). -/
def shedTile (s : State) (k : RailId) : Option TileId :=
  ((List.range (nOf s k)).reverse.filterMap (tileInSlot s k)).find? fun t => isActive (s.tile t) && !isFadingOut (s.tile t)

/-- A shed is decided (R189): its tile begins to fade out. -/
def startShed (k : RailId) (s : State) : State :=
  match shedTile s k with
  | none => s
  | some t =>
    ((s.modMo k fun m => { m with sheds := satInc m.sheds 255, shedCnt := 0 }).modIlv k fun i => { i with change := true }).modTile t fun ti => { ti with fade := .fadeOut (fadeFrom ti) .ready }

/-- Dwell counters and decisions at a reference valley (R186, R187). -/
def judgeMoult (k : RailId) (s : State) : State :=
  let st := railSt s k
  if !steady st then s.modMo k fun m => { m with addCnt := 0, shedCnt := 0 }
  else if leapActive s k then s
  else
    let t := moultTgt s k
    let m := mOf s k
    let s := s.modMo k fun x =>
      { x with addCnt := if m < t then min (x.addCnt + 1) 255 else 0, shedCnt := if t < m then min (x.shedCnt + 1) 65535 else 0 }
    let x := (s.rail k).mo
    let rotating := (s.rail k).ilv.glide == .rotation
    if changeBusy s k then s
    else if (s.rail k).ilv.glide = .none ∨ rotating then
      if m < t ∧ addDwell s k ≤ x.addCnt then startAdd k s
      else if rotating then s
      else if t < m ∧ shedDwell s k ≤ x.shedCnt ∧ nMin s k < m then startShed k s
      else s
    else s

/-- An accepted host exclusion of an ACTIVE tile begins its fade-out once the rail is not busy (R187, R293); in STOPPING no fade begins
(R250). -/
def judgeExclusion (k : RailId) (s : State) : State :=
  let st := railSt s k
  if (steady st || st == .softstart || st == .prepare) && !railBusy s k then
    match (tilesOf s k).find? fun t => (s.tile t).reqPend && isActive (s.tile t) && !isFadingOut (s.tile t) with
    | some t => (s.modIlv k fun i => { i with change := true }).modTile t fun ti => { ti with fade := .fadeOut (fadeFrom ti) .hostOut }
    | none => s
  else s

/-! ### Glides at a reference valley (R150, R152, R154 to R156) -/

/-- A change of set ends the glide in progress at this valley, before its own end can (R156): a loss of a tile ends any glide, an add a
rotation. -/
def glideCut (s : State) (k : RailId) : Bool :=
  let i := (s.rail k).ilv
  i.glide != .none && (i.respaceDue || (i.adding.isSome && i.glide == .rotation))

/-- A glide ends, is cut short by a change of set, or begins with one. Where a Leap or STOPPING pauses the glide, that waits for the end of
the pause, since no glide begins before it (R153, R156, log 153). -/
def judgeGlide (k : RailId) (x : Int) (s : State) : State :=
  let s :=
    if (s.rail k).ilv.glide ≠ .none ∧ glideDone s k ∧ glideCut s k = false then
      if (s.rail k).ilv.glide = .rotation then endRotation k x s else endRespace k s
    else s
  let i := (s.rail k).ilv
  if glidePaused s k then s
  else if i.respaceDue || (i.adding.isSome && i.glide != .respace) then
    let s := if glideCut s k then abortGlide k s else s
    let s := match i.adding with | some t => beginAdd k t s | none => s
    startRespace k s
  else s

/-- A waiting frequency change is released with its set (R183): no glide in progress and no tile under Leap. -/
def judgeFreq (k : RailId) (s : State) : State :=
  match (s.rail k).mo.freqPend with
  | none => s
  | some f =>
    if (s.rail k).ilv.glide = .none ∧ leapActive s k = false then
      let m := (s.rail k).mo
      let was := setSource s k
      requestSet k was (s.modMo k fun x =>
        { x with freqPend := none, freqGo := some f, fcode := f, mapSet := m.setWithFreq.getD m.mapSet, setWithFreq := none })
    else s

/-! ### REFERENCE_VALLEY (R105, R180, R186) -/

/-- The reference carrier reaches its next valley, passing a peak that no update was aimed at, and takes a pending period (R54, R146). -/
def refToValley (k : RailId) (s : State) : State :=
  let s := if (s.rail k).car.atPeak then s else refToPeak k s
  let c := (s.rail k).car
  let x := c.nextValley
  let s := s.advance x
  let (took, c') := c.meet x
  let s := s.modRail k fun r => { r with car := (c'.toValley x).settleStep (glidePaused s k) }
  match took with
  | some p => followOrigin k x c (16 * p.prd + p.frac) s
  | none => s

/-- IR: the sum of ITILE of every ACTIVE tile with VALID = 1 (R180). -/
def irOf (s : State) (k : RailId) : Int :=
  (tilesOf s k).foldl (fun a t => if isActive (s.tile t) && (s.tile t).sen.valid then a + (s.tile t).sen.itile else a) 0
def formIr (k : RailId) (s : State) : State := s.modMo k fun m => { m with ir := irOf s k }

/-- Limits, throttle and resistance tracking of the valley (R276 to R278, R284, R287, R379); the tracking also where OCR stops the rail at
this valley (R269). -/
def judgeLimits (k : RailId) (s : State) : State :=
  let s := s.modProt k fun p => { p with ilimEff := ilimEffOf s k }
  let s := judgeOcr k s
  trackR k (if railOut (railSt s k) then s else stepThrottle k (judgeDrop k s))

/-- A reference valley that would have come in the cycle of the rail's stop is still judged (R269). -/
def lastRefValley (k : RailId) (s : State) : State :=
  let v := s.before k
  let c := (v.rail k).car
  if c.running && c.atPeak && decide (c.nextValley / 128 = (cycleOf s : Int)) then
    let s := s.advance c.nextValley
    trackR k (judgeOcr k (s.modMo k fun m => { m with ir := irOf v k }))
  else s

/-- REFERENCE_VALLEY of rail k. `ecc` is the check of the map word that a lookup of this valley reads. -/
def referenceValley (k : RailId) (ecc : Ecc) (s : State) : State :=
  if !(s.rail k).car.running then lastRefValley k s
  else
    let gliding := (s.rail k).ilv.glide != .none
    let s := (refToValley k s).modEng k fun e => { e with aimed := false }
    let x := nowI s
    let s := peakCurr k (formIr k s)
    let s := judgeLimits k (judgeBins k ecc s)
    if railOut (railSt s k) then s
    else
      let s := judgeMoult k (judgeExclusion k (judgeGlide k x s))
      settleChange k (syncValley k (judgeFreq k (judgeRotation k gliding s)))

/-- READY_TIMEOUT: a READY tile becomes COLD when READY_T has passed without its being admitted (R191). -/
def readyTimeout (t : TileId) (s : State) : State :=
  let ti := s.tile t
  match ti.rail with
  | none => s
  | some k =>
    if ti.act = .ready ∧ readyT s k ≠ 65535 ∧ ti.readyAt + ms (readyT s k) ≤ s.now ∧ (s.rail k).ilv.adding ≠ some t then
      (leapRemove t s).modTile t fun ti => ti.leaveCold s.now 3
    else s

def execReferenceValley (k : RailId) (ecc : Ecc) (s : State) : Host.Outcome State Fault Refusal := .next (referenceValley k ecc s)
def execReadyTimeout (t : TileId) (s : State) : Host.Outcome State Fault Refusal := .next (readyTimeout t s)

end Sys2Proof.Machine
end

