-- ==== Sys2Proof/Machine/Rail.lean ====
section
/-! DEFINITION. Rail start, stop and rail states (R235 to R266), with what a write of CMD asks for. -/

namespace Sys2Proof.Machine

/-! ### Start conditions (R237, R254, R255) -/

/-- LENk counts as active (R254). -/
def lenActive (s : State) (k : RailId) : Bool := !lenEn s k || (s.rail k).seq.lenPin == some (lenPol s k)

/-- Every assigned tile's bank is powered, and one tile can start. -/
def tilesReady (s : State) (k : RailId) : Bool :=
  (tilesOf s k).all (bankOn s) && (tilesOf s k).any fun t => (s.tile t).act == .cold && bankOn s t

/-- Every condition of R237 but the start dependency. From an accepted PWR_CMD on whose target is not RUN no start is made, although the
power state still reads RUN until the transition's step (log 136). -/
def startBase (s : State) (k : RailId) : Bool :=
  reqOn s k && lenActive s k && s.pwr.phase == .up && s.pwr.state == .run && s.pwr.target == .run && groupOn s k && tilesReady s k

/-- The start dependency is met (R255). -/
def depOk (s : State) (k : RailId) : Bool := !sdepEn s k || (s.rail k).seq.depMet

/-- Every condition of R237. -/
def startOk (s : State) (k : RailId) : Bool := startBase s k && depOk s k

/-- HICCUP_T has passed since the entry to HICCUP (R248). -/
def hiccupOver (s : State) (k : RailId) : Bool := decide ((s.rail k).seq.hiccupFrom + ms (hiccupT s k) ≤ s.now)

/-- STATE.SEQ_WAIT (R237, R248, R255, R257): a start, a retry among them, or a stop waits for its dependency. -/
def seqWait (s : State) (k : RailId) : Bool :=
  ((railSt s k == .off || (railSt s k == .hiccup && hiccupOver s k)) && startBase s k && !depOk s k)
    || (match (s.rail k).seq.stopWait with | some (false, _) => !stopDepOk s k | _ => false)

/-! ### PREPARE (R105, R147, R182, R192, R238, R333) -/

/-- The starting tiles in slot order (R147, R192). -/
def startTiles (s : State) (k : RailId) : List TileId := sortBy (rotPlace s k) ((admitOrder s k).take (moultTgt s k))

/-- The carriers of a start: the reference carrier at the origin's phase, each starting tile in its slot (R105, R143, R147). -/
def startCarriers (k : RailId) (s : State) : State :=
  let p16 := if (s.rail k).ilv.lock = .free then 16 * progPrd s k else (s.rail k).ilv.p16
  let s := setOrigin k p16 s
  let o := originValley s k (nowI s)
  let now := nowI s
  let ts := startTiles s k
  let n := ts.length
  let s := ts.foldl (fun s t => s.modTile t fun ti =>
    let j := indexIn t ts
    let ti := ti.enterActive 4 j
    { ti with car := startCarrier ti.car o (p16 / 16) (p16 % 16) (phiOf j n) now }) s
  s.modRail k fun r => { r with car := startCarrier r.car o (p16 / 16) (p16 % 16) 0 now }

/-- A rail enters PREPARE, from OFF or from HICCUP. -/
def enterPrepare (k : RailId) (ecc : Ecc) (s : State) : State :=
  let fromOff := railSt s k == .off
  let az := azStart s k || (match (s.rail k).fe.autozero with | .requested _ _ => true | _ => false)
  let s := s.modRail k fun r =>
    { r with
      seq := { r.seq with state := .prepare, pbHigh := false, pbWaitDone := false, pbTold := false, pbDone := false, prepDone := none, prepFrom := s.now,
                          shortFrom := none, stopWait := none, stopReached := false, deEnded := true, winFrom := none, winOut := 0 }
      fe := { r.fe with pbSum := 0, pbN := 0 }
      eng := { r.eng with aimed := false, preload := .none }
      prot := if fromOff then { r.prot with dthr := (dmax s k).toNat, dthrSet := true } else r.prot }
  let s := (railPorts s k).foldl crossCheck s
  if railSt s k ≠ .prepare then s
  else if !((tilesOf s k).any fun t => (s.tile t).act == .cold && bankOn s t) then railToOut k .safe 7 2 s
  else
    let s := feedforward k (startCarriers k (startEntry k ecc s))
    if az then askAutozero k true s else s

/-- RAIL_START: every start condition of R237 holds in OFF. -/
def railStart (k : RailId) (ecc : Ecc) (s : State) : State :=
  if railSt s k = .off ∧ startOk s k then enterPrepare k ecc s else s

/-- HICCUP_RETRY: HICCUP_T after its entry the rail re-enters PREPARE if the start conditions hold (R248). -/
def hiccupRetry (k : RailId) (ecc : Ecc) (s : State) : State :=
  if railSt s k = .hiccup ∧ hiccupOver s k ∧ startOk s k then enterPrepare k ecc s else s

/-- SEQ_DELAY_EXPIRY: PGOOD of START_DEP has been asserted for SEQ_DLY (R255). -/
def seqDelayExpiry (k : RailId) (s : State) : State :=
  match (s.rail k).seq.depFrom with
  | none => s
  | some f =>
    if sdepEn s k ∧ (s.rail (startDep s k)).seq.pgood ∧ f + us (10 * seqDly s k) ≤ s.now then s.modSeq k fun q => { q with depMet := true }
    else s

/-! ### SOFTSTART (R238 to R242, R246) -/

/-- A tile at V1: it takes the duty that the preloaded update has written, and one that counts down there plans the pulse centred on its
next valley, which is its first after V1 (R239, log 149). -/
def Tile.startPulse (ti : Tile) (v1 : Int) : Tile :=
  let ti := if ti.car.waits v1 then ti else ti.takeDuty v1
  if ti.car.running && ti.car.atPeak && decide (v1 < ti.car.nextValley) && !ti.trip.latch && !ti.trip.resume then
    ti.settlePeak v1 ti.car.nextValley
  else ti

/-- SOFTSTART_ENTRY: at V1, the reference valley at which the preloaded update is aimed. -/
def softstartEntry (k : RailId) (s : State) : State :=
  let r := s.rail k
  if r.seq.state = .prepare ∧ r.eng.aimed then
    let v := if r.car.atPeak then r.car.nextValley else (r.car.toPeak true).nextValley
    let s := s.advance v
    let discharge := pbDisch s k && decide (target s k < r.seq.pb)
    let s := setRef k (r.seq.pb * 65536) v (s.modSeq k fun q =>
      { q with state := .softstart, v1 := v, trackMax := 0, shortFrom := none, deEnded := discharge, prepDone := none })
    let s := s.modTilesOf k fun ti => if isActive ti then { ti with emulating := !discharge, lowed := false }.startPulse v else ti
    lifeInc (finOf 73 (by decide) (8 + k.val)) s
  else s

/-- PREBIAS_WAIT_TIMEOUT: a pre-bias wait has lasted 100 ms; the event latches once and the wait goes on (R240). -/
def prebiasWaitTimeout (k : RailId) (s : State) : State :=
  let q := (s.rail k).seq
  if q.state = .prepare ∧ q.pbHigh ∧ q.pbTold = false ∧ q.pbWaitFrom + ms 100 ≤ s.now then
    occur (48 + k.val) (loopDetail s k 7) (s.modSeq k fun q => { q with pbTold := true })
  else s

/-- TRACK_FAILURE: the shortfall timer has exceeded TRACK_T (R246). -/
def trackFailure (k : RailId) (s : State) : State :=
  match (s.rail k).seq.shortFrom with
  | none => s
  | some f =>
    if railSt s k = .softstart ∧ trackT s k ≠ 0 ∧ f + us (trackT s k) < s.now then
      let s := hiccupFault k 4 s
      occur (48 + k.val) (loopDetail s k 5) s
    else s

/-- RETRY_CLEAR: HICCUP_T in REGULATE or SLEW without interruption (R247). -/
def retryClear (k : RailId) (s : State) : State :=
  if steady (railSt s k) && decide ((s.rail k).seq.steadyFrom + ms (hiccupT s k) ≤ s.now) then s.modSeq k fun q => { q with retry := 0 }
  else s

/-- PGOOD_ASSERT: in window at every conversion for PG_DLY in REGULATE or SLEW (R252); it ends diode emulation where DE_END says so. -/
def pgoodAssert (k : RailId) (s : State) : State :=
  let q := (s.rail k).seq
  match q.winFrom with
  | none => s
  | some f =>
    if steady q.state && !q.pgood && decide (f + us (10 * pgDly s k) ≤ s.now) then
      (setPgood k true s).modSeq k fun q => { q with deEnded := q.deEnded || deEnd s k }
    else s

/-! ### Stops (R249 to R251, R254) -/

/-- STOPPING_COMPLETE: the reference is at its end point and every tile is low from its valley; the rail enters OFF or SAFE. -/
def stoppingComplete (k : RailId) (s : State) : State :=
  let q := (s.rail k).seq
  if q.state = .stopping ∧ q.stopReached ∧ ((tilesOf s k).all fun t => !isActive (s.tile t) || (s.tile t).lowed) then
    railToOut k (if q.stopSafe then .safe else .off) q.stopCause 8 s
  else s

/-- An immediate stop into OFF (R236). -/
def immediateOff (k : RailId) (cause : Nat) (s : State) : State :=
  if railSt s k = .off then s else railToOut k .off cause 1 s

/-- LENk is judged (R236, R254): inactive with LEN_MODE = 1 it stops the rail at once; with LEN_MODE = 0 it asks for an orderly stop as
it becomes inactive. Such a stop that waits is not withdrawn when LENk returns, nor by a write of ON (log 137). -/
def lenJudge (k : RailId) (was : Bool) (s : State) : State :=
  if lenActive s k then s
  else if lenMode s k then immediateOff k 3 s
  else if was then orderlyOff occur k 3 s else s

/-- LEN_CHANGE: a new LENk level is accepted. -/
def lenChange (k : RailId) (level : Bool) (s : State) : State :=
  if coreOn s then
    let was := lenActive s k
    lenJudge k was (s.modSeq k fun q => { q with lenPin := some level })
  else s

/-! ### Writes of CMD (R236, R247, R249, R253, R258, R329) -/

/-- A cause that sent the rail to SAFE persists (R253; log 42). -/
def causePersists (s : State) (k : RailId) : Bool :=
  let c := (s.rail k).seq.cause
  let w := loopW s k .respTile
  s.hk.tsd || c == 8
    || ((c == 6 || c == 7 || c == 5) && qOf s k == 0 && qaOf s k != 0)
    || (c == 6 && (tilesOf s k).any fun t =>
          let ti := s.tile t
          (decide (4 ≤ respCode w 0) && ti.trip.latch) || (decide (4 ≤ respCode w 4) && (ti.hea.lOut || ti.hea.rOut)))

/-- CMD.CLEAR is refused (R253, R271, R329): while TSD or a class bit of the rail or of one of its tiles is set, and in SAFE while the
cause persists. -/
def clearRefused (s : State) (k : RailId) : Bool :=
  s.hk.tsd || railClassSet s k || (railSt s k == .safe && causePersists s k)

/-- CLEAR: from SAFE to OFF, REQ to OFF. -/
def clearRail (k : RailId) (s : State) : State :=
  if railSt s k = .safe then setReq k 0 (railToOut k .off 9 8 s) else s

/-- The effect of REQ (R236, R258); a rail in HICCUP goes to OFF as REQ becomes OFF. -/
def doReq (k : RailId) (req : Nat) (s : State) : State :=
  match req with
  | 0 =>
    let s := setReq k 0 s
    if railSt s k = .hiccup then railToOut k .off 1 8 s else orderlyOff occur k 1 s
  | 1 => (setReq k 1 s).modSeq k fun q => { q with stopWait := match q.stopWait with | some (false, 1) => none | w => w }
  | _ => immediateOff k 2 (setReq k 0 s)

/-- A write of CMD, the claim judged: CLEAR acts before REQ (R258). A reserved REQ refuses the write whole (R8); a CLEAR or an ON that
may not act is one refused write, and the other field acts (R7). -/
def writeCmd (h : HostId) (k : RailId) (data : Word) (s : State) : State :=
  let req := fld data 1 0
  let clear := bitOf data 4
  if req = 3 then refuse h s
  else
    let noClear := clear && clearRefused s k
    let noOn := req == 1 && s.hk.tsd
    let s := if noClear || noOn then refuse h s else s
    let s := if clear && !noClear then clearRail k s else s
    if noOn then s else doReq k req s

/-! ### The rows -/

def execRailStart (k : RailId) (ecc : Ecc) (s : State) : Host.Outcome State Fault Refusal := .next (railStart k ecc s)
def execSeqDelayExpiry (k : RailId) (s : State) : Host.Outcome State Fault Refusal := .next (seqDelayExpiry k s)
def execSoftstartEntry (k : RailId) (s : State) : Host.Outcome State Fault Refusal := .next (softstartEntry k s)
def execPrebiasWaitTimeout (k : RailId) (s : State) : Host.Outcome State Fault Refusal := .next (prebiasWaitTimeout k s)
def execTrackFailure (k : RailId) (s : State) : Host.Outcome State Fault Refusal := .next (trackFailure k s)
def execHiccupRetry (k : RailId) (ecc : Ecc) (s : State) : Host.Outcome State Fault Refusal := .next (hiccupRetry k ecc s)
def execRetryClear (k : RailId) (s : State) : Host.Outcome State Fault Refusal := .next (retryClear k s)
def execStoppingComplete (k : RailId) (s : State) : Host.Outcome State Fault Refusal := .next (stoppingComplete k s)
def execPgoodAssert (k : RailId) (s : State) : Host.Outcome State Fault Refusal := .next (pgoodAssert k s)
def execLenChange (k : RailId) (level : Bool) (s : State) : Host.Outcome State Fault Refusal := .next (lenChange k level s)

end Sys2Proof.Machine
end

