-- ==== Sys2Proof/Machine/Journal.lean ====
section
/-! DEFINITION. The journal: entries, the writer, the ring with its pins, and the two readers (R26 to R28, R527 to R533, R552). -/

namespace Sys2Proof.Machine

/-! ### Snapshot values (R529, R530) -/

/-- Owner of the claim, as CLAIM.OWNER shows it (R425). -/
def ownerCode (s : State) : Nat := match s.bus.owner with | none => 0 | some .a => 1 | some .b => 2

/-- PWR_STAT.STATE (R368). -/
def powerCode : Power → Nat
  | .standby => 0 | .ready => 1 | .run => 2 | .keepalive => 3

/-- The subject of an entry: tile and rail (R530). -/
def subjectOf (s : State) (q : QueueEntry) : Option TileId × Option RailId :=
  let tile (t : TileId) : Option TileId × Option RailId := (some t, (s.tile t).rail)
  if q.record then (if q.id = 0 then tile (tileOf (fld q.detail 5 0)) else (none, none))
  else if q.id < 48 then tile (tileOf q.id)
  else if q.id < 64 then (none, some (railOf q.id))
  else if q.id < 88 then tile (tileOf (2 * (q.id - 64)))
  else (none, none)

/-- VSUP of the latest single conversion of channel 36, 10 mV (R530, R618). -/
def vsupNow (s : State) : Nat := vsup10 (s.chan (chanOf 36)).latest

/-- SNAP: bytes 16 to 31 of an entry, as the values stand when the writer takes it (R530). -/
def snapOf (s : State) (q : QueueEntry) : BitVec 128 :=
  let (t, k) := subjectOf s q
  let rail (f : RailId → Nat) : Nat := match k with | some k => f k | none => 0
  let tile (f : TileId → Nat) : Nat := match t with | some t => f t | none => 0
  let b23 (k : RailId) : Nat :=
    railCode (railSt s k) + atB (s.rail k).seq.pgood 4 + atB (throttles s k) 5 + atB ((s.rail k).leap.state == .leap) 6
      + atB (s.rail k).mo.safe 7
  let bytes := beBytes 2 (rail fun k => (s.rail k).fe.vout) ++ beBytes 2 (rail (refCode s))
    ++ beBytes 3 (rail fun k => wrap 24 (s.rail k).mo.ir) ++ beBytes 1 (rail b23)
    ++ beBytes 2 (tile fun t => wrap 16 (s.tile t).sen.itile)
    ++ beBytes 2 (tile fun t => wrap 16 (s.chan (chanOf (portOf t).val)).value)
    ++ beBytes 2 (vsupNow s)
    ++ beBytes 1 (rail (fun k => k.val + 8) + at_ (powerCode s.pwr.state) 2 4 + at_ (ownerCode s) 2 6)
    ++ beBytes 1 (tile fun t => t.val + 64)
  BitVec.ofNat 128 (beNat bytes)

/-! ### Entries (R527, R528) -/

/-- FLAGS of an entry but PIN (R528). -/
def flagsOf (q : QueueEntry) : Nat :=
  atB q.loss 0 + atB q.corrupt 1 + atB q.cls 3 + atB q.snap 4 + atB q.record 5 + atB (q.host == some .b) 6 + atB q.host.isSome 7

/-- The first 16 bytes of an entry. -/
def JournalEntry.head (e : JournalEntry) : List Byte :=
  beBytes 5 e.sec.toNat ++ beBytes 2 e.frac.toNat ++ [e.flags, e.id] ++ beBytes 3 e.seq.toNat ++ beBytes 4 e.detail.toNat
/-- The 32 bytes of an entry. -/
def JournalEntry.bytes (e : JournalEntry) : List Byte := e.head ++ beBytes 16 e.snap.toNat

def JournalEntry.pinned (e : JournalEntry) : Bool := e.flags.getLsbD 2
def JournalEntry.unpin (e : JournalEntry) : JournalEntry := { e with flags := e.flags &&& ~~~4#8 }
def pinnedCount (s : State) : Nat := (s.jrn.ring.filter JournalEntry.pinned).length

/-! ### The journal region (R535, R539) -/

/-- The external memory can be reached: discovered, with XMI and CORE powered. -/
def xmUp (s : State) : Bool := s.xm.present && s.pwr.xmi && coreOn s
/-- Base in bytes and size in sectors of the journal region. -/
def jrBase (s : State) : Nat := 4096 * fld (setWord s .xmJrg) 13 0
def jrSectors (s : State) : Nat := fld (setWord s .xmJrg) 29 16
/-- XM_CFG.EN and XM_CFG.KIND. -/
def xmEn (s : State) : Bool := bitOf (setWord s .xmCfg) 0
def xmRam (s : State) : Bool := bitOf (setWord s .xmCfg) 1
/-- The journal region is in service. -/
def jrInService (s : State) : Bool := xmUp s && xmEn s && !s.xm.jdis && jrSectors s != 0

/-! ### The ring (R28, R531) -/

/-- A host's pointer and count where entry `no` has been overwritten (R533). -/
def HostRegs.overwritten (h : HostRegs) (no oldest : Nat) : HostRegs :=
  let h := if h.jrnPtr ≤ no then { h with skipped := satInc h.skipped 65535 } else h
  if h.jrnPtr = no then { h with jrnPtr := oldest } else h

/-- A full ring gives up its oldest unpinned entry (R28); event 176 for the first one not held in XMEM (R549). -/
def makeRoom (s : State) : State :=
  if s.jrn.ring.length < 1024 then s
  else match s.jrn.ring.find? fun e => !e.pinned with
    | none => s
    | some e =>
      let ring := eraseFirst (fun x => !x.pinned) s.jrn.ring
      let oldest := match ring with | o :: _ => o.no | [] => s.jrn.nextNo
      let first := !e.inXmem && !s.jrn.ovr
      let s := { s with jrn := { s.jrn with ring := ring, ovrCnt := satInc s.jrn.ovrCnt 65535, ovr := s.jrn.ovr || !e.inXmem }
                        xm := if s.xm.stall && !e.inXmem then { s.xm with lost := s.xm.lost + 1 } else s.xm }
      let s := s.modHost .a fun h => h.overwritten e.no oldest
      let s := s.modHost .b fun h => h.overwritten e.no oldest
      if first then occur 176 (word e.seq.toNat) s else s

/-- Write one queue entry into the ring: SEQ, snapshot and pin (R529 to R532). -/
def writeEntry (q : QueueEntry) (s : State) : State :=
  let snap := match q.snapBytes with | some b => b | none => snapOf s q
  let seq := q.seq.getD s.ka.nextSeq
  let wants := q.cls || q.snap || (q.record && q.id == 4)
  let pin := wants && decide (pinnedCount s < 64)
  let s := makeRoom s
  let e : JournalEntry :=
    { no := s.jrn.nextNo, sec := q.sec, frac := q.frac, flags := BitVec.ofNat 8 (flagsOf q + atB pin 2), id := BitVec.ofNat 8 q.id
      seq := seq, detail := q.detail, snap := snap, writtenAt := s.now, inXmem := false }
  let s := { s with
    jrn := { s.jrn with ring := s.jrn.ring ++ [e], nextNo := s.jrn.nextNo + 1
                        pinOvf := if wants && !pin then satInc s.jrn.pinOvf 255 else s.jrn.pinOvf }
    ka := if q.seq.isSome then s.ka else { s.ka with nextSeq := s.ka.nextSeq + 1 } }
  if wants && !pin then occur 185 (word seq.toNat) s else s

/-- JOURNAL_WRITE: the journal writer takes the oldest entry of the event queue, whose cycle has come. -/
def journalWrite (s : State) : State :=
  match s.ev.queue with
  | [] => s
  | q :: rest => if coreOn s && decide (q.cyc ≤ cycleOf s) then writeEntry q { s with ev := { s.ev with queue := rest } } else s

/-! ### Errors in the ring (R33) -/

/-- A double-bit error is counted, and fails a running sweep. -/
def countDbe (s : State) : State :=
  { s with test := { s.test with dbe := satInc s.test.dbe 255, sweepBad := s.test.sweepBad || s.test.running } }

/-- The entry of a corrupted ring word is marked (R33, R528): word w belongs to the entry at place w / 2 of the ring (log 55). -/
def markRing (w : Nat) (s : State) : State :=
  { s with jrn := { s.jrn with ring := mapList (fun i e => if i = w / 2 then { e with flags := e.flags ||| 2 } else e) 0 s.jrn.ring } }

/-- A double-bit error in a ring word, event 225. -/
def ringError (w : Nat) (s : State) : State := occur 225 0 (markRing w (countDbe s))

/-- A single-bit error in the ring is corrected and counted (R374). -/
def ringFixed (s : State) : State := { s with test := { s.test with sbeRing := satInc s.test.sbeRing 255 } }

/-- The words of entry `no` are read, with the outcome of their check (R33): the entry is marked by its place (log 55). -/
def checkRing (no : Nat) (ecc : Ecc) (s : State) : State :=
  match ecc with
  | .ok => s
  | .single => ringFixed s
  | .double => ringError (2 * s.jrn.ring.findIdx fun x => x.no == no) s

/-! ### Readers (R533) -/

/-- The entry at host h's pointer: the first one not older. -/
def nextUnread (s : State) (h : HostId) : Option JournalEntry := s.jrn.ring.find? fun e => decide ((s.host h).jrnPtr ≤ e.no)

/-- Entries that host h has not popped. -/
def availOf (s : State) (h : HostId) : Nat := (s.jrn.ring.filter fun e => decide ((s.host h).jrnPtr ≤ e.no)).length

/-- A read of JRN_E[0]: the entry at the pointer is loaded into the host's buffer, or zeros. -/
def loadEntry (h : HostId) (s : State) : State :=
  match nextUnread s h with
  | none => s.modHost h fun r => { r with jrnBuf := 0, jrnLoaded := none }
  | some e => s.modHost h fun r => { r with jrnBuf := BitVec.ofNat 256 (beNat e.bytes), jrnLoaded := some e.no }

/-- JRN_E[j] of a host's buffer: bytes 4j to 4j + 3. -/
def bufWord (s : State) (h : HostId) (j : Nat) : Word := ((s.host h).jrnBuf >>> (32 * (7 - j))).setWidth 32

/-- A read of JRN_E[7]: the loaded entry is popped, once, while the pointer stands at it; with no journal region in service it
loses its pin (R531). -/
def popEntry (h : HostId) (s : State) : State :=
  match (s.host h).jrnLoaded, nextUnread s h with
  | some n, some e =>
    let s := s.modHost h fun r => { r with jrnLoaded := none }
    if e.no = n then
      let s := s.modHost h fun r => { r with jrnPtr := n + 1 }
      if jrInService s then s
      else { s with jrn := { s.jrn with ring := s.jrn.ring.map fun x => if x.no = n then x.unpin else x } }
    else s
  | _, _ => s.modHost h fun r => { r with jrnLoaded := none }

/-- JRN_HCTL.MOVE (R552): to the oldest entry, or past the newest. -/
def moveOldest (h : HostId) (s : State) : State :=
  s.modHost h fun r => { r with jrnPtr := match s.jrn.ring with | e :: _ => e.no | [] => s.jrn.nextNo }
def moveNewest (h : HostId) (s : State) : State := s.modHost h fun r => { r with jrnPtr := s.jrn.nextNo }

/-! ### Fault summary and the power-fail page (R348, R513) -/

/-- Bytes 36 to 59 of the fault page. -/
def faultSummary (s : State) : List Byte :=
  let nib (f : RailId → Nat) : Nat := allRails.foldl (fun a k => a + at_ (f k) 4 (4 * k.val)) 0
  beBytes 4 (nib fun k => railCode (railSt s k)) ++ beBytes 4 (nib fun k => (s.rail k).seq.cause)
    ++ (allRails.map fun k => BitVec.ofNat 8 (s.rail k).prot.fault.toNat)
    ++ beBytes 6 (allTiles.foldl (fun a t => a + atB ((s.tile t).act == .dropped) t.val) 0)
    ++ beBytes 2 s.pwr.vsupMin

/-- Sixteen free bytes: what the page holds where the ring has no such entry (the manual does not say). -/
def freeBytes (n i : Nat) : List Byte := beBytes n (Config.freeNat i)

/-- The snapshot page with its number, from the last two journal entries (R513). -/
def faultPage (s : State) (no : BitVec 24) : List Byte :=
  let two := match s.jrn.ring.reverse with
    | newer :: older :: _ => older.head ++ newer.head
    | [newer] => freeBytes 16 s.free ++ newer.head
    | [] => freeBytes 16 s.free ++ freeBytes 16 (s.free + 1)
  let body := [0xA5#8] ++ beBytes 3 no.toNat ++ two ++ faultSummary s
  body ++ beBytes 4 (crc32 body)

/-- The page of a committed snapshot is assembled once no operation of the NVM runs (R348). -/
def pfAssemble (s : State) : State :=
  if s.pwr.pfCommitted && s.pwr.pfPage.isEmpty && s.nvm.op.isNone then
    let no := s.ka.snapNo + 1
    { s with pwr := { s.pwr with pfPage := faultPage s no }, ka := { s.ka with snapNo := no }, free := s.free + 2 }
  else s

def execJournalWrite (s : State) : Host.Outcome State Fault Refusal := .next (journalWrite s)

end Sys2Proof.Machine
end

