-- ==== Sys2Proof/Machine/Xmem.lean ====
section
/-! DEFINITION. The draw arbiter, the external memory port with its journal region, and the recorder (R534 to R554). -/

namespace Sys2Proof.Machine

/-! ### The draw arbiter (R547, R548, R551) -/

def drawBudget (s : State) : Int := fld (setWord s .drawCfg) 15 0
def drawShunt (s : State) : Nat := fld (setWord s .drawCfg) 31 24

/-- Programmed charge current, mA (R562). -/
def chgCurrent (s : State) : Nat := 5 * fld s.ka.chg.cfg 8 4

/-- The declared cost of a request, mA. -/
def drawCostOf (s : State) (u : DrawUser) : Nat :=
  let w := setWord s .drawCost
  match u with
  | .bank _ => fld w 7 0
  | .nvmCritical | .nvm => fld w 15 8
  | .autozero _ => fld w 23 16
  | .xmJournal | .xmPrefetch | .xmRecorder | .xmImage => fld w 31 24
  | .bist => fld (setWord s .drawCfg) 23 16
  | .charger => (quotUp (600 * chgCurrent s) (vsupNow s)).toNat

/-- Sum of the costs of the grants that meet `p`. -/
def grantSum (s : State) (p : DrawGrant → Bool) : Nat := (s.draw.active.filter p).foldl (fun a g => a + g.cost) 0

/-- I_MEAS: the mean of the samples divided by SHUNT. -/
def measured (s : State) (samples : List Nat) : Nat :=
  (quotFree (samples.sum : Nat) (samples.length * drawShunt s : Nat)).toNat

/-- Grant a waiting request. -/
def grantLeave (r : DrawRequest) (s : State) : State :=
  { s with draw := { s.draw with
      waiting := eraseFirst (fun x => x.user == r.user) s.draw.waiting
      active := s.draw.active ++ [{ user := r.user, cost := drawCostOf s r.user, since := s.now }] }
           ka := if r.user = .charger then { s.ka with chg := { s.ka.chg with paused := false } } else s.ka }

/-- The charger's grant is released and it asks again at once (R548, R566). -/
def pauseCharger (s : State) : State :=
  let s := releaseLeave .charger s
  askLeave .charger { s with draw := { s.draw with preemptCnt := satInc s.draw.preemptCnt 255 }
                             ka := { s.ka with chg := s.ka.chg.pause } }

/-- The loop of R548 over the waiting requests. `b`: the draw not covered by grants. -/
def grantLoop (b : Int) : List DrawRequest → Int → State → State
  | [], _, s => s
  | r :: rest, h, s =>
    let c : Int := drawCostOf s r.user
    if c ≤ h then grantLoop b rest (h - c) (grantLeave r s)
    else if s.draw.active = [] ∧ drawBudget s - b < c then grantLeave r s
    else if drawRank r.user < 8 ∧ leaveHeld s .charger ∧ c ≤ h + grantSum s (fun g => g.user == .charger) then pauseCharger s
    else s

/-- Waiting requests by rank, oldest first. -/
def drawOrder (s : State) : List DrawRequest :=
  [1, 2, 3, 4, 5, 6, 7, 8].flatMap fun n => s.draw.waiting.filter fun r => drawRank r.user == n

/-- One sample of the supply current, whose converter ranges from 0 to 150 mV (R611), and the grants that follow (R548). -/
def drawSample (microvolts : Nat) (s : State) : State :=
  if pastStep1 s then
    let samples := pushKeep 64 (min microvolts 150000) s.draw.samples
    let i := measured s samples
    let s := { s with draw := { s.draw with samples := samples, imeas := min i 65535 } }
    if samples.length < 64 ∨ s.pwr.warn then s
    else
      let b := max ((i : Int) - grantSum s fun g => decide (g.since + ms 1 ≤ s.now)) 0
      grantLoop b (drawOrder s) (drawBudget s - b - grantSum s fun _ => true) s
  else s

/-- Apply `f` to the first element that meets `p`. -/
def modFirst {α : Type} (p : α → Bool) (f : α → α) : List α → List α
  | [] => []
  | a :: as => if p a then f a :: as else a :: modFirst p f as

/-- LEAVE_WAIT_LONG: the oldest request of rank r + 1 that has waited 1 s latches event 184 once (R547). -/
def leaveWaitLong (r : Fin 8) (s : State) : State :=
  let long (x : DrawRequest) : Bool := drawRank x.user == r.val + 1 && !x.long && decide (x.since + secs 1 ≤ s.now)
  if s.draw.waiting.any long then
    occur 184 (word (r.val + 1)) { s with draw := { s.draw with
      waiting := modFirst long (fun x => { x with long := true }) s.draw.waiting, longCnt := satInc s.draw.longCnt 255 } }
  else s

/-! ### Credits and leave of the port (R536) -/

/-- Who asks leave for a burst (R547). -/
def burstUser (b : XBurst) : DrawUser :=
  match b with
  | .journal _ _ _ | .journalErase _ | .journalFill _ _ _ => .xmJournal
  | .prefetch _ _ => .xmPrefetch
  | .recorder _ _ _ | .recorderErase _ => .xmRecorder
  | .image _ _ | .imageErase _ => .xmImage

/-- The port's users. -/
def xmUser (u : DrawUser) : Bool := u == .xmJournal || u == .xmPrefetch || u == .xmRecorder || u == .xmImage
def isJournalBurst (b : XBurst) : Bool := burstUser b == .xmJournal

/-- Credits in use, and those of one user. -/
def credits (s : State) : Nat := s.xm.bursts.length
def creditsOf (s : State) (u : DrawUser) : Nat := (s.xm.bursts.filter fun b => burstUser b == u).length

/-- Grants of a user that no burst in flight uses; during a VSUP warning no burst begins (R346). -/
def spareGrants (s : State) (u : DrawUser) : Nat := leaveGrants s u - creditsOf s u
def freeGrant (s : State) (u : DrawUser) : Bool := !s.pwr.warn && decide (0 < spareGrants s u)

/-- Bytes that one program burst may hold from an address: 256, and no further than the page's end (R536, R539). -/
def burstRoom (s : State) (a : Nat) : Nat := min (256 - a % 256) (2 ^ s.xm.pageLog - a % 2 ^ s.xm.pageLog)

/-- Entries that bursts in flight carry. -/
def stagedNos (s : State) : List Nat := s.xm.bursts.flatMap fun b => match b with | .journal nos _ _ => nos | _ => []
/-- Ring entries that XMEM does not hold and no burst carries yet, oldest first. -/
def uncopied (s : State) : List JournalEntry := s.jrn.ring.filter fun e => !e.inXmem && !(stagedNos s).contains e.no
/-- Where the next journal burst writes: behind the entries of those in flight. -/
def nextSlot (s : State) : Nat := (s.xm.head + (stagedNos s).length) % (128 * jrSectors s)

/-- The next journal burst: before the first write into a sector the next one is erased, or on a RAM filled with 0xFF; then entries up to
the end of the page (R534, R539). None while that erase or fill is on its way. -/
def nextJournal (s : State) : Option XBurst :=
  let slot := nextSlot s
  let sct := slot / 128
  let after := (sct + 1) % jrSectors s
  if slot % 128 = 0 ∧ s.xm.erasedFor ≠ some sct then
    if xmRam s then
      (if s.xm.filled < 4096 then some (.journalFill after s.xm.filled (burstRoom s (jrBase s + 4096 * after + s.xm.filled))) else none)
    else if s.xm.bursts.contains (.journalErase after) then none
    else some (.journalErase after)
  else
    let es := (uncopied s).take (burstRoom s (jrBase s + 32 * slot) / 32)
    some (.journal (es.map (·.no)) slot (es.flatMap (·.bytes)))

/-- A journal burst is ready: 8 entries wait, or the oldest has waited 50 ms (R539). -/
def journalReady (s : State) : Bool :=
  jrInService s && !s.xm.stall && s.xm.jready && (nextJournal s).isSome &&
  match uncopied s with
  | [] => false
  | e :: _ => decide (8 ≤ (uncopied s).length) || decide (e.writtenAt + ms 50 ≤ s.now)

/-- Journal bursts for which leave is asked, within the credits that are free: those of 8 entries that wait, at least one where one is
ready; one for the head search (R539, R540). -/
def journalWants (s : State) : Nat :=
  if jrInService s && !s.xm.stall && !s.xm.jready then 1
  else if journalReady s then min (4 - credits s) (max 1 ((uncopied s).length / 8))
  else 0

/-- The recorder region can take frames: in service and the port not stalled (R543). -/
def recStreams (s : State) : Bool := xmUp s && xmEn s && !s.xm.rdis && recSize s != 0 && !s.xm.stall

/-- The recorder has something to write: frames, or the header to complete (R543). -/
def recWants (s : State) : Bool :=
  s.rcd.state == .capture && recStreams s && (s.rcd.buffer != [] || (s.rcd.ending && decide (creditsOf s .xmRecorder = 0)))

/-- Credits left to a prefetch, to the users after it, and to the recorder: a ready journal burst, then a waiting prefetch, come first
(R536). -/
def prefetchCredits (s : State) : Nat := min (4 - credits s - (if journalReady s then 1 else 0)) (1 - creditsOf s .xmPrefetch)
def spareCredits (s : State) : Nat :=
  4 - credits s - (if journalReady s then 1 else 0) - (if s.xm.prefetchWait ≠ [] ∧ creditsOf s .xmPrefetch = 0 then 1 else 0)
def recorderCredits (s : State) : Nat := min (spareCredits s) (3 - creditsOf s .xmRecorder)

/-- A prefetch can start but for leave. -/
def prefetchDue (s : State) : Bool := s.xm.prefetchWait != [] && xmUp s && !s.xm.stall && decide (0 < prefetchCredits s)
/-- Recorder bursts for which leave is asked: the pages that wait, within its credits. -/
def recorderWants (s : State) : Nat := if recWants s then min (recorderCredits s) (max 1 ((s.rcd.buffer.length + 255) / 256)) else 0

/-- User `u` of the port asks the leave that its next `n` bursts need beyond what it holds. -/
def askBursts (u : DrawUser) (n : Nat) (s : State) : State := askLeaves u (n - spareGrants s u) s

/-- The port asks for the leave that its next bursts need. `image`: an image burst waits (R487). -/
def xmAsk (image : Bool) (s : State) : State :=
  let s := askBursts .xmJournal (if credits s < 4 then journalWants s else 0) s
  let s := askBursts .xmPrefetch (if prefetchDue s then 1 else 0) s
  let s := askBursts .xmRecorder (recorderWants s) s
  askBursts .xmImage (if image && xmUp s && !s.xm.stall && decide (credits s < 4) then 1 else 0) s

/-- A burst takes a credit. One of the journal goes ahead of every other one that the memory has not begun (R536, R546). -/
def stageBurst (b : XBurst) (s : State) : State :=
  let l := s.xm.bursts
  let ahead (l : List XBurst) : List XBurst := l.takeWhile isJournalBurst ++ b :: l.dropWhile isJournalBurst
  let now := isJournalBurst b || l.isEmpty
  { s with xm := { s.xm with
      bursts := if isJournalBurst b then (if s.xm.began.isSome then l.take 1 ++ ahead (l.drop 1) else ahead l) else l ++ [b]
      began := if now then some (s.xm.began.getD s.now) else s.xm.began } }

/-- The memory goes on with its next burst, unless a ready journal burst that holds leave takes the freed credit first (R536), and not during
a VSUP warning (R346). -/
def nextBegins (s : State) : State :=
  let waits := journalReady s && freeGrant s .xmJournal
  { s with xm := { s.xm with began :=
      match s.xm.bursts with
      | [] => none
      | b :: _ => if s.pwr.warn || (waits && !isJournalBurst b) then none else some s.now } }

/-- A waiting prefetch starts once it has a credit and leave (R538). -/
def xmPump (s : State) : State :=
  match s.xm.prefetchWait with
  | [] => s
  | (h, a) :: rest =>
    if prefetchDue s && freeGrant s .xmPrefetch then stageBurst (.prefetch h a) { s with xm := { s.xm with prefetchWait := rest } }
    else s

/-! ### The memory (R534, R537) -/

/-- Erase 4 KiB from an address. -/
def eraseSector (m : Store 8) (a : Nat) : Store 8 := m.filter fun e => !(decide (a ≤ e.1) && decide (e.1 < a + 4096))

/-- Program bytes: NOR flash clears bits, RAM takes the bytes (R534). -/
def progBytes (ram : Bool) (m : Store 8) (a : Nat) : List Byte → Store 8
  | [] => m
  | b :: bs => progBytes ram (Store.set blank m a (if ram then b else Store.get blank m a &&& b)) (a + 1) bs

/-- Bytes of the memory as the port reads them: 0 beyond the density (R538). -/
def xmBytes (s : State) (a n : Nat) : List Byte :=
  (List.range n).map fun i => if a + i < 2 ^ s.xm.dens then Store.get blank s.xm.mem (a + i) else 0

/-- Entry slot i of sector sct of the journal region reads blank. -/
def slotBlank (s : State) (sct i : Nat) : Bool := (Store.bytes s.xm.mem (jrBase s + 4096 * sct + 32 * i) 32).all (· == blank)

/-- The journal head by `find_head`; none where the region is not recognised (R540). -/
def findHead (s : State) : Option Nat :=
  let n := jrSectors s
  match (List.range n).find? fun j => slotBlank s j 0 with
  | none => none
  | some j =>
    if (List.range n).all fun j => slotBlank s j 0 then some 0
    else
      let h := (j + n - 1) % n
      match (List.range 128).find? fun i => slotBlank s h i with
      | none => some (128 * j)
      | some i => some (128 * h + i)

/-- Entries in the journal region. -/
def entriesFound (s : State) : Nat :=
  (List.range (jrSectors s)).foldl (fun a j => a + ((List.range 128).filter fun i => !slotBlank s j i).length) 0

/-- JOURNAL_HEAD_SEARCH: with leave, after boot and after each recovery from a stall (R540). -/
def journalHeadSearch (s : State) : State :=
  if jrInService s && !s.xm.stall && !s.xm.jready then
    if freeGrant s .xmJournal then
      let s := releaseLeave .xmJournal s
      match findHead s with
      | some h =>
        occur 183 (word (entriesFound s % 2 ^ 24)) { s with xm := { s.xm with head := h, jready := true, erasedFor := none, filled := 0 } }
      | none =>
        occur 183 (word (2 ^ 24))
          { s with xm := { s.xm with head := 0, jready := true, jfmt := true, erasedFor := none, filled := 0, mem := eraseSector s.xm.mem (jrBase s) } }
    else xmAsk false s
  else s

/-- The entries that a journal burst reads are checked (R33): `ecc` in their order, the rest right. -/
def checkEntries : List Nat → List Ecc → State → State
  | no :: nos, ecc :: eccs, s => checkEntries nos eccs (checkRing no ecc s)
  | _, _, s => s

/-- JOURNAL_BURST: a ready burst takes its credit once it holds leave (R539). `ecc`: what the check of each entry that it copies finds. -/
def journalBurst (ecc : List Ecc) (s : State) : State :=
  if journalReady s && decide (credits s < 4) && freeGrant s .xmJournal then
    match nextJournal s with
    | some (.journal nos _ _) =>
      let s := checkEntries nos ecc s
      match nextJournal s with
      | some b => stageBurst b s
      | none => s
    | some (.journalFill sct off n) => stageBurst (.journalFill sct off n) { s with xm := { s.xm with filled := off + n } }
    | some b => stageBurst b s
    | none => s
  else xmAsk false s

/-! ### The recorder (R541 to R544) -/

/-- The quantity of kind and index; none where the manual gives none (R541). A quantity whose domain is off is 0. -/
def recValue (s : State) (kind idx : Nat) : Option Int :=
  let rail (f : RailId → Int) : Option Int := if idx < 8 then some (if groupOn s (railOf idx) then f (railOf idx) else 0) else none
  let tile (f : Tile → Int) : Option Int := if idx < 48 then some (if bankOn s (tileOf idx) then f (s.tile (tileOf idx)) else 0) else none
  match kind with
  | 0 => some 0
  | 1 => rail fun k => (s.rail k).fe.vout
  | 2 => rail fun k => (s.rail k).eng.err
  | 3 => rail fun k => refCode s k
  | 4 => rail fun k => ashr (s.rail k).eng.d 9
  | 5 => rail fun k => ashr (s.rail k).mo.ir 8
  | 6 => rail fun k => (s.rail k).fe.vinFast
  | 7 => tile fun ti => ti.sen.itile
  | 8 => tile fun ti => ti.sen.ic
  | 9 => tile fun ti => ti.duty.cmp
  | 10 => if idx < 36 then some (if s.pwr.hk then (s.chan (chanOf idx)).value else 0) else none
  | _ => none

/-- The bytes of one frame; a reserved descriptor records a free value. -/
def recFrameBytes (s : State) : List Byte :=
  (List.range (recNch s)).flatMap fun i =>
    let d := recDesc s i
    beBytes 2 (match recValue s (nfld d 9 6) (nfld d 5 0) with
      | some v => wrap 16 v
      | none => Config.freeNat (s.free + i) % 65536)

/-- The state becomes FROZEN: nothing is streamed any more (R543). -/
def recFreeze (cause : Nat) (corrupt : Bool) (s : State) : State :=
  let r := s.rcd
  occur 182 (word (r.num % 65536 + cause * 65536))
    { s with rcd := { r with state := .frozen, corrupt := r.corrupt || corrupt, truncCnt := satInc r.truncCnt 255
                             nextOff := if r.written = 0 then r.nextOff else r.base + r.written } }

/-- A frame of a capture: stored, or discarded where the buffer is full (R543). -/
def recTake (frame : List Byte) (r : Recorder) : Recorder :=
  if 65536 < r.buffer.length + frame.length then { r with trunc := true, ending := r.ending || r.state == .capture }
  else { r with buffer := r.buffer ++ frame, postTaken := r.postTaken + 1 }

/-- RECORDER_FRAME: every channel is sampled into the buffer. -/
def recorderFrame (s : State) : State :=
  if recNch s = 0 || !coreOn s then s
  else
    let frame := recFrameBytes s
    let s := { s with free := s.free + recNch s }
    match s.rcd.state with
    | .idle => s
    | .armed =>
      let all := s.rcd.pre ++ [frame]
      { s with rcd := { s.rcd with pre := all.drop (all.length - recPre s) } }
    | .capture =>
      if s.rcd.ending then (if recStreams s then s else recFreeze 1 false s)
      else
        let r := recTake frame s.rcd
        let r := { r with ending := r.ending || decide (recPost s ≤ r.postTaken) }
        let s := { s with rcd := r }
        if recStreams s then s else recFreeze 1 false s
    | .frozen => if s.rcd.ending || decide (recPost s ≤ s.rcd.postTaken) then s else { s with rcd := recTake frame s.rcd }

/-- Bytes 24 to 31 of the completed header, with the flags byte 19 before them (R544). -/
def recClosing (r : Recorder) : List Byte := beBytes 4 r.postTaken ++ beBytes 4 r.written
def recFlags (r : Recorder) : Byte :=
  (if r.corrupt then 0xFB#8 else 0xFF#8) &&& (if r.trunc then 0xFD#8 else 0xFE#8)

/-- An error in the recorder buffer: corrected and counted, or event 226, the capture corrupt and frozen (R33). -/
def recFixed (s : State) : State := { s with test := { s.test with sbeRec := satInc s.test.sbeRec 255 } }
def recError (s : State) : State :=
  let s := occur 226 0 (countDbe s)
  match s.rcd.state with
  | .capture => recFreeze 2 true s
  | .frozen => { s with rcd := { s.rcd with corrupt := true } }
  | _ => s

/-- The sector that the capture's next bytes enter is erased, or on a RAM filled with 0xFF, before its first write (R534, R544). -/
def recClear (s : State) : State :=
  let r := s.rcd
  let addr := recBase s + r.base + r.erasedTo
  if xmRam s then
    let n := burstRoom s addr
    stageBurst (.recorder addr (List.replicate n blank) false) { s with rcd := { r with erasedTo := r.erasedTo + n } }
  else stageBurst (.recorderErase addr) { s with rcd := { r with erasedTo := r.erasedTo + 4096 } }

/-- RECORDER_BURST: up to a page of buffered bytes is staged; with the buffer empty and no frame to come, the completion of the header.
`ecc` is the check of the buffer words read (R33). -/
def recorderBurst (ecc : Ecc) (s : State) : State :=
  if recWants s && decide (0 < recorderCredits s) && freeGrant s .xmRecorder then
    let r := s.rcd
    let addr := recBase s + r.base + r.written
    if r.buffer = [] then stageBurst (.recorder (recBase s + r.base + 19) (recFlags r :: recClosing r) true) s
    else if r.erasedTo ≤ r.written ∨ r.erasedTo % 4096 ≠ 0 then recClear s
    else
      match ecc with
      | .double => recError s
      | _ =>
        let n := burstRoom s addr
        let s := if ecc = .single then recFixed s else s
        stageBurst (.recorder addr (r.buffer.take n) false)
          { s with rcd := { r with buffer := r.buffer.drop n, written := r.written + (r.buffer.take n).length } }
  else xmAsk false s

/-- A capture whose header is complete (R543). -/
def recDone (s : State) : State :=
  let r := s.rcd
  let r' := { r with
    state := if recAuto s then .armed else .idle
    nextOff := r.base + r.written, lastSector := (recBase s + r.base) / 4096, lastNum := r.num % 65536
    captures := if r.trunc then r.captures else satInc r.captures 65535
    truncCnt := if r.trunc then satInc r.truncCnt 255 else r.truncCnt
    buffer := [], pre := [] }
  let s := { s with rcd := r' }
  if r.trunc then occur 182 (word (r.num % 65536)) s else occur 181 (word (r.num % 65536)) s

/-- The completion of the header is staged: the capture has its outcome (R543; log 158). -/
def recClosed (s : State) : Bool := s.xm.bursts.any fun b => match b with | .recorder _ _ final => final | _ => false

/-- REC_CTL (R542, R554): exactly one bit. -/
def recCtl (h : HostId) (data : Word) (s : State) : State :=
  match data.toNat with
  | 1 => if s.rcd.state = .idle ∧ recNch s ≠ 0 then { s with rcd := { s.rcd with state := .armed, pre := [] } } else s
  | 2 => hostTrigger s
  | 4 =>
    match s.rcd.state with
    | .armed => { s with rcd := { s.rcd with state := .idle, pre := [] } }
    | .capture => if recClosed s then s else { s with rcd := { s.rcd with trunc := true, ending := true } }
    | _ => s
  | 8 => if s.rcd.state = .frozen then { s with rcd := { s.rcd with state := .idle, buffer := [] } } else s
  | _ => refuse h s

/-- The frozen frames: what the buffer holds, but for a header still in it (R543). -/
def frozenFrames (s : State) : List Byte :=
  if s.rcd.state = .frozen then s.rcd.buffer.drop (128 - s.rcd.written) else []

/-- REC_BDATA: four bytes at OFFSET, 0 beyond the frames (R554). -/
def recBdata (s : State) (h : HostId) : Word :=
  let o := fld (s.host h).recBidx 15 0
  word (beNat ((List.range 4).map fun i => (frozenFrames s).getD (o + i) 0))

/-! ### Bursts (R536 to R539) -/

/-- A burst ends: its effect on the memory and on the unit it served, its credit freed and its leave released. -/
def burstEffect (b : XBurst) (s : State) : State :=
  let s := releaseLeave (burstUser b) s
  let mem (f : Store 8 → Store 8) (s : State) : State := { s with xm := { s.xm with mem := f s.xm.mem } }
  match b with
  | .journal nos slot bytes =>
    let s := mem (fun m => progBytes (xmRam s) m (jrBase s + 32 * slot) bytes) s
    { s with xm := { s.xm with head := (slot + nos.length) % (128 * jrSectors s) }
             jrn := { s.jrn with ring := s.jrn.ring.map fun e => if nos.contains e.no then { e.unpin with inXmem := true } else e } }
  | .journalErase sct =>
    mem (fun m => eraseSector m (jrBase s + 4096 * sct)) { s with xm := { s.xm with erasedFor := some ((sct + jrSectors s - 1) % jrSectors s) } }
  | .journalFill sct off n =>
    let s := mem (fun m => progBytes (xmRam s) m (jrBase s + 4096 * sct + off) (List.replicate n blank)) s
    if off + n = 4096 then { s with xm := { s.xm with erasedFor := some ((sct + jrSectors s - 1) % jrSectors s), filled := 0 } } else s
  | .prefetch h a =>
    if fld (s.host h).xmIdx 25 0 = a then s.modHost h fun r => { r with xmHeld := some (xmBytes s a 64) } else s
  | .recorder a bytes final =>
    if final then
      let s := mem (fun m => progBytes (xmRam s) (progBytes (xmRam s) m a (bytes.take 1)) (a + 5) (bytes.drop 1)) s
      if s.rcd.state = .capture then recDone s else s
    else mem (fun m => progBytes (xmRam s) m a bytes) s
  | .recorderErase a => mem (fun m => eraseSector m (a - a % 4096)) s
  | .image a bytes => mem (fun m => progBytes (xmRam s) m a bytes) s
  | .imageErase a => mem (fun m => eraseSector m (a - a % 4096)) s

/-- A burst that was cut off leaves every byte it worked on at a free value (log 52); one that the memory has not begun leaves them as they
were. -/
def burstCut (s : State) : State :=
  let free (a n : Nat) : State :=
    { s with xm := { s.xm with mem := Store.setMany blank s.xm.mem a ((List.range n).map fun i => BitVec.ofNat 8 (Config.freeNat (s.free + i))) }
             free := s.free + n }
  match (if s.xm.began.isSome then s.xm.bursts else []) with
  | .journal _ slot bytes :: _ => free (jrBase s + 32 * slot) bytes.length
  | .recorder a bytes final :: _ => if final then free a 13 else free a bytes.length
  | .image a bytes :: _ => free a bytes.length
  | .journalErase sct :: _ => free (jrBase s + 4096 * sct) 4096
  | .journalFill sct off n :: _ => free (jrBase s + 4096 * sct + off) n
  | .recorderErase a :: _ => free (a - a % 4096) 4096
  | .imageErase a :: _ => free (a - a % 4096) 4096
  | .prefetch _ _ :: _ => s
  | [] => s

/-- Detail of a stall: the operation and its address (R549). -/
def stallDetail (s : State) : Word :=
  let d (op a : Nat) : Word := word (op + a / 256 * 256)
  match s.xm.bursts with
  | [] => d 0 (jrBase s)
  | .prefetch _ a :: _ => d 0 a
  | .journal _ slot _ :: _ => d 1 (jrBase s + 32 * slot)
  | .recorder a _ _ :: _ => d 1 a
  | .image a _ :: _ => d 1 a
  | .journalErase sct :: _ => d 2 (jrBase s + 4096 * sct)
  | .journalFill sct off _ :: _ => d 1 (jrBase s + 4096 * sct + off)
  | .recorderErase a :: _ => d 2 a
  | .imageErase a :: _ => d 2 a

/-- The port's requests and grants are gone. -/
def xmNoLeave (s : State) : State :=
  { s with draw := { s.draw with active := s.draw.active.filter fun g => !xmUser g.user
                                 waiting := s.draw.waiting.filter fun g => !xmUser g.user } }

/-- The time after which an operation stalls the port: 4 times what SFDP declares, else 10 ms, 2 s or 1 ms (R537). -/
def stallLimit (s : State) (b : XBurst) : Nat :=
  match b with
  | .prefetch _ _ => ms 1
  | .journalErase _ | .recorderErase _ | .imageErase _ => match s.xm.eraseMax with | some u => us (4 * u) | none => secs 2
  | _ => match s.xm.progMax with | some u => us (4 * u) | none => ms 10

/-- The operation at the memory has taken too long; with none staged it is a read of the port itself. -/
def stallDue (s : State) : Bool :=
  match s.xm.bursts, s.xm.began with
  | [], _ => true
  | _, none => false
  | b :: _, some t => decide (t + stallLimit s b ≤ s.now)

/-- XMEM_STALL: every credit is freed, staged data is lost, and a capture freezes (R537). A header of a replacement that was staged is
asked for again (R485). -/
def xmemStall (s : State) : State :=
  if xmUp s && !s.xm.stall && stallDue s then
    let d := stallDetail s
    let s := xmNoLeave (burstCut s)
    let s := { s with
      xm := { s.xm with stall := true, stallCnt := satInc s.xm.stallCnt 255, bursts := [], began := none, filled := 0, lost := 0 }
      ldr := { s.ldr with headerDone := s.ldr.headerDone && s.ldr.repl != .receiving } }
    let s := occur 178 d s
    if s.rcd.state = .capture then recFreeze 1 false s else s
  else s

/-- XMEM_RECOVERY: a status read succeeds; copying resumes once the head has been found again (R537, R540). -/
def xmemRecovery (s : State) : State :=
  if xmUp s && s.xm.stall then
    let s := occur 179 (word (s.xm.lost % 2 ^ 24)) { s with xm := { s.xm with stall := false, jready := false } }
    xmAsk false s
  else s

/-! ### Discovery (R534, R535) -/

/-- A region runs past the density, or overlaps the first 256 KiB where BOOTSEL can select XMEM. -/
def regionOut (s : State) (dens base size : Nat) : Bool :=
  size != 0 && (decide (2 ^ dens < 4096 * (base + size)) || (decide (base < 64) && s.ldr.bootsel != .low))

/-- One housekeeping cycle passes. -/
def nextCycle (s : State) : State := { s with now := s.now + 128 }

/-- An event of the boot or of the boot bus, in a housekeeping cycle of its own. -/
def bootEvent (e : Nat) (detail : Nat) (s : State) : State := nextCycle (occur e (word detail) s)
/-- Event 164 for each loss of arbitration on the boot bus (R466). -/
def lossEvents (n : Nat) (s : State) : State := (List.range n).foldl (fun s _ => bootEvent 164 0 s) s

/-- The outcome of discovery. -/
def discover (f : Sfdp) (s : State) : State :=
  let none' (d : Nat) : State := occur 177 (word d) { s with xm := { s.xm with present := false, dens := 0 } }
  match f with
  | .absent => none' 0
  | .notValid => none' 1
  | .valid log2 e4k page program erase =>
    if !e4k && !xmRam s then none' 0
    else
      let dens := min log2 26
      let j := regionOut s dens (fld (setWord s .xmJrg) 13 0) (jrSectors s)
      let r := regionOut s dens (fld (setWord s .xmRrg) 13 0) (fld (setWord s .xmRrg) 29 16)
      let s := { s with xm := { s.xm with present := true, dens := dens, pageLog := page, progMax := program, eraseMax := erase, jdis := j, rdis := r } }
      let s := if j then nextCycle (occur 177 2 s) else s
      if r then nextCycle (occur 177 3 s) else s

/-- XMEM_DISCOVERY. -/
def xmemDiscovery (f : Sfdp) (s : State) : State := if coreOn s && s.pwr.xmi then xmAsk false (discover f s) else s

/-! ### Host reads of the memory (R538) -/

/-- XM_IDX takes an address and its prefetch starts. -/
def startPrefetch (h : HostId) (addr : Nat) (s : State) : State :=
  let s := s.modHost h fun r => { r with xmIdx := word addr, xmHeld := none }
  xmPump (xmAsk false { s with xm := { s.xm with prefetchWait := (s.xm.prefetchWait.filter fun p => p.1 != h) ++ [(h, addr)] } })

/-- A write of XM_IDX. -/
def xmIdxWrite (h : HostId) (data : Word) (s : State) : State :=
  if fld data 5 0 ≠ 0 then refuse h s else startPrefetch h (fld data 25 0) s

/-- The read of XM_DATA[15] (R538). -/
def xmAdvance (h : HostId) (s : State) : State := startPrefetch h ((fld (s.host h).xmIdx 25 0 + 64) % 2 ^ 26) s

/-- XM_DATA[i]. -/
def xmDataWord (s : State) (h : HostId) (i : Nat) : Word :=
  match (s.host h).xmHeld with
  | none => 0
  | some bs => word (beNat ((bs.drop (4 * i)).take 4))

/-! ### The rows -/

def execLeaveWaitLong (r : Fin 8) (s : State) : Host.Outcome State Fault Refusal := .next (leaveWaitLong r s)
def execXmemDiscovery (sfdp : Sfdp) (s : State) : Host.Outcome State Fault Refusal := .next (xmemDiscovery sfdp s)
def execJournalHeadSearch (s : State) : Host.Outcome State Fault Refusal := .next (journalHeadSearch s)
def execJournalBurst (s : State) (ecc : List Ecc := []) : Host.Outcome State Fault Refusal := .next (journalBurst ecc s)
def execXmemStall (s : State) : Host.Outcome State Fault Refusal := .next (xmemStall s)
def execXmemRecovery (s : State) : Host.Outcome State Fault Refusal := .next (xmemRecovery s)
def execRecorderFrame (s : State) : Host.Outcome State Fault Refusal := .next (recorderFrame s)
def execRecorderBurst (ecc : Ecc) (s : State) : Host.Outcome State Fault Refusal := .next (recorderBurst ecc s)

end Sys2Proof.Machine
end

