-- ==== Sys2Proof/Machine/Nvm.lean ====
section
/-! DEFINITION. The on-chip NVM: records, spread counters, the queue's operations, host commands, margin reads, the residue block
and the fault pages (R496 to R526). -/

namespace Sys2Proof.Machine

/-! ### Pages -/

/-- The 64 bytes of page p. -/
def nvmPage (s : State) (p : Nat) : List Byte := Store.bytes s.nvm.mem (64 * p) 64
def blankPage (bs : List Byte) : Bool := bs.all (· == blank)
/-- Byte i of a list, 0xFF beyond it. -/
def byteAt (bs : List Byte) (i : Nat) : Byte := bs.getD i blank
/-- The number in bytes i to i + n − 1, most significant first. -/
def numAt (bs : List Byte) (i n : Nat) : Nat := beNat ((bs.drop i).take n)
/-- `n` bytes, 0x00 where the list is shorter. -/
def padTo (n : Nat) (bs : List Byte) : List Byte := bs.take n ++ List.replicate (n - bs.length) 0

def userPage (p : Nat) : Bool := decide (448 ≤ p) && decide (p < 480)
/-- Pages that are reserved (R498). -/
def reservedPage (p : Nat) : Bool :=
  (decide (46 ≤ p) && decide (p < 64)) || (decide (210 ≤ p) && decide (p < 256)) || (decide (329 ≤ p) && decide (p < 336))
    || (decide (384 ≤ p) && decide (p < 440)) || (decide (480 ≤ p) && decide (p < 510))

/-! ### Records (R504 to R507). r: 0 BOOT, 1 FSUM, 2 CAL_LOOP, 3 to 6 CAL_TILE, 7 SEAL, 8 + c HIGH[c]. -/

def recPage (r : Nat) : Nat :=
  if r < 3 then 32 + 2 * r else if r < 7 then 38 + 2 * (r - 3) else if r = 7 then 446 else 64 + 2 * (r - 8)
/-- The record whose copy is page p, the SEAL record among them (R498). -/
def copyOf (p : Nat) : Option Nat := if p = 446 ∨ p = 447 then some 7 else recOfPage p
def recType (r : Nat) : Nat := if r < 3 then r + 1 else if r < 7 then 4 else if r = 7 then 6 else 5
def recInst (r : Nat) : Nat := if 3 ≤ r ∧ r < 7 then r - 3 else if 8 ≤ r then r - 8 else 0

/-- A copy is valid (R504). -/
def copyValid (r : Nat) (bs : List Byte) : Bool :=
  crc32 (bs.take 60) == numAt bs 60 4 && (byteAt bs 0).toNat % 128 == recType r && (byteAt bs 1).toNat == recInst r
/-- SEQ as read. -/
def copySeq (bs : List Byte) : Nat := numAt bs 2 4
/-- n1 is later than n2 (R505). -/
def seqLater (n1 n2 : Nat) : Bool :=
  let d := (n1 + 2 ^ 32 - n2) % 2 ^ 32
  decide (1 ≤ d) && decide (d < 2 ^ 31)

/-- What a read of a record finds (R506): both blank; equal sequences; the copy used. -/
structure RecRead where
  never : Bool
  eq : Bool
  use : Option Nat
  v0 : Bool
  v1 : Bool
  deriving DecidableEq, Repr

/-- `read_record` of R506 but for its events. -/
def readRec (s : State) (r : Nat) : RecRead :=
  let c0 := nvmPage s (recPage r)
  let c1 := nvmPage s (recPage r + 1)
  let v0 := copyValid r c0
  let v1 := copyValid r c1
  let eq := !blankPage c0 && !blankPage c1 && copySeq c0 == copySeq c1
  let use :=
    if eq then
      let n := copySeq c0 % 2
      let v (i : Nat) : Bool := if i = 0 then v0 else v1
      if v n then some n else if v (1 - n) then some (1 - n) else none
    else if v0 && v1 then (if seqLater (copySeq c0) (copySeq c1) then some 0 else some 1)
    else if v0 then some 0 else if v1 then some 1 else none
  { never := blankPage c0 && blankPage c1, eq := eq, use := use, v0 := v0, v1 := v1 }

/-- The copy that a read uses. -/
def usedCopy (s : State) (r : Nat) : List Byte :=
  match (readRec s r).use with | some i => nvmPage s (recPage r + i) | none => []

/-- The payload of a record, 54 bytes; none where it is absent or erased (R506). -/
def recPayload (s : State) (r : Nat) : Option (List Byte) :=
  let x := readRec s r
  if x.never || x.use.isNone then none
  else
    let c := usedCopy s r
    if (byteAt c 0).getLsbD 7 then none else some ((c.drop 6).take 54)

/-- A written record without a valid copy. -/
def recLost (s : State) (r : Nat) : Bool := !(readRec s r).never && (readRec s r).use.isNone

/-- A read of record r with its events, counts and REC_STAT (R506, R525). -/
def readRecord (r : Nat) (s : State) : State :=
  let x := readRec s r
  let c := usedCopy s r
  let used := x.use.getD 0
  let erased := x.use.isSome && (byteAt c 0).getLsbD 7
  let st : RecordStat :=
    { seq := BitVec.ofNat 32 (if x.use.isSome then copySeq c else 0), valid0 := x.v0, valid1 := x.v1, used := used == 1
      present := (recPayload s r).isSome, erased := erased, eq := x.eq }
  let s := if r < 8 then { s with nvm := { s.nvm with recs := modVec s.nvm.recs (finOf 8 (by decide) r) fun _ => st } } else s
  let d := recType r + 256 * recInst r
  let s := if x.eq then
      nextCycle (occur 168 (word (d + 65536 * used)) { s with nvm := { s.nvm with eqseqCnt := satInc s.nvm.eqseqCnt 255 } })
    else s
  if !x.never && x.use.isNone then
    nextCycle (occur 169 (word d) { s with nvm := { s.nvm with recLost := satInc s.nvm.recLost 255 } })
  else s

/-- The sequence that the writer of record r takes (R505). -/
def nextRecSeq (s : State) (r : Nat) : Nat :=
  match (readRec s r).use with
  | none => 0
  | some i =>
    let l := copySeq (nvmPage s (recPage r + i))
    if i = l % 2 then (l + 1) % 2 ^ 32 else (l + 2) % 2 ^ 32

/-- A whole record page (R504). -/
def recBytes (r n : Nat) (erased : Bool) (payload : List Byte) : List Byte :=
  let body := [BitVec.ofNat 8 (recType r + (if erased then 128 else 0)), BitVec.ofNat 8 (recInst r)] ++ beBytes 4 n ++ padTo 54 payload
  body ++ beBytes 4 (crc32 body)

/-- Class bits as FSUM stores them: 5 bits a unit, unit 0 lowest (R507). -/
def packCls (l : List (BitVec 5)) : Nat := (l.foldl (fun (a : Nat × Nat) b => (a.1 + b.toNat * 2 ^ a.2, a.2 + 5)) (0, 0)).1

def sealCode : SealState → Nat
  | .closed => 0 | .opened => 1 | .short => 2

/-- HIGH payload (R507). -/
def highPayload (h : Nat) (g : Nat) (page : Nat) : List Byte := beBytes 4 h ++ beBytes 4 g ++ beBytes 2 page

/-- The page that a carry works on. -/
def carryPage (x : SpreadCounter) : Nat := x.moveTo.getD x.page

/-- HIGH as the first step of a carry writes it, and as it stands until the last one (R510). -/
def SpreadCounter.carried (x : SpreadCounter) : List Byte := highPayload (x.h + 1) (x.g + 1).toNat (carryPage x)

/-- The newest payload of record r (R507). -/
def payloadOf (s : State) (r : Nat) : List Byte :=
  if r = 0 then
    beBytes 8 s.ldr.imageId.toNat ++ beBytes 4 s.ldr.gen.toNat
      ++ [match s.ldr.src with | .none => 0#8 | .eeprom => 1#8 | .xmem => 2#8, if s.ldr.slotB then 1#8 else 0#8]
      ++ beBytes 2 s.ldr.flags.toNat ++ [if bitOf (setWord s .svcCfg) 10 then 1#8 else 0#8]
  else if r = 1 then
    beBytes 5 (packCls (allRails.map fun k => (s.rail k).prot.cls)) ++ beBytes 30 (packCls (allTiles.map fun t => (s.tile t).prot.cls))
      ++ [if s.ldr.classChg then 1#8 else 0#8]
  else if r = 2 then allRails.flatMap fun k => beBytes 4 (loopW s k .snsCal).toNat
  else if r < 7 then (bankTiles (finOf 4 (by decide) (r - 3))).flatMap fun t => beBytes 4 (tileW s t .ical).toNat
  else if r = 7 then
    let q := s.ka.sealRec
    [BitVec.ofNat 8 (sealCode q.state)] ++ beBytes 5 q.sec.toNat ++ beBytes 2 q.frac.toNat ++ beBytes 4 q.chg.toNat
  else
    let c := s.nvm.cnt.get (finOf 73 (by decide) (r - 8))
    if 2 ≤ c.carry then c.carried else highPayload c.h c.g.toNat c.page

/-! ### Spread counters (R508 to R510) -/

abbrev CntId := Fin 73

/-- W (R508). -/
def cntW (c : CntId) : Nat := if c.val < 8 then 100 else if c.val < 25 then 1 else 1024
def State.cnt (s : State) (c : CntId) : SpreadCounter := s.nvm.cnt.get c
def State.modCnt (s : State) (c : CntId) (f : SpreadCounter → SpreadCounter) : State :=
  { s with nvm := { s.nvm with cnt := modVec s.nvm.cnt c f } }
def cntOf (c : Nat) : CntId := finOf 73 (by decide) c
/-- Committed value C. -/
def committed (s : State) (c : CntId) : Nat := ((s.cnt c).h * 60 + (s.cnt c).u) * cntW c
def pendOf (s : State) (c : CntId) : Nat := s.ka.pend.get c
/-- What the counter's register shows (R509). -/
def lifeShown (s : State) (c : CntId) : Word := word (min (committed s c + pendOf s c) 0xFFFFFFFF)

/-- Nothing holds commits back: the retained SRAM is powered, no Brumation, no residue block on its way or written for KEEPALIVE, no stale mark
outstanding, no repair, C below its end (R509, R511, R512, R578, R579). -/
def mayCommit (s : State) (c : CntId) : Bool :=
  kaOn s && !s.ka.armed && s.nvm.resNext.isNone && s.pwr.undo.isNone && !s.nvm.stale && !(s.cnt c).repairing && decide (committed s c < 0xFFFFFFFF)

/-- The counter is due (R509). -/
def cntDue (s : State) (c : CntId) : Bool :=
  decide (cntW c ≤ pendOf s c) &&
    ((s.cnt c).flush || (match (s.cnt c).lastCommit with | none => true | some t => decide (t + secs 10 ≤ s.now)))

/-- The request that counter c makes now, if any: a repair, a further step of a carry, or a commit (R509 to R511). -/
def cntJob (s : State) (c : CntId) : Option NvmJob :=
  let x := s.cnt c
  if x.repairing then some (.repair c.val x.eraseFirst)
  else if 0 < x.carry then some (.counter c.val x.carry)
  else if mayCommit s c && cntDue s c then some (.counter c.val (if x.u = 60 then 1 else 0))
  else none

/-- COUNTER_COMMIT: a due counter sends its request. -/
def counterCommit (c : CntId) (s : State) : State :=
  if coreOn s && (match s.nvm.op with
      | some (.counter d _) => d != c.val
      | some (.repair d _) => d != c.val
      | _ => true) then
    match cntJob s c with
    | some j => nvmRequest j s
    | none => s
  else s

/-- A HIGH record names page p: from step 1 of a carry on it is the page that the counter moves to (R510). -/
def pageNamed (s : State) (p : Nat) : Bool :=
  (finList 73).any fun c => (s.cnt c).page == p || ((s.cnt c).moveTo == some p && decide (2 ≤ (s.cnt c).carry))
/-- The spare pages that no HIGH record names; NVM_STAT.SPARES counts them (R510). -/
def spares (s : State) : List Nat := ((List.range 48).map (· + 336)).filter fun p => !pageNamed s p
def spareFree (s : State) : Option Nat := (spares s).head?
def sparesLeft (s : State) : Nat := (spares s).length

/-! ### Operations (R496, R497, R515) -/

/-- The other factory copy holds a correct CRC over its 16 pages, in its last four bytes (PRESUMED place, log 51). -/
def factoryOk (s : State) (copy : Nat) : Bool :=
  let bs := Store.bytes s.nvm.mem (1024 * copy) 1024
  crc32 (bs.take 1020) == numAt bs 1020 4

/-- What a refresh of page p does: kind, page, offset, bytes (R515). -/
def refreshPlan (s : State) (p : Nat) : Option (Nat × Nat × Nat × List Byte) :=
  if p < 32 then
    let o := if p < 16 then p + 16 else p - 16
    if factoryOk s (o / 16) then some (1, p, 0, nvmPage s o) else none
  else if let some r := recOfPage p then
    match (readRec s r).use with
    | none => none
    | some i =>
      let c := nvmPage s (recPage r + i)
      let n := nextRecSeq s r
      some (1, recPage r + n % 2, 0, recBytes r n ((byteAt c 0).getLsbD 7) ((c.drop 6).take 54))
  else if (finList 73).any fun c => (s.cnt c).page == p then some (2, p, 0, nvmPage s p)
  else if p = 510 ∨ p = 511 then (if blankPage (nvmPage s p) then some (3, p, 0, []) else none)
  else if (440 ≤ p ∧ p < 448) ∨ userPage p then some (1, p, 0, nvmPage s p)
  else none

/-- Erased marker of a calibration record. -/
def erasedRec (s : State) (r : Nat) : List Byte := recBytes r (nextRecSeq s r) true []

/-- A page write of record r: the place and the newest data, or the erased marker. -/
def recordPlan (s : State) (r : Nat) (erased : Bool) (payload : List Byte) : Nat × Nat × Nat × List Byte :=
  let n := nextRecSeq s r
  (1, recPage r + n % 2, 0, recBytes r n erased payload)

/-- The unary bytes that a commit programs (R509). -/
def commitBytes (s : State) (c : CntId) : Nat := min (pendOf s c / cntW c) (60 - (s.cnt c).u)

/-- U of a unary page: its unary bytes that read other than 0xFF (R509). -/
def unaryCount (bs : List Byte) : Nat := ((bs.drop 4).filter (· != blank)).length

/-- What programs the first `k` bytes of a list that read 0xFF with 0x00: those before them stay as they are. The list ends with the last of
them (R509). -/
def unaryFill : Nat → List Byte → List Byte
  | 0, _ => []
  | _, [] => []
  | k + 1, b :: bs => if b = blank then 0 :: unaryFill k bs else blank :: unaryFill (k + 1) bs

/-- Kind, page, offset and bytes of an operation as it starts; none where nothing is left to do. -/
def jobPlan (s : State) (j : NvmJob) : Option (Nat × Nat × Nat × List Byte) :=
  match j with
  | .record r e => some (recordPlan s r e (payloadOf s r))
  | .counter c 0 =>
    let k := commitBytes s (cntOf c)
    let x := s.cnt (cntOf c)
    if k = 0 ∨ mayCommit s (cntOf c) = false then none else some (2, x.page, 4, unaryFill k ((nvmPage s x.page).drop 4))
  | .counter c 1 =>
    some (recordPlan s (8 + c) false (s.cnt (cntOf c)).carried)
  | .counter c 2 => some (3, carryPage (s.cnt (cntOf c)), 0, [])
  | .counter c _ => some (2, carryPage (s.cnt (cntOf c)), 0, beBytes 4 ((s.cnt (cntOf c)).g + 1).toNat)
  | .repair c true => some (3, (s.cnt (cntOf c)).page, 0, [])
  | .repair c false => some (2, (s.cnt (cntOf c)).page, 0, beBytes 4 (s.cnt (cntOf c)).g.toNat)
  | .erasePage p => some (3, p, 0, [])
  | .refresh p => refreshPlan s p
  | .residue i => some (1, 440 + i, 0, padTo 64 ((s.nvm.resBuf.drop (64 * i)).take 64))
  | .markFresh => some (3, 445, 0, [])
  | .markStale => some (2, 445, 0, [0])
  | .hostProgram => some (1, s.nvm.bufPage, 0, s.nvm.buf)
  | .hostSave a => let r := if a = 0 then 2 else 2 + a; some (recordPlan s r false (payloadOf s r))
  | .hostErase a => let r := if a = 0 then 2 else 2 + a; some (recordPlan s r true [])

/-- Effect of an operation on the memory. -/
def opEffect (n : Nvm) : Store 8 :=
  match n.opKind with
  | 1 => Store.setMany blank n.mem (64 * n.opPage) n.opBytes
  | 2 => progBytes false n.mem (64 * n.opPage + n.opAt) n.opBytes
  | _ => Store.setMany blank n.mem (64 * n.opPage) (List.replicate 64 blank)

/-- An operation that was cut off or failed its verify leaves every byte it worked on at a free value (log 52); a program works on none that
it leaves blank. -/
def opScatter (s : State) : State :=
  if s.nvm.op.isNone then s
  else
    let n := s.nvm
    let (a, len) := if n.opKind = 2 then (64 * n.opPage + n.opAt, n.opBytes.length) else (64 * n.opPage, 64)
    let left (i : Nat) : Byte :=
      if n.opKind = 2 ∧ n.opBytes.getD i blank = blank then Store.get blank n.mem (a + i) else BitVec.ofNat 8 (Config.freeNat (s.free + i))
    { s with nvm := { n with mem := Store.setMany blank n.mem a ((List.range len).map left) }, free := s.free + len }

/-- The copy of a record on page p is not valid: one that reads valid has its last byte changed (R505). -/
def copyInvalid (p : Nat) (s : State) : State :=
  match copyOf p with
  | some r =>
    let c := nvmPage s p
    if copyValid r c then { s with nvm := { s.nvm with mem := Store.set blank s.nvm.mem (64 * p + 63) (byteAt c 63 + 1) } } else s
  | none => s

/-- An operation is cut off: its bytes are free values, but the write of a record leaves its copy invalid (R505). -/
def opCut (s : State) : State := if s.nvm.op.isSome && s.nvm.opKind == 1 then copyInvalid s.nvm.opPage (opScatter s) else opScatter s

/-- The host's command ends (R502, R520); the bus is let go (R412). -/
def hostEnds (ok : Bool) (s : State) : State :=
  { s with nvm := { s.nvm with hostState := if ok then .done else .failed, hostResult := if ok then 0 else 5 }
           bus := { s.bus with holdFrom := none } }

/-- What the start of an operation does beside: P of a commit decreases (R509). -/
def jobStarts (j : NvmJob) (s : State) : State :=
  match j with
  | .counter c 0 =>
    let k := commitBytes s (cntOf c)
    let s := s.modCnt (cntOf c) fun x => { x with k := k }
    { s with ka := { s.ka with pend := modVec s.ka.pend (cntOf c) (· - k * cntW (cntOf c)) } }
  | .counter c 1 =>
    -- a carry at a multiple of 90,000 moves to a spare page (R510); the plan names it
    s.modCnt (cntOf c) fun x => { x with carry := 1 }
  | _ => s

/-- The choice of a spare page before a carry begins (R510); event 175 once where none is free. -/
def chooseSpare (j : NvmJob) (s : State) : State :=
  match j with
  | .counter c 1 =>
    let x := s.cnt (cntOf c)
    if (x.g.toNat + 1) % 90000 = 0 then
      match spareFree s with
      | some p => s.modCnt (cntOf c) fun x => { x with moveTo := some p }
      | none =>
        let s := s.modCnt (cntOf c) fun x => { x with moveTo := none }
        if s.nvm.spareEvent then s else occur 175 (word c) { s with nvm := { s.nvm with spareEvent := true } }
    else s.modCnt (cntOf c) fun x => { x with moveTo := none }
  | _ => s

/-- NVM_OPERATION_START: the next request starts once leave is granted; none starts during a VSUP warning or a power-fail snapshot
(R346, R348, R500). -/
def nvmOperationStart (s : State) : State :=
  if !coreOn s || s.nvm.op.isSome || s.pwr.warn || s.pwr.pfCommitted || !nvmLeave s then s
  else
    match nextJob s.nvm with
    | none => nvmAsk (releaseLeave .nvm (releaseLeave .nvmCritical s))
    | some j =>
      let host := s.nvm.hostJob.isSome
      let s := chooseSpare j s
      let s := { s with nvm := { s.nvm with
        hostJob := none
        queue := if host then s.nvm.queue else eraseFirst (· == j) s.nvm.queue
        hostState := if host then .running else s.nvm.hostState } }
      let s := dropLeave .nvm (dropLeave .nvmCritical s)
      match jobPlan s j with
      | none => nvmAsk (releaseLeave .nvm (releaseLeave .nvmCritical s))
      | some (kind, page, off, bytes) =>
        jobStarts j { s with nvm := { s.nvm with
          op := some j, opHost := host, retried := false, opKind := kind, opPage := page, opAt := off, opBytes := bytes } }

/-- The residue block moves on: its next step is requested once the queue has room (R512). -/
def residuePump (s : State) : State :=
  match s.nvm.resNext with
  | none => s
  | some i =>
    let j : NvmJob := if i < 5 then .residue i else .markFresh
    if s.nvm.op = some j ∨ s.nvm.queue.contains j ∨ 16 ≤ nvmFill s.nvm then s else nvmRequest j s

/-- The stale mark of the transfer area is requested once the queue has room (R579). -/
def stalePump (s : State) : State :=
  if s.nvm.stale && s.nvm.op != some .markStale && !s.nvm.queue.contains .markStale && decide (nvmFill s.nvm < 16) then nvmRequest .markStale s
  else s

/-- After a write of page p: the record whose copy it is, is read (R506). -/
def readCopy (p : Nat) (s : State) : State := match copyOf p with | some r => readRecord r s | none => s

/-- The refreshes that have merged into the write of record r that ends: none while a further write of it waits, which they belong to. -/
def mergedOf (s : State) (r : Nat) : List Nat :=
  if s.nvm.queue.any fun j => jobRecord j == some r then [] else s.nvm.merged.filter fun p => recOfPage p == some r
/-- They are no longer pending. -/
def dropMerged (r : Nat) (s : State) : State :=
  { s with nvm := { s.nvm with merged := s.nvm.merged.filter fun p => !(mergedOf s r).contains p } }
/-- A refresh has rewritten page p, event 172 (R515). -/
def refreshed (s : State) (p : Nat) : State :=
  occur 172 (word p) { s with nvm := { s.nvm with refreshCnt := satInc s.nvm.refreshCnt 255 } }
/-- A write of record r is done: it is read (R506), and the refreshes that have merged into it are done with it (R499, R515). -/
def recordDone (r : Nat) (s : State) : State := (mergedOf s r).foldl refreshed (dropMerged r (readRecord r s))

/-- What a verified operation does beside the memory. -/
def jobDone (j : NvmJob) (s : State) : State :=
  match j with
  | .record r _ => recordDone r s
  | .counter c 0 =>
    s.modCnt (cntOf c) fun x =>
      { x with u := x.u + x.k, k := 0, lastCommit := some s.now, flush := x.flush && decide (cntW (cntOf c) ≤ pendOf s (cntOf c)) }
  | .counter c 1 =>
    let x := s.cnt (cntOf c)
    let next := if x.moveTo.isSome && blankPage (nvmPage s (carryPage x)) then 3 else 2
    nvmRequest (.counter c next) ((recordDone (8 + c) s).modCnt (cntOf c) fun x => { x with carry := next })
  | .counter c 2 => nvmRequest (.counter c 3) (s.modCnt (cntOf c) fun x => { x with carry := 3 })
  | .counter c _ =>
    s.modCnt (cntOf c) fun x => { x with h := x.h + 1, g := x.g + 1, u := 0, page := carryPage x, moveTo := none, carry := 0 }
  | .repair c true => nvmRequest (.repair c false) (s.modCnt (cntOf c) fun x => { x with eraseFirst := false })
  | .repair c false => s.modCnt (cntOf c) fun x => { x with repairing := false }
  | .erasePage _ => s
  | .refresh p => refreshed (match recOfPage p with | some r => recordDone r s | none => readCopy p s) p
  | .residue i => { s with nvm := { s.nvm with resNext := if s.nvm.resNext = some i then some (i + 1) else s.nvm.resNext } }
  | .markFresh => { s with nvm := { s.nvm with resNext := if s.nvm.resNext = some 5 then none else s.nvm.resNext } }
  | .markStale => { s with nvm := { s.nvm with stale := false } }
  | .hostProgram => { s with nvm := { s.nvm with bufStale := true } }
  | .hostSave a => readRecord (if a = 0 then 2 else 2 + a) s
  | .hostErase a => readRecord (if a = 0 then 2 else 2 + a) s

/-- What a request that ended as failed does beside: a commit or a carry waits for its next opportunity. -/
def jobFailed (j : NvmJob) (s : State) : State :=
  match j with
  | .record r _ => readRecord r (dropMerged r s)
  | .counter c 0 => s.modCnt (cntOf c) fun x => { x with k := 0, lastCommit := some s.now, u := unaryCount (nvmPage s x.page) }
  | .counter c 1 => readRecord (8 + c) ((dropMerged (8 + c) s).modCnt (cntOf c) fun x => { x with carry := 0, moveTo := none })
  | .hostSave a => readRecord (if a = 0 then 2 else 2 + a) s
  | .hostErase a => readRecord (if a = 0 then 2 else 2 + a) s
  | .hostProgram => { s with nvm := { s.nvm with bufStale := true } }
  | .refresh p => readCopy p (match recOfPage p with | some r => dropMerged r s | none => s)
  | _ => s

/-- NVM_OPERATION_DONE: the operation is verified, repeated once, or failed (R497). -/
def nvmOperationDone (verified : Bool) (s : State) : State :=
  match s.nvm.op with
  | none => s
  | some j =>
    if !verified && !s.nvm.retried then { s with nvm := { s.nvm with retried := true } }
    else
      let host := s.nvm.opHost
      let ends (s : State) : State :=
        let s := { s with nvm := { s.nvm with op := none, opHost := false, retried := false, opBytes := [] } }
        if host then hostEnds verified s else s
      let s := releaseLeave .nvm (releaseLeave .nvmCritical s)
      let s :=
        if verified then jobDone j (ends { s with nvm := { s.nvm with mem := opEffect s.nvm } })
        else
          let d := word (s.nvm.opPage + 512 * s.nvm.opKind)
          let s := ends (opScatter s)
          jobFailed j (occur 173 d { s with nvm := { s.nvm with vfailCnt := satInc s.nvm.vfailCnt 255 } })
      pfAssemble (nvmAsk (stalePump (residuePump s)))

/-- RECORD_RETRY: 100 ms after its refusal a record write is requested again (R499). -/
def recordRetry (r : Fin 81) (s : State) : State :=
  match s.nvm.retries.find? fun x => x.1 == r.val && decide (x.2 + ms 100 ≤ s.now) with
  | none => s
  | some x => nvmRequest (.record r.val false) { s with nvm := { s.nvm with retries := eraseFirst (· == x) s.nvm.retries } }

/-- A minute has passed since the latest margin read (R515). -/
def marginDue (s : State) : Bool := match s.nvm.marginAt with | none => true | some t => decide (t + secs 60 ≤ s.now)

/-- MARGIN_READ: page SCAN is read at a tightened reference and compared (R515). -/
def marginRead (differs : Bool) (s : State) : State :=
  if coreOn s && marginDue s then
    let p := s.nvm.scan
    let s := { s with nvm := { s.nvm with scan := (p + 1) % 512, marginAt := some s.now } }
    if !differs then s
    else if (refreshPlan s p).isSome then nvmRequest (.refresh p) s
    else if p < 32 then occur 173 (word (p + 512)) s
    else s
  else s

/-! ### Host commands (R501, R502) -/

/-- A request is not queued for a full queue (R499, R523). -/
def nvmFull (s : State) : State := { s with nvm := { s.nvm with fullCnt := satInc s.nvm.fullCnt 255 } }
/-- A refused command names its reason. -/
def nvmRefuse (h : HostId) (result : Nat) (s : State) : State := refuse h { s with nvm := { s.nvm with hostResult := result, hostB := h == .b } }

/-- FLUSH: every counter with a whole unit pending is due (R509). -/
def flushCounters (s : State) : State :=
  (finList 73).foldl (fun s c =>
    if cntW c ≤ pendOf s c then counterCommit c (s.modCnt c fun x => { x with flush := true }) else s) s

/-- A write of NVM_CMD, the claim judged. -/
def nvmCmd (h : HostId) (cmd arg : Nat) (s : State) : State :=
  let code := word (cmd + 16 * arg)
  let accept (j : NvmJob) : State :=
    let s := recordEntry 3 code h s
    nvmAsk { s with nvm := { s.nvm with hostJob := some j, hostState := .waiting, hostResult := 0, hostB := h == .b }
                    bus := { s.bus with holdFrom := some s.now } }
  if cmd = 0 ∨ 4 < cmd then refuse h s
  else if s.nvm.hostJob.isSome || s.nvm.opHost then nvmRefuse h 1 s
  else if 16 ≤ nvmFill s.nvm then nvmFull (nvmRefuse h 1 s)
  else if s.pwr.warn then nvmRefuse h 2 s
  else if (cmd = 2 ∨ cmd = 3) ∧ armOpen s = false then nvmRefuse h 3 s
  else if 4 < arg then nvmRefuse h 4 s
  else
    match cmd with
    | 1 => if s.nvm.bufValid && userPage s.nvm.bufPage then accept .hostProgram else nvmRefuse h 4 s
    | 2 => accept (.hostSave arg)
    | 3 => accept (.hostErase arg)
    | _ =>
      let s := recordEntry 3 code h s
      flushCounters { s with nvm := { s.nvm with hostState := .done, hostResult := 0, hostB := h == .b } }

/-! ### NVM_IDX and NVM_DATA (R503, R521) -/

def nvmOffset (s : State) (h : HostId) : Nat := fld (s.host h).nvmIdx 5 0
def nvmPageIdx (s : State) (h : HostId) : Nat := fld (s.host h).nvmIdx 24 16

/-- A write of NVM_IDX; bits [1:0] of OFFSET must be 0. -/
def nvmIdxWrite (h : HostId) (data : Word) (s : State) : State :=
  if fld data 1 0 ≠ 0 then refuse h s
  else
    let changed := fld data 24 16 != nvmPageIdx s h
    s.modHost h fun r => { r with nvmIdx := data &&& 0x1FF003F#32, pageMoved := r.pageMoved || changed }

/-- OFFSET advances by 4 within the page (R503). -/
def nvmAdvance (h : HostId) (s : State) : State :=
  s.modHost h fun r => { r with nvmIdx := merge r.nvmIdx (word ((fld r.nvmIdx 5 0 + 4) % 64)) 0x3F#32 }

/-- The four stored bytes at OFFSET. -/
def nvmDataWord (s : State) (h : HostId) : Word := word (numAt (nvmPage s (nvmPageIdx s h)) (nvmOffset s h) 4)

/-- A write of NVM_DATA, the claim judged: the page buffer takes four bytes. -/
def nvmDataWrite (h : HostId) (data : Word) (s : State) : State :=
  let p := nvmPageIdx s h
  let o := nvmOffset s h
  if userPage p then
    let load := s.nvm.bufStale || !s.nvm.bufValid || s.nvm.bufPage != p || (s.host h).pageMoved
    let old := if load then nvmPage s p else s.nvm.buf
    let s := { s with nvm := { s.nvm with bufPage := p, bufValid := true, bufStale := false
                                          buf := old.take o ++ beBytes 4 data.toNat ++ old.drop (o + 4) } }
    s.modHost h fun r => { r with pageMoved := false }
  else refuse h s

/-! ### The residue block (R512) -/

/-- The block as written to pages 440 to 444: P of every counter, the seconds of LIFE_HOURS, CRC-32 (layout: log 53). -/
def residueBlock (s : State) : List Byte :=
  let body := ((finList 73).flatMap fun c => beBytes 4 (min (pendOf s c) 0xFFFFFFFF)) ++ beBytes 4 (runSettle s).ka.hourSec
  body ++ beBytes 4 (crc32 body)

/-- The block is written anew, and the marker page last. -/
def writeResidue (s : State) : State :=
  let s := { s with nvm := { s.nvm with resBuf := residueBlock s, resNext := some 0, stale := false
                                        queue := s.nvm.queue.filter fun j => j != .markStale && j != .markFresh }
                    ka := { s.ka with residueAt := s.now } }
  residuePump s

/-- The block in the transfer area. -/
def storedResidue (s : State) : List Byte := Store.bytes s.nvm.mem (64 * 440) 300
def residueFresh (s : State) : Bool := Store.get blank s.nvm.mem (64 * 445) == blank
def residueOk (s : State) : Bool :=
  let bs := storedResidue s
  residueFresh s && crc32 (bs.take 296) == numAt bs 296 4

/-! ### Recovery at boot step 5 (R511, R512, R514) -/

/-- `recover(c)` of R511. -/
def recoverCounter (s : State) (c : CntId) : State :=
  let s := readRecord (8 + c.val) s
  let ev (case : Nat) (s : State) : State := nextCycle (occur 171 (word (c.val + 256 * case)) s)
  let high (s : State) : State := nvmRequest (.record (8 + c.val) false) s
  let shipped := 256 + c.val
  let (h, g, page, absent) :=
    match recPayload s (8 + c.val) with
    | none => (0, numAt (nvmPage s shipped) 0 4, shipped, true)
    | some p => (numAt p 0 4, numAt p 4 4, numAt p 8 2 % 512, false)
  let bs := nvmPage s page
  let hdr := numAt bs 0 4
  let u := unaryCount bs
  let repair (s : State) : State := match cntJob s c with | some j => nvmRequest j s | none => s
  let put (h g u : Nat) (repair : Bool) (s : State) : State :=
    s.modCnt c fun x => { x with h := h, g := BitVec.ofNat 32 g, page := page, u := u, repairing := repair, eraseFirst := repair && hdr = (g + 2 ^ 32 - 1) % 2 ^ 32 }
  let s := if absent then high (ev 4 (put h g u false s)) else s
  if hdr = g then put h g u false s
  else if hdr = (g + 2 ^ 32 - 1) % 2 ^ 32 then repair (ev 1 (put h g 0 true s))
  else if hdr = 0xFFFFFFFF then repair (ev 2 (put h g 0 true s))
  else if hdr = (g + 1) % 2 ^ 32 then high (ev 3 (put (h + 1) (g + 1) u false s))
  else high (ev 5 (put h hdr u false s))

/-- Pending counts at boot (R512): kept, restored from the block, or lost. The block is read where the keep-alive domain has been powered
up, and where the retained copy is not valid (log 159). -/
def recoverResidue (powerOn : Bool) (s : State) : State :=
  if (powerOn || !s.ka.retValid) && residueOk s then
    let bs := storedResidue s
    let s := { s with ka := { s.ka with pend := mapVec (fun i _ => numAt bs (4 * i) 4) s.ka.pend, hourSec := numAt bs 292 4 } }
    stalePump { s with nvm := { s.nvm with stale := true } }
  else
    let s := if s.ka.retValid then s
      else
        nextCycle (occur 174 0 { s with ka := { s.ka with pend := Vector.replicate 73 0, hourSec := 0 }, nvm := { s.nvm with resLost := true } })
    if !powerOn && residueFresh s then stalePump { s with nvm := { s.nvm with stale := true } } else s

/-- A journal entry from the first 16 bytes that a fault page holds (R513, R514, R529). -/
def pageEntry (s : State) (corrupt : Bool) (bs : List Byte) : QueueEntry :=
  let f := byteAt bs 7
  { id := (byteAt bs 8).toNat, detail := word (numAt bs 12 4), cyc := cycleOf s, sec := BitVec.ofNat 40 (numAt bs 0 5)
    frac := BitVec.ofNat 16 (numAt bs 5 2), cls := f.getLsbD 3, record := f.getLsbD 5
    host := if f.getLsbD 7 then some (if f.getLsbD 6 then .b else .a) else none
    loss := f.getLsbD 0, corrupt := corrupt || f.getLsbD 1, snap := true
    seq := some (BitVec.ofNat 24 (numAt bs 9 3)), snapBytes := some 0 }

/-- One fault page enters the journal, and its erase is queued (R514). -/
def enterFaultPage (s : State) (p : Nat) : State :=
  let bs := nvmPage s p
  if blankPage bs then s
  else
    let ok := crc32 (bs.take 60) == numAt bs 60 4
    let no := numAt bs 1 3
    let s := enqueue (pageEntry s (!ok) ((bs.drop 4).take 16)) s
    let s := enqueue (pageEntry s (!ok) ((bs.drop 20).take 16)) s
    let s := enqueue { entryNow s 4 (word no) false true none with
                       corrupt := !ok, snapBytes := some (BitVec.ofNat 128 (numAt bs 36 16)) } s
    let s := nextCycle (if ok then occur 97 1 { s with pwr := { s.pwr with pfSnap := true } } else occur 170 (word (1 + 256 * (p - 509))) s)
    nvmRequest (.erasePage p) s

/-- Both fault pages, in order of snapshot number, and a skipped snapshot (R513, R514). -/
def recoverFaultPages (s : State) : State :=
  let n (p : Nat) : Nat := numAt (nvmPage s p) 1 3
  let s := if n 511 < n 510 then enterFaultPage (enterFaultPage s 511) 510 else enterFaultPage (enterFaultPage s 510) 511
  if s.ka.pfSkipped then nextCycle (occur 170 2 { s with ka := { s.ka with pfSkipped := false } }) else s

/-! ### The rows -/

def execNvmOperationStart (s : State) : Host.Outcome State Fault Refusal := .next (nvmOperationStart s)
def execCounterCommit (c : Fin 73) (s : State) : Host.Outcome State Fault Refusal := .next (counterCommit c s)
def execRecordRetry (r : Fin 81) (s : State) : Host.Outcome State Fault Refusal := .next (recordRetry r s)
def execMarginRead (differs : Bool) (s : State) : Host.Outcome State Fault Refusal := .next (marginRead differs s)

end Sys2Proof.Machine
end

