-- ==== Sys2Proof/Machine/Valid.lean ====
section
/-! DEFINITION. Which values a register's fields may hold: the encodings that the field tables list (R8), and those of a map entry
(R178), a frequency-table entry (R177) and a coefficient word (R141). -/

namespace Sys2Proof.Machine

/-- Sources that are declared never to latch: their configuration byte is reserved (R395; events without an entry in the tables). -/
def neverLatches (e : Nat) : Bool :=
  e == 102 || e == 104 || (decide (106 ≤ e) && decide (e ≤ 111)) || (decide (115 ≤ e) && decide (e ≤ 127))
    || (decide (138 ≤ e) && decide (e ≤ 143)) || (decide (152 ≤ e) && decide (e ≤ 159)) || (decide (186 ≤ e) && decide (e ≤ 191))
    || (decide (206 ≤ e) && decide (e ≤ 223)) || decide (230 ≤ e)

/-- A number lies within bounds. -/
def within (n lo hi : Nat) : Bool := decide (lo ≤ n) && decide (n ≤ hi)

/-- The byte of event source e (R387, R395). -/
def evByteOk (e b : Nat) : Bool :=
  if neverLatches e then b == 0
  else
    let resp := b / 32
    resp == 0 || (decide (64 ≤ e) && (resp == 1 || resp == 4 || resp == 6))

/-- A map entry or safe entry (R178). -/
def entryOk (w : Word) : Bool := within (entNt w) 1 48 && entIlscale w != 0 && fld w 31 24 == 0
/-- A frequency-table entry (R177). -/
def prdOk (w : Word) : Bool := within w.toNat 150 65535
/-- A coefficient word of a set, 24 bits (R141). -/
def coefOk (word : Nat) (w : Word) : Bool := word != 7 || within w.toNat 0 14
/-- A descriptor of a recorder channel: kind and index of R541, for a channel that is recorded. -/
def descOk (d : Nat) : Bool :=
  let idx := nfld d 5 0
  match nfld d 9 6 with
  | 0 => true
  | 1 | 2 | 3 | 4 | 5 | 6 => decide (idx < 8)
  | 7 | 8 | 9 => decide (idx < 48)
  | 10 => decide (idx < 36)
  | _ => false

/-- Encodings of a loop register (R94 to R97, R128 to R139, R168, R169, R207, R208, R230 to R232, R258 to R265, R296 to R303).
MOULT_CTL.FORCE_N is judged with FORCE = 1 alone (R193, R208; log 161). -/
def loopOk (r : LoopReg) (w : Word) : Bool :=
  match r with
  | .cmd => fld w 1 0 != 3
  | .ff => fld w 15 0 != 0 || !bitOf w 16
  | .limit => within (fld w 15 0) 0 32767 && within (fld w 31 16) (fld w 15 0) 32768
  | .tlim => decide (fld w 15 0 ≤ fld w 31 16)
  | .ssCfg => fld w 23 0 != 0
  | .hiccup => fld w 15 0 != 0
  | .pgCfg => fld w 11 0 != 0 && fld w 31 24 != 0
  | .ovCfg => fld w 23 16 != 0
  | .uvCfg => fld w 15 0 != 0 && fld w 23 16 != 0
  | .ocrCfg => fld w 23 16 != 0 && fld w 31 24 != 0
  | .tdetCfg => fld w 3 0 != 0 && fld w 11 4 != 0 && fld w 19 12 != 0
  | .hlthCfg => within (fld w 3 0) 0 12 && within (fld w 7 4) 0 12
  | .respRail => (List.range 5).all fun i => respCode w i != 3
  | .respTile => within (respCode w 2) 3 7 && within (respCode w 3) 3 7
  | .leapCfg => fld w 13 4 != 0
  | .leapSet _ => fld w 8 0 != 0 && fld w 29 21 != 511
  | .leapImax => within (fld w 15 0) 1 32767
  | .rotCfg => fld w 15 0 == 0 || decide (256 ≤ fld w 15 0)
  | .syncLoop => within (fld w 5 1) 1 16
  | .moultCfg => fld w 7 0 != 0 && fld w 23 8 != 0 && within (fld w 29 24) 1 48
  | .moultCtl => !bitOf w 22 || within (fld w 21 16) 1 48
  | .coefData => true
  | .snsCfg => within (fld w 2 0) 0 4
  | .snsCal => within (fld w 31 16) 0x7000 0x9000
  | .snsRatio => fld w 15 0 != 0 && fld w 31 16 != 0
  | .snsIscale => fld w 15 0 != 0
  | _ => true

/-- Encodings of a tile register (R63 to R66, R104, R308 to R311). -/
def tileOk (r : TileReg) (w : Word) : Bool :=
  match r with
  | .cfg => fld w 1 0 != 0 && fld w 3 2 != 3
  | .ical => decide (0x4000 ≤ fld w 31 16)
  | .healthL | .healthR => fld w 31 16 != 0
  | .admission => fld w 17 16 == 1 || fld w 17 16 == 2
  | _ => true

/-- WIDTH and HYST of a dimension with `n` bins: WIDTH 0 is reserved unless there is one bin, and HYST is less than WIDTH (R180, R204). -/
def dimOk (n width hyst : Nat) : Bool := n == 1 || (width != 0 && decide (hyst < width))

/-- Bins of rail k in a dimension, by the setting words `c`. -/
def binsOf (c : Store 32) (k : RailId) (hi lo : Nat) : Nat := fld (Store.get 0 c (Reg.mapRegion k).addr) hi lo + 1

/-- Every field of the register holds an encoding that its table lists (R8). `c`: the setting words beside it. -/
def encOk (c : Store 32) (r : Reg) (w : Word) : Bool :=
  match r with
  | .loop _ x => loopOk x w
  | .tile _ x => tileOk x w
  | .syncCfg => fld w 15 8 != 0
  | .evCfg i => (List.range 4).all fun j => evByteOk (4 * i.val + j) (fld w (8 * j + 7) (8 * j))
  | .svcCfg => within (fld w 9 0) 10 600
  | .drawCfg => fld w 15 0 != 0 && fld w 31 24 != 0
  | .claim => fld w 9 8 == 1 || fld w 9 8 == 2
  | .linkRail _ => fld w 11 0 != 0
  | .hkCfg => fld w 5 0 != 0 && fld w 13 6 != 0
  | .tsdCfg => within (fld w 5 0) 0 50 && fld w 15 8 != 0
  | .telCfg => fld w 7 0 != 0
  | .xmJrg => within (fld w 29 16) 2 4096 || fld w 29 16 == 0
  | .xmRrg => within (fld w 29 16) 16 12288 || fld w 29 16 == 0
  | .xmIdx => fld w 5 0 == 0
  | .recCfg => within (fld w 5 0) 0 32 && decide (fld w 31 16 * fld w 5 0 ≤ 24576)
  | .recBidx => fld w 1 0 == 0
  | .recPost => fld w 23 0 != 0
  | .recCh _ => descOk (fld w 9 0) && descOk (fld w 25 16)
  | .nvmIdx => fld w 1 0 == 0
  | .imgCtl => fld w 1 0 != 0
  | .rtcCal => fld w 7 0 != 0x80
  | .chgCfg => fld w 2 1 != 3 && within (fld w 8 4) 1 20
  | .chgNtc => decide (fld w 9 0 < fld w 25 16)
  | .mapIdx => within (fld w 14 0) 0 0x4087
  | .mapVbin k => dimOk (binsOf c k 17 14) (fld w 23 12) (fld w 31 24)
  | .mapIbin k => dimOk (binsOf c k 23 18) (fld w 23 12) (fld w 31 24)
  | .mapTbin k => dimOk (binsOf c k 26 24) (fld w 17 10) (fld w 23 18)
  | .scrub => fld w 7 0 != 0
  | _ => true

end Sys2Proof.Machine
end

