-- ==== Sys2Proof/Machine/Image.lean ====
section
/-! DEFINITION. The configuration image: its copies, the tests on them, what an image sets, and its replacement (R469 to R495, R620). -/

namespace Sys2Proof.Machine

/-! ### The header (R469, R476) -/

def imgFlags (h : List Byte) : Nat := numAt h 6 2
def imgGen (h : List Byte) : Nat := numAt h 8 4
def imgLen (h : List Byte) : Nat := numAt h 12 4

/-- Codes 4 to 8 of R476, 0 where the header passes. `running`: the generation that a replacement must exceed (R483). -/
def judgeHeader (running : Option Nat) (h : List Byte) : Nat :=
  if numAt h 0 4 ≠ 0x5A494D47 then 4
  else if numAt h 4 1 ≠ 1 ∨ imgFlags h / 4 ≠ 0 then 5
  else if numAt h 16 4 ≠ 0x5A524880 then 6
  else if within (imgLen h) 68 18432 = false then 7
  else if imgGen h = 0xFFFFFFFF ∨ (match running with | some g => decide (imgGen h ≤ g) | none => false) = true then 8
  else 0

/-- The 36 bytes of a header from offset 0x1C are 0x00 (R469, a rule on the content of an image: R620). -/
def headerZero (h : List Byte) : Bool := numAt h 0x1C 36 == 0

/-! ### Sections (R471, R472, R474) -/

/-- Bytes as words of `n` bytes, most significant first. -/
def chunks (n : Nat) : Nat → List Byte → List Nat
  | 0, _ => []
  | m + 1, bs => beNat (bs.take n) :: chunks n m (bs.drop n)

/-- The sections of a copy, as (TYPE, value); none where the list does not end exactly at the end of the bytes. -/
def sections : Nat → List Byte → Option (List (Nat × List Byte))
  | _, [] => some []
  | 0, _ => none
  | n + 1, bs =>
    let len := numAt bs 2 2
    let pad := (4 - len % 4) % 4
    let rest := bs.drop 4
    if bs.length < 4 ∨ rest.length < len + pad then none
    else if ((rest.drop len).take pad).any (· != 0) then none
    else
      match sections n (rest.drop (len + pad)) with
      | none => none
      | some l => some ((numAt bs 0 2, rest.take len) :: l)

/-- The runs of the MAP section as words, from index 0 upward; none where they do not cover exactly `left` entries (R474). -/
def mapRuns : Nat → Nat → List Byte → Option (List Word)
  | _, 0, [] => some []
  | 0, _, _ => none
  | fuel + 1, left, bs =>
    let c := numAt bs 0 2
    let n := c % 32768 + 1
    let used := if c < 32768 then 4 * n else 4
    if bs.length < 2 + used ∨ left < n then none
    else
      let vals := if c < 32768 then (chunks 4 n (bs.drop 2)).map word else List.replicate n (word (numAt bs 2 4))
      match mapRuns fuel (left - n) (bs.drop (2 + used)) with
      | none => none
      | some l => some (vals ++ l)

/-- What the sections of a copy say. -/
structure ImageData where
  /-- Register records: address, run-time mark word, value. -/
  records : List (Nat × Nat × Nat)
  assign : List Byte
  /-- Flag byte and words of each rail's coefficients. -/
  coef : List (Nat × List Nat)
  mapRt : Bool
  /-- Map entries, frequency tables and safe entries, from index 0. -/
  map : List Word
  temp : List Nat
  deriving DecidableEq, Repr

/-- The one section of a type. -/
def oneOf (l : List (Nat × List Byte)) (ty : Nat) : Option (List Byte) :=
  match l.filter fun x => x.1 == ty with
  | [x] => some x.2
  | _ => none

/-- Register records of 8 bytes (R473). -/
def recordsOf : Nat → List Byte → List (Nat × Nat × Nat)
  | 0, _ => []
  | n + 1, bs => (numAt bs 0 2, numAt bs 2 2, numAt bs 4 4) :: recordsOf n (bs.drop 8)

/-- The coefficients of rails: 385 bytes each. -/
def coefOf : Nat → List Byte → List (Nat × List Nat)
  | 0, _ => []
  | n + 1, bs => (numAt bs 0 1, chunks 3 128 (bs.drop 1)) :: coefOf n (bs.drop 385)

/-- The content of a copy by R471, R472 and R474; none is reason SECTION. `body`: the bytes from offset 0x40 up to LEN − 5. -/
def parseImage (body : List Byte) : Option ImageData :=
  match sections body.length body with
  | none => none
  | some l =>
    if l.any fun x => !(within x.1 1 6 || decide (0x8000 ≤ x.1)) || (x.1 == 0x8001 && decide (256 < x.2.length)) then none
    else
      match oneOf l 1, oneOf l 2, oneOf l 3, oneOf l 4, oneOf l 5, oneOf l 6 with
      | some regs, some assign, some coef, some map, some tab, some temp =>
        if regs.length % 8 ≠ 0 ∨ assign.length ≠ 48 ∨ assign.any (fun b => decide (8 ≤ b.toNat) && b != 0xFF) ∨ coef.length ≠ 3080 ∨ map.length < 2 ∨ byteAt map 1 ≠ 0 ∨ tab.length ≠ 544
            ∨ temp.length ≠ 136 then none
        else
          match mapRuns map.length 16384 (map.drop 2) with
          | none => none
          | some entries =>
            some { records := recordsOf (regs.length / 8) regs, assign := assign, coef := coefOf 8 coef, mapRt := (byteAt map 0).getLsbD 0
                   map := entries ++ (chunks 4 136 tab).map word, temp := chunks 2 68 temp }
      | _, _, _, _, _, _ => none

/-! ### Register records (R473) -/

/-- The IMG fields of EV_CFG[i]: the bytes of sources that never latch are reserved (R395). -/
def evCfgImg (i : Fin 64) : Nat :=
  (List.range 4).foldl (fun a j => if neverLatches (4 * i.val + j) then a else a + 0xFF * 2 ^ (8 * j)) 0

/-- The bits of a register that a record may set. -/
def imageMask (r : Reg) : Nat :=
  match r with
  | .loop _ .cmd => 0x3
  | .loop _ .target => 0xFFFF
  | .loop _ .snsCal => 0xFFFF0FFF
  | .loop _ .coefData => 0
  | .tile _ .ical => 0xFFFFFFFF
  | .linkAuth => 0xFF
  | .domCtl => 0x20
  | .mapData => 0
  | .evCfg i => evCfgImg i
  | .chCfg c => if c.val < 24 then 0xBFFFFF else if c.val < 32 then 0xFFFFFFF else 0x3FF
  | r => r.access.img

/-- A run-time writable mark may fall on the register. -/
def markable (r : Reg) : Bool :=
  match r with
  | .chCfg _ => false
  | .loop _ .coefData | .mapData => false
  | .evCfg i => evCfgImg i != 0
  | r => r.access.img != 0

/-- One record, beside the others: a known address with settable fields, no bit outside them, a mark only where one may fall, valid
encodings (R8), and no second record for the address. -/
def recordOk (c : Store 32) (all : List (Nat × Nat × Nat)) (x : Nat × Nat × Nat) : Bool :=
  match decodeAddr x.1 with
  | none => false
  | some r =>
    imageMask r != 0 && x.2.2 &&& imageMask r == x.2.2 && decide (x.2.1 ≤ 1) && (x.2.1 == 0 || markable r)
      && encOk c r (word x.2.2) && decide ((all.filter fun y => y.1 == x.1).length = 1)

/-! ### What an image sets -/

/-- The rail of an assignment byte. -/
def assigned (b : Byte) : Option RailId := if h : b.toNat < 8 then some ⟨b.toNat, h⟩ else none

/-- The image's content stands in the settings, tables and assignment (R29 step 4). -/
def loadImage (d : ImageData) (s : State) : State :=
  { s with
    settings := d.records.foldl (fun c x => Store.set 0 c x.1 (word x.2.2)) []
    coef := Store.ofList 0 0 (d.coef.flatMap fun x => x.2.map word)
    tempTab := Store.ofList 0 0 (d.temp.map (BitVec.ofNat 16))
    map := { s.map with mem := Store.ofList 0 0 d.map }
    tiles := mapVec (fun i ti => { ti with rail := assigned (d.assign.getD i 0xFF) }) s.tiles
    ldr := { s.ldr with
      rtMarks := (d.records.filter fun x => x.2.1 == 1).map (·.1)
      coefRt := BitVec.ofNat 8 ((d.coef.foldl (fun (a : Nat × Nat) x => (a.1 + x.1 % 2 * 2 ^ a.2, a.2 + 1)) (0, 0)).1)
      mapRt := d.mapRt } }

/-! ### Rules on the content (R620), judged on a state that the image has been loaded into -/

/-- The entries of rail k's region. -/
def regionEntries (t : State) (k : RailId) : List Word :=
  if rgEn t k then (List.range (rgNv t k * rgNi t k * rgNt t k)).map fun i => Store.get 0 t.map.mem (rgBase t k + i) else []
/-- Region and safe entry of a rail. -/
def railEntries (t : State) (k : RailId) : List Word := safeEntry t k :: regionEntries t k

/-- PRD_T: the shortest tracked half-period of a programmed PRD (R161). -/
def prdTracked (prd : Nat) : Nat := ((152 * prd + 9) / 10 - 1) / 16

/-- Every PRD at which a tile of rail k can run (R48, R161). -/
def prdsOf (t : State) (k : RailId) : List Nat :=
  let l := (railEntries t k).map fun e => prdOf t k (entFcode e)
  if lockEn t k then l ++ l.map prdTracked else l

/-- R48 for one PRD, with given DEADTIME and MINP words. -/
def prdFits (dead minpW : Word) (prd : Nat) : Bool := decide (2 * fld minpW 11 0 + fld dead 11 0 + fld dead 27 16 ≤ 32 * prd)

/-- A dependency leads from rail k back to itself in at most `n` steps (R255). -/
def leadsTo (next : RailId → Option RailId) (k : RailId) : Nat → RailId → Bool
  | 0, _ => false
  | n + 1, j => match next j with | none => false | some m => m == k || leadsTo next k n m
def depCycle (next : RailId → Option RailId) : Bool := allRails.any fun k => leadsTo next k 8 k

/-- R63, R114, R121, R138, R160, R161, R175, R177, R179, R180, R231, R232 with R279, and R22 for rail k, whose settings hold valid encodings
also where the rail is unused or has no region. -/
def railRules (t : State) (k : RailId) : Bool :=
  let es := railEntries t k
  let ts := tilesOf t k
  ([.cmd, .ff, .limit, .tlim, .ssCfg, .hiccup, .pgCfg, .ovCfg, .uvCfg, .ocrCfg, .tdetCfg, .hlthCfg, .respRail, .respTile, .leapCfg
    , .leapSet 0, .leapSet 1, .leapSet 2, .leapSet 3, .leapImax, .rotCfg, .syncLoop, .moultCfg, .snsCfg, .snsCal, .snsRatio, .snsIscale
      ] : List LoopReg).all (fun r => loopOk r (loopW t k r))
  && (List.range 4).all (fun j => decide (relV t k j < leapV t k j))
  && (ts.isEmpty || decide (nMin t k ≤ ts.length))
  && (List.range 16).all (fun f => prdOk (Store.get 0 t.map.mem (0x4000 + 16 * k.val + f)))
  && es.all entryOk
  && (List.range 16).all (setValid t k)
  && (!rgEn t k || decide (rgBase t k + rgNv t k * rgNi t k * rgNt t k ≤ 16384))
  && ([.mapVbin k, .mapIbin k, .mapTbin k, .linkRail k] : List Reg).all (fun r => encOk t.settings r (setWord t r))
  && (!lockEn t k || ((regionEntries t k).all (fun e => (regionEntries t k).all fun f => entFcode e == entFcode f)
      && es.all fun e => decide (158 ≤ prdOf t k (entFcode e))))
  && ts.all (fun a => ts.all fun b => fld (tileW t a .cfg) 1 0 == fld (tileW t b .cfg) 1 0)
  && ts.all (fun a => decide (leapImax t k < ocHi t a))
  && ts.all (fun a => (prdsOf t k).all fun p => prdFits (tileW t a .deadtime) (tileW t a .minp) p)
  && (List.range 128).all (fun i => coefOk (i % 8) (Store.get 0 t.coef (128 * k.val + i)))

/-- The regions of two rails share no entry (R175). -/
def regionsApart (t : State) (j k : RailId) : Bool :=
  let n (k : RailId) : Nat := rgNv t k * rgNi t k * rgNt t k
  j == k || !rgEn t j || !rgEn t k || decide (rgBase t j + n j ≤ rgBase t k) || decide (rgBase t k + n k ≤ rgBase t j)

/-- A temperature channel's WARN lies below its SHUT, and a port that carries an assigned tile is judged (R319). -/
def channelRules (t : State) (c : Fin 36) : Bool :=
  let w := setWord t (.chCfg c)
  let shut : Int := if 32 ≤ c.val then 300 else sfld w 19 10
  let temp := decide (c.val < 24) || decide (32 ≤ c.val) || bitOf w 22
  (!temp || decide (sfld w 9 0 < shut))
    && (decide (24 ≤ c.val) || bitOf w 23 || !allTiles.any fun x => x.val / 2 == c.val && (t.tile x).rail.isSome)

/-- Regions of the external memory: they do not overlap, and the largest capture fits (R535, R544). -/
def xmemRules (t : State) : Bool :=
  let jb := fld (setWord t .xmJrg) 13 0
  let jn := fld (setWord t .xmJrg) 29 16
  let rb := fld (setWord t .xmRrg) 13 0
  let rn := fld (setWord t .xmRrg) 29 16
  (jn == 0 || rn == 0 || decide (jb + jn ≤ rb) || decide (rb + rn ≤ jb))
    && (rn == 0 || recNch t == 0 || decide (recLargest t ≤ 4096 * rn))

/-- Every rule on the content of an image (R620). -/
def imageRules (d : ImageData) (t : State) : Bool :=
  d.records.all (recordOk t.settings d.records)
  && allTiles.all (fun x => allTiles.all fun y =>
      x.val / 2 != y.val / 2 || (t.tile x).rail.isNone || (t.tile y).rail.isNone || (t.tile x).rail == (t.tile y).rail)
  && allRails.all (railRules t)
  && allRails.all (fun j => allRails.all fun k => regionsApart t j k)
  && allTiles.all (fun x => decide (ocLo t x < ocHi t x) && tileOk .ical (tileW t x .ical))
  && (finList 36).all (channelRules t)
  && !depCycle (fun k => if sdepEn t k then some (startDep t k) else none)
  && !depCycle (fun k => if tdepEn t k then some (stopDep t k) else none)
  && xmemRules t

/-! ### Judging a copy (R476, R477) -/

/-- Codes 9 to 11, 0 where the copy is valid, with its content. -/
def judgeCopy (copy : List Byte) : Nat × Option ImageData :=
  let n := copy.length - 4
  if crc32 (copy.take n) ≠ numAt copy n 4 then (9, none)
  else
    match parseImage ((copy.take n).drop 64) with
    | none => (10, none)
    | some d => if headerZero copy && imageRules d (loadImage d State.reset) then (0, some d) else (11, none)

/-- A copy's byte address in its source (R462). -/
def slotBase (b : Bool) : Nat := if b then 0x20000 else 0
/-- `n` bytes of a slot. -/
def slotBytes (s : State) (src : ImageSource) (b : Bool) (n : Nat) : List Byte :=
  match src with
  | .eeprom => Store.bytes s.eeprom (slotBase b) n
  | .xmem => xmBytes s (slotBase b) n
  | .none => []

/-- The whole judgement of a slot: header, then the rest. -/
def judgeSlot (s : State) (src : ImageSource) (b : Bool) (running : Option Nat) : Nat :=
  let h := slotBytes s src b 64
  match judgeHeader running h with
  | 0 => (judgeCopy (slotBytes s src b (imgLen h))).1
  | c => c

/-! ### Replacement (R482 to R487) -/

/-- Source code of BOOT_STAT.SRC and IMG_STAT.SRC. -/
def srcCode : ImageSource → Nat
  | .none => 0 | .eeprom => 1 | .xmem => 2

def replBusy (s : State) : Bool := s.ldr.repl == .receiving || s.ldr.repl == .checking

/-- The generation that a new copy must exceed; none in SAFE-IDLE (R484). -/
def runningGen (s : State) : Option Nat := if s.pwr.phase = .safeIdle then none else some s.ldr.gen.toNat

/-- Target source and slot (R482). -/
def targetSrc (s : State) : ImageSource :=
  if s.pwr.phase = .safeIdle then (if s.ldr.bootsel = .high then .xmem else .eeprom) else s.ldr.src
def targetB (s : State) : Bool := s.pwr.phase != .safeIdle && !s.ldr.slotB

/-- The accepted seal state is OPEN. -/
def sealOpen (s : State) : Bool := s.ka.sealRec.state == .opened
/-- A replacement needs the seal loop open (R479, R480). -/
def replNeedsSeal (s : State) : Bool := s.ldr.classLock || (s.pwr.phase == .safeIdle && s.ldr.idleSeal)

/-- Bytes free in the replacement buffer: the header held back counts (R484, R495). -/
def replFree (s : State) : Nat := 512 - s.ldr.header.length - s.ldr.buffer.length

/-- A replacement ends without a valid copy: event 166 (R484 to R487). -/
def replEnds (st : ReplState) (result : Nat) (clear : Bool) (s : State) : State :=
  occur 166 (word (result * 16 + s.ldr.offset * 65536))
    { s with ldr := { s.ldr with
        repl := st, result := result, header := [], buffer := [], committing := false, headerDone := false
        clearMagic := s.ldr.clearMagic || clear, eraseNext := none } }

/-- A replacement in progress is aborted (R486). -/
def replAbort (s : State) : State := if replBusy s then replEnds .aborted 14 true s else s

/-- An open arm ends with event 193 and its cause (R573, R582); a replacement in progress is aborted. -/
def endArm (cause : Nat) (s : State) : State :=
  if armOpen s then replAbort (occur 193 (word cause) { s with ka := { s.ka with armUntil := none, sealArm := false } }) else s

/-- BEGIN, the claim and the arm judged. `answers`: the target source answers. -/
def replBegin (h : HostId) (len : Nat) (answers : Bool) (s : State) : State :=
  let src := targetSrc s
  let refuseWith (c : Nat) : State := refuse h { s with ldr := { s.ldr with result := c } }
  if replBusy s ∨ within len 68 18432 = false then refuse h s
  else if answers = false ∨ (src = .xmem ∧ xmUp s = false) then refuseWith (if src = .xmem then 3 else 2)
  else if replNeedsSeal s && !sealOpen s then refuseWith 13
  else
    { s with ldr := { s.ldr with
        repl := .receiving, result := 0, tgtSrc := src, tgtB := targetB s, len := len, offset := 0, header := [], buffer := [], progAt := 64
        committing := false, headerDone := false, clearMagic := true
        eraseNext := if src = .xmem ∧ xmRam s = false then some 0 else none } }

/-- COMMIT, the claim and the arm judged. -/
def replCommit (h : HostId) (s : State) : State :=
  if s.ldr.repl ≠ .receiving ∨ s.ldr.committing ∨ s.ldr.offset < s.ldr.len then refuse h s
  else if replNeedsSeal s && !sealOpen s then refuse h { s with ldr := { s.ldr with result := 13 } }
  else { s with ldr := { s.ldr with committing := true } }

/-- ABORT, the claim and the arm judged. -/
def replAbortCmd (h : HostId) (s : State) : State := if replBusy s then replAbort s else refuse h s

/-- A write of IMG_CTL, the claim judged (R492). -/
def imgCtlWrite (h : HostId) (data : Word) (answers : Bool) (s : State) : State :=
  if armOpen s = false then refuse h s
  else
    match fld data 1 0 with
    | 1 => replBegin h (fld data 31 16) answers s
    | 2 => replCommit h s
    | 3 => replAbortCmd h s
    | _ => refuse h s

/-- The received header is judged (R484). -/
def replHeader (s : State) : State :=
  let c := judgeHeader (runningGen s) s.ldr.header
  let c := if (c = 0 ∨ c = 8) ∧ imgLen s.ldr.header ≠ s.ldr.len then 7 else c
  if c = 0 then s else replEnds .failed c false s

/-- A word of IMG_DATA, the claim judged (R484). -/
def imgData (h : HostId) (data : Word) (s : State) : State :=
  let l := s.ldr
  if armOpen s = false ∨ l.repl ≠ .receiving ∨ l.len ≤ l.offset ∨ replFree s < 4 then refuse h s
  else
    let bs := (beBytes 4 data.toNat).take (l.len - l.offset)
    let s := { s with ldr := { l with
      offset := l.offset + bs.length
      header := if l.offset < 64 then l.header ++ bs else l.header
      buffer := if l.offset < 64 then l.buffer else l.buffer ++ bs } }
    if l.offset < 64 ∧ s.ldr.offset = 64 then replHeader s else s

/-- A write of the loader to its target. -/
inductive ImgWrite where
  | magic
  | erase (sector : Nat)
  | body (bytes : List Byte)
  | header
  deriving DecidableEq, Repr

/-- Bytes of one page write or burst: 64 on the EEPROM, 256 on XMEM (R487, R536). -/
def imgPage (s : State) : Nat := if s.ldr.tgtSrc = .xmem then 256 else 64

/-- The loader's next write: MAGIC, the erases, whole pages of the body; after COMMIT the rest and the header last (R483 to R487). -/
def imgNext (s : State) : Option ImgWrite :=
  let l := s.ldr
  if l.clearMagic then some .magic
  else
    match l.eraseNext with
    | some i => some (.erase i)
    | none =>
      let room := imgPage s - l.progAt % imgPage s
      if l.repl ≠ .receiving then none
      else if room ≤ l.buffer.length then some (.body (l.buffer.take room))
      else if l.committing && !l.headerDone then (if l.buffer ≠ [] then some (.body l.buffer) else some .header)
      else none

/-- Address of a write in its source, and its bytes. -/
def imgAddr (s : State) (w : ImgWrite) : Nat :=
  match w with
  | .magic | .header => slotBase s.ldr.tgtB
  | .erase i => slotBase s.ldr.tgtB + 4096 * i
  | .body _ => slotBase s.ldr.tgtB + s.ldr.progAt
def imgBytes (s : State) (w : ImgWrite) : List Byte :=
  match w with
  | .magic => List.replicate 4 0
  | .erase _ => []
  | .body bs => bs
  | .header => s.ldr.header

/-- The body's bytes leave the buffer. -/
def imgTaken (w : ImgWrite) (s : State) : State :=
  match w with
  | .body bs => { s with ldr := { s.ldr with buffer := s.ldr.buffer.drop bs.length, progAt := s.ldr.progAt + bs.length } }
  | .header => { s with ldr := { s.ldr with headerDone := true } }
  | _ => s

/-- A write is complete. After the header the copy is read back: STATE = CHECKING (R485). -/
def imgDone (w : ImgWrite) (s : State) : State :=
  match w with
  | .magic => { s with ldr := { s.ldr with clearMagic := false } }
  | .erase i => { s with ldr := { s.ldr with eraseNext := if i + 1 < 32 then some (i + 1) else none } }
  | .body _ => s
  | .header => if s.ldr.repl = .receiving then { s with ldr := { s.ldr with repl := .checking, header := [] } } else s

/-- Arbitration lost on the boot bus at run time: counted, event 164 for each loss (R466, log 146). -/
def busLosses (n : Nat) (s : State) : State :=
  lossEvents n { s with ldr := { s.ldr with arbCnt := min (s.ldr.arbCnt + n) 255 } }

/-- Event 163 where the boot bus stays stuck (R467). -/
def busStuck (o : EepromAnswer) (s : State) : State :=
  match o with | .stuck sda => bootEvent 163 (if sda then 1 else 0) s | _ => s

/-- The reason that the bus gives a copy (R476); 0: the EEPROM answers. -/
def busReason (o : EepromAnswer) : Nat := match o with | .answers => 0 | .silent => 1 | .stuck _ => 2

/-- EEPROM_PAGE_WRITE: the next page is written, after the arbitration losses on its way. A write cycle longer than 10 ms fails the
replacement with NO_ACK, a bus that stays stuck with BUS, and both leave the bytes of the page free (R467, R487, logs 52, 146). -/
def eepromPageWrite (o : EepromAnswer) (losses : Nat) (s : State) : State :=
  if s.ldr.tgtSrc ≠ .eeprom ∨ coreOn s = false then s
  else
    match imgNext s with
    | none => s
    | some w =>
      let s := busLosses losses s
      let a := imgAddr s w
      let bs := imgBytes s w
      if o = .answers then imgDone w (imgTaken w { s with eeprom := Store.setMany blank s.eeprom a bs })
      else
        let s := busStuck o { s with
          eeprom := Store.setMany blank s.eeprom a ((List.range bs.length).map fun i => BitVec.ofNat 8 (Config.freeNat (s.free + i)))
          free := s.free + bs.length, ldr := { s.ldr with clearMagic := false } }
        if replBusy s then replEnds .failed (busReason o) false s else s

/-- An image burst is in flight. -/
def imgInFlight (s : State) : Bool :=
  s.xm.bursts.any fun b => match b with | .image _ _ => true | .imageErase _ => true | _ => false

/-- An image burst waits for its leave (R487). -/
def imgWants (s : State) : Bool := s.ldr.tgtSrc == .xmem && (imgNext s).isSome && !imgInFlight s

/-- The next image burst starts once it has a credit and leave. -/
def imgPump (s : State) : State :=
  if imgWants s && xmUp s && !s.xm.stall && freeGrant s .xmImage && decide (0 < spareCredits s) then
    match imgNext s with
    | none => s
    | some w =>
      let b : XBurst := match w with | .erase _ => .imageErase (imgAddr s w) | w => .image (imgAddr s w) (imgBytes s w)
      imgTaken w (stageBurst b s)
  else s

/-- The loader after one of its bursts; the erase of a replacement that was aborted before is none of the next one's (R486). -/
def imgBurstDone (b : XBurst) (s : State) : State :=
  match b with
  | .imageErase a =>
    match s.ldr.eraseNext with
    | some i => if s.ldr.clearMagic = false ∧ a = slotBase s.ldr.tgtB + 4096 * i then imgDone (.erase i) s else s
    | none => s
  | .image a bs =>
    if a ≠ slotBase s.ldr.tgtB then s
    else if bs.length = 4 then imgDone .magic s
    else if s.ldr.headerDone then imgDone .header s else s
  | _ => s

/-- XMEM_BURST_DONE: the burst at the memory is complete; the port's waiting users go on (R536). -/
def xmemBurstDone (s : State) : State :=
  if xmUp s && !s.xm.stall then
    match (if s.pwr.warn && s.xm.began.isNone then [] else s.xm.bursts) with
    | [] => s
    | b :: rest =>
      let s := imgBurstDone b (burstEffect b { s with xm := { s.xm with bursts := rest } })
      let s := imgPump (xmPump (nextBegins s))
      xmAsk (imgWants s) s
  else s

/-- DRAW_ARBITER_SAMPLE: the port asks for its leave, the sample is taken and requests are granted, and bursts that wait start (R548). -/
def drawArbiterSample (microvolts : Nat) (s : State) : State :=
  imgPump (xmPump (drawSample microvolts (if coreOn s then xmAsk (imgWants s) s else s)))

/-- The reason of the copy read back: the source's own first, then what its bytes say (R476). -/
def checkReason (o : EepromAnswer) (s : State) : Nat :=
  if s.ldr.tgtSrc = .xmem then
    (if xmUp s && !s.xm.stall then judgeSlot s s.ldr.tgtSrc s.ldr.tgtB (runningGen s) else 3)
  else match busReason o with
    | 0 => judgeSlot s s.ldr.tgtSrc s.ldr.tgtB (runningGen s)
    | c => c

/-- REPLACEMENT_CHECK_DONE: the copy read back is judged (R485), after the arbitration losses of its read; `o`: what the EEPROM
answers, where it is the target. -/
def replacementCheckDone (o : EepromAnswer) (losses : Nat) (s : State) : State :=
  if s.ldr.repl = .checking then
    let s := if s.ldr.tgtSrc = .xmem then s else busStuck o (busLosses losses s)
    match checkReason o s with
    | 0 =>
      let g := imgGen (slotBytes s s.ldr.tgtSrc s.ldr.tgtB 64)
      occur 165 (word (atB s.ldr.tgtB 2 + g % 65536 * 65536))
        { s with ldr := { s.ldr with repl := .done, result := 0, committing := false, headerDone := false } }
    | c => replEnds .failed c true s
  else s

/-! ### The rows -/

def execEepromPageWrite (answer : EepromAnswer) (s : State) (losses : Nat := 0) : Host.Outcome State Fault Refusal :=
  .next (eepromPageWrite answer losses s)
def execReplacementCheckDone (s : State) (answer : EepromAnswer := .answers) (losses : Nat := 0) : Host.Outcome State Fault Refusal :=
  .next (replacementCheckDone answer losses s)
def execXmemBurstDone (s : State) : Host.Outcome State Fault Refusal := .next (xmemBurstDone s)
def execDrawArbiterSample (microvolts : Nat) (s : State) : Host.Outcome State Fault Refusal := .next (drawArbiterSample microvolts s)

end Sys2Proof.Machine
end

