-- ==== Sys2Proof/Machine/Supply.lean ====
section
/-! DEFINITION. Supply monitors, the power-fail snapshot, resets, the power states and domains, self-test and scrub (R344 to R374). -/

namespace Sys2Proof.Machine

/-! ### Reset (R361, R362) -/

/-- The fault page that a snapshot takes (R513). -/
def snapshotPage (s : State) : Nat := if blankPage (nvmPage s 510) then 510 else 511

/-- A cut-off snapshot leaves its page incomplete (R349): free bytes (log 52). -/
def snapshotCut (s : State) : State :=
  if s.pwr.pfCommitted then
    { s with nvm := { s.nvm with mem := Store.setMany blank s.nvm.mem (64 * snapshotPage s)
                                   ((List.range 64).map fun i => BitVec.ofNat 8 (Config.freeNat (s.free + i))) }
             free := s.free + 64 }
  else s

/-- What a reset makes of a committed snapshot and of the NVM's operation (R348, R349): only VSUP's fall to its reset level leaves the
page incomplete; at any other reset the operation in progress completes and the page is programmed. -/
def snapshotReset (cause : Nat) (s : State) : State :=
  if s.pwr.pfCommitted = false then opCut s
  else if cause = 1 then (if s.nvm.op.isSome then opCut s else snapshotCut s)
  else
    let s := if s.nvm.op.isSome then { s with nvm := { s.nvm with mem := opEffect s.nvm, op := none } } else s
    let s := pfAssemble s
    { s with nvm := { s.nvm with mem := progBytes false s.nvm.mem (64 * snapshotPage s) s.pwr.pfPage } }

/-- The keep-alive domain through a reset: the arm ends (R573), the charger pauses (R566), fields that its tables give an after-reset
value take it (R584 to R586); the kind of a clock fault lasts while its cause does (R363); the rest stays. -/
def KeepAlive.reset (a : KeepAlive) (cause : Nat) : KeepAlive :=
  { a with cause := cause, clockFault := if cause = 4 then a.clockFault else none, armUntil := none, sealArm := false, rej := 0, armCnt := 0, pressReady := false, coreThrough := false
           absCnt := 0, set0 := 0, set1 := 0, vcell := 0, ntc := 0, tj := -64
           chg := { a.chg with paused := false, cv := false, frac := 256, ntcFault := false, iout := 0 } }

/-- Everything outside the keep-alive domain and the non-volatile memories is cleared (R362); the time, the commands that wait and
the count of free values are the model's own. VXIO and the VSUP warning stand as their supplies do, and the power-fail monitor re-arms
only when the warning clears (R345, R349). A reset is left 100 µs later at the earliest (R361). -/
def clearDevice (phase : Phase) (s : State) : State :=
  { pending := s.pending, now := s.now, free := s.free, eeprom := s.eeprom, ka := s.ka, tap := s.tap
    nvm := { mem := s.nvm.mem }, xm := { mem := s.xm.mem }, pwr := { phase := phase, outAt := s.now + us 100, vxio := s.pwr.vxio, warn := s.pwr.warn, pfArmed := s.pwr.pfArmed } }

/-- The rest of the device has followed the keep-alive domain into Brumation; the supply monitors come up afresh (R580). -/
def inBrumation (s : State) : State := clearDevice .brumation { s with pwr := { s.pwr with warn := false, pfArmed := true } }

/-- A source of reset acts, for `held` fine steps; a device still in reset stays there until 100 µs after the last one clears, and where
sources coincide the lowest code is recorded (R361). Without the keep-alive domain it leads into Brumation (R580). -/
def resetDevice (cause held : Nat) (s : State) : State :=
  let out := s.now + held + us 100
  let out := if s.pwr.phase = .inReset then max s.pwr.outAt out else out
  let cause := if inReset s then min s.ka.cause cause else cause
  let s := snapshotReset cause (burstCut (runSettle s))
  if s.ka.brum then inBrumation s
  else
    let s := clearDevice .inReset { s with ka := s.ka.reset cause }
    { s with pwr := { s.pwr with outAt := out } }

/-- A monitor's reset: nothing is left to reset in Brumation and without any supply. -/
def monitorReset (cause held : Nat) (s : State) : State := if deviceOn s then resetDevice cause held s else s

/-- Fine steps in so many ns, rounded up. -/
def ofNs (ns : Nat) : Nat := (us 1 * ns + 999) / 1000

/-- VSUP_RESET and VIO_RESET (R345). -/
def vsupReset (held : Nat) (s : State) : State := monitorReset 1 (ofNs held) s
def vioReset (held : Nat) (s : State) : State := monitorReset 5 (ofNs held) s
/-- CORE_SUPPLY_RESET: VCORE and VANA are off on purpose in KEEPALIVE. -/
def coreSupplyReset (held : Nat) (s : State) : State := if s.pwr.phase = .keepAlive then s else monitorReset 6 (ofNs held) s
/-- CLOCK_FAULT: the PLL must run (R352). The kind is kept for the next boot. -/
def clockFault (kind : ClockFault) (held : Nat) (s : State) : State :=
  if s.pwr.phase = .keepAlive ∨ deviceOn s = false then s
  else
    let s := resetDevice 4 (ofNs held) s
    if s.ka.cause = 4 ∧ s.pwr.phase = .inReset then { s with ka := { s.ka with clockFault := some kind } } else s
/-- KEEPALIVE_WAKE (R359). -/
def keepaliveWake (s : State) : State := if s.pwr.phase = .keepAlive then resetDevice 7 0 s else s

/-- A RESET_N pulse of this length acts (R361). -/
def pulseActs (ns : Nat) : Bool := if ns < 150 then false else if 200 ≤ ns then true else Config.resetPulseActs ns
/-- RESET_N is low for `held` fine steps: a reset with cause PIN, and in KEEPALIVE it wakes the controller (R359). -/
def pinReset (held : Nat) (s : State) : State := if s.pwr.phase = .keepAlive then resetDevice 7 held s else monitorReset 2 held s
/-- RESET_N_LOW: a low pulse, after which RESET_N is high (R599). One that goes on with a RESET_N that is low already acts whatever its
length. -/
def resetNLow (ns : Nat) (s : State) : State :=
  let s := if pulseActs ns || s.tap.resetLow then pinReset (ofNs ns) s else s
  { s with tap := { s.tap with resetLow := false } }

/-- An accepted RST_CMD, the claim judged (R372). -/
def rstCmdWrite (h : HostId) (data : Word) (s : State) : State :=
  if fld data 7 0 = 0x5A then resetDevice 3 (us 10) s else refuse h s

/-! ### VSUP warning and power-fail (R346 to R349) -/

/-- The charger's current stops; with CORE powered its grant is released and it asks again at once (R346, R566). -/
def stopCharger (s : State) : State :=
  let held := leaveHeld s .charger
  let s := releaseLeave .charger { s with ka := { s.ka with chg := s.ka.chg.pause } }
  if held then askLeave .charger s else s

/-- VSUP_WARNING: VSUP has fallen through 8.4 V. In reset the comparator's state alone changes. -/
def vsupWarning (s : State) : State :=
  if deviceOn s && !s.pwr.warn then
    let s := { s with pwr := { s.pwr with warn := true, vsupSeen := false } }
    if coreOn s then stopCharger s else s
  else s

/-- VSUP_WARNING_CLEAR: above 8.8 V for 1 ms; event 96, the power-fail monitor re-arms, and the external memory goes on with a burst that has
waited (R345, R346). -/
def vsupWarningClear (s : State) : State :=
  if deviceOn s && s.pwr.warn then
    let s := { s with pwr := { s.pwr with warn := false, pfArmed := true } }
    if coreOn s then
      let s := if s.xm.began.isNone then nextBegins s else s
      occur 96 (word s.pwr.vsupMin) { s with pwr := { s.pwr with dip := true, dipCnt := satInc s.pwr.dipCnt 255 } }
    else s
  else s

/-- The controller commits to a snapshot, whose page is assembled once the operation in progress has ended, or skips it where no fault
page is blank (R348, R513). -/
def pfCommit (s : State) : State :=
  if blankPage (nvmPage s 510) || blankPage (nvmPage s 511) then pfAssemble { s with pwr := { s.pwr with pfCommitted := true, pfPage := [] } }
  else { s with nvm := { s.nvm with pfSkip := true }, ka := { s.ka with pfSkipped := true } }

/-- POWER_FAIL: VSUP has fallen through 7.8 V (R348, R349). A crossing that comes before the last snapshot is complete commits to one
after it; in reset there is none to take. -/
def powerFail (s : State) : State :=
  if deviceOn s && s.pwr.pfArmed then
    let s := { s with pwr := { s.pwr with pfArmed := false } }
    if !coreOn s then s
    else if s.pwr.pfCommitted then { s with pwr := { s.pwr with pfAgain := true } }
    else pfCommit s
  else s

/-- The committed snapshot has ended; a crossing that came meanwhile commits to the next one. -/
def snapshotEnds (s : State) : State :=
  let again := s.pwr.pfAgain
  let s := { s with pwr := { s.pwr with pfCommitted := false, pfRetried := false, pfPage := [], pfAgain := false } }
  if again then pfCommit s else s

/-- SNAPSHOT_COMPLETE: after the operation in progress, the page is programmed and verified (R349). A verify that fails repeats the program
once; a second one is counted, latches event 173, and leaves the page's bytes free (R497, log 52). -/
def snapshotComplete (verified : Bool) (s : State) : State :=
  if coreOn s && s.pwr.pfCommitted && s.nvm.op.isNone then
    let s := pfAssemble s
    if verified then
      let s := { s with nvm := { s.nvm with mem := progBytes false s.nvm.mem (64 * snapshotPage s) s.pwr.pfPage }, pwr := { s.pwr with pf := true } }
      occur 97 0 (snapshotEnds s)
    else if s.pwr.pfRetried then
      let d := word (snapshotPage s + 512 * 2)
      let s := snapshotEnds (snapshotCut s)
      occur 173 d { s with nvm := { s.nvm with vfailCnt := satInc s.nvm.vfailCnt 255 } }
    else { s with pwr := { s.pwr with pfRetried := true } }
  else s

/-- VIO_WARNING and PREREG_FAULT (R363). -/
def vioWarning (s : State) : State := if coreOn s then occur 98 0 s else s
def preregFault (s : State) : State := if coreOn s then occur 99 0 s else s

/-- REF_PPM_WINDOW: a window of 1 s ends (R353). -/
def refPpmWindow (deviation : BitVec 16) (s : State) : State :=
  if s.pwr.phase = .up ∧ s.pwr.bootEnd + secs 1 ≤ s.now then
    { s with pwr := { s.pwr with ppmValid := true, refPpm := deviation, bootEnd := s.pwr.bootEnd + secs 1 } }
  else s

/-! ### Domains (R354 to R356) -/

/-- Group g of loops (0: loops 0 to 3) has a rail with assigned tiles. -/
def groupNeeded (s : State) (g : Nat) : Bool := allTiles.any fun t => match (s.tile t).rail with | some k => k.val / 4 == g | none => false
/-- Bank b holds an assigned tile. -/
def bankNeeded (s : State) (b : BankId) : Bool := (bankTiles b).any fun t => (s.tile t).rail.isSome

/-- The entry in force before a rail's first start: that of bins 0, or the safe entry (R134, R195). -/
def firstEntry (s : State) (k : RailId) : Word := if rgEn s k then Store.get 0 s.map.mem (rgBase s k) else safeEntry s k

/-- The period of a rail before its first start (R67). -/
def firstPrd (s : State) (k : RailId) : Nat := prdOf s k (entFcode (firstEntry s k))

/-- The active set of a rail before its first start: FORCE_SET where CSET.FORCE is 1 (R118), else that of its first entry. -/
def firstSet (s : State) (k : RailId) : Nat := if forceCset s k then forceSet s k else entCset (firstEntry s k)

/-- A loop that is powered up: front end, engine and Leap unit at their after-reset values; what CORE holds stays, and with it the present
entry and its set, TARGET and its source (R37, R118, R124, log 54). A request or grant of its autozero stays with the draw arbiter
(log 155). -/
def Rail.powered (s : State) (k : RailId) (r : Rail) : Rail :=
  { r with car := { prd := firstPrd s k }, fe := {}, eng := { setAct := wantedSet s k, setForced := forceCset s k, srcLink := r.eng.srcLink }, leap := {} }
/-- A tile whose bank is powered up: COLD tiles take reason BANK; what CORE holds, faults and the trip latch stay (R355, log 54). -/
def Tile.powered (s : State) (ti : Tile) : Tile :=
  { ti with car := { prd := match ti.rail with | some k => firstPrd s k | none => 0 }
            duty := {}, edg := {}, sen := {}, leap := {}, st := {}, reason := if ti.act = .cold then 5 else ti.reason }

/-- LGA and LGB are powered where R354 asks. -/
def groupsUp (s : State) : State :=
  let a := groupNeeded s 0
  let b := groupNeeded s 1
  let s := s.mapRails fun k r => if (k.val < 4 ∧ a ∧ s.pwr.lga = false) ∨ (4 ≤ k.val ∧ b ∧ s.pwr.lgb = false) then Rail.powered s k r else r
  { s with pwr := { s.pwr with lga := s.pwr.lga || a, lgb := s.pwr.lgb || b } }

/-- The lowest bank that is wanted and not powered asks for leave: one bank at a time (R355). -/
def askNextBank (s : State) : State :=
  if s.pwr.ramping.isSome || (finList 4).any (fun b => leaveWaits s (.bank b) || leaveHeld s (.bank b)) then s
  else match (finList 4).find? fun b => s.pwr.bankWant.getLsbD b.val && !s.pwr.banks.getLsbD b.val with
    | some b => askLeave (.bank b) s
    | none => s

/-- Bank b loses its power; a request or a ramp is given up, and an add of one of its COLD tiles (R24). -/
def bankDown (s : State) (b : BankId) : State :=
  let was := s.pwr.banks.getLsbD b.val || s.pwr.ramping == some b
  let s := releaseLeave (.bank b) (dropLeave (.bank b) s)
  let s := { s with pwr := { s.pwr with banks := s.pwr.banks &&& ~~~(1#4 <<< b.val), bankWant := s.pwr.bankWant &&& ~~~(1#4 <<< b.val)
                                        ramping := if s.pwr.ramping = some b then none else s.pwr.ramping } }
  let s := s.mapRails fun _ r =>
    match r.ilv.adding with
    | some t => if bankOf t = b then { r with ilv := { r.ilv with adding := none } } else r
    | none => r
  if was then (bankTiles b).foldl (fun s t => s.modTile t fun ti => if ti.act = .cold then { ti with reason := 5 } else ti) s else s

/-- BANK_POWER_UP: the bank holds leave; its domain ramps. -/
def bankPowerUp (b : BankId) (s : State) : State :=
  if leaveHeld s (.bank b) && s.pwr.ramping.isNone && s.pwr.bankWant.getLsbD b.val && !s.pwr.banks.getLsbD b.val then
    { s with pwr := { s.pwr with ramping := some b } }
  else s

/-- The channels of a bank's stage NTCs: ports 6b to 6b + 5. -/
def bankChans (b : BankId) : BitVec 36 := 0x3F#36 <<< (6 * b.val)

/-- BANK_POWER_UP_DONE: settings reloaded, tiles COLD, leave released; the next round checks the bank's NTCs (R333, R355). -/
def bankPowerUpDone (b : BankId) (s : State) : State :=
  if s.pwr.ramping = some b then
    let s := releaseLeave (.bank b) s
    let s := (bankTiles b).foldl (fun s t => s.modTile t fun ti =>
      { Tile.powered s ti with
        setWait := [], cfgNow := tileW s t .cfg, deadNow := tileW s t .deadtime, minpNow := tileW s t .minp
        blankNow := tileW s t .tblank }) s
    askNextBank { s with pwr := { s.pwr with ramping := none, banks := s.pwr.banks ||| (1#4 <<< b.val) }
                         hk := { s.hk with xchkNext := s.hk.xchkNext ||| bankChans b } }
  else s

/-- DOM_CTL.HK_EN as it stands: what a transition to KEEPALIVE powers down keeps its setting (R357, R369). -/
def hkEn (s : State) : Bool := match s.pwr.undo with | some u => u.1 | none => s.pwr.hk
/-- DOM_CTL as it stands. -/
def domCtl (s : State) : Nat := s.pwr.bankWant.toNat + atB (hkEn s) 4 + atB s.pwr.xmiEn 5

/-- Every tile of the bank is COLD, DROPPED or EXCLUDED. -/
def bankIdle (s : State) (b : BankId) : Bool := (bankTiles b).all fun t => (s.tile t).act != .active && (s.tile t).act != .ready

/-- A write of DOM_CTL is within the limits of R356 and R16. -/
def domAllowed (s : State) (data : Word) : Bool :=
  let want := BitVec.ofNat 4 (fld data 3 0)
  let hk := bitOf data 4
  (finList 4).all (fun b =>
    if want.getLsbD b.val && !s.pwr.bankWant.getLsbD b.val then (s.pwr.state == .ready || s.pwr.state == .run) && hk
    else if !want.getLsbD b.val && s.pwr.bankWant.getLsbD b.val then bankIdle s b
    else true)
  && (hk || !hkEn s || (s.pwr.state == .standby && s.pwr.banks == 0 && s.pwr.ramping.isNone && want == 0))

/-- XMI loses its power: the memory is absent until it is discovered again, and a capture in progress freezes (R543). -/
def xmiDown (s : State) : State :=
  let s := burstCut s
  let s := xmNoLeave { s with xm := { mem := s.xm.mem, stallCnt := s.xm.stallCnt, jfmt := s.xm.jfmt }, pwr := { s.pwr with xmi := false }
                              ldr := { s.ldr with headerDone := s.ldr.headerDone && s.ldr.repl != .receiving } }
  if s.rcd.state = .capture then recFreeze 1 false s else s

/-- XMI takes its power: the pad level is sensed (R596). -/
def xmiUp (s : State) : State :=
  { s with pwr := { s.pwr with xmi := true }, xm := { s.xm with pad33 := decide (2400 < s.pwr.vxio) } }

/-- HK takes its power: its conversions start afresh; what was found since boot, and marks that only a cross-check clears, stay (R331,
R338, log 37). -/
def HkChannel.powered (h : HkChannel) : HkChannel :=
  { warn := h.warn, shut := h.shut, broken := h.broken, bcause := h.bcause, g := h.g }
def hkUp (s : State) : State :=
  { s with pwr := { s.pwr with hk := true }
           hk := { s.hk with ch := mapVec (fun _ h => HkChannel.powered h) s.hk.ch, next := 0, pass := 0
                             xchkWait := s.hk.xchkWait ||| s.hk.xchkNext, xchkNext := 0 } }
def hkDown (s : State) : State := { s with pwr := { s.pwr with hk := false } }

/-- The banks that are wanted become `want`; one no longer wanted loses its power at once. -/
def banksTo (want : BitVec 4) (s : State) : State :=
  let s := (finList 4).foldl (fun s b => if s.pwr.bankWant.getLsbD b.val && !want.getLsbD b.val then bankDown s b else s) s
  { s with pwr := { s.pwr with bankWant := want } }

/-- HK and XMI take or lose their power. -/
def hkTo (on : Bool) (s : State) : State := if on = s.pwr.hk then s else if on then hkUp s else hkDown s
def xmiTo (on : Bool) (s : State) : State := if on = s.pwr.xmi then s else if on then xmiUp s else xmiDown s

/-- HK_EN and XMI_EN: at once, or kept for the end of a transition to KEEPALIVE that has powered both down (R357). XMI takes the power that a
write of XMI_EN says, also where BOOTSEL alone has powered it (log 179). -/
def unitsTo (hk xmi : Bool) (s : State) : State :=
  let s := { s with pwr := { s.pwr with xmiEn := xmi } }
  match s.pwr.undo with
  | some _ => { s with pwr := { s.pwr with undo := some (hk, xmi) } }
  | none => xmiTo xmi (hkTo hk s)

/-- A write of DOM_CTL, the claim judged. -/
def domCtlWrite (h : HostId) (data : Word) (s : State) : State :=
  if domAllowed s data then askNextBank (unitsTo (bitOf data 4) (bitOf data 5) (banksTo (BitVec.ofNat 4 (fld data 3 0)) s)) else refuse h s

/-! ### Power states (R357, R358) -/

/-- Every rail is OFF or SAFE. -/
def railsDown (s : State) : Bool := allRails.all fun k => railSt s k == .off || railSt s k == .safe

/-- RUN → READY: every rail that runs is stopped, in order or at once; rails in HICCUP enter OFF with cause 1 (R238, R358). -/
def stopRails (s : State) : State :=
  allRails.foldl (fun s k =>
    match railSt s k with
    | .off | .safe => s
    | .hiccup => railToOut k .off 1 8 s
    | _ => if s.pwr.stopMode then railToOut k .off 2 1 s else orderlyOff occur k 1 s) s

/-- Banks and loop groups lose their power: the STANDBY domains (R357). -/
def domainsDown (s : State) : State :=
  let s := (finList 4).foldl bankDown s
  { s with pwr := { s.pwr with lga := false, lgb := false } }

/-- STANDBY to KEEPALIVE begins: an open arm ends (R573), XMI and HK are powered down in that order, and the residue block is written
before PLL and CORE (R358, R512). -/
def leaveStandby (s : State) : State :=
  let s := endArm 3 s
  let undo := some (s.pwr.hk, s.pwr.xmi)
  let s := hkDown (if s.pwr.xmi then xmiDown s else s)
  writeResidue { s with pwr := { s.pwr with undo := undo } }

/-- KEEPALIVE is no longer the target: HK and XMI are powered again, in the reverse order of their going down (R357). -/
def undoStandby (s : State) : State :=
  match s.pwr.undo with
  | none => s
  | some (hk, xmi) =>
    let s := { s with pwr := { s.pwr with undo := none } }
    let s := if hk then hkUp s else s
    if xmi then xmiUp s else s

/-- KEEPALIVE is no longer the target: unless Brumation keeps the block, what is written of it is marked stale before any commit (R579). -/
def cancelResidue (s : State) : State :=
  if s.ka.armed then s
  else if s.nvm.resNext.isSome || residueFresh s then
    stalePump { s with nvm := { s.nvm with
      resNext := none, stale := true
      queue := s.nvm.queue.filter fun j => match j with | .residue _ => false | .markFresh => false | _ => true } }
  else s

/-- The first steps from the present state toward the target. -/
def powerStart (s : State) : State :=
  match s.pwr.state, s.pwr.target with
  | .standby, .ready | .standby, .run =>
    let want := (finList 4).foldl (fun (w : BitVec 4) b => if bankNeeded s b then w ||| (1#4 <<< b.val) else w) s.pwr.bankWant
    askNextBank (groupsUp { s with pwr := { s.pwr with bankWant := want } })
  | .standby, .standby => domainsDown s
  | .standby, .keepalive => if s.pwr.undo.isSome then s else leaveStandby (domainsDown s)
  | .run, .ready | .run, .standby | .run, .keepalive => stopRails s
  | _, _ => s

/-- The present hop is complete. -/
def hopDone (s : State) : Bool :=
  match s.pwr.state, s.pwr.target with
  | .standby, .ready | .standby, .run => s.pwr.ramping.isNone && s.pwr.bankWant == s.pwr.banks
  | .ready, .run | .ready, .standby | .ready, .keepalive => true
  | .run, .ready | .run, .standby | .run, .keepalive => railsDown s
  | _, _ => false

/-- Entry to KEEPALIVE: only the keep-alive domain stays powered (R358, R359). -/
def enterKeepalive (s : State) : State :=
  clearDevice .keepAlive { s with ka := { s.ka with armUntil := none, sealArm := false, pressReady := false, coreThrough := false } }

/-- The state that one hop leads to. -/
def nextPower : Power → Power → Power
  | .standby, _ => .ready
  | .ready, .run => .run
  | .ready, _ => .standby
  | .run, _ => .ready
  | .keepalive, _ => .keepalive

/-- One hop: the next state, and the first steps of the hop after it. -/
def powerHop (s : State) : State :=
  if hopDone s then
    let s := runSettle s
    let s := { s with pwr := { s.pwr with state := nextPower s.pwr.state s.pwr.target, runFrom := s.now } }
    match s.pwr.state, s.pwr.target with
    | .standby, .keepalive => leaveStandby (domainsDown s)
    | .standby, _ => domainsDown s
    | _, _ => s
  else s

/-- The residue block has been written, and a committed snapshot is complete (R348; log 140). -/
def residueDone (s : State) : Bool := s.nvm.resNext.isNone && s.nvm.op.isNone && !s.pwr.pfCommitted

/-- POWER_TRANSITION_COMPLETE: the steps whose conditions hold are taken; at the target event 103 latches, and KEEPALIVE is entered
without it (R358). -/
def powerTransitionComplete (s : State) : State :=
  if s.pwr.phase = .up ∧ s.pwr.trans then
    let s := powerHop (powerHop (powerHop s))
    if s.pwr.state = s.pwr.target ∧ (s.pwr.state ≠ .standby ∨ (s.pwr.banks = 0 ∧ s.pwr.lga = false ∧ s.pwr.lgb = false)) then
      occur 103 (word (powerCode s.pwr.state)) { s with pwr := { s.pwr with trans := false } }
    else if s.pwr.target = .keepalive ∧ s.pwr.state = .standby ∧ residueDone s then enterKeepalive s
    else s
  else s

/-- A write of PWR_CMD, the claim judged; it replaces the target of a transition in progress (R357). -/
def pwrCmd (h : HostId) (req : Power) (stopMode : Bool) (s : State) : State :=
  if s.pwr.phase ≠ .up ∨ ((req = .ready ∨ req = .run) ∧ s.pwr.state = .standby ∧ hkEn s = false ∧ (finList 4).any (bankNeeded s)) then
    refuse h s
  else
    let s := if s.pwr.target = .keepalive ∧ req ≠ .keepalive then undoStandby (cancelResidue s) else s
    powerStart { s with pwr := { s.pwr with target := req, trans := true, stopMode := stopMode } }

/-! ### Self-test and scrub (R33, R364) -/

/-- A write of BIST_CMD.START, the claim judged. -/
def bistAsk (h : HostId) (s : State) : State :=
  if s.test.busy then refuse h s else askLeave .bist { s with test := { s.test with busy := true } }

/-- The first reference channel outside its factory limits. -/
def refFail (refs : Vector (BitVec 12) 14) : Option Nat :=
  ((List.range 14).find? fun i => !Config.refInLimits (42 + i) (refs.get (finOf 14 (by decide) i)).toNat).map (· + 42)

/-- Words of the scrubbed memories: map, ring, recorder buffer. The tables of R177 lie in the image shadow. -/
def mapWords : Nat := 4096
def ringWords : Nat := 2048
def recWords : Nat := 4096

/-- The cross-check of every channel, and whether one failed. -/
def sweepChecks (s : State) : State × Bool := allChans.foldl (fun p c => (crossCheck p.1 c, p.2 || xchkFails p.1 c)) (s, false)

/-- BIST_SWEEP: with leave, reference channels 42 to 55 are checked and every enabled temperature channel is cross-checked; the sweep's
full scrub pass is read by the SCRUB_WORD commands that follow (log 87). -/
def bistSweep (refs : Vector (BitVec 12) 14) (s : State) : State :=
  if s.test.busy && !s.test.running && leaveHeld s .bist then
    let bad := refFail refs
    let s := { s with test := { s.test with running := true, failCh := bad.getD 0, sweepBad := bad.isSome } }
    let s := if bad.isSome then occur 229 0 s else s
    let (s, off) := sweepChecks s
    let s := tsdClear s
    { s with test := { s.test with sweepBad := s.test.sweepBad || off, passMap := mapWords, passRing := ringWords, passRec := recWords,
                                   passImg := Config.shadowWords } }
  else s

/-- The sweep's scrub pass has read every word of the four memories. -/
def passDone (t : Test) : Bool := t.passMap == 0 && t.passRing == 0 && t.passRec == 0 && t.passImg == 0

/-- BIST_SWEEP_END: the sweep ends once its scrub pass is complete. -/
def bistSweepEnd (s : State) : State :=
  if s.test.running && passDone s.test then
    let bad := s.test.sweepBad
    let s := releaseLeave .bist { s with test := { s.test with busy := false, running := false, fail := bad, runs := satInc s.test.runs 65535 } }
    if bad then occur 228 0 s else s
  else s

/-- A double-bit error in the image shadow, event 227: the rails that use the word stop in order into SAFE (R33). -/
def shadowError (uses : RailId → Bool) (s : State) : State :=
  occur 227 0 (allRails.foldl (fun s k => if uses k then orderlySafe occur k 8 s else s) (countDbe s))

/-- A single-bit error in the image shadow is corrected and counted (R374). -/
def shadowFixed (s : State) : State := { s with test := { s.test with sbeImg := satInc s.test.sbeImg 255 } }

/-- The rails that use the shadow word of a table entry: a frequency table is one rail's, a word of safe entries serves four (R177). -/
def tableUses (idx : Nat) (k : RailId) : Bool :=
  if idx < 0x4080 then decide ((idx - 0x4000) / 16 = k.val) else decide ((idx - 0x4080) / 4 = k.val / 4)

/-- A read of a table entry of R177 with the outcome of its word's check. -/
def readTableWord (idx : Nat) (ecc : Ecc) (s : State) : State :=
  match ecc with
  | .ok => s
  | .single => shadowFixed s
  | .double => shadowError (tableUses idx) s

/-- SCRUB_WORD: the next word of a memory is read and checked. -/
def scrubWord (m : EccMemory) (ecc : Ecc) (s : State) : State :=
  if coreOn s then
    let t := s.test
    match m with
    | .map =>
      let s := readMapWord t.scrubMap ecc
        { s with test := { t with scrubMap := (t.scrubMap + 1) % mapWords, passMap := t.passMap - 1 } }
      if ecc = .double ∧ s.map.bad.contains t.scrubMap then { s with test := { s.test with sweepBad := t.sweepBad || t.running } } else s
    | .ring =>
      let s := { s with test := { t with scrubRing := (t.scrubRing + 1) % ringWords, passRing := t.passRing - 1 } }
      match ecc with | .ok => s | .single => ringFixed s | .double => ringError t.scrubRing s
    | .recorder =>
      let s := { s with test := { t with scrubRec := (t.scrubRec + 1) % recWords, passRec := t.passRec - 1 } }
      match ecc with | .ok => s | .single => recFixed s | .double => recError s
    | .shadow =>
      let s := { s with test := { t with scrubImg := (t.scrubImg + 1) % Config.shadowWords, passImg := t.passImg - 1 } }
      match ecc with
      | .ok => s
      | .single => shadowFixed s
      | .double => shadowError (fun k => (Config.shadowRails t.scrubImg).getLsbD k.val) s
  else s

/-! ### Pins that the boot bus, the memory port and the write protection drive (R362, R468, R592) -/

/-- What a pin does: a level, released, the signals of a unit at work, or what its boundary cell holds (R592, R599). -/
inductive PinDrive where
  | low | high | released | working | boundary
  deriving DecidableEq, Repr

/-- The controller is out of reset and boot: in the states in which a replacement can run. -/
def imagePorts (s : State) : Bool := coreOn s

/-- BWP: low from before a page write until the EEPROM acknowledges again, else high, also in reset (R468, R487; log 141). -/
def bwp (s : State) : PinDrive := if imagePorts s && s.ldr.tgtSrc == .eeprom && (imgNext s).isSome then .low else .high

/-- BSCL and BSDA: released but for an EEPROM replacement; boot's own reads are part of BOOT (R466, R592). -/
def bootBus (s : State) : PinDrive :=
  if imagePorts s && s.ldr.tgtSrc == .eeprom && ((imgNext s).isSome || s.ldr.repl == .checking) then .working else .released

/-- The memory port transfers now. -/
def portBusy (s : State) : Bool :=
  coreOn s && s.pwr.xmi && (s.xm.bursts != [] || (s.ldr.repl == .checking && s.ldr.tgtSrc == .xmem))
/-- XCS_N, XCLK and XIO0 to XIO3. -/
def xcsN (s : State) : PinDrive := if portBusy s then .working else .high
def xclk (s : State) : PinDrive := if portBusy s then .working else .low
def xio (s : State) : PinDrive := if portBusy s then .working else .released

/-! ### The rows -/

def execResetNLow (ns : Nat) (s : State) : Host.Outcome State Fault Refusal := .next (resetNLow ns s)
def execVsupReset (s : State) (held : Nat := 0) : Host.Outcome State Fault Refusal := .next (vsupReset held s)
def execVioReset (s : State) (held : Nat := 0) : Host.Outcome State Fault Refusal := .next (vioReset held s)
def execCoreSupplyReset (s : State) (held : Nat := 0) : Host.Outcome State Fault Refusal := .next (coreSupplyReset held s)
def execClockFault (kind : ClockFault) (s : State) (held : Nat := 0) : Host.Outcome State Fault Refusal := .next (clockFault kind held s)
def execKeepaliveWake (_byStart : Bool) (s : State) : Host.Outcome State Fault Refusal := .next (keepaliveWake s)
def execVsupWarning (s : State) : Host.Outcome State Fault Refusal := .next (vsupWarning s)
def execVsupWarningClear (s : State) : Host.Outcome State Fault Refusal := .next (vsupWarningClear s)
def execPowerFail (s : State) : Host.Outcome State Fault Refusal := .next (powerFail s)
def execSnapshotComplete (s : State) (verified : Bool := true) : Host.Outcome State Fault Refusal := .next (snapshotComplete verified s)
def execVioWarning (s : State) : Host.Outcome State Fault Refusal := .next (vioWarning s)
def execPreregFault (s : State) : Host.Outcome State Fault Refusal := .next (preregFault s)
def execRefPpmWindow (deviation : BitVec 16) (s : State) : Host.Outcome State Fault Refusal := .next (refPpmWindow deviation s)
def execPowerTransitionComplete (s : State) : Host.Outcome State Fault Refusal := .next (powerTransitionComplete s)
def execBankPowerUp (b : BankId) (s : State) : Host.Outcome State Fault Refusal := .next (bankPowerUp b s)
def execBankPowerUpDone (b : BankId) (s : State) : Host.Outcome State Fault Refusal := .next (bankPowerUpDone b s)
def execBistSweep (refs : Vector (BitVec 12) 14) (s : State) : Host.Outcome State Fault Refusal := .next (bistSweep refs s)
def execBistSweepEnd (s : State) : Host.Outcome State Fault Refusal := .next (bistSweepEnd s)
def execScrubWord (m : EccMemory) (ecc : Ecc) (s : State) : Host.Outcome State Fault Refusal := .next (scrubWord m ecc s)

end Sys2Proof.Machine
end

