-- ==== Sys2Proof/Machine/Boot.lean ====
section
/-! DEFINITION. Boot steps 1 to 6 and the entry to SAFE-IDLE (R29, R30, R460 to R481, R505 to R514, R577). -/

namespace Sys2Proof.Machine

/-! ### Choosing a copy (R460 to R467, R477) -/

/-- The EEPROM read number `n` meets the stuck bus (R467): reads 0 and 1 are the headers, later ones whole copies. -/
def meetsStuck (b : BootInputs) (src : ImageSource) (n : Nat) : Bool := src == .eeprom && b.busStuck.isSome && decide (b.busStuckAfter ≤ n)

/-- The memory's content reaches the controller: its SFDP table is valid (R462). -/
def sfdpValid (b : BootInputs) : Bool := match b.sfdp with | .valid _ _ _ _ _ => true | _ => false

/-- `judge_header` of R477. -/
def bootHeader (b : BootInputs) (s : State) (src : ImageSource) (slotB : Bool) : Nat :=
  if meetsStuck b src (if slotB then 1 else 0) then 2
  else if src == .eeprom && !(if slotB then b.eepromAnswersB else b.eepromAnswersA) then 1
  else if src == .xmem && !sfdpValid b then 3
  else judgeHeader none (slotBytes s src slotB 64)

/-- `judge_copy` of R477. -/
def bootCopy (b : BootInputs) (s : State) (src : ImageSource) (slotB : Bool) (n : Nat) : Nat × Option ImageData :=
  if meetsStuck b src n then (2, none)
  else judgeCopy (slotBytes s src slotB (imgLen (slotBytes s src slotB 64)))

/-- What the search of a source gives: the reasons of copies A and B, and the copy chosen. -/
structure SourceResult where
  a : Nat
  b : Nat
  chosen : Option (Bool × ImageData)
  deriving DecidableEq, Repr

/-- The loop of R477 over the candidates, highest generation first. `n`: reads done. -/
def tryCopies (b : BootInputs) (s : State) (src : ImageSource) : Nat → List Bool → Nat × Nat → SourceResult
  | _, [], r => { a := r.1, b := r.2, chosen := none }
  | n, x :: rest, r =>
    let put (y : Bool) (c : Nat) (r : Nat × Nat) : Nat × Nat := if y then (r.1, c) else (c, r.2)
    match bootCopy b s src x n with
    | (c, some d) =>
      let r := rest.foldl (fun r y => put y 12 r) (put x c r)
      { a := r.1, b := r.2, chosen := some (x, d) }
    | (c, none) => tryCopies b s src (n + 1) rest (put x c r)

/-- The search of one source. -/
def judgeSource (b : BootInputs) (s : State) (src : ImageSource) : SourceResult :=
  let ra := bootHeader b s src false
  let rb := bootHeader b s src true
  let gen (y : Bool) : Nat := imgGen (slotBytes s src y 64)
  let cands :=
    if ra = 0 ∧ rb = 0 then (if gen false < gen true then [true, false] else [false, true])
    else if ra = 0 then [false] else if rb = 0 then [true] else []
  tryCopies b s src 2 cands (ra, rb)

/-- Primary source and fall-back source (R460). -/
def primarySrc (b : BootInputs) : ImageSource := if b.bootsel = .high then .xmem else .eeprom
def fallbackSrc (b : BootInputs) : Option ImageSource := if b.bootsel = .opened then some .xmem else none

/-- XMI is powered for boot and the memory's density known, where BOOTSEL can select it (R354, R462). -/
def xmemForBoot (b : BootInputs) (s : State) : State :=
  if b.bootsel = .low then s
  else
    let s := xmiUp s
    { s with xm := { s.xm with dens := match b.sfdp with | .valid d _ _ _ _ => min d 26 | _ => 0 } }

/-! ### Events of boot: each in a housekeeping cycle of its own, judged by the EV_CFG that boot has loaded. -/

/-- Event 161 for a copy found invalid (R477, R488). -/
def invalidEvent (src : ImageSource) (slotB : Bool) (reason : Nat) (s : State) : State :=
  if reason = 0 ∨ reason = 12 ∨ reason = 15 then s else bootEvent 161 (srcCode src + atB slotB 2 + reason * 16) s

/-- Events 161 of a source, and 163 where the bus stayed stuck. -/
def sourceEvents (b : BootInputs) (src : ImageSource) (r : SourceResult) (s : State) : State :=
  let s := if src = .eeprom ∧ (r.a = 2 ∨ r.b = 2) then bootEvent 163 (if b.busStuck = some true then 1 else 0) s else s
  invalidEvent src true r.b (invalidEvent src false r.a s)

/-! ### Step 4: what the image sets beyond its words -/

/-- A rail at the end of boot. -/
def bootRail (s : State) (k : RailId) (r : Rail) : Rail :=
  let e := firstEntry s k
  { r with
    eng := { r.eng with setAct := firstSet s k, setForced := forceCset s k }
    mo := { r.mo with entry := e, fcode := entFcode e, mapSet := entCset e, lset := entLset e }
    car := { r.car with prd := firstPrd s k } }

/-- A tile at the end of boot (R21, R67, R288, R314). -/
def bootTile (s : State) (t : TileId) (ti : Tile) : Tile :=
  let ti := { ti with
    cfgNow := tileW s t .cfg, deadNow := tileW s t .deadtime, minpNow := tileW s t .minp, blankNow := tileW s t .tblank
    hea := { lEst := (lNom s t : Rat), rEst := (rNom s t : Rat) } }
  match ti.rail with
  | none => { ti with act := .excluded, reason := 1 }
  | some k => { ti with act := .cold, reason := 0, car := { ti.car with prd := firstPrd s k } }

/-- The charger takes the fields of CHG_CFG and CHG_NTC; a change of CHEM or ICHG restarts its timers (R569). -/
def Charger.load (c : Charger) (cfg ntc : Word) : Charger :=
  let changed := fld cfg 2 1 != fld c.cfg 2 1 || fld cfg 8 4 != fld c.cfg 8 4
  { c with cfg := cfg, ntc := ntc, loaded := true
           preTmr := if changed then 0 else c.preTmr, fullTmr := if changed then 0 else c.fullTmr }

/-- CMD.REQ = KILL reads 0b00 once it has acted (R258). -/
def clearKill (s : State) : State := allRails.foldl (fun s k => if fld (loopW s k .cmd) 1 0 = 2 then putWord s (.loop k .cmd) 0 else s) s

/-- The loader's record of the copy with header `h`; a locked class takes every run-time mark (R473). -/
def bootHeaderKept (src : ImageSource) (slotB fallback : Bool) (h : List Byte) (s : State) : State :=
  let lock := (imgFlags h).testBit 0
  { s with ldr := { s.ldr with
    src := src, slotB := slotB, fallback := fallback, classLock := lock, gen := word (imgGen h), flags := BitVec.ofNat 16 (imgFlags h)
    imageId := BitVec.ofNat 64 (numAt h 20 8)
    rtMarks := if lock then [] else s.ldr.rtMarks, coefRt := if lock then 0 else s.ldr.coefRt, mapRt := !lock && s.ldr.mapRt } }

/-- The charger's settings come from the copy. -/
def bootCharger (s : State) : State := { s with ka := { s.ka with chg := s.ka.chg.load (setWord s .chgCfg) (setWord s .chgNtc) } }

/-- XMI_EN takes the copy's setting, and XMI its power where that is on (R354, R369). -/
def bootXmi (s : State) : State :=
  let on := bitOf (setWord s .domCtl) 5
  let s := { s with pwr := { s.pwr with xmiEn := on } }
  if !s.pwr.xmi && on then xmiUp s else s

/-- Step 4: the copy is loaded. `h`: its header. -/
def bootLoad (b : BootInputs) (src : ImageSource) (slotB fallback : Bool) (h : List Byte) (d : ImageData) (s : State) : State :=
  let s := bootXmi (bootCharger (bootHeaderKept src slotB fallback h (clearKill (loadImage d s))))
  (s.mapTiles (bootTile s)).mapRails (bootRail s)

/-! ### Step 5: records, counters, residues, fault pages, seal -/

/-- Class bits of unit i in the packed bytes of FSUM. -/
def unpackCls (n i : Nat) : BitVec 5 := BitVec.ofNat 5 (n >>> (5 * i))

/-- The fault summary is restored (R271, R507). -/
def restoreFsum (s : State) : State :=
  match recPayload s 1 with
  | none => s
  | some p =>
    let rails := numAt p 0 5
    let tiles := numAt p 5 30
    let s := s.mapRails fun k r => { r with prot := { r.prot with cls := unpackCls rails k.val } }
    let s := s.mapTiles fun t ti => { ti with prot := { ti.prot with cls := unpackCls tiles t.val } }
    { s with ldr := { s.ldr with classChg := (byteAt p 35).getLsbD 0 } }

/-- Calibration records replace the image's values where their own hold no reserved encoding (R89, R507). -/
def restoreCal (s : State) : State :=
  let s :=
    match recPayload s 2 with
    | none => s
    | some p => allRails.foldl (fun s k =>
        let w := word (numAt p (4 * k.val) 4) &&& 0xFFFF0FFF#32
        if loopOk .snsCal w then putWord s (.loop k .snsCal) w else s) s
  (finList 4).foldl (fun s b =>
    match recPayload s (3 + b.val) with
    | none => s
    | some p => (bankTiles b).foldl (fun s t =>
        let w := word (numAt p (4 * (t.val % 12)) 4)
        if tileOk .ical w then putWord s (.tile t .ical) w else s) s) s

/-- The booted copy is compared with the boot record (R481, R507). -/
def compareBoot (s : State) : State :=
  let new := payloadOf s 0
  let old := (recPayload s 0).map (·.take 17)
  if old = some new then s
  else
    let cls := s.ldr.classLock || (match old with | some p => (byteAt p 15).getLsbD 0 | none => false)
    let d := word (atB cls 0 + s.ldr.gen.toNat % 65536 * 65536)
    let s := nextCycle (if cls then occurClass 167 d s else occur 167 d s)
    let s := nvmRequest (.record 0 false) s
    if cls then fsumChanged { s with ldr := { s.ldr with classChg := true } } else s

/-- The two samples of a seal check (R575). -/
def sealJudge (lo hi : SealLevel) : SealState :=
  if lo = .low ∧ hi = .high then .closed else if lo = .half ∨ hi = .half then .opened else .short

/-- A seal state is written into the retained record with the present stamp (R576). -/
def sealRecord (st : SealState) (chg : Word) (s : State) : State :=
  { s with ka := { s.ka with sealRec := { s.ka.sealRec with state := st, sec := rtcSec s, frac := rtcFrac s, chg := chg } } }

/-- Detail of event 196. -/
def sealDetail (s : State) (cause : Nat) : Nat :=
  cause + 2 * sealCode s.ka.sealRec.state + s.ka.sealRec.chg.toNat % 65536 * 65536

/-- SEAL record, retained record and loop at boot step 5 (R577). -/
def bootSeal (now : SealState) (s : State) : State :=
  if s.ka.retOk then
    if s.ka.sealRec.unreported then
      let s := nvmRequest (.record 7 false) { s with ka := { s.ka with sealRec := { s.ka.sealRec with unreported := false } } }
      bootEvent 196 (sealDetail s 0) s
    else s
  else
    match recPayload s 7 with
    | some p =>
      let st : SealState := match (byteAt p 0).toNat with | 0 => .closed | 1 => .opened | _ => .short
      let s := { s with ka := { s.ka with sealRec :=
        { s.ka.sealRec with state := st, sec := BitVec.ofNat 40 (numAt p 1 5), frac := BitVec.ofNat 16 (numAt p 6 2)
                            chg := word (numAt p 8 4), unreported := false, unmon := false, lost := true } } }
      if now = st then s
      else
        let s := sealRecord now (s.ka.sealRec.chg + 1) s
        let s := nvmRequest (.record 7 false) { s with ka := { s.ka with sealRec := { s.ka.sealRec with unmon := true } } }
        bootEvent 196 (sealDetail s 1) s
    | none =>
      let s := sealRecord now 0 s
      nvmRequest (.record 7 false) { s with ka := { s.ka with sealRec := { s.ka.sealRec with unreported := false, unmon := false, lost := true } } }

/-- Step 5. `cause`: the reset cause. -/
def bootRecover (b : BootInputs) (cause : Nat) (s : State) : State :=
  let s := (List.range 8).foldl (fun s r => readRecord r s) s
  let s := compareBoot (restoreCal (restoreFsum s))
  let s := (finList 73).foldl recoverCounter s
  let s := recoverFaultPages (recoverResidue (decide (cause = 0)) s)
  let s := bootSeal (sealJudge b.sealLow b.sealHigh) s
  { s with ka := { s.ka with retValid := true } }

/-! ### Step 6 and SAFE-IDLE -/

/-- The first boot after Brumation shows its end in BRUM_STAT (R581). -/
def brumEnds (s : State) : State := { s with ka := { s.ka with ended := s.ka.woke != 0, endCause := s.ka.woke, woke := 0 } }
/-- Event 205 tells of the end of Brumation (R581, R582). -/
def brumEvent (s : State) : State := if s.ka.ended then bootEvent 205 s.ka.endCause s else s

/-- What boot reports at its end: a reset of cause CLOCK with its kind, the RTC, the end of Brumation, the reset cause (R363, R581,
R582). -/
def bootReports (s : State) : State :=
  let s :=
    match (if s.ka.cause = 4 then s.ka.clockFault else none) with
    | some .lockLoss => bootEvent 100 0 s
    | some .reference => bootEvent 101 0 s
    | none => s
  let s := brumEnds { s with ka := { s.ka with clockFault := none } }
  let s := if rtcInvalid s then bootEvent 202 0 s else s
  bootEvent 105 s.ka.cause (brumEvent s)

/-- Step 6: STANDBY. Every origin starts with a valley, all in one tick (R143); every temperature channel is checked at the first round
(R333); both heartbeats are lapsed (R446). -/
def bootEnd (s : State) : State :=
  let s := s.mapRails fun k r => { r with ilv := { r.ilv with originAt := s.now, p16 := 16 * progPrd s k } }
  { s with pwr := { s.pwr with phase := .up, bootEnd := s.now }, hk := { s.hk with xchkWait := BitVec.allOnes 36 }
           link := { s.link with fallback := true }, bus := { s.bus with rtc1 := rtc1Word s } }

/-- SAFE-IDLE (R360, R478, R479). This boot too shows the end of Brumation (R581). -/
def enterSafeIdle (b : BootInputs) (r : SourceResult) (ee xm : Nat × Nat) (s : State) : State :=
  let s := brumEvent (brumEnds (readRecord 0 s))
  let lock := match recPayload s 0 with
    | some p => (byteAt p 15).getLsbD 0 || (byteAt p 16).getLsbD 0
    | none => recLost s 0
  let s := { s with pwr := { s.pwr with phase := .safeIdle }, bus := { s.bus with rtc1 := rtc1Word s }
                    ldr := { s.ldr with reasonA := r.a, reasonB := r.b, idleSeal := lock } }
  let s := if b.bootsel = .low then s else discover b.sfdp s
  bootEvent 162 (ee.1 + ee.2 * 16 + xm.1 * 256 + xm.2 * 4096) s

/-- Boot begins as the reset is left (R361): straps, counts and the check of the retained SRAM (R558). -/
def bootStart (b : BootInputs) (s : State) : State :=
  xmemForBoot b { s with
    now := max s.now s.pwr.outAt + ms (2 * b.duration)
    pwr := { s.pwr with vxio := b.vxio }
    bus := { s.bus with maddr := b.maddr }
    ka := { s.ka with retOk := s.ka.retValid && b.retainedOk, retValid := s.ka.retValid && b.retainedOk }
    ldr := { s.ldr with bootsel := b.bootsel, arbCnt := min b.arbitrationLosses 255, bootT := min b.duration 255 } }

/-- The steps from a chosen copy on. `fb`: it came from the fall-back source; `first`: the search of the primary source. -/
def bootFrom (b : BootInputs) (src : ImageSource) (fb : Bool) (first : Option SourceResult) (r : SourceResult) (x : Bool × ImageData) (s : State) :
    State :=
  let h := slotBytes s src x.1 64
  let s := bootLoad b src x.1 fb h x.2 s
  let s := { s with ldr := { s.ldr with reasonA := r.a, reasonB := r.b } }
  let s := lossEvents b.arbitrationLosses s
  let s := match first with | some f => sourceEvents b (primarySrc b) f s | none => s
  let s := bootEvent 160 (srcCode src + atB x.1 2 + atB fb 3 + imgGen h % 65536 * 65536) (sourceEvents b src r s)
  let s := if b.bootsel = .low then s else nextCycle (discover b.sfdp s)
  bootEnd (bootReports (bootRecover b s.ka.cause s))

/-- BOOT (R29): not while RESET_N is held low. -/
def boot (b : BootInputs) (s : State) : State :=
  if s.pwr.phase = .inReset ∧ s.tap.resetLow = false then
    let s := bootStart b s
    let p := primarySrc b
    let r := judgeSource b s p
    match r.chosen with
    | some x => bootFrom b p false none r x s
    | none =>
      let pair (q : SourceResult) : Nat × Nat := (q.a, q.b)
      match fallbackSrc b with
      | none =>
        let no := (15, 15)
        enterSafeIdle b r (if p = .eeprom then pair r else no) (if p = .eeprom then no else pair r) (sourceEvents b p r s)
      | some f =>
        let q := judgeSource b s f
        match q.chosen with
        | some x => bootFrom b f true (some r) q x s
        | none => enterSafeIdle b r (pair r) (pair q) (sourceEvents b f q (sourceEvents b p r s))
  else s

def execBoot (b : BootInputs) (s : State) : Host.Outcome State Fault Refusal := .next (boot b s)

end Sys2Proof.Machine
end

