-- ==== Sys2Proof/Machine/KeepAlive.lean ====
section
/-! DEFINITION. The keep-alive domain: power path, monitor, RTC, cell charger, status lights, service key and arm, seal, Brumation;
and the test access port (R555 to R586, R599). -/

namespace Sys2Proof.Machine

/-! ### The charger (R562 to R569) -/

/-- Thresholds of a chemistry in mV (R557, R562). -/
structure Chem where
  vReg : Nat
  vPre : Nat
  vRch : Nat
  vOv : Nat
  cutoff : Nat
  deriving DecidableEq, Repr

def chemOf (c : Charger) : Chem :=
  match fld c.cfg 2 1 with
  | 0 => { vReg := 4100, vPre := 3000, vRch := 3950, vOv := 4200, cutoff := 2800 }
  | 1 => { vReg := 4200, vPre := 3000, vRch := 4050, vOv := 4300, cutoff := 2800 }
  | _ => { vReg := 3600, vPre := 2600, vRch := 3450, vOv := 3700, cutoff := 2500 }

def chgEn (c : Charger) : Bool := c.loaded && bitOf c.cfg 0
def ntcHot (c : Charger) : Nat := fld c.ntc 9 0
def ntcCold (c : Charger) : Nat := fld c.ntc 25 16
/-- ICHG in mA. -/
def ichg (c : Charger) : Nat := 5 * fld c.cfg 8 4

/-- f of R565 in 1/256. -/
def thermalF (tj : Int) : Nat := if tj ≤ 115 then 256 else if 135 ≤ tj then 0 else ((135 - tj) * 256 / 20).toNat

/-- The current limit of the present state in 1/2,560 mA: f × ICHG in CHARGE, f × ICHG/10 in PRECOND, none elsewhere (R562, R565, R567). -/
def Charger.limit (c : Charger) : Nat :=
  match c.state with
  | .charge => 10 * c.frac * ichg c
  | .precond => c.frac * ichg c
  | _ => 0

/-- Delivered current in mA that shows a current of at most the limit (R565, R586). -/
def Charger.delivers (c : Charger) (ma : Nat) : Nat := min ma ((c.limit + 2559) / 2560)

/-- The state that a start chooses (R563). -/
def chgChoose (c : Charger) (v : Nat) : ChargerState :=
  if v < (chemOf c).vPre then .precond else if (chemOf c).vRch ≤ v then .done else .charge

/-- The NTC code is outside the window, or a sensor failure (R563). -/
def ntcOut (c : Charger) (code : Nat) : Bool :=
  bitOf c.cfg 3 && (decide (code < ntcHot c) || decide (ntcCold c < code) || decide (code ≤ 8) || decide (1016 ≤ code))

/-- Timers in 1/1,024 s: 60 min and 600 min. -/
def preEnd : Nat := 3600 * 1024
def fullEnd : Nat := 36000 * 1024

/-- CHARGE regulates at V_REG: the cell has come up to it, as near as the accuracies of V_REG and of the reading let it be told, and no
thermal limit holds the current down (R562, R564; log 180). -/
def Charger.regulates (c : Charger) (m : KaReadings) : Bool :=
  m.atVreg && c.state == .charge && decide ((chemOf c).vReg * 995 ≤ (m.vcell.toNat + 25) * 1000)
    && (c.frac == 256 || decide (2560 * m.iout.toNat < c.limit))

/-- Measurements and timers of one run, before the transitions (R564 to R566). `run`: the charger may carry current. -/
def Charger.measure (c : Charger) (run : Bool) (m : KaReadings) : Charger :=
  let f := thermalF m.tj
  let c := { c with frac := f, ntcFault := decide (m.ntc.toNat ≤ 8) || decide (1016 ≤ m.ntc.toNat) }
  let cv := run && c.regulates m
  let i := if run then c.delivers m.iout.toNat else 0
  { c with
    iout := BitVec.ofNat 8 i, cv := cv
    preTmr := if c.state = .precond ∧ run then min preEnd (c.preTmr + max f 64) else c.preTmr
    fullTmr := if c.state = .charge ∧ run then min fullEnd (c.fullTmr + max f 64) else c.fullTmr
    ovRuns := if chgDraws c.state && decide ((chemOf c).vOv < m.vcell.toNat) then min (c.ovRuns + 1) 4 else 0
    termRuns := if cv && decide (10 * i < ichg c) then min (c.termRuns + 1) 16 else 0 }

/-- What the run leaves: current, CV and PAUSED as the state that it ends in has them (R563, R566, R567). -/
def Charger.settle (c : Charger) (run : Bool) : Charger :=
  if run then { c with paused := false, cv := c.cv && c.state == .charge, iout := BitVec.ofNat 8 (c.delivers c.iout.toNat) } else c.pause

/-- A start with the timers at zero (R563); where it needs current and may not draw it, it waits. -/
def Charger.start (c : Charger) (run : Bool) (v : Nat) : Charger :=
  let st := chgChoose c v
  if chgDraws st && !run then { c with state := .wait, restart := true, preTmr := 0, fullTmr := 0 }
  else { c with state := st, restart := false, preTmr := 0, fullTmr := 0 }

/-- The first transition of R563 that is due. -/
def Charger.step (c : Charger) (run : Bool) (m : KaReadings) : Charger :=
  let v := m.vcell.toNat
  let code := m.ntc.toNat
  if !chgEn c then { c with state := .off, restart := false }
  else if chgDraws c.state && decide (4 ≤ c.ovRuns) then { c with state := .fault, fcause := 3 }
  else if c.state == .precond && decide (preEnd ≤ c.preTmr) then { c with state := .fault, fcause := 1 }
  else if c.state == .charge && decide (fullEnd ≤ c.fullTmr) then { c with state := .fault, fcause := 2 }
  else if (chgDraws c.state || c.state == .done) && ntcOut c code then { c with state := .tempHold, left := c.state }
  else
    match c.state with
    | .tempHold => if ntcHot c + 8 ≤ code ∧ code + 8 ≤ ntcCold c then { c with state := c.left } else c
    | .precond =>
      if !run then { c with state := .wait, left := .precond }
      else if (chemOf c).vPre + 100 ≤ v then { c with state := .charge } else c
    | .charge =>
      if !run then { c with state := .wait, left := .charge }
      else if 16 ≤ c.termRuns then { c with state := .done } else c
    | .wait => if !run then c else if c.restart then c.start run v else { c with state := c.left }
    | .off => c.start run v
    | .done => if v < (chemOf c).vRch then { c with state := .charge, preTmr := 0, fullTmr := 0 } else c
    | .fault => c

/-- The charger may carry current (R566): the source is good; in KEEPALIVE without leave, with CORE powered under leave and no VSUP
warning; in reset, boot and SAFE-IDLE not at all. -/
def chgMayRun (s : State) : Bool :=
  s.ka.src && s.ka.srcGood &&
  match s.pwr.phase with
  | .keepAlive => true
  | .up => leaveHeld s .charger && !s.pwr.warn
  | _ => false

/-- The charger's leave follows its state: it asks while it charges or waits to, and gives back what it does not use (R547, R566). -/
def chgLeave (s : State) : State :=
  if s.pwr.phase ≠ .up then s
  else if chgDraws s.ka.chg.state || s.ka.chg.state == .wait then
    (if leaveHeld s .charger || !s.ka.srcGood then s else askLeave .charger s)
  else releaseLeave .charger (dropLeave .charger s)

/-- An event of the keep-alive domain reaches the event system while CORE is powered. -/
def kaOccur (e : Nat) (detail : Nat) (s : State) : State := if coreOn s then occur e (word detail) s else s

/-- The charger at one run of the monitor. -/
def chargerRun (m : KaReadings) (s : State) : State :=
  let run := chgMayRun s
  let old := s.ka.chg
  let c := ((old.measure run m).step run m).settle run
  let s := { s with ka := { s.ka with chg := c } }
  let s := if old.frac = 256 ∧ c.frac < 256 then kaOccur 200 (wrap 8 (m.tj + 64)) s else s
  let s := if c.state = old.state then s
    else match c.state with
      | .fault => kaOccur 197 c.fcause s
      | .done => kaOccur 198 m.vcell.toNat s
      | .tempHold => kaOccur 199 m.ntc.toNat s
      | _ => s
  chgLeave s

/-- CHG_CTL.CLR_FAULT, the claim judged (R568): the timers restart, and the state is chosen once current may flow. -/
def chgClear (s : State) : State :=
  let c := s.ka.chg
  if c.state = .fault then
    chgLeave { s with ka := { s.ka with chg := { c with state := .wait, restart := true, fcause := 0, preTmr := 0, fullTmr := 0, paused := true } } }
  else s

/-! ### Monitor and seal (R557, R558, R575, R576) -/

/-- The seal rule governs an arm opened now (R479, R572). -/
def sealRule (s : State) : Bool :=
  if s.pwr.phase = .safeIdle then s.ldr.idleSeal else bitOf (setWord s .svcCfg) 10

/-- One check of the seal loop: a new state is accepted at the second consecutive check that reads it (R576). -/
def sealCheck (st : SealState) (s : State) : State :=
  let r := s.ka.sealRec
  let seen (s : State) : State := { s with ka := { s.ka with sealRec := { s.ka.sealRec with lastRead := some st } } }
  if st = r.state ∨ r.lastRead ≠ some st then seen s
  else
    let s := seen (sealRecord st (r.chg + 1) s)
    let s :=
      if coreOn s then
        nvmRequest (.record 7 false) (kaOccur 195 (sealCode st + s.ka.sealRec.chg.toNat % 65536 * 65536) s)
      else { s with ka := { s.ka with sealRec := { s.ka.sealRec with unreported := true } } }
    if s.ka.sealArm && st != .opened then endArm 2 s else s

/-- KA_MONITOR_RUN. -/
def kaMonitorRun (m : KaReadings) (s : State) : State :=
  if kaOn s then
    let low := s.ka.onCell && decide (m.vcell.toNat < (chemOf s.ka.chg).cutoff)
    let s := { s with ka := { s.ka with
      vcell := m.vcell, ntc := m.ntc, tj := m.tj
      cutFrom := if low then (match s.ka.cutFrom with | some t => some t | none => some s.now) else none } }
    chargerRun m (sealCheck (sealJudge m.sealLow m.sealHigh) s)
  else s

/-! ### The power path (R555 to R557, R559, R580, R581) -/

/-- The keep-alive domain without power: nothing retained is left. -/
def kaLost : KeepAlive := { powered := false }

/-- Everything loses its power but the non-volatile memories; the supply monitors come up afresh. -/
def allDown (phase : Phase) (s : State) : State :=
  let s := snapshotReset 1 (burstCut s)
  clearDevice phase { s with ka := kaLost, pwr := { s.pwr with warn := false, pfArmed := true } }

/-- The keep-alive domain at its power-up: a POWER_ON reset, the RTC from 0 and not valid. -/
def kaFresh (src : Bool) (woke : Nat) (key : Bool) (now : Nat) : KeepAlive :=
  { src := src, onCell := !src, srcFrom := now, rtcAt := now, woke := woke, key := key, pressAt := now }

/-- KA_SOURCE_LOSS: the domain runs from the cell; where Brumation is armed it loses its power, and the rest of the device follows as VSUP
falls (R580). -/
def kaSourceLoss (s : State) : State :=
  if kaOn s && s.ka.src then
    if s.ka.armed then
      let s := { s with ka := { kaLost with brum := true } }
      if coreOn s then s else inBrumation (snapshotReset 1 (burstCut s))
    else
      { s with ka := { s.ka with
          src := false, onCell := true, srcGood := false, absCnt := satInc s.ka.absCnt 255, cutFrom := none
          lossAt := match s.ka.lossAt with | some t => some t | none => some s.now
          coreThrough := match s.ka.lossAt with | some _ => s.ka.coreThrough | none => coreOn s
          chg := s.ka.chg.pause } }
  else s

/-- KA_SOURCE_RETURN: the source feeds the domain again, a disconnected cell is reconnected, and qualification begins (R556, R557). -/
def kaSourceReturn (s : State) : State :=
  if kaOn s && !s.ka.src then
    { s with ka := { s.ka with
        src := true, onCell := false, srcFrom := s.now, cutFrom := none, cellOff := false
        absence := match s.ka.lossAt with | some t => (s.now - t) / ms 1 | none => 0 } }
  else s

/-- KA_SOURCE_QUALIFIED: 100 ms without a break; the absence is short or long (R556, R566, R568). -/
def kaSourceQualified (s : State) : State :=
  if kaOn s && s.ka.src && !s.ka.srcGood && decide (s.ka.srcFrom + ms 100 ≤ s.now) then
    match s.ka.lossAt with
    | none => { s with ka := { s.ka with srcGood := true } }
    | some _ =>
      let a := min s.ka.absence 65535
      let long := decide (1000 ≤ s.ka.absence)
      let c := s.ka.chg
      let c :=
        if !long then c
        else match c.state with
          | .fault => { c with state := .wait, restart := true, fcause := 0, preTmr := 0, fullTmr := 0 }
          | .wait | .precond | .charge => { c with state := .wait, restart := true, preTmr := 0, fullTmr := 0 }
          | .tempHold => { c with preTmr := 0, fullTmr := 0 }
          | _ => c
      let through := s.ka.coreThrough
      let s := { s with ka := { s.ka with srcGood := true, lossAt := none, coreThrough := false, lastAbs := a, chg := c } }
      let s := if through then kaOccur 201 (a + atB long 16) s else s
      chgLeave s
  else s

/-- CELL_CUTOFF: VCELL below the cut-off voltage for 1 s while the domain runs from the cell (R557). -/
def cellCutoff (s : State) : State :=
  if kaOn s && s.ka.onCell then
    match s.ka.cutFrom with
    | some t => if t + secs 1 ≤ s.now then { (allDown .unpowered s) with ka := { kaLost with cellOff := true } } else s
    | none => s
  else s

/-- KEEPALIVE_DOMAIN_POWER_UP: from nothing (R559, R361). A cell that was disconnected feeds the domain only once the source has been present
again (R557). -/
def kaPowerUp (sourcePresent : Bool) (s : State) : State :=
  if s.pwr.phase = .unpowered ∧ (sourcePresent ∨ s.ka.cellOff = false) then clearDevice .inReset { s with ka := kaFresh sourcePresent 0 false s.now } else s

/-- BRUMATION_WAKE: SERVICE_N held low for 1 s, or the source (R581), also while the rest of the device still runs (R580). -/
def brumationWake (byKey : Bool) (s : State) : State :=
  if s.ka.brum && deviceOn s then
    clearDevice .inReset { (snapshotReset 0 (burstCut (runSettle s))) with ka := kaFresh (!byKey) (if byKey then 1 else 2) byKey s.now }
  else if s.pwr.phase = .brumation then clearDevice .inReset { s with ka := kaFresh (!byKey) (if byKey then 1 else 2) byKey s.now } else s

/-! ### RTC (R559 to R561) -/

/-- Time of the latest 1/32,768 s tick, of the crystal: the count may stand still over ticks that TRIM skips. -/
def rtcTick (s : State) : Nat := s.now - (((s.now : Int) - (rtcTaken s).2.1) * 32768 % (secs 1 : Nat)).toNat / 32768

/-- Time of the next 1/32,768 s tick. -/
def rtcNext (s : State) : Nat := rtcTick s + (secs 1 + 32767) / 32768

/-- What the RTC's latest tick has taken is its setting (R560). -/
def rtcSettle (s : State) : State :=
  let (base, at', inv) := rtcTaken s
  { s with ka := { s.ka with rtcBase := base, rtcAt := at', tinv := inv
                             rtcNew := match s.ka.rtcNew with | some n => if n.2 ≤ s.now then none else some n | none => none } }

/-- The record of an RTC setting, code 2, of the cycle in which the RTC takes it, with the stamp that it then has (R529, R560; log 98). -/
def rtcRecord (h : HostId) (sec : Nat) (low : Word) (at' : Nat) (s : State) : State :=
  enqueue { entryNow s 2 low false true (some h) with cyc := at' / 128, sec := BitVec.ofNat 40 sec, frac := 0 } s

/-- The record of a setting that a further one replaces before it has been taken is not made. -/
def dropRtcRecord (s : State) : State :=
  { s with ev := { s.ev with queue := s.ev.queue.filter fun q => decide (q.cyc ≤ cycleOf s) } }

/-- A write of RTC_SET1 (R560), the claim judged: with SET the RTC takes the staged seconds, fraction 0, at its next tick, and the change is
recorded then. -/
def rtcSet1Write (h : HostId) (data : Word) (s : State) : State :=
  let s := { s with ka := { s.ka with set1 := data &&& 0xFF#32 } }
  if bitOf data 31 then
    let sec := s.ka.set0.toNat + (fld data 7 0) * 2 ^ 32
    let s := dropRtcRecord (rtcSettle s)
    let at' := rtcNext s
    rtcRecord h sec s.ka.set0 at' { s with ka := { s.ka with rtcNew := some (sec * 32768, at') } }
  else s

/-- RTC_TRIM_INTERVAL: 2^20 crystal cycles have passed; TRIM cycles are added, or the count stands still over as many (R561). -/
def rtcTrim (s : State) : State :=
  if kaOn s then
    let s := rtcSettle s
    let n := s.ka.trim.toInt
    { s with ka := { s.ka with rtcBase := rtcCount s + n.toNat, rtcAt := max s.ka.rtcAt (rtcTick s) + ((-n).toNat * secs 1 + 32767) / 32768 } }
  else s

/-! ### Service key and arm (R571 to R574) -/

/-- SERVICE_KEY_PRESS: SERVICE_N is accepted low. -/
def keyPress (s : State) : State :=
  if kaOn s && !s.ka.key then { s with ka := { s.ka with key := true, pressAt := s.now, pressReady := coreOn s } } else s

/-- Seconds that an arm lasts. -/
def armWindow (s : State) : Nat := if s.pwr.phase = .safeIdle then 120 else fld (setWord s .svcCfg) 9 0

/-- An arm opens or restarts: event 192. -/
def openArm (s : State) : State :=
  let rule := sealRule s
  let d := armWindow s + atB rule 10 + atB (armOpen s) 11 + atB (s.bus.owner == some .b) 12
  kaOccur 192 d { s with ka := { s.ka with armUntil := some (s.now + secs (armWindow s)), sealArm := rule, armCnt := satInc s.ka.armCnt 255 } }

/-- SERVICE_KEY_RELEASE: the press is judged (R572). -/
def keyRelease (s : State) : State :=
  if kaOn s && s.ka.key then
    let dur := s.now - s.ka.pressAt
    let ready := coreOn s && s.ka.pressReady
    let s := { s with ka := { s.ka with key := false } }
    let reject (c : Nat) : State := kaOccur 194 c { s with ka := { s.ka with rej := c } }
    if dur < secs 2 then s
    else if !ready then reject 3
    else if secs 5 < dur then reject 1
    else if sealRule s && !sealOpen s then reject 2
    else openArm s
  else s

/-- SERVICE_ARM_EXPIRY: the window runs out. -/
def armExpiry (s : State) : State :=
  match s.ka.armUntil with
  | some t => if t ≤ s.now then endArm 0 s else s
  | none => s

/-- SVC_CTL.CLOSE, the claim judged. -/
def svcCtlWrite (data : Word) (s : State) : State := if bitOf data 0 then endArm 1 s else s

/-! ### Brumation (R578, R579) -/

/-- BRUM_CTL.ARM, the claim judged: needs a service arm. -/
def brumArm (h : HostId) (s : State) : State :=
  if armOpen s then writeResidue (occur 203 (word (atB (h == .b) 0)) { s with ka := { s.ka with armed := true } }) else refuse h s

/-- BRUM_CTL.DISARM, the claim judged: the block is marked stale, and commits resume once that is verified. -/
def disarmBrum (h : HostId) (s : State) : State :=
  cancelResidue (occur 204 (word (atB (h == .b) 0)) { s with ka := { s.ka with armed := false } })

/-- A write of BRUM_CTL. -/
def brumCtlWrite (h : HostId) (data : Word) (s : State) : State :=
  let s := if bitOf data 0 then brumArm h s else s
  if bitOf data 1 then disarmBrum h s else s

/-- RESIDUE_HOURLY_WRITE. -/
def residueHourly (s : State) : State :=
  if coreOn s && s.ka.armed && decide (s.ka.residueAt + secs 3600 ≤ s.now) then writeResidue s else s

/-! ### Status lights (R570) -/

/-- Patterns of a status light. -/
inductive Light where
  | off | on | blink (hz : Nat) | flash (count periodMs : Nat)
  deriving DecidableEq, Repr

/-- KA_ST1; released where the domain has no power. -/
def kaSt1 (s : State) : Light :=
  if !kaOn s then .off
  else match s.ka.chg.state with
    | .fault => .blink 4 | .tempHold => .blink 2 | .precond => .blink 1 | .charge => .on | .done => .flash 1 4000 | .off | .wait => .off

/-- KA_ST2. -/
def kaSt2 (s : State) : Light :=
  if !kaOn s then .off
  else if armOpen s then .blink 4
  else match s.ka.sealRec.state with
    | .short => .flash 2 1000
    | .opened => .on
    | .closed => if s.ka.armed then .blink 1 else .off

/-! ### The test access port (R599) -/

/-- RESET_N as the port's command tells of it: going low it resets the device, which it holds in reset until 100 µs after it has gone high
(R361). -/
def resetLevel (low : Bool) (s : State) : State :=
  let was := s.tap.resetLow
  let s :=
    if low && !was then pinReset 0 s
    else if was && !low && s.pwr.phase == .inReset then { s with pwr := { s.pwr with outAt := max s.pwr.outAt (s.now + us 100) } }
    else s
  { s with tap := { s.tap with resetLow := low } }

/-- TEST_ACCESS_PORT_INSTRUCTION: an instruction is loaded, IDCODE by Test-Logic-Reset, with the level of RESET_N. -/
def tapLoad (load : TapLoad) (resetNLow : Bool) (s : State) : State :=
  let s := resetLevel resetNLow s
  { s with tap := { s.tap with ins := match load with | .testLogicReset => .idcode | .instruction i => i } }

/-- The port has taken over the pins: EXTEST, CLAMP or HIGHZ while RESET_N is low. -/
def tapDrives (s : State) : Bool := s.tap.resetLow && (s.tap.ins == .extest || s.tap.ins == .clamp || s.tap.ins == .highz)

/-- IDCODE: REVISION.MAJOR in [31:28], the part number, bit 0 is 1. -/
def idcode : Word := 0x1488046B

/-! ### The rows -/

def execKaMonitorRun (m : KaReadings) (s : State) : Host.Outcome State Fault Refusal := .next (kaMonitorRun m s)
def execKaSourceLoss (s : State) : Host.Outcome State Fault Refusal := .next (kaSourceLoss s)
def execKaSourceReturn (s : State) : Host.Outcome State Fault Refusal := .next (kaSourceReturn s)
def execKaSourceQualified (s : State) : Host.Outcome State Fault Refusal := .next (kaSourceQualified s)
def execCellCutoff (s : State) : Host.Outcome State Fault Refusal := .next (cellCutoff s)
def execKeepaliveDomainPowerUp (sourcePresent : Bool) (s : State) : Host.Outcome State Fault Refusal := .next (kaPowerUp sourcePresent s)
def execBrumationWake (byKey : Bool) (s : State) : Host.Outcome State Fault Refusal := .next (brumationWake byKey s)
def execRtcTrimInterval (s : State) : Host.Outcome State Fault Refusal := .next (rtcTrim s)
def execServiceKeyPress (s : State) : Host.Outcome State Fault Refusal := .next (keyPress s)
def execServiceKeyRelease (s : State) : Host.Outcome State Fault Refusal := .next (keyRelease s)
def execServiceArmExpiry (s : State) : Host.Outcome State Fault Refusal := .next (armExpiry s)
def execResidueHourlyWrite (s : State) : Host.Outcome State Fault Refusal := .next (residueHourly s)
def execTestAccessPortInstruction (load : TapLoad) (resetNLow : Bool) (s : State) : Host.Outcome State Fault Refusal :=
  .next (tapLoad load resetNLow s)

end Sys2Proof.Machine
end

