-- ==== Sys2Proof/Machine/Link.lean ====
section
/-! DEFINITION. The Gulsan load link: frames, answers, settle watches, command authority and liveness (R429 to R459). -/

namespace Sys2Proof.Machine

/-! ### Running, pins and settings (R431 to R433, R453) -/

/-- The link runs (R433). -/
def linkRuns (s : State) : Bool := s.pwr.phase == .up && bitOf (setWord s .linkCfg) 0
/-- LINK_CFG.LINK_WDT, ms. -/
def linkWdt (s : State) : Nat := fld (setWord s .linkCfg) 31 16
/-- Frames that wait to be sent (R455). -/
def txq (s : State) : Nat := s.link.acks.length + s.link.settled.length
/-- GL_ATTN_N is driven low (R432). -/
def attn (s : State) : Bool := linkRuns s && decide (0 < txq s)
/-- The idle level of GL_DO: low while the link does not run (R433). -/
def glDoIdle (s : State) : Bool := linkRuns s

/-! ### The frame (R434, R435) -/

/-- CRC-8 of a frame: polynomial 0x2F, initial value 0xFF, over D47 to D8. -/
def frameCrc (ty seq : Byte) (k : RailId) (flags : BitVec 5) (value : BitVec 16) : Nat :=
  crc 8 0x2F 0xFF [ty, seq, BitVec.ofNat 8 (k.val * 32 + flags.toNat), BitVec.ofNat 8 (value.toNat / 256), BitVec.ofNat 8 value.toNat]

/-- The CRC of the five bytes D47 to D8 of a received frame. -/
def rawCrc (f : BitVec 48) : Nat := crc 8 0x2F 0xFF (beBytes 5 (f.toNat / 256))

/-! ### Command authority (R446 to R448) -/

/-- Every rail whose authority differs between `s0` and `s` latches event 148 with its cause. -/
def authorityEvents (cause : Bool → Nat) (s0 s : State) : State :=
  allRails.foldl (fun s' k =>
    let a := linkAuth s k
    if a != linkAuth s0 k then occur 148 (word (k.val + atB a 3 + at_ (cause a) 2 4)) s' else s') s

/-- Fall-back begins or ends (R446). -/
def setFallback (b : Bool) (s : State) : State :=
  if s.link.fallback = b then s
  else authorityEvents (fun _ => if b then 1 else 2) s { s with link := { s.link with fallback := b } }

/-- A write of LINK_AUTH, the claim judged: it takes effect at its commit point (R447). -/
def linkAuthSet (data : Word) (s : State) : State :=
  authorityEvents (fun _ => 0) s (putWord s .linkAuth (data &&& 0xFF#32))

/-- LINK_CFG written at run time: a rail whose FB_EN changes while fall-back holds changes authority. -/
def linkCfgSet (data : Word) (s : State) : State :=
  authorityEvents (fun a => if a then 1 else 2) s (putWord s .linkCfg data)

/-! ### Targets (R124, R445) -/

/-- TARGET takes a value from a source; an open watch is superseded by a different one. -/
def takeTarget (k : RailId) (v : Nat) (byLink : Bool) (s : State) : State :=
  let differs := v != target s k
  let s := (putWord s (.loop k .target) (word v)).modEng k fun e => { e with srcLink := byLink }
  if differs then closeWatch occur k 1 (BitVec.ofNat 16 v) s else s

/-! ### Answers (R438, R443) -/

/-- An ACK enters the transmit queue. -/
def pushAck (seq : Byte) (k : RailId) (result : Nat) (value : BitVec 16) (s : State) : State :=
  { s with link := { s.link with
      acks := s.link.acks ++ [{ ty := 0x91, seq := seq, rail := k, flags := BitVec.ofNat 5 result, value := value }] } }

/-- The command is answered; each result other than ACCEPTED and DUPLICATE counts and latches event 149. -/
def answer (seq : Byte) (k : RailId) (received : BitVec 16) (result : Nat) (value : BitVec 16) (s : State) : State :=
  let s := pushAck seq k result value s
  if result < 2 then s
  else
    occur 149 (word (k.val + at_ result 5 3 + seq.toNat * 256 + received.toNat * 65536))
      { s with link := { s.link with refCnt := satInc s.link.refCnt 65535 } }

/-- The rail can be commanded: its loop group is powered and it has a tile (R438). -/
def railAvail (s : State) (k : RailId) : Bool := groupOn s k && decide (0 < qaOf s k)

/-- TARGET as it stands. -/
def targetNow (s : State) (k : RailId) : BitVec 16 := BitVec.ofNat 16 (target s k)

/-! ### The settle watch (R445) -/

/-- A watch opens; the rail's earlier one, if it is still open, is superseded (DEDUCED: at most one is open). -/
def openWatch (k : RailId) (seq : Byte) (s : State) : State :=
  let s := s.modRail k fun r => { r with link := { r.link with watch := some { seq := seq, openedAt := s.now, inWinFrom := none, target := target s k } } }
  match railSt s k with
  | .prepare | .softstart | .regulate | .slew => s
  | _ => abandonWatch occur k s

/-- SETTLE_TIMEOUT: SET_TMO ms have passed since acceptance. -/
def settleTimeout (k : RailId) (s : State) : State :=
  match (s.rail k).link.watch with
  | none => s
  | some w =>
    if setTmo s k ≠ 0 ∧ w.openedAt + ms (setTmo s k) ≤ s.now then
      let v := BitVec.ofNat 16 (s.rail k).fe.vout
      closeWatch occur k 3 v (occur 150 (word (k.val + w.seq.toNat * 256 + v.toNat * 65536)) s)
    else s

/-! ### Judgement of a frame (R439 to R442) -/

/-- Test 6 of R439: TARGET takes VALUE, LINK_LAST records the command, and SETTLE_REQ opens a watch. -/
def acceptTarget (seq : Byte) (k : RailId) (settle : Bool) (value : BitVec 16) (s : State) : State :=
  let s := takeTarget k value.toNat true s
  let s := if settle then closeWatch occur k 1 value s else s
  let s := s.modRail k fun r => { r with link := { r.link with seq := seq, value := value, valid := true, outcome := none, told := false } }
  let s := answer seq k value 0 value s
  if settle then openWatch k seq s else s

/-- A duplicate: counted, and its settled acknowledgement sent again if it has been sent (R440). -/
def duplicate (seq : Byte) (k : RailId) (value : BitVec 16) (s : State) : State :=
  let s := answer seq k value 1 (targetNow s k) { s with link := { s.link with dupCnt := satInc s.link.dupCnt 255 } }
  let l := (s.rail k).link
  match l.outcome with
  | some (f, v) => if l.told then pushSettled occur { ty := 0x92, seq := seq, rail := k, flags := f, value := v } s else s
  | none => s

/-- A SET_TARGET, by the tests of R439 in their order. -/
def judgeTarget (seq : Byte) (k : RailId) (flags : BitVec 5) (value : BitVec 16) (s : State) : State :=
  let l := (s.rail k).link
  if flags.toNat / 2 ≠ 0 then answer seq k value 4 0 s
  else if !railAvail s k then answer seq k value 5 0 s
  else if l.valid && l.seq == seq && l.value == value then duplicate seq k value s
  else if !linkAuth s k then answer seq k value 2 (targetNow s k) s
  else if value.toNat < tMin s k ∨ tMax s k < value.toNat then answer seq k value 3 (targetNow s k) s
  else acceptTarget seq k (flags.getLsbD 0) value s

/-- Item 5 of R441. -/
def queryStatus (s : State) (k : RailId) : Nat :=
  railCode (railSt s k) + atB (s.rail k).seq.pgood 4 + atB (linkAuth s k) 5 + atB (linkFbEn s k && s.link.fallback) 6
    + atB (throttles s k) 7 + atB (s.rail k).link.watch.isSome 8

/-- The value of a query item; none where the item is reserved. -/
def queryItem (s : State) (k : RailId) (item : Nat) : Option Nat :=
  match item with
  | 0 => some (target s k)
  | 1 => some (refCode s k)
  | 2 => some (s.rail k).fe.vout
  | 3 => some (s.rail k).fe.vinFast
  | 4 => some (wrap 16 (ashr (s.rail k).mo.ir 8))
  | 5 => some (queryStatus s k)
  | _ => none

/-- A QUERY (R441). -/
def judgeQuery (seq : Byte) (k : RailId) (flags : BitVec 5) (value : BitVec 16) (s : State) : State :=
  match queryItem s k value.toNat with
  | none => answer seq k value 4 0 s
  | some v =>
    if flags ≠ 0 then answer seq k value 4 0 s
    else if !railAvail s k then answer seq k value 5 0 s
    else answer seq k value 0 (BitVec.ofNat 16 v) s

/-- A PING (R442); a set FLAGS bit is reserved (R437, R438). -/
def judgePing (seq : Byte) (k : RailId) (flags : BitVec 5) (value : BitVec 16) (s : State) : State :=
  if flags ≠ 0 then answer seq k value 4 0 s else answer seq k value 0 value s

/-- Edges of GL_CLK arrive: it is active, judged from the peripheral clock whether the link runs or not (R431, R453). -/
def clkRuns (s : State) : State := if coreOn s then { s with link := { s.link with clkActive := true } } else s

/-- A frame is accepted: counted, and the load is alive (R436, R450). -/
def frameAccepted (s : State) : State :=
  let was := s.link.alive
  let back := !was && s.link.everLapsed
  let s := { s with link := { s.link with
    rxCnt := satInc s.link.rxCnt 65535, rxAt := some s.now, alive := true } }
  if back then occur 147 0 s else s

/-- An accepted frame of any type is judged; a type that no load frame has is answered BAD_FRAME (R437, R438). -/
def judgeFrame (ty seq : Byte) (k : RailId) (flags : BitVec 5) (value : BitVec 16) (s : State) : State :=
  let s := clkRuns s
  if linkRuns s then
    let s := frameAccepted s
    if ty = 0x11 then judgeTarget seq k flags value s
    else if ty = 0x12 then judgeQuery seq k flags value s
    else if ty = 0x13 then judgePing seq k flags value s
    else answer seq k value 4 0 s
  else s

/-- LINK_FRAME_ERROR: a stop bit of 0, or a wrong CRC; a frame with neither is accepted (R436). -/
def linkFrameError (frame : BitVec 48) (stop : Bool) (s : State) : State :=
  let s := clkRuns s
  if linkRuns s then
    let got := frame.toNat % 256
    if !stop then occur 145 0 { s with link := { s.link with frmCnt := satInc s.link.frmCnt 255 } }
    else if got ≠ rawCrc frame then
      occur 144 (word (got + rawCrc frame * 256)) { s with link := { s.link with crcCnt := satInc s.link.crcCnt 255 } }
    else
      judgeFrame (BitVec.ofNat 8 (frame.toNat >>> 40)) (BitVec.ofNat 8 (frame.toNat >>> 32)) (railOf (frame.toNat >>> 29))
        (BitVec.ofNat 5 (frame.toNat >>> 24)) (BitVec.ofNat 16 (frame.toNat >>> 8)) s
  else s

/-- GL_CLK_STOP: the clock has stopped for 2 µs; a frame in reception is discarded and counted. A frame in transmission stays in its
queue and is sent again (R431). `resumes`: edges have arrived again since, also where the clock only begins to run (log 145). -/
def glClkStop (receiving resumes : Bool) (s : State) : State :=
  let s := { s with link := { s.link with clkActive := resumes && coreOn s } }
  if receiving && linkRuns s then occur 145 1 { s with link := { s.link with frmCnt := satInc s.link.frmCnt 255 } } else s

/-! ### Sending (R443, R444) -/

/-- ACK: the oldest queued ACK is sent whole; that it is sent shows that the clock runs. -/
def sendAck (s : State) : State :=
  match s.link.acks with
  | [] => s
  | f :: rest => if linkRuns s then { s with link := { s.link with acks := rest, sent := some f, clkActive := true } } else s

/-- SETTLED: the oldest queued SETTLED frame is sent while no ACK waits. -/
def sendSettled (s : State) : State :=
  match s.link.acks, s.link.settled with
  | [], f :: rest =>
    if linkRuns s then
      { s with link := { s.link with settled := rest, sent := some f, clkActive := true } }.modRail f.rail fun r =>
        if r.link.seq == f.seq && r.link.outcome == some (f.flags, f.value) then { r with link := { r.link with told := true } } else r
    else s
  | _, _ => s

/-! ### Liveness (R450) -/

/-- LOAD_LAPSE: no accepted frame for LINK_WDT ms. -/
def loadLapse (s : State) : State :=
  match s.link.rxAt with
  | some t =>
    if s.link.alive ∧ linkWdt s ≠ 0 ∧ t + ms (linkWdt s) < s.now ∧ s.pwr.phase = .up then
      occur 146 0 { s with link := { s.link with alive := false, everLapsed := true } }
    else s
  | none => s

/-! ### The rows -/

def execSetTarget (seq : Byte) (k : RailId) (flags : BitVec 5) (value : BitVec 16) (s : State) : Host.Outcome State Fault Refusal :=
  .next (judgeFrame 0x11 seq k flags value s)
def execQuery (seq : Byte) (k : RailId) (flags : BitVec 5) (value : BitVec 16) (s : State) : Host.Outcome State Fault Refusal :=
  .next (judgeFrame 0x12 seq k flags value s)
def execPing (seq : Byte) (k : RailId) (flags : BitVec 5) (value : BitVec 16) (s : State) : Host.Outcome State Fault Refusal :=
  .next (judgeFrame 0x13 seq k flags value s)
def execBadFrame (ty seq : Byte) (k : RailId) (flags : BitVec 5) (value : BitVec 16) (s : State) : Host.Outcome State Fault Refusal :=
  .next (judgeFrame ty seq k flags value s)
def execLinkFrameError (frame : BitVec 48) (stop : Bool) (s : State) : Host.Outcome State Fault Refusal := .next (linkFrameError frame stop s)
def execGlClkStop (receiving : Bool) (s : State) (resumes : Bool := false) : Host.Outcome State Fault Refusal :=
  .next (glClkStop receiving resumes s)
def execAck (s : State) : Host.Outcome State Fault Refusal := .next (sendAck s)
def execSettled (s : State) : Host.Outcome State Fault Refusal := .next (sendSettled s)
def execSettleTimeout (k : RailId) (s : State) : Host.Outcome State Fault Refusal := .next (settleTimeout k s)
def execLoadLapse (s : State) : Host.Outcome State Fault Refusal := .next (loadLapse s)

end Sys2Proof.Machine
end

