-- ==== Sys2Proof/Machine/Read.lean ====
section
/-! DEFINITION. What a read of each register shows (R6, R30, R35, R37, R478, and the field table of each register). -/

namespace Sys2Proof.Machine

/-! ### Which registers answer -/

/-- The block of a register has its power (R37): a loop block needs its group, a tile block its bank, but for what CORE holds. -/
def domainOn (s : State) (r : Reg) : Bool :=
  match r with
  | .loop k x => groupOn s k || x == .state || x == .target || x == .cmd
  | .tile t x => bankOn s t || x == .state
  | _ => true

/-- Registers that work in SAFE-IDLE (R478). -/
def safeIdleReg (r : Reg) : Bool :=
  match r with
  | .ident | .revision | .pwrStat | .rstStat | .rstCmd => true
  | .busCfg | .busStat | .claim | .hbA | .hbB | .refusedA | .refusedB | .errCnt => true
  | .svcCfg | .svcStat | .svcCtl | .sealStat | .sealT0 | .sealT1 => true
  | .bootStat | .bootGen | .imgId0 | .imgId1 | .imgCtl | .imgData | .imgStat | .imgProg => true
  | .kaStat | .rtc0 | .rtc1 | .rtcSet0 | .rtcSet1 | .rtcCal | .chgCfg | .chgNtc | .chgStat | .chgTmr | .chgCtl | .kaMon => true
  | .brumCtl | .brumStat => true
  | _ => false

/-- The register works at present (R30, R37, R478). -/
def regLive (s : State) (r : Reg) : Bool :=
  match s.pwr.phase with
  | .up => domainOn s r
  | .safeIdle => safeIdleReg r
  | .inReset => r == .ident || r == .revision
  | _ => false

/-! ### Loop registers -/

/-- COEF_IDX of a host: word, set, auto-increment (R139). -/
def coefIdxOf (s : State) (h : HostId) (k : RailId) : Word := (s.host h).coefIdx.get k
def coefIdxWord (w : Word) : Nat := fld w 2 0
def coefIdxSet (w : Word) : Nat := fld w 7 4

/-- MOVING: the reference differs from its present end point (R130). -/
def refMoving (s : State) (k : RailId) : Bool := match refGoal s k with | some (g, _) => g != (s.rail k).eng.ref | none => false

/-- The bins are frozen (R182). -/
def binsFrozen (s : State) (k : RailId) : Bool := leapActive s k || !steady (railSt s k)

def glideCode : GlideKind → Nat
  | .none => 0 | .rotation => 1 | .respace => 2
def lockCode : LockState → Nat
  | .free => 0 | .acquiring => 1 | .locked => 2

/-- Steps that slot 0's carrier has taken in the present glide (R170). -/
def glideSteps (s : State) (k : RailId) : Nat :=
  match tileInSlot s k 0 with
  | some t => match (s.tile t).car.glide with | some g => g.steps | none => 0
  | none => 0

def autozeroBusy : Autozero → Bool
  | .idle => false
  | _ => true

/-- A register of loop k as host h reads it. PROT_STAT shows the low 16 bits of ILIM_EFF (log 174). -/
def readLoop (s : State) (h : HostId) (k : RailId) (x : LoopReg) : Word :=
  let r := s.rail k
  let w := loopW s k x
  match x with
  | .state => word (railCode r.seq.state + at_ r.seq.cause 4 4 + atB r.seq.pgood 8
      + atB ((tilesOf s k).any fun t => (s.tile t).emulating) 9 + atB r.seq.pbHigh 10 + atB (r.seq.lenPin == lenPol s k) 11
      + atB (seqWait s k) 12 + at_ r.seq.retry 8 16)
  | .ref => word (at_ (refCode s k) 16 0 + atB (refMoving s k) 16 + atB r.eng.srcLink 17)
  | .cset => word (at_ r.eng.setAct 4 0 + at_ (r.eng.setPend.getD 0) 4 4 + atB r.eng.setPend.isSome 8 + atB r.eng.setForced 9
      + fld w 31 16 * 65536)
  | .updStat => word (at_ r.eng.satCnt 16 0 + atB r.eng.sat 16 + atB r.eng.ffSat 17 + atB r.eng.swRefused 18 + at_ r.eng.swCnt 8 24)
  | .errmon => word (atI r.eng.err 16 0 + atI (r.eng.ffShown / 4) 16 16)
  | .dcmd => word (atI r.eng.d 25 0)
  | .pbStat => word (at_ r.seq.pb 16 0 + at_ r.seq.trackMax 16 16)
  | .thrStat => word (at_ r.prot.dthr 16 0 + atB (throttles s k) 16)
  | .protStat => word (at_ r.prot.ilimEff 16 0 + at_ (qOf s k) 6 16 + at_ (qaOf s k) 6 24)
  | .railFault => word (r.prot.fault.toNat + r.prot.cls.toNat * 65536)
  | .faultCnt => word (at_ r.prot.cntOv 8 0 + at_ r.prot.cntUv 8 8 + at_ r.prot.cntOcr 8 16 + at_ r.prot.cntThr 8 24)
  | .leapStat => word (leapStateCode s k + at_ r.leap.first 6 8 + at_ (underTiles s k).length 6 16 + at_ r.leap.cause 2 24
      + atB r.leap.tmaxHit 26 + atB (leapActive s k && r.leap.errRelease.isSome) 27)
  | .leapCnt => word (at_ r.leap.cntLeap 16 0 + at_ r.leap.cntBack 8 16 + at_ r.leap.cntMissed 8 24)
  | .ilvStat => word (at_ (nOf s k) 6 0 + glideCode r.ilv.glide * 64 + at_ (glideSteps s k) 7 8
      + atB (r.ilv.glide != .none && glidePaused s k) 15 + lockCode r.ilv.lock * 65536 + atB r.ilv.rotDue 18 + at_ r.ilv.rotPtr 6 24)
  | .ilvCnt => word (at_ r.ilv.rotCnt 16 0 + at_ r.ilv.abortCnt 8 16)
  | .mapStat => word (at_ r.mo.vbin 4 0 + at_ r.mo.ibin 6 4 + at_ r.mo.tbin 3 10 + atB r.mo.safe 13 + atB (binsFrozen s k) 14
      + at_ r.mo.entryIdx 14 16)
  | .moultStat => word (at_ (moultTgt s k) 6 0 + atB ((tilesOf s k).any fun t => isFadingIn (s.tile t)) 6
      + atB ((tilesOf s k).any fun t => isFadingOut (s.tile t)) 7 + atB r.mo.freqPend.isSome 8 + atB (moultBusy s k) 9
      + at_ r.mo.adds 8 16 + at_ r.mo.sheds 8 24)
  | .coefIdx => coefIdxOf s h k
  | .coefData => coefWord s k (coefIdxSet (coefIdxOf s h k)) (coefIdxWord (coefIdxOf s h k))
  | .snsVout => word (at_ r.fe.vout 16 0 + atI (match r.fe.window with | (v, _) :: _ => v | [] => 0) 10 16 + atB r.fe.rangeExt 26)
  | .snsVin => word (at_ r.fe.vinFast 16 0 + at_ (vinSlowShown s k) 16 16)
  | .snsDac => word (atI r.fe.dac 16 0 + atI r.fe.az 8 16)
  | .snsStat => word (r.fe.stat.toNat + atB (autozeroBusy r.fe.autozero) 6 + atB r.fe.vinFrozen 7)
  | .cmd | .target | .slew | .ff | .limit | .bal | .tlim | .ssCfg | .stopCfg | .floor | .track | .hiccup | .pgCfg | .seq | .ovCfg
  | .uvCfg | .ocrCfg | .tdetCfg | .openCfg | .hlthCfg | .respRail | .respTile | .leapCfg | .leapSet _ | .leapImax | .rotCfg | .syncLoop
  | .moultCfg | .moultCtl | .snsCfg | .snsCal | .snsRatio | .snsIscale => w

/-! ### Tile registers -/

/-- COUNT and SLOPE of a carrier at the start of the present housekeeping cycle (R73). -/
def carrierView (s : State) (c : Carrier) : Nat × Bool :=
  if c.running then
    let d : Int := max 0 (128 * (cycleOf s : Int) - c.time)
    if c.atPeak then
      if d < c.hold then (c.prd, false) else (((c.prd : Int) - (d - c.hold) / 16).toNat, true)
    else (min c.prd (d / 16).toNat, false)
  else (0, false)

/-- Hold ticks of the present peak while the carrier holds there, else of its next one (R42, R73). -/
def holdView (s : State) (c : Carrier) : Nat :=
  if c.running && c.atPeak && decide (128 * (cycleOf s : Int) - c.time < c.hold) then c.holdTicks else c.ticksDue

/-- The trim of the tile is held (R117). -/
def trimFrozen (s : State) (t : TileId) : Bool :=
  match (s.tile t).rail with
  | none => true
  | some k => !(balEn s k && counted (s.tile t) && decide (2 ≤ (countedTiles s k).length)) || leapActive s k

/-- TRIM_MAX of the tile's rail in accumulator units; 0 for a tile of no rail, whose TRIM then shows both bounds (log 162). -/
def trimBound (s : State) (t : TileId) : Int := match (s.tile t).rail with | some k => trimMax s k * 65536 | none => 0

/-- An estimate counts as valid after 2^TC updates (R288). -/
def lValid (s : State) (t : TileId) : Bool := match (s.tile t).rail with | some k => decide (2 ^ lTc s k ≤ (s.tile t).hea.lUpd) | none => false
def rValid (s : State) (t : TileId) : Bool := match (s.tile t).rail with | some k => decide (2 ^ rTc s k ≤ (s.tile t).hea.rUpd) | none => false

/-- A register of tile t. -/
def readTile (s : State) (t : TileId) (x : TileReg) : Word :=
  let ti := s.tile t
  let w := tileW s t x
  match x with
  | .prd => word (at_ ti.car.prd 16 0 + at_ ti.car.frac 4 16)
  | .duty => word (at_ ti.duty.cmp 16 0 + at_ ti.duty.fine 4 16)
  | .dutyShd =>
    let d := ti.duty.land (nowI s)
    word (at_ d.shdCmp 16 0 + at_ d.shdFine 4 16 + atB d.shdPend 31)
  | .reloadStat => word (at_ ti.st.lateCnt 16 0 + atB ti.st.late 16 + atB (ti.car.waits (nowI s)) 17)
  | .tripStat => word (at_ ti.trip.count 16 0 + atB ti.trip.latch 16 + atB ti.trip.active 17 + atB ti.trip.held 18)
  | .filterStat => word (at_ ti.st.hsDrop 8 0 + at_ ti.st.hsStr 8 8 + at_ ti.st.lsDrop 8 16 + at_ ti.st.lsStr 8 24)
  | .carrier => word (at_ (carrierView s ti.car).1 16 0 + atB (carrierView s ti.car).2 16 + at_ (holdView s ti.car) 2 17)
  | .phase => word (at_ ti.car.phase 16 0 + at_ (ti.slot.getD 63) 6 16 + atB (ti.car.glide.any fun g => g.move != 0) 22)
  | .iavg => word (atI ti.sen.itile 16 0 + atB (iRange ti) 16 + atB ti.sen.valid 17 + atB ti.sen.evalid 18)
  | .iedge => word (atI ti.sen.imin 16 0 + atI ti.sen.imax 16 16)
  | .trim => word (atI (ashr ti.prot.trimAcc 16) 16 0 + atB (ti.prot.trimAcc == trimBound s t) 16
      + atB (ti.prot.trimAcc == -trimBound s t) 17 + atB (trimFrozen s t) 18)
  | .healthL => word (estShown ti.hea.lEst + fld w 31 16 * 65536)
  | .healthR => word (estShown ti.hea.rEst + fld w 31 16 * 65536)
  | .healthBand => word (fld w 15 0 + atB (lValid s t) 16 + atB (rValid s t) 17)
  | .fault => word (ti.prot.fault.toNat + ti.prot.cls.toNat * 256 + at_ ti.prot.ocCount 16 16)
  | .req => word (atB ti.reqOut 0 + atB ti.reqPend 1 + at_ ti.cref 8 8)
  | .state => word (actCode ti.act + atB (isFadingIn ti) 4 + atB (isFadingOut ti) 5 + at_ ti.reason 4 8
      + (match ti.rail with | some k => k.val * 4096 + 32768 | none => 0) + ti.gen.toNat * 65536)
  | .admission => 0
  | .cfg | .deadtime | .minp | .tblank | .ical | .oclim => w

/-! ### Events, housekeeping and telemetry -/

/-- First source of each group of R38, and the end of the last. -/
def groupStart : Nat → Nat
  | 0 => 0 | 1 => 48 | 2 => 64 | 3 => 96 | 4 => 128 | 5 => 160 | 6 => 192 | 7 => 224 | _ => 256
def groupAny (g : Nat) (p : Nat → Bool) : Bool := (List.range (groupStart (g + 1) - groupStart g)).any fun i => p (groupStart g + i)

def srcOf (s : State) (e : Nat) : EventSource := s.ev.src.get (finOf 256 (by decide) e)

/-- Bits 0, 1, … of a number by a test. -/
def bitsOf (n : Nat) (p : Nat → Bool) : Nat := (List.range n).foldl (fun a i => a + atB (p i) i) 0

/-- EV_SUM (R396). -/
def evSumWord (s : State) : Word :=
  word (bitsOf 8 (fun g => groupAny g fun e => (srcOf s e).latch) + bitsOf 8 (fun g => groupAny g (alertSrc s)) * 256 + atB (!alertN s) 16)

/-- EV_FIRST (R396). -/
def evFirstWord (s : State) : Word := match (List.range 256).find? (alertSrc s) with | some e => word (e + 256) | none => 0

/-- CH_CFG with its read-only parts (R341). -/
def chCfgShown (s : State) (c : Fin 36) : Word :=
  let w := (setWord s (.chCfg c)).toNat
  if c.val < 24 then word (nfld w 21 0 + 2 ^ 22 + atB (w.testBit 23) 23)
  else if c.val < 32 then word (nfld w 27 0)
  else word (nfld w 9 0 + 300 * 1024 + 2 ^ 23)

/-- CH_DATA (R342); a channel above 35 has no enable and counts as enabled. -/
def chDataWord (s : State) (c : ChanId) : Word :=
  let x := s.chan c
  word (atI x.value 16 0 + atB x.inFast 16 + atB x.warn 17 + atB (x.shut || x.broken) 18 + atB x.broken 19 + at_ x.bcause 2 20
    + atB (x.hasReading && (chEn s c || decide (36 ≤ c.val))) 22)

/-- One byte of FAST_LIST (R340). -/
def fastByte (s : State) (i : Nat) : Nat := match (fastList s)[i]? with | some c => c.val + 128 | none => 0

/-- An average, rounded toward zero; 0 without a counted sample (R377). -/
def avg (sum : Int) (n : Nat) : Int := if n = 0 then 0 else sum.tdiv n

/-- Cap of a count in a field. -/
def cap (n top : Nat) : Nat := min n top

/-! ### Waiting requests (R551) -/

def rankWaits (s : State) (i : Nat) : Bool := s.draw.waiting.any fun r => drawRank r.user == i + 1
def rankHeld (s : State) (i : Nat) : Bool := s.draw.active.any fun g => drawRank g.user == i + 1

/-! ### Codes -/

def replCode : ReplState → Nat
  | .idle => 0 | .receiving => 1 | .checking => 2 | .done => 3 | .failed => 4 | .aborted => 5
def nvmHostCode : NvmHostState → Nat
  | .idle => 0 | .waiting => 1 | .running => 2 | .done => 3 | .failed => 4
def recStateCode : RecState → Nat
  | .idle => 0 | .armed => 1 | .capture => 2 | .frozen => 3
def chargerCode : ChargerState → Nat
  | .off => 0 | .wait => 1 | .precond => 2 | .charge => 3 | .done => 4 | .tempHold => 5 | .fault => 6
def bootselCode : Bootsel → Nat
  | .low => 0 | .opened => 1 | .high => 2
def hostCode : HostId → Nat
  | .a => 0 | .b => 1

/-- HB_x (R426). -/
def hbWord (s : State) (r : HostRegs) : Word :=
  word (r.hbCount.toNat + atB r.alive 8 + cap (match r.hbAt with | some t => (s.now - t) / ms 1 | none => 65535) 65535 * 65536)

/-- SVC_STAT.REMAIN: seconds left in the arm, its rounding free (R584; log 8). -/
def armRemain (s : State) : Nat :=
  match s.ka.armUntil with
  | some t => cap (quotFree ((t - s.now : Nat) : Int) (secs 1)).toNat 1023
  | none => 0

/-- Bytes in the recorder buffer (R554). -/
def recHeld (s : State) : Nat := (s.rcd.pre.map List.length).sum + s.rcd.buffer.length

/-- The map entry that a host's MAP_IDX reaches: 0 beyond the safe entries and in a bad word (R196). -/
def mapIdxOf (s : State) (h : HostId) : Nat := fld (s.host h).mapIdx 14 0
def mapDataWord (s : State) (h : HostId) : Word :=
  let i := mapIdxOf s h
  if 0x4087 < i ∨ s.map.bad.contains (mapWord i) then 0 else Store.get 0 s.map.mem i

/-- Any register as host h reads it, its block being live. -/
def readAny (s : State) (h : HostId) (r : Reg) : Word :=
  let me := s.host h
  let b := s.bus
  match r with
  | .loop k x => readLoop s h k x
  | .tile t x => readTile s t x
  | .ident => 0x5A524880#32
  | .revision => word (Config.revMinor.toNat + 256 + atB Config.revScreen 16)
  | .pwrStat => word (powerCode s.pwr.state % 4 + powerCode s.pwr.target * 4 + atB s.pwr.trans 4
      + atB (s.draw.waiting.any fun q => drawRank q.user == 1) 5 + atB (s.pwr.phase == .safeIdle) 6)
  | .domCtl => word (domCtl s)
  | .domStat => word (6 + atB (kaOn s) 0 + atB s.pwr.lga 3 + atB s.pwr.lgb 4 + s.pwr.banks.toNat * 32 + atB s.pwr.hk 9 + atB (s.nvm.op.isSome || s.pwr.pfCommitted) 10 + atB s.pwr.xmi 11)
  | .supStat => word (atB s.pwr.warn 0 + atB s.pwr.dip 1 + atB s.pwr.pf 2 + at_ s.pwr.dipCnt 8 8 + at_ s.pwr.vsupMin 16 16)
  | .rstStat => word (at_ s.ka.cause 4 0 + atB s.pwr.pfSnap 4)
  | .syncStat => word (atB s.sync.present 0 + atB s.sync.lost 1 + atB s.sync.range 2 + at_ s.sync.lossCnt 8 8)
  | .syncMeas => word (if s.sync.present then at_ s.sync.period 24 0 else 0)
  | .pllStat => word (atB s.pwr.lock 0 + atB s.pwr.refOk 1 + atB s.pwr.ppmValid 2 + s.pwr.refPpm.toNat * 65536)
  | .evLatch i => word (bitsOf 32 fun j => (srcOf s (32 * i.val + j)).latch)
  | .evSum => evSumWord s
  | .evFirst => evFirstWord s
  | .evQstat => word (at_ (queueFill s) 10 0 + at_ s.ev.ovfCnt 8 16 + atB s.ev.ovf 24)
  | .evDidx => me.evDidx
  | .evDdata => (srcOf s (fld me.evDidx 7 0)).detail
  | .evDcnt => word (at_ (srcOf s (fld me.evDidx 7 0)).count 16 0)
  | .svcStat => word (atB (armOpen s) 0 + atB s.ka.sealArm 1 + atB s.ka.key 2 + at_ s.ka.rej 2 4 + at_ s.ka.armCnt 8 8 + armRemain s * 65536)
  | .sealStat => word (sealCode s.ka.sealRec.state + atB s.ka.sealRec.unmon 2 + atB s.ka.sealRec.lost 3 + at_ s.ka.sealRec.chg.toNat 16 16)
  | .sealT0 => word s.ka.sealRec.sec.toNat
  | .sealT1 => word (s.ka.sealRec.sec.toNat / 2 ^ 32 + at_ s.ka.sealRec.frac.toNat 15 8 + atB (s.ka.sealRec.frac.getLsbD 15) 31)
  | .drawStat => word (at_ s.draw.imeas 16 0 + at_ (grantSum s fun _ => true) 16 16)
  | .drawWait => word (bitsOf 8 (rankWaits s) + bitsOf 8 (rankHeld s) * 256 + at_ s.draw.longCnt 8 16 + at_ s.draw.preemptCnt 8 24)
  | .busCfg => word (b.maddr.toNat + ((setWord s .busCfg).toNat &&& 0xFFFF0008))
  | .busStat => word (hostCode h + b.stat.toNat * 2)
  | .claim => word (ownerCode s + atB b.hostA.alive 2 + atB b.hostB.alive 3 + at_ b.chgCnt 8 16)
  | .hbA => hbWord s b.hostA
  | .hbB => hbWord s b.hostB
  | .refusedA => word (at_ b.hostA.refCnt 16 0 + at_ b.hostA.claimCnt 16 16)
  | .refusedB => word (at_ b.hostB.refCnt 16 0 + at_ b.hostB.claimCnt 16 16)
  | .errCnt => word (at_ b.protoCnt 8 0 + at_ b.pecCnt 8 8 + at_ b.toutCnt 8 16 + at_ b.relCnt 8 24)
  | .linkStat => word (bitsOf 8 (fun k => linkAuth s (railOf k)) + atB s.link.fallback 8 + atB s.link.alive 9 + atB s.link.clkActive 10
      + atB (attn s) 11 + at_ (txq s) 5 16)
  | .linkErr => word (at_ s.link.crcCnt 8 0 + at_ s.link.frmCnt 8 8 + at_ s.link.dupCnt 8 16 + at_ s.link.sovfCnt 8 24)
  | .linkCnt => word (at_ s.link.rxCnt 16 0 + at_ s.link.refCnt 16 16)
  | .linkLast k =>
    let l := (s.rail k).link
    word (l.seq.toNat + atB l.valid 8 + atB l.watch.isSome 9 + l.value.toNat * 65536)
  | .hkStat => word (at_ s.hk.rounds 16 0 + at_ (fastList s).length 4 16 + atB s.hk.tsd 20 + atB s.hk.tsdLatch 21
      + atB (s.hk.xchkWait != 0 || s.hk.xchkNext != 0) 22 + atB s.hk.xchkSkip 23)
  | .fastList i => word (fastByte s (4 * i.val) + fastByte s (4 * i.val + 1) * 256 + fastByte s (4 * i.val + 2) * 65536
      + fastByte s (4 * i.val + 3) * 16777216)
  | .chCfg c => chCfgShown s c
  | .chData c => chDataWord s c
  | .therm k => word (at_ (s.hk.therm.get k).1 9 0 + at_ (s.hk.therm.get k).2 6 10 + atB (decide ((s.hk.therm.get k).1 < 256)) 16)
  | .telStat => word (at_ s.tel.seq 16 0 + at_ s.tel.skip 8 16 + atB s.tel.wait.isSome 24)
  | .trVolt k =>
    let w := s.tel.pub.rails.get k
    word (atI (avg w.v w.n) 16 0 + atI (avg w.vin w.n) 16 16)
  | .trVpeak k => word (atI (s.tel.railPeaks.get k).v.hi 16 0 + atI (s.tel.railPeaks.get k).v.lo 16 16)
  | .trCurr k => word (atI (avg (s.tel.pub.rails.get k).i (s.tel.pub.rails.get k).n) 24 0)
  | .trCpeak k => word (atI (s.tel.railPeaks.get k).i.hi 24 0)
  | .trPower k => word (atI (avg (s.tel.pub.rails.get k).p (s.tel.pub.rails.get k).n) 32 0)
  | .trPpeak k => word (atI (s.tel.railPeaks.get k).p.hi 32 0)
  | .trTemp k => word (atI (avg (s.tel.pub.rails.get k).t (s.tel.pub.rails.get k).tn) 16 0 + atI (s.tel.railPeaks.get k).t.hi 16 16)
  | .trWin k => word (at_ s.tel.pub.seq 16 0 + at_ (s.tel.pub.rails.get k).n 16 16)
  | .ttCurr t => word (atI (avg (s.tel.pub.tiles.get t).i (s.tel.pub.tiles.get t).n) 16 0 + at_ (s.tel.pub.tiles.get t).n 16 16)
  | .ttCpeak t => word (atI (s.tel.tilePeaks.get t).i.hi 16 0 + atI (s.tel.tilePeaks.get t).i.lo 16 16)
  | .ttTemp t => word (atI (avg (s.tel.pub.tiles.get t).t (s.tel.pub.tiles.get t).tn) 16 0 + atI (s.tel.tilePeaks.get t).t.hi 16 16)
  | .lifeEnergy k => lifeShown s (cntOf k.val)
  | .lifeStarts k => lifeShown s (cntOf (8 + k.val))
  | .lifeLeaps k => lifeShown s (cntOf (16 + k.val))
  | .lifeHours => lifeShown s (cntOf 24)
  | .lifeTrips t => lifeShown s (cntOf (25 + t.val))
  | .jrnStat => word (at_ s.jrn.ring.length 11 0 + at_ (pinnedCount s) 7 11 + atB s.jrn.ovr 18)
  | .jrnCnt => word (at_ s.jrn.ovrCnt 16 0 + at_ s.jrn.pinOvf 8 16)
  | .jrnSeq => word s.ka.nextSeq.toNat
  | .jrnHstat => word (at_ (availOf s h) 11 0 + at_ me.skipped 16 16)
  | .jrnE j => bufWord s h j.val
  | .xmStat => word (atB s.xm.present 0 + atB s.xm.stall 1 + atB s.xm.jready 2 + atB s.xm.jdis 3 + atB s.xm.rdis 4 + atB s.xm.jfmt 5
      + at_ (credits s) 3 8 + at_ s.xm.stallCnt 8 16 + at_ s.xm.dens 8 24)
  | .xmJhead => word (if s.xm.jready then at_ s.xm.head 19 0 + 2 ^ 31 else 0)
  | .xmIdx => me.xmIdx
  | .xmHstat => word (atB me.xmHeld.isSome 0)
  | .xmData i => xmDataWord s h i.val
  | .recStat => word (recStateCode s.rcd.state + atB s.rcd.trunc 2 + atB s.rcd.corrupt 3 + at_ (quotFree (recHeld s) 8).toNat 14 16)
  | .recCnt => word (at_ s.rcd.captures 16 0 + at_ s.rcd.missed 8 16 + at_ s.rcd.truncCnt 8 24)
  | .recLast => word (at_ s.rcd.lastSector 14 0 + at_ s.rcd.lastNum 16 16)
  | .recBidx => me.recBidx
  | .recBdata => recBdata s h
  | .nvmStat => word (atB (s.nvm.op.isSome || s.pwr.pfCommitted) 0 + atB s.nvm.pfSkip 1 + atB s.nvm.resLost 2 + at_ s.nvm.scan 9 4 + at_ (sparesLeft s) 6 16)
  | .nvmHost => word (nvmHostCode s.nvm.hostState + at_ s.nvm.hostResult 3 4 + atB s.nvm.hostB 7 + at_ s.nvm.bufPage 9 16 + atB s.nvm.bufValid 25)
  | .nvmIdx => me.nvmIdx
  | .nvmData => nvmDataWord s h
  | .nvmQstat => word (at_ (nvmFill s.nvm) 5 0 + atB (s.nvm.queue.any jobCritical) 5 + at_ s.nvm.fullCnt 8 8)
  | .nvmCnt => word (at_ s.nvm.refreshCnt 8 0 + at_ s.nvm.vfailCnt 8 8 + at_ s.nvm.eqseqCnt 8 16 + at_ s.nvm.recLost 8 24)
  | .nvmRec i =>
    let q := s.nvm.recs.get i
    word (at_ q.seq.toNat 16 0 + atB q.valid0 16 + atB q.valid1 17 + atB q.used 18 + atB q.present 19 + atB q.erased 20 + atB q.eq 21)
  | .cntStat c =>
    let q := s.cnt c
    word (at_ q.u 6 0 + at_ q.page 9 6 + at_ q.g.toNat 17 15)
  | .bootStat => word (srcCode s.ldr.src + atB s.ldr.slotB 2 + atB s.ldr.fallback 3 + bootselCode s.ldr.bootsel * 16 + atB s.ldr.classLock 6
      + atB s.ldr.classChg 7 + at_ s.ldr.reasonA 4 8 + at_ s.ldr.reasonB 4 12 + at_ s.ldr.arbCnt 8 16 + at_ s.ldr.bootT 8 24)
  | .bootGen => if s.pwr.phase = .safeIdle then 0 else s.ldr.gen
  | .imgId0 => if s.pwr.phase = .safeIdle then 0 else word (s.ldr.imageId.toNat / 2 ^ 32)
  | .imgId1 => if s.pwr.phase = .safeIdle then 0 else word s.ldr.imageId.toNat
  | .imgStat => word (replCode s.ldr.repl + at_ s.ldr.result 4 4 + atB s.ldr.tgtB 8 + srcCode s.ldr.tgtSrc * 512)
  | .imgProg => word (at_ s.ldr.offset 16 0 + at_ (replFree s) 10 16)
  | .kaStat => word (atB s.ka.src 0 + atB s.ka.srcGood 1 + atB s.ka.onCell 2 + atB s.ka.retOk 3 + at_ s.ka.absCnt 8 8 + at_ s.ka.lastAbs 16 16)
  | .rtc0 => word (rtcSec s).toNat
  | .rtc1 => b.rtc1
  | .rtcSet0 => s.ka.set0
  | .rtcSet1 => s.ka.set1
  | .rtcCal => word s.ka.trim.toNat
  | .chgCfg => s.ka.chg.cfg
  | .chgNtc => s.ka.chg.ntc
  | .chgStat =>
    let c := s.ka.chg
    word (chargerCode c.state + atB c.cv 3 + at_ c.fcause 2 4 + atB c.paused 6 + atB (decide (c.frac < 256)) 7 + at_ c.frac 9 8
      + atB c.ntcFault 17 + c.iout.toNat * 16777216)
  | .chgTmr => word (at_ (s.ka.chg.preTmr / 1024) 12 0 + at_ (s.ka.chg.fullTmr / 1024) 16 16)
  | .kaMon => word (s.ka.vcell.toNat + s.ka.ntc.toNat * 8192 + atI (s.ka.tj + 64) 8 24)
  | .brumStat => word (atB s.ka.armed 0 + atB s.ka.ended 1 + at_ s.ka.endCause 2 2)
  | .mapIdx => me.mapIdx
  | .mapData => mapDataWord s h
  | .mapEcc => word (at_ s.map.sbe 16 0 + at_ s.map.dbe 8 16 + atB s.map.dbeFlag 24 + atB s.map.rdErr 25)
  | .mapBad => word (at_ s.map.badWord 12 0 + atB s.map.badValid 12)
  | .bistStat => word (atB s.test.busy 0 + atB s.test.fail 1 + at_ s.test.failCh 8 8 + at_ s.test.runs 16 16)
  | .eccCnt => word (at_ s.test.sbeRing 8 0 + at_ s.test.sbeRec 8 8 + at_ s.test.sbeImg 8 16 + at_ s.test.dbe 8 24)
  | .syncCfg | .evCfg _ | .svcCfg | .drawCfg | .drawCost | .linkCfg | .linkAuth | .linkRail _ | .hkCfg | .tsdCfg | .telCfg | .xmCfg
  | .xmJrg | .xmRrg | .recCfg | .recPost | .recCh _ | .mapRegion _ | .mapVbin _ | .mapIbin _ | .mapTbin _ | .scrub => setWord s r
  | .pwrCmd | .rstCmd | .svcCtl | .hkCtl | .telCtl | .jrnHctl | .recCtl | .nvmCmd | .imgCtl | .imgData | .chgCtl | .brumCtl | .bistCmd => 0

/-- A read of a register: 0 where its block does not work at present (R30, R37, R478). -/
def readReg (s : State) (h : HostId) (r : Reg) : Word := if regLive s r then readAny s h r else 0

/-- A read of an address: 0 where it is unmapped (R35). -/
def readAddr (s : State) (h : HostId) (a : Nat) : Word := match decodeAddr a with | some r => readReg s h r | none => 0

end Sys2Proof.Machine
end

