-- ==== Sys2Proof/Machine/Bus.lean ====
section
/-! DEFINITION. The management bus: what one written word does, what a clearing read commits, the claim and the heartbeats, and
transactions with and without a packet error code (R398 to R428). -/

namespace Sys2Proof.Machine

/-! ### The host classes (R415 to R418) -/

/-- Registers that either host may write without the claim: its own heartbeat, CLAIM, its own index registers, TEL_CTL and EV_LATCH. -/
def freeOfClaim (h : HostId) (r : Reg) : Bool :=
  match r with
  | .hbA => h == .a
  | .hbB => h == .b
  | .claim | .mapIdx | .evDidx | .nvmIdx | .xmIdx | .recBidx | .jrnHctl | .telCtl | .evLatch _ => true
  | .loop _ .coefIdx => true
  | _ => false

/-- A write of address a is refused for want of the claim: counted twice, event 137 (R415, R418). -/
def claimRefuse (h : HostId) (a : Nat) (s : State) : State :=
  occur 137 (word (hostCode h + a * 65536)) ((refuse h s).modHost h fun r => { r with claimCnt := satInc r.claimCnt 65535 })

/-- The claim changes its owner: counted and journaled; a replacement in progress is aborted (R418, R486). -/
def setOwner (o : Option HostId) (e detail : Nat) (s : State) : State :=
  replAbort (occur e (word detail) { s with bus := { s.bus with owner := o, chgCnt := satInc s.bus.chgCnt 255 } })

/-- A write of CLAIM (R418). -/
def claimWrite (h : HostId) (data : Word) (s : State) : State :=
  if fld data 9 8 = 1 then
    match s.bus.owner with
    | none => setOwner (some h) 132 (hostCode h) s
    | some o =>
      if o = h then s
      else if (s.host o).alive = false then setOwner (some h) 133 (hostCode h) s
      else if armOpen s then setOwner (some h) 133 (hostCode h + 2) s
      else claimRefuse h Reg.claim.addr s
  else if s.bus.owner = some h then setOwner none 134 (hostCode h) s
  else refuse h s

/-- A heartbeat register is written by its own host; the other host's write is refused (R417). -/
def hbWrite (h whose : HostId) (data : Word) (s : State) : State :=
  if h = whose then
    setFallback false (s.modHost h fun r => { r with hbCount := BitVec.ofNat 8 data.toNat, hbAt := some s.now, alive := true })
  else refuse h s

/-- BUS_CFG.HOST_WDT, ms; SAFE-IDLE has no image and with it none. -/
def hostWdt (s : State) : Nat := fld (setWord s .busCfg) 31 16

/-- HEARTBEAT_LAPSE: no refreshing write for more than HOST_WDT ms (R417); fall-back may begin (R446). -/
def heartbeatLapse (whose : HostId) (s : State) : State :=
  let r := s.host whose
  match r.hbAt with
  | none => s
  | some t =>
    if coreOn s && r.alive && hostWdt s != 0 && decide (t + ms (hostWdt s) < s.now) then
      let s := s.modHost whose fun r => { r with alive := false }
      let s := occur (match whose with | .a => 135 | .b => 136) (word (atB (s.bus.owner == some whose) 0)) s
      if s.bus.hostA.alive || s.bus.hostB.alive then s else setFallback true s
    else s

/-! ### Access codes of one word (R6 to R8) -/

/-- IMG bits of a register; those of CH_CFG differ by channel (R341). -/
def imgBits (r : Reg) : Nat :=
  match r with
  | .chCfg c => imageMask (.chCfg c)
  | r => r.access.img

/-- IMG bits that the image marks run-time writable (R6, R473). -/
def rtBits (s : State) (r : Reg) : Nat := if s.ldr.rtMarks.contains r.addr then imgBits r else 0

/-- RWA bits that a service arm opens at present; SNS_CAL also needs its rail OFF or SAFE (R89). -/
def armBits (s : State) (r : Reg) : Nat :=
  if armOpen s then
    match r with
    | .loop k .snsCal => if railSt s k = .off ∨ railSt s k = .safe then r.access.rwa else 0
    | r => r.access.rwa
  else 0

/-- Bits that a write may change at present. -/
def openBits (s : State) (r : Reg) : Nat := r.access.rw ||| rtBits s r ||| armBits s r

/-- IMG and RWA bits that it may not change: a write that tries to is refused and counted (R7). -/
def lockedBits (s : State) (r : Reg) : Nat := (imgBits r ||| r.access.rwa) &&& ((2 ^ 32 - 1) ^^^ openBits s r)

/-- The stored word that a plain write changes. -/
def heldWord (s : State) (r : Reg) : Word :=
  match r with
  | .chgCfg => s.ka.chg.cfg
  | .chgNtc => s.ka.chg.ntc
  | .rtcCal => word s.ka.trim.toNat
  | .rtcSet0 => s.ka.set0
  | .bootStat => word (atB s.ldr.classChg 7)
  | r => setWord s r

/-- The word that the fields would hold after the write, for the judgement of R8. -/
def candidate (s : State) (r : Reg) (data : Word) : Word :=
  merge (heldWord s r) data (word (imgBits r ||| r.access.rw ||| r.access.rwa ||| r.access.wo))

/-- The start dependency is judged anew under the written SEQ_DLY and START_DEP, from the assertion of that rail's PGOOD (R255). -/
def seqRewrite (k : RailId) (old : Word) (s : State) : State :=
  let d := (s.rail (startDep s k)).seq
  let same := decide (fld old 7 4 = fld (loopW s k .seq) 7 4)
  let due := decide (d.pgoodAt + us (10 * seqDly s k) ≤ s.now)
  s.modSeq k fun q =>
    { q with depFrom := if sdepEn s k && d.pgood then some d.pgoodAt else none, depMet := q.depMet && same && due }

/-- SEQ is written: LENk is judged under its new settings (R254), and stops that its STOP_DEP held back begin (R255). -/
def seqWrite (k : RailId) (w : Word) (s : State) : State :=
  let was := lenActive s k
  resumeStops occur (lenJudge k was (seqRewrite k (loopW s k .seq) (putWord s (.loop k .seq) w)))

/-- REGION is written: with EN = 0 the rail's safe entry becomes its present entry (R195). -/
def regionWrite (k : RailId) (w : Word) (s : State) : State :=
  let was := rgEn s k
  let s := putWord s (.mapRegion k) w
  if was && !rgEn s k then takeEntry k (safeEntry s k) (s.modMo k fun m => { m with safe := false }) else s

/-- LIMIT is written: the limits that follow the duty ceiling, and a throttling that begins with it (R113, R278). -/
def limitWrite (k : RailId) (w : Word) (s : State) : State :=
  let was := throttles s k
  throttleBegin k was (feedforward k (putWord s (.loop k .limit) w))

/-- A setting of a tile waits for the tile's next valley (R55). -/
def settingWrite (t : TileId) (x : TileSetting) (r : TileReg) (w : Word) (s : State) : State :=
  (putWord s (.tile t r) w).modTile t fun ti => { ti with setWait := ti.setWait ++ [(x, w, nowI s)] }

/-- ALERT_N, where it is low, stays low to the end of this cycle, whatever the write clears (R385, R386). -/
def holdAlert (s : State) : State := if alerts s then { s with ev := { s.ev with alertCyc := some (cycleOf s) } } else s

/-- The word is stored, and what follows from its change at once. -/
def storeWord (r : Reg) (w : Word) (s : State) : State :=
  match r with
  | .loop k .ff => feedforward k (putWord s r w)
  | .loop k .limit => limitWrite k w s
  | .loop k .seq => seqWrite k w s
  | .loop k .syncLoop => lockOff k (putWord s r w)
  | .syncCfg => syncInOff (putWord s r w)
  | .mapRegion k => regionWrite k w s
  | .tile t .cfg => settingWrite t .cfg .cfg w s
  | .tile t .deadtime => settingWrite t .deadtime .deadtime w s
  | .tile t .minp => settingWrite t .minp .minp w s
  | .tile t .tblank => settingWrite t .tblank .tblank w s
  | .linkCfg => linkCfgSet w s
  | .chgCfg => { (putWord s r w) with ka := { s.ka with chg := s.ka.chg.load w s.ka.chg.ntc } }
  | .chgNtc => { (putWord s r w) with ka := { s.ka with chg := s.ka.chg.load s.ka.chg.cfg w } }
  | .rtcCal => { s with ka := { s.ka with trim := BitVec.ofNat 8 w.toNat } }
  | .rtcSet0 => { s with ka := { s.ka with set0 := w } }
  | .evCfg _ => putWord (holdAlert s) r w
  | .bootStat =>
    if s.ldr.classChg = bitOf w 7 then s else fsumChanged { s with ldr := { s.ldr with classChg := bitOf w 7 } }
  | r => putWord s r w

/-- A latch bit that a W1C write finds in the cycle of an occurrence that has set it stays (R386). -/
def latchedNow (s : State) (e : Nat) (x : EventSource) : Bool := x.cycle == some (cycleOf s) && evEn s e && evLatchEn s e

/-- The W1C bits of a written word clear their flags. -/
def clearW1c (r : Reg) (d : Word) (s : State) : State :=
  let b (i : Nat) (flag : Bool) : Bool := flag && !bitOf d i
  match r with
  | .loop k .updStat => s.modEng k fun e => { e with ffSat := b 17 e.ffSat, swRefused := b 18 e.swRefused }
  | .loop k .railFault => s.modProt k fun p => { p with fault := p.fault &&& ~~~(BitVec.ofNat 7 d.toNat) }
  | .loop k .snsStat => s.modFe k fun f => { f with stat := f.stat &&& ~~~(BitVec.ofNat 6 d.toNat) }
  | .loop k .leapStat => s.modLeap k fun l => { l with tmaxHit := b 26 l.tmaxHit }
  | .tile t .reloadStat => s.modTile t fun ti => { ti with st := { ti.st with late := b 16 ti.st.late } }
  | .tile t .fault => s.modTile t fun ti => { ti with prot := { ti.prot with fault := ti.prot.fault &&& ~~~(BitVec.ofNat 8 d.toNat) } }
  | .supStat => { s with pwr := { s.pwr with dip := b 1 s.pwr.dip, pf := b 2 s.pwr.pf } }
  | .syncStat => { s with sync := { s.sync with lost := b 1 s.sync.lost, range := b 2 s.sync.range } }
  | .evLatch i =>
    let s := holdAlert s
    { s with ev := { s.ev with src := mapVec (fun e x =>
        if e / 32 = i.val ∧ bitOf d (e % 32) = true ∧ latchedNow s e x = false then { x with latch := false } else x) s.ev.src } }
  | .evQstat => { s with ev := { s.ev with ovf := b 24 s.ev.ovf } }
  | .sealStat => { s with ka := { s.ka with sealRec := { s.ka.sealRec with unmon := b 2 s.ka.sealRec.unmon, lost := b 3 s.ka.sealRec.lost } } }
  | .busStat => { s with bus := { s.bus with stat := s.bus.stat &&& ~~~(BitVec.ofNat 4 (d.toNat / 2)) } }
  | .hkStat => { s with hk := { s.hk with tsdLatch := b 21 s.hk.tsdLatch, xchkSkip := b 23 s.hk.xchkSkip } }
  | .jrnStat => { s with jrn := { s.jrn with ovr := b 18 s.jrn.ovr } }
  | .xmStat => { s with xm := { s.xm with jfmt := b 5 s.xm.jfmt } }
  | .nvmStat => { s with nvm := { s.nvm with pfSkip := b 1 s.nvm.pfSkip, resLost := b 2 s.nvm.resLost } }
  | .brumStat => if bitOf d 1 then { s with ka := { s.ka with ended := false, endCause := 0 } } else s
  | .mapEcc => { s with map := { s.map with dbeFlag := b 24 s.map.dbeFlag, rdErr := b 25 s.map.rdErr } }
  | .bistStat => { s with test := { s.test with fail := b 1 s.test.fail } }
  | _ => s

/-- A write without a handler of its own: W1C bits, open fields, and one refusal where it tries to change a locked field (R6, R7). -/
def plainWrite (h : HostId) (r : Reg) (data : Word) (s : State) : State :=
  let old := heldWord s r
  let opened := openBits s r
  let bad := (old ^^^ data) &&& word (lockedBits s r)
  let s := clearW1c r data s
  let s := if opened = 0 then s else storeWord r (merge old data (word opened)) s
  if bad = 0 then s else refuse h s

/-! ### Registers whose write does more -/

/-- TARGET: authority HOST, and TMIN to TMAX (R124). -/
def targetWrite (h : HostId) (k : RailId) (data : Word) (s : State) : State :=
  let v := fld data 15 0
  if linkAuth s k || decide (v < tMin s k) || decide (tMax s k < v) then refuse h s else takeTarget k v false s

/-- COEF_DATA (R121, R140, R141). -/
def coefDataWrite (h : HostId) (k : RailId) (data : Word) (s : State) : State :=
  let set := coefIdxSet (coefIdxOf s h k)
  let wd := coefIdxWord (coefIdxOf s h k)
  let e := (s.rail k).eng
  let v := data &&& 0xFFFFFF#32
  if s.ldr.coefRt.getLsbD k.val && e.setAct != set && e.setPend != some set && coefOk wd v then
    { s with coef := Store.set 0 s.coef (coefKey k set wd) v }
  else refuse h s

/-- The rail that owns a map index: by its region, its frequency table or its safe entry (R175, R177). -/
def mapOwner (s : State) (i : Nat) : Option RailId :=
  if i < 0x4000 then
    allRails.find? fun k => rgEn s k && decide (rgBase s k ≤ i) && decide (i < rgBase s k + rgNv s k * rgNi s k * rgNt s k)
  else if i < 0x4080 then some (railOf ((i - 0x4000) / 16))
  else some (railOf (i - 0x4080))

/-- The value may stand at a map index: no reserved encoding, and a PRD keeps R48 for every tile of its rail (R177, R178, R197). On a
rail with LOCK_EN = 1 it keeps R48 at PRD_T too, which the manual asks of the image alone (log 143). -/
def mapValueOk (s : State) (i : Nat) (w : Word) : Bool :=
  if i < 0x4000 ∨ 0x4080 ≤ i then entryOk w
  else
    let k := railOf ((i - 0x4000) / 16)
    prdOk w && (tilesOf s k).all fun t =>
      prdFits (tileW s t .deadtime) (tileW s t .minp) w.toNat
        && (!lockEn s k || prdFits (tileW s t .deadtime) (tileW s t .minp) (prdTracked w.toNat))

/-- The safe entry of a rail has been written: where it is the rail's present entry, that is the new one (R194, R195). -/
def safeEntryStored (i : Nat) (s : State) : State :=
  if 0x4080 ≤ i then
    let k := railOf (i - 0x4080)
    if (s.rail k).mo.safe || !rgEn s k then takeEntry k (safeEntry s k) s else s
  else s

/-- MAP_DATA (R197). A rail that rests takes a word of its present map entry with its next lookup (log 173). -/
def mapDataStore (h : HostId) (data : Word) (s : State) : State :=
  let i := mapIdxOf s h
  let free := match mapOwner s i with | none => true | some k => railSt s k == .off || railSt s k == .safe
  if s.ldr.mapRt && armOpen s && decide (i ≤ 0x4087) && free && mapValueOk s i data && !s.map.bad.contains (mapWord i) then
    safeEntryStored i { s with map := { s.map with mem := Store.set 0 s.map.mem i data } }
  else refuse h s

/-- The half-period at which R48 judges a tile's setting: PRD_T of the programmed PRD on a rail with LOCK_EN = 1 (R161), else the
present PRD (R55). -/
def judgedPrd (s : State) (t : TileId) : Nat :=
  match (s.tile t).rail with
  | some k => if lockEn s k then prdTracked (progPrd s k) else (s.tile t).car.prd
  | none => (s.tile t).car.prd

/-- DEADTIME or MINP that would break R48 is refused (R55, R161). -/
def tileTimingOk (s : State) (t : TileId) (r : TileReg) (data : Word) : Bool :=
  let dead := if r = .deadtime then candidate s (.tile t .deadtime) data else tileW s t .deadtime
  let mp := if r = .minp then candidate s (.tile t .minp) data else tileW s t .minp
  judgedPrd s t == 0 || prdFits dead mp (judgedPrd s t)

/-- RESP_TILE classes a trip of the tile as a class fault (R61). -/
def tripIsClass (s : State) (t : TileId) : Bool := match (s.tile t).rail with | some k => respClass (loopW s k .respTile) 0 | none => false

/-- TRIP_STAT.LATCH (R61): refused while the trip input is active, or for a class fault without an arm. -/
def tripLatchWrite (h : HostId) (t : TileId) (data : Word) (s : State) : State :=
  let ti := s.tile t
  if bitOf data 16 && ti.trip.latch then
    if ti.trip.active || (tripIsClass s t && !armOpen s) then refuse h s
    else s.modTile t fun ti => { ti with trip := { ti.trip with latch := false, fired := false, resume := true } }
  else s

/-- A CLASS_CLR bit: cause bits clear first, then the class bits that have none; without an arm it is refused (R271, R306, R312). -/
def classClear (h : HostId) (r : Reg) (bit : Nat) (clear : State → State) (data : Word) (s : State) : State :=
  let s := clearW1c r data s
  if bitOf data bit then (if armOpen s then clear s else refuse h s) else s

/-- SNS_CAL: outside a service arm, or with the rail neither OFF nor SAFE, every write is refused (R89). -/
def snsCalWrite (h : HostId) (k : RailId) (data : Word) (s : State) : State :=
  if armBits s (.loop k .snsCal) = 0 then refuse h s else plainWrite h (.loop k .snsCal) data s

/-- HK_CTL.XCHK_REQ: every rail OFF, SAFE or HICCUP (R333). -/
def xchkWrite (h : HostId) (data : Word) (s : State) : State :=
  if bitOf data 0 then
    if allRails.all fun k => railOut (railSt s k) then { s with hk := { s.hk with xchkNext := BitVec.allOnes 36 } } else refuse h s
  else s

/-- PWR_CMD.REQ (R367). -/
def powerOf (n : Nat) : Power := match n with | 0 => .standby | 1 => .ready | 2 => .run | _ => .keepalive

/-- JRN_HCTL.MOVE (R552). -/
def jrnMove (h : HostId) (data : Word) (s : State) : State :=
  match fld data 1 0 with
  | 1 => moveOldest h s
  | 2 => moveNewest h s
  | _ => refuse h s

/-- The effect of a written word whose host, block and encodings have been judged. `answers`: what a BEGIN meets at its target (R483). -/
def writeReg (answers : Bool) (h : HostId) (r : Reg) (data : Word) (s : State) : State :=
  match r with
  | .loop k .cmd => writeCmd h k data s
  | .loop k .target => targetWrite h k data s
  | .loop k .cset => requestSet k (setSource s k) (putWord s r (data &&& 0x1F0000#32))
  | .loop k .snsCal => snsCalWrite h k data s
  | .loop k .coefIdx => s.modHost h fun x => { x with coefIdx := modVec x.coefIdx k fun _ => data &&& 0x1F7#32 }
  | .loop k .coefData => coefDataWrite h k data s
  | .loop k .railFault => classClear h r 31 (clearRailClass h k) data s
  | .loop k .snsStat => let s := clearW1c r data s; if bitOf data 31 then autozeroAsk h k s else s
  | .tile t .fault => classClear h r 15 (clearTileClass h t) data s
  | .tile t .tripStat => tripLatchWrite h t data s
  | .tile t .admission => admitWrite h t (BitVec.ofNat 16 data.toNat) (fld data 17 16) s
  | .tile t .deadtime => if tileTimingOk s t .deadtime data then plainWrite h r data s else refuse h s
  | .tile t .minp => if tileTimingOk s t .minp data then plainWrite h r data s else refuse h s
  | .pwrCmd => pwrCmd h (powerOf (fld data 1 0)) (bitOf data 2) s
  | .domCtl => domCtlWrite h data s
  | .rstCmd => rstCmdWrite h data s
  | .svcCtl => svcCtlWrite data s
  | .claim => claimWrite h data s
  | .hbA => hbWrite h .a data s
  | .hbB => hbWrite h .b data s
  | .linkAuth => linkAuthSet data s
  | .hkCtl => xchkWrite h data s
  | .telCtl => if bitOf data 0 then clearPeaks s else s
  | .evDidx => s.modHost h fun x => { x with evDidx := data &&& 0x1FF#32 }
  | .mapIdx => s.modHost h fun x => { x with mapIdx := data &&& 0x17FFF#32 }
  | .recBidx => s.modHost h fun x => { x with recBidx := data &&& 0xFFFF#32 }
  | .nvmIdx => nvmIdxWrite h data s
  | .xmIdx => xmIdxWrite h data s
  | .mapData => mapDataStore h data s
  | .nvmData => nvmDataWrite h data s
  | .nvmCmd => nvmCmd h (fld data 2 0) (fld data 6 4) s
  | .jrnHctl => jrnMove h data s
  | .recCtl => recCtl h (data &&& 0xF#32) s
  | .imgCtl => imgCtlWrite h data answers s
  | .imgData => imgData h data s
  | .rtcSet1 => rtcSet1Write h data s
  | .chgCtl => if bitOf data 0 then chgClear s else s
  | .brumCtl => brumCtlWrite h data s
  | .bistCmd => if bitOf data 0 then bistAsk h s else s
  | r => plainWrite h r data s

/-! ### Auto-increment (R409, R416) -/

/-- COEF_IDX steps on: word, then set (R139). -/
def coefStep (w : Word) : Word :=
  if bitOf w 8 then
    let n := (8 * coefIdxSet w + coefIdxWord w + 1) % 128
    word (n % 8 + n / 8 * 16 + 256)
  else w
/-- MAP_IDX steps on: after 0x7FFF follows 0 (R196). -/
def mapStep (w : Word) : Word := if bitOf w 16 then word ((fld w 14 0 + 1) % 0x8000 + 0x10000) else w
/-- EV_DIDX steps on: after 255 follows 0 (R397). -/
def evStep (w : Word) : Word := if bitOf w 8 then word ((fld w 7 0 + 1) % 256 + 256) else w

/-- The index of a data register advances after an access of host h, at its commit point. -/
def indexStep (h : HostId) (r : Reg) (s : State) : State :=
  match r with
  | .loop k .coefData => s.modHost h fun x => { x with coefIdx := modVec x.coefIdx k coefStep }
  | .mapData => s.modHost h fun x => { x with mapIdx := mapStep x.mapIdx }
  | .nvmData => nvmAdvance h s
  | _ => s

/-! ### One written word (R35, R37, R403, R415) -/

/-- A written word at its commit point: claim, address, block, encodings, and then its effect. -/
def busWord (answers : Bool) (h : HostId) (a : Nat) (data : Word) (s : State) : State :=
  if !coreOn s then s
  else
    match decodeAddr a with
    | none => if s.bus.owner = some h then refuse h s else claimRefuse h a s
    | some r =>
      indexStep h r
        (if !freeOfClaim h r && s.bus.owner != some h then claimRefuse h a s
         else if regLive s r && encOk s.settings r (candidate s r data) then writeReg answers h r data s
         else refuse h s)

/-! ### What a read commits (R409) -/

def State.modEvSrc (s : State) (e : Nat) (f : EventSource → EventSource) : State :=
  { s with ev := { s.ev with src := modVec s.ev.src (finOf 256 (by decide) e) f } }

/-- RC fields of a register clear, and indexes, pointers and buffers that its read moves. -/
def readCommit (h : HostId) (r : Reg) (s : State) : State :=
  match r with
  | .loop k .updStat => s.modEng k fun e => { e with satCnt := 0, swCnt := 0 }
  | .loop k .faultCnt => s.modProt k fun p => { p with cntOv := 0, cntUv := 0, cntOcr := 0, cntThr := 0 }
  | .loop k .leapCnt => s.modLeap k fun l => { l with cntLeap := 0, cntBack := 0, cntMissed := 0 }
  | .loop k .ilvCnt => s.modIlv k fun i => { i with rotCnt := 0, abortCnt := 0 }
  | .loop k .moultStat => s.modMo k fun m => { m with adds := 0, sheds := 0 }
  | .tile t .reloadStat => s.modTile t fun ti => { ti with st := { ti.st with lateCnt := 0 } }
  | .tile t .tripStat => s.modTile t fun ti => { ti with trip := { ti.trip with count := 0 } }
  | .tile t .filterStat => s.modTile t fun ti => { ti with st := { ti.st with hsDrop := 0, hsStr := 0, lsDrop := 0, lsStr := 0 } }
  | .tile t .fault => s.modTile t fun ti => { ti with prot := { ti.prot with ocCount := 0 } }
  | .tile t .req => s.modTile t fun ti => { ti with cref := 0 }
  | .supStat => { s with pwr := { s.pwr with dipCnt := 0 } }
  | .syncStat => { s with sync := { s.sync with lossCnt := 0 } }
  | .evQstat => { s with ev := { s.ev with ovfCnt := 0 } }
  | .evDcnt =>
    (s.modEvSrc (fld (s.host h).evDidx 7 0) fun x => { x with count := 0 }).modHost h fun x => { x with evDidx := evStep x.evDidx }
  | .svcStat => { s with ka := { s.ka with armCnt := 0 } }
  | .drawWait => { s with draw := { s.draw with longCnt := 0, preemptCnt := 0 } }
  | .claim => { s with bus := { s.bus with chgCnt := 0 } }
  | .refusedA => s.modHost .a fun x => { x with refCnt := 0, claimCnt := 0 }
  | .refusedB => s.modHost .b fun x => { x with refCnt := 0, claimCnt := 0 }
  | .errCnt => { s with bus := { s.bus with protoCnt := 0, pecCnt := 0, toutCnt := 0, relCnt := 0 } }
  | .linkErr => { s with link := { s.link with crcCnt := 0, frmCnt := 0, dupCnt := 0, sovfCnt := 0 } }
  | .linkCnt => { s with link := { s.link with rxCnt := 0, refCnt := 0 } }
  | .telStat => { s with tel := { s.tel with skip := 0 } }
  | .trVpeak k => s.modRailPeaks k fun p => { p with v := p.v.clear }
  | .trCpeak k => s.modRailPeaks k fun p => { p with i := p.i.clear }
  | .trPpeak k => s.modRailPeaks k fun p => { p with p := p.p.clear }
  | .trTemp k => s.modRailPeaks k fun p => { p with t := p.t.clear }
  | .ttCpeak t => s.modTilePeaks t fun p => { p with i := p.i.clear }
  | .ttTemp t => s.modTilePeaks t fun p => { p with t := p.t.clear }
  | .jrnCnt => { s with jrn := { s.jrn with ovrCnt := 0, pinOvf := 0 } }
  | .jrnHstat => s.modHost h fun x => { x with skipped := 0 }
  | .jrnE j => if j = 7 then popEntry h s else s
  | .xmStat => { s with xm := { s.xm with stallCnt := 0 } }
  | .xmData i => if i = 15 then xmAdvance h s else s
  | .recCnt => { s with rcd := { s.rcd with captures := 0, missed := 0, truncCnt := 0 } }
  | .recBdata => s.modHost h fun x => { x with recBidx := word ((fld x.recBidx 15 0 + 4) % 65536) }
  | .nvmQstat => { s with nvm := { s.nvm with fullCnt := 0 } }
  | .nvmCnt => { s with nvm := { s.nvm with refreshCnt := 0, vfailCnt := 0, eqseqCnt := 0, recLost := 0 } }
  | .kaStat => { s with ka := { s.ka with absCnt := 0 } }
  | .mapEcc => { s with map := { s.map with sbe := 0, dbe := 0 } }
  | .bistStat => { s with test := { s.test with runs := 0 } }
  | .eccCnt => { s with test := { s.test with sbeRing := 0, sbeRec := 0, sbeImg := 0, dbe := 0 } }
  | r => indexStep h r s

/-- The ring words of the entry at the pointer of host h are read (R33). -/
def checkEntry (h : HostId) (ecc : Ecc) (s : State) : State :=
  match nextUnread s h with
  | none => s
  | some e => checkRing e.no ecc s

/-- The frozen frames are read at the offset of host h (R33); outside them no memory is read. -/
def checkFrames (h : HostId) (ecc : Ecc) (s : State) : State :=
  if fld (s.host h).recBidx 15 0 < (frozenFrames s).length then
    match ecc with | .ok => s | .single => recFixed s | .double => recError s
  else s

/-- What the sampling of a register does before its word is sent (R404, R409): the memory behind it is read, and RTC1 is latched. -/
def readSample (h : HostId) (ecc : Ecc) (r : Reg) (s : State) : State :=
  match r with
  | .mapData =>
    let i := mapIdxOf s h
    if 0x4087 < i then s
    else if 0x4000 ≤ i then readTableWord i ecc s
    else
      let s := readMapWord (mapWord i) ecc s
      if s.map.bad.contains (mapWord i) then { s with map := { s.map with rdErr := true } } else s
  | .loop k .coefData => match ecc with | .ok => s | .single => shadowFixed s | .double => shadowError (· == k) s
  | .jrnE j => if j = 0 then loadEntry h (checkEntry h ecc s) else s
  | .recBdata => checkFrames h ecc s
  | .rtc0 => { s with bus := { s.bus with rtc1 := rtc1Word s } }
  | _ => s

/-- The word sent comes from a word of the image shadow or of the recorder buffer whose double-bit error leaves it open (log 18). -/
def sentOpen (s : State) (h : HostId) (ecc : Ecc) (r : Reg) : Bool :=
  ecc == .double &&
    match r with
    | .mapData => decide (0x4000 ≤ mapIdxOf s h) && decide (mapIdxOf s h ≤ 0x4087)
    | .loop _ .coefData => true
    | .recBdata => decide (fld (s.host h).recBidx 15 0 < (frozenFrames s).length)
    | _ => false

/-! ### Transactions (R401, R402, R406 to R414) -/

/-- The bus target answers its addresses from the end of boot step 1 (R30): while it holds MSCL low for a commit, neither host can use the bus (R412). -/
def busAnswers (s : State) : Bool := pastStep1 s && s.bus.holdFrom.isNone

/-- Every transaction carries LEN and a code (R406). -/
def pecOn (s : State) : Bool := s.pwr.phase == .up && bitOf (setWord s .busCfg) 3

/-- The transaction carries a code, as its START settled it; one that has addressed no register takes the present setting (R406). -/
def coded (s : State) : Bool := if s.bus.txn.isSome then s.bus.shape.coded else pecOn s

/-- Data bytes, a code byte among them, that a transaction moves before each further byte makes a protocol error; 0: a coded write before
its code byte (R403, R404, R407). -/
def mostBytes (s : State) (write : Bool) : Nat := if coded s then (if write then s.bus.codeAt else 65) else 64

/-- The telemetry block (R34). -/
def inTelemetry (a : Nat) : Bool := decide (0x4000 ≤ a) && decide (a < 0x5000)

/-- The address pointer of host h stands at a (R402). -/
def pointTo (h : HostId) (a : Nat) (s : State) : State := s.modHost h fun r => { r with ptr := BitVec.ofNat 16 a }

/-- An access of `n` registers from address a by host h: its pointer is set, and the transaction is open with the form that it takes at
its START (R402, R406, R378). -/
def addressPhase (h : HostId) (a n : Nat) (s : State) : State :=
  let tel := inTelemetry a || (decide (0 < n) && inTelemetry (a + 4 * (n - 1)))
  let was := match s.bus.txn with | some (x, b) => x == h && b | none => false
  let coded := pecOn s
  let s := pointTo h a s
  { s with bus := { s.bus with txn := some (h, was || tel), surplus := false, shape := { coded := coded, lead := if coded then 4 else 3 } } }

/-- A word goes out on the bus. -/
def sendWord (w : Word) (s : State) : State := { s with bus := { s.bus with sent := s.bus.sent ++ [w] } }

/-- One register at address a is sampled and sent to host h; with its fourth byte acknowledged the read commits, and the pointer
advances (R402, R404, R409). -/
def readOne (h : HostId) (a : Nat) (ecc : Ecc) (whole : Bool) (s : State) : State :=
  match decodeAddr a with
  | none => let s := sendWord 0 s; if whole then pointTo h (a + 4) s else s
  | some r =>
    if regLive s r && coreOn s then
      let isOpen := sentOpen s h ecc r
      let s := readSample h ecc r s
      let s := if isOpen then sendWord (word s.drawFree.1) s.drawFree.2 else sendWord (readReg s h r) s
      if whole then pointTo h (a + 4) (readCommit h r s) else s
    else
      let s := sendWord (readReg s h r) s
      if whole then pointTo h (a + 4) (if coreOn s then indexStep h r s else s) else s

/-- Registers one after another, the address 4 further each time, each sampled in a cycle of its own (R401, R404). -/
def readWords (h : HostId) : Nat → Nat → Bool → List Ecc → State → State
  | 0, _, _, _, s => s
  | 1, a, whole, ecc, s => readOne h a (ecc.headD .ok) whole s
  | n + 2, a, whole, ecc, s =>
    readWords h (n + 1) ((a + 4) % 65536) whole ecc.tail (laterCycle (readOne h a (ecc.headD .ok) true s))

/-- The address byte of a write by host h (R399). -/
def writeByte (s : State) (h : HostId) : Nat := 2 * (0x20 + 2 * s.bus.maddr.toNat + hostCode h)

/-- The bytes of a read before its data (R402, R406): a read with a code has LEN among them, and a read without an address phase has the
address byte after S alone. -/
def readLead (s : State) (h : HostId) (acc : ReadAccess) : List Byte :=
  match acc.addr with
  | some a => [BitVec.ofNat 8 (writeByte s h), BitVec.ofNat 8 (a.toNat / 256), BitVec.ofNat 8 a.toNat]
      ++ (if pecOn s then [BitVec.ofNat 8 acc.len] else []) ++ [BitVec.ofNat 8 (writeByte s h + 1)]
  | none => [BitVec.ofNat 8 (writeByte s h + 1)]

/-- A protocol error is counted: event 128 with the byte position (R421). -/
def protoError (h : HostId) (position : Nat) (s : State) : State :=
  occur 128 (word (hostCode h + at_ position 8 8))
    { s with bus := { s.bus with protoCnt := satInc s.bus.protoCnt 255, stat := s.bus.stat ||| 1 } }

/-- The open transaction reads, with the bytes of `lead` before its data (R402, R406). -/
def openRead (lead : List Byte) (s : State) : State :=
  { s with bus := { s.bus with shape := { s.bus.shape with write := false, lead := lead.length } } }

/-- The first byte that the open transaction moves in vain makes its one protocol error (R403, R404, R407). -/
def surplusError (h : HostId) (position : Nat) (s : State) : State :=
  protoError h position { s with bus := { s.bus with surplus := true } }

/-- Registers that a read moves at most: LEN with a code, 1 without an address phase (R408); else as many as the host clocks in. -/
def readLen (s : State) (acc : ReadAccess) : Nat :=
  if pecOn s then (match acc.addr with | some _ => acc.len | none => 1) else acc.regs

/-- The host clocks a read past its 64 data bytes, and past the code byte that follows them where it carries one (R404, R408). -/
def readPast (s : State) (acc : ReadAccess) : Bool :=
  if pecOn s then readLen s acc == 16 && (decide (17 < acc.regs) || (acc.regs == 17 && acc.whole)) else decide (16 < acc.regs)

/-- Where a read begins: at its address, or at the pointer of its host (R402). -/
def readFrom (s : State) (h : HostId) (acc : ReadAccess) : Nat :=
  match acc.addr with | some a => a.toNat | none => (s.host h).ptr.toNat

/-- Register x is one of the n from address a on. -/
def reads (a n x : Nat) : Bool := (x + 65536 - a) % 4 == 0 && decide ((x + 65536 - a) % 65536 / 4 < n)

/-- A read of TRIP_STAT tells of the synchronised trip input of its tile (R71). -/
def showTrips (a n : Nat) (trips : BitVec 48) (s : State) : State :=
  if coreOn s then
    s.mapTiles fun t ti => if reads a n (Reg.addr (.tile t .tripStat)) then { ti with trip := { ti.trip with active := trips.getLsbD t.val } } else ti
  else s

/-- The registers of a read are sent; past the 16th SDA stays released, and one protocol error is counted (R404). With a code, it follows
the last of LEN (R408). -/
def readData (h : HostId) (acc : ReadAccess) (s : State) : State :=
  let n := min acc.regs (readLen s acc)
  let lead := readLead s h acc
  let a := readFrom s h acc
  let past := readPast s acc
  let last := acc.whole || decide (n < acc.regs) || decide (16 < n)
  let s := openRead lead (addressPhase h a (min n 16) (showTrips a (min n 16) acc.trips s))
  let s := readWords h (min n 16) a last acc.ecc { s with bus := { s.bus with nak := false, sent := [], sentCode := none } }
  let s := { s with bus := { s.bus with sent := s.bus.sent ++ List.replicate (n - 16) 0xFFFFFFFF#32 } }
  let s := if s.bus.shape.coded && last && readLen s acc == n then
    { s with bus := { s.bus with sentCode := some (BitVec.ofNat 8 (crc 8 0x07 0 (lead ++ s.bus.sent.flatMap fun w => beBytes 4 w.toNat))) } }
  else s
  if past then surplusError h (s.bus.shape.lead + mostBytes s false + 1) s else s

/-- A read transaction of host h; a LEN above 16 is answered N (R405). -/
def busRead (h : HostId) (acc : ReadAccess) (s : State) : State :=
  if !busAnswers s then s
  else if pecOn s && acc.addr.isSome && decide (16 < acc.len) then
    let s := openRead (readLead s h acc) (addressPhase h (readFrom s h acc) 0 s)
    { s with bus := { s.bus with nak := true, sent := [], sentCode := none } }
  else readData h acc s

/-- One register written by host h in a transaction of its own word, its code right where it carries one. -/
def busWrite1 (answers : Bool) (h : HostId) (a : Nat) (data : Word) (s : State) : State :=
  if !busAnswers s then s
  else
    let s := addressPhase h a 1 s
    let s := { s with bus := { s.bus with nak := false, codeAt := if pecOn s then 5 else 0 } }
    busWord answers h a data (pointTo h (a + 4) s)

/-- The words of a write without a code, each committed in a cycle of its own, the address 4 further each time; `left` of the
transaction's 16 are left, and the bytes after them are answered N and count one protocol error (R401, R403). What follows a word that
starts a commit waits until MSCL is released (R412), and a word that resets the device is the last. -/
def plainWords (h : HostId) : List Word → Nat → Nat → State → State
  | [], _, _, s => s
  | _ :: _, _, 0, s => surplusError h 68 { s with bus := { s.bus with nak := true } }
  | w :: ws, a, left + 1, s =>
    let s := busWord true h a w (pointTo h (a + 4) s)
    if ws = [] ∨ pastStep1 s = false then s
    else if s.bus.holdFrom.isSome then { s with bus := { s.bus with rest := some (h, (a + 4) % 65536, left, ws) } }
    else plainWords h ws ((a + 4) % 65536) left (laterCycle s)

/-- MSCL is released: a write that the commit held goes on (R412). -/
def afterHold (s : State) : State :=
  if s.bus.holdFrom.isSome then s
  else
    match s.bus.rest with
    | some (h, a, left, ws) => plainWords h ws a left (laterCycle { s with bus := { s.bus with rest := none } })
    | none => s

/-- The words of a write with a code, all committed at its code byte (R407). -/
def codedWords (h : HostId) : Nat → List Word → State → State
  | _, [], s => s
  | a, w :: ws, s =>
    if pastStep1 s then codedWords h ((a + 4) % 65536) ws (busWord true h a w (pointTo h (a + 4) s)) else s

/-- The packet error code of a write (R406): CRC-8, polynomial 0x07, over every byte before it. -/
def pecOf (s : State) (h : HostId) (a : Nat) (words : List Word) : Nat :=
  crc 8 0x07 0 ([BitVec.ofNat 8 (writeByte s h), BitVec.ofNat 8 (a / 256), BitVec.ofNat 8 a, BitVec.ofNat 8 words.length]
    ++ words.flatMap fun w => beBytes 4 w.toNat)

/-- A write without a code (R401, R403). -/
def writePlain (h : HostId) (a : Nat) (words : List Word) (s : State) : State :=
  let s := addressPhase h a (min words.length 16) s
  plainWords h words a 16 { s with bus := { s.bus with nak := false, codeAt := 0 } }

/-- A write with a code (R405 to R407): all its words commit at the code byte, if the code is right. -/
def writeCoded (h : HostId) (a : Nat) (words : List Word) (pec : Option Byte) (s : State) : State :=
  let s := addressPhase h a (min words.length 16) s
  if 16 < words.length then { s with bus := { s.bus with nak := true, codeAt := 0 } }
  else
    match pec with
    | none => { s with bus := { s.bus with nak := false, codeAt := 0 } }
    | some p =>
      let want := pecOf s h a words
      let at' := 4 * words.length + 1
      if p.toNat = want then codedWords h a words { s with bus := { s.bus with nak := false, codeAt := at' } }
      else
        occur 129 (word (hostCode h + p.toNat * 256 + want * 65536))
          { s with bus := { s.bus with nak := true, codeAt := at', pecCnt := satInc s.bus.pecCnt 255, stat := s.bus.stat ||| 2 } }

/-- REGISTER_WRITE. -/
def registerWrite (h : HostId) (a : Addr) (words : List Word) (pec : Option Byte) (s : State) : State :=
  if !busAnswers s then s
  else if pecOn s then writeCoded h a.toNat words pec s
  else writePlain h a.toNat words s

/-- The transaction is over, and a telemetry window that waited for its end is published (R378). -/
def closeTxn (s : State) : State :=
  telemetrySwap { s with bus := { s.bus with txn := none, codeAt := 0, surplus := false, rest := none } }

/-- `bytes` data bytes, a code byte among them, hold one that was moved in vain (R403, R404, R407). -/
def pastMost (s : State) (write : Bool) (bytes : Nat) : Bool := decide (0 < mostBytes s write) && decide (mostBytes s write < bytes)

/-- The end of a transaction of `bytes` data bytes counts a protocol error: surplus bytes that have made none yet, a write that leaves part
of a word, or one that ends before its code byte (R403, R404, R407). -/
def endError (s : State) (write : Bool) (bytes : Nat) : Bool :=
  if pastMost s write bytes then !s.bus.surplus
  else write && (if coded s then s.bus.codeAt == 0 else bytes % 4 != 0)

/-- A write's last byte lies after its code byte or its 64th data byte, and is answered N (R403, R407). -/
def endNak (s : State) (write : Bool) (bytes : Nat) : Bool := write && pastMost s write bytes

/-- TRANSACTION_END. -/
def transactionEnd (h : HostId) (write : Bool) (position : Byte) (bytes : Nat) (s : State) : State :=
  if !busAnswers s then s
  else
    let t := { s with bus := { s.bus with nak := s.bus.nak || endNak s write bytes } }
    if endError s write bytes then protoError h position.toNat (closeTxn t) else closeTxn t

/-- The open transaction stands in its byte `position`: a byte that it has moved in vain and not yet counted makes its error (R403, R404,
R407). -/
def countSurplus (position : Nat) (s : State) : State :=
  match s.bus.txn with
  | none => s
  | some (h, _) =>
    let most := mostBytes s s.bus.shape.write
    if pastMost s s.bus.shape.write (position - 1 - s.bus.shape.lead) && !s.bus.surplus then
      surplusError h (s.bus.shape.lead + most + 1) { s with bus := { s.bus with nak := s.bus.nak || s.bus.shape.write } }
    else s

/-- BUS_INTERRUPT: a START or STOP off a byte boundary, in byte `position` (R410). -/
def busInterrupt (h : HostId) (position : Byte) (s : State) : State :=
  if busAnswers s then protoError h position.toNat (closeTxn (countSurplus position.toNat s)) else s

/-- An interface reset (R414), shown in BUS_STAT.TOUT (R424). -/
def interfaceReset (s : State) : State :=
  closeTxn { s with bus := { s.bus with holdFrom := none, nak := false, stat := s.bus.stat ||| 4 } }

/-- BUS_TIMEOUT and SDA_RELEASE, in byte `position` of the transaction (R413). -/
def busTimeout (position : Byte) (s : State) : State :=
  if pastStep1 s then
    let s := countSurplus position.toNat s
    occur 130 0 (interfaceReset { s with bus := { s.bus with toutCnt := satInc s.bus.toutCnt 255 } })
  else s
def sdaRelease (position : Byte) (s : State) : State :=
  if pastStep1 s then
    let s := countSurplus position.toNat s
    occur 131 0 (interfaceReset { s with bus := { s.bus with relCnt := satInc s.bus.relCnt 255, stat := s.bus.stat ||| 8 } })
  else s

/-- COMMIT_HOLD_LIMIT (R412). -/
def commitHoldLimit (s : State) : State :=
  match s.bus.holdFrom with
  | some t => if t + ms 13 ≤ s.now then afterHold { s with bus := { s.bus with holdFrom := none } } else s
  | none => s

end Sys2Proof.Machine
end

