-- ==== Sys2Proof/Machine/BusRows.lean ====
section
/-! DEFINITION. The commands that are accesses of the management bus: each is its register's write or read, with the bits its row names. -/

namespace Sys2Proof.Machine

/-- A written word of one register, by name. -/
def writeAt (h : HostId) (r : Reg) (data : Word) (s : State) : State := busWrite1 true h r.addr data s
/-- A read of one register, by name. -/
def readAt (h : HostId) (r : Reg) (ecc : Ecc) (s : State) : State := busRead h (ReadAccess.one (BitVec.ofNat 16 r.addr) ecc) s

/-- The register of a tile setting. -/
def settingReg : TileSetting → TileReg
  | .cfg => .cfg | .deadtime => .deadtime | .minp => .minp | .tblank => .tblank

/-- HB_x. -/
def hbReg : HostId → Reg
  | .a => .hbA | .b => .hbB

/-- VXIO stands at a level in mV: a write that can power XMI up tells it (R596; log 147). -/
def State.withVxio (s : State) (vxio : Nat) : State := { s with pwr := { s.pwr with vxio := vxio } }

/-- PWR_CMD with a request (R367). -/
def pwrWord (n : Nat) (stopMode : Bool) : Word := word (n + atB stopMode 2)

/-- TRIP_STAT.LATCH with the level at the pin of the synchronised trip input at that moment (R61). -/
def tripLatchClear (h : HostId) (t : TileId) (data : Word) (level : Bool) (s : State) : State :=
  writeAt h (.tile t .tripStat) data
    (if coreOn s then s.modTile t fun ti => { ti with trip := { ti.trip with active := level == tripPol ti } } else s)

def execRstCmd (h : HostId) (data : Word) (s : State) : Host.Outcome State Fault Refusal := .next (writeAt h .rstCmd data s)
def execTripLatchClear (h : HostId) (t : TileId) (data : Word) (level : Bool) (s : State) : Host.Outcome State Fault Refusal :=
  .next (tripLatchClear h t data level s)
def execTileSettingWrite (h : HostId) (t : TileId) (which : TileSetting) (data : Word) (s : State) : Host.Outcome State Fault Refusal :=
  .next (writeAt h (.tile t (settingReg which)) data s)
def execAutozeroRequest (h : HostId) (k : RailId) (s : State) : Host.Outcome State Fault Refusal :=
  .next (writeAt h (.loop k .snsStat) 0x80000000#32 s)
def execSnsCalWrite (h : HostId) (k : RailId) (data : Word) (s : State) : Host.Outcome State Fault Refusal :=
  .next (writeAt h (.loop k .snsCal) data s)
def execIcalWrite (h : HostId) (t : TileId) (data : Word) (s : State) : Host.Outcome State Fault Refusal :=
  .next (writeAt h (.tile t .ical) data s)
def execTargetWrite (h : HostId) (k : RailId) (data : Word) (s : State) : Host.Outcome State Fault Refusal :=
  .next (writeAt h (.loop k .target) data s)
def execCsetWrite (h : HostId) (k : RailId) (data : Word) (s : State) : Host.Outcome State Fault Refusal :=
  .next (writeAt h (.loop k .cset) data s)
def execCoefDataAccess (h : HostId) (k : RailId) (write : Option Word) (s : State) (ecc : Ecc := .ok) : Host.Outcome State Fault Refusal :=
  .next (match write with | some w => writeAt h (.loop k .coefData) w s | none => readAt h (.loop k .coefData) ecc s)
def execMoultCtlWrite (h : HostId) (k : RailId) (data : Word) (s : State) : Host.Outcome State Fault Refusal :=
  .next (writeAt h (.loop k .moultCtl) data s)
def execMapDataRead (h : HostId) (ecc : Ecc) (s : State) : Host.Outcome State Fault Refusal := .next (readAt h .mapData ecc s)
def execMapDataWrite (h : HostId) (data : Word) (s : State) : Host.Outcome State Fault Refusal := .next (writeAt h .mapData data s)
def execRailOn (h : HostId) (k : RailId) (clear : Bool) (s : State) : Host.Outcome State Fault Refusal :=
  .next (writeAt h (.loop k .cmd) (word (1 + atB clear 4)) s)
def execRailOff (h : HostId) (k : RailId) (s : State) : Host.Outcome State Fault Refusal := .next (writeAt h (.loop k .cmd) 0 s)
def execRailKill (h : HostId) (k : RailId) (clear : Bool) (s : State) : Host.Outcome State Fault Refusal :=
  .next (writeAt h (.loop k .cmd) (word (2 + atB clear 4)) s)
def execRailClear (h : HostId) (k : RailId) (s : State) : Host.Outcome State Fault Refusal := .next (writeAt h (.loop k .cmd) 0x10#32 s)
def execRailClassClear (h : HostId) (k : RailId) (data : Word) (s : State) : Host.Outcome State Fault Refusal :=
  .next (writeAt h (.loop k .railFault) (data ||| 0x80000000#32) s)
def execTileClassClear (h : HostId) (t : TileId) (data : Word) (s : State) : Host.Outcome State Fault Refusal :=
  .next (writeAt h (.tile t .fault) (data ||| 0x8000#32) s)
def execTileAdmit (h : HostId) (t : TileId) (gen : BitVec 16) (s : State) : Host.Outcome State Fault Refusal :=
  .next (writeAt h (.tile t .admission) (word (gen.toNat + 0x10000)) s)
def execTileExclude (h : HostId) (t : TileId) (gen : BitVec 16) (s : State) : Host.Outcome State Fault Refusal :=
  .next (writeAt h (.tile t .admission) (word (gen.toNat + 0x20000)) s)
def execXchkReq (h : HostId) (s : State) : Host.Outcome State Fault Refusal := .next (writeAt h .hkCtl 1 s)
def execPwrStandby (h : HostId) (stopMode : Bool) (s : State) (vxio : Nat := 3300) : Host.Outcome State Fault Refusal :=
  .next (writeAt h .pwrCmd (pwrWord 0 stopMode) (s.withVxio vxio))
def execPwrReady (h : HostId) (stopMode : Bool) (s : State) (vxio : Nat := 3300) : Host.Outcome State Fault Refusal :=
  .next (writeAt h .pwrCmd (pwrWord 1 stopMode) (s.withVxio vxio))
def execPwrRun (h : HostId) (stopMode : Bool) (s : State) (vxio : Nat := 3300) : Host.Outcome State Fault Refusal :=
  .next (writeAt h .pwrCmd (pwrWord 2 stopMode) (s.withVxio vxio))
def execPwrKeepalive (h : HostId) (stopMode : Bool) (s : State) : Host.Outcome State Fault Refusal :=
  .next (writeAt h .pwrCmd (pwrWord 3 stopMode) s)
def execDomCtlWrite (h : HostId) (data : Word) (s : State) (vxio : Nat := 3300) : Host.Outcome State Fault Refusal :=
  .next (writeAt h .domCtl data (s.withVxio vxio))
def execBistStart (h : HostId) (s : State) : Host.Outcome State Fault Refusal := .next (writeAt h .bistCmd 1 s)
def execTelemetrySample (s : State) : Host.Outcome State Fault Refusal := .next (telemetrySample s)
def execTelemetryWindowEnd (s : State) : Host.Outcome State Fault Refusal := .next (telemetryWindowEnd s)
def execTelemetrySwap (s : State) : Host.Outcome State Fault Refusal := .next (telemetrySwap s)
def execPeakClearingRead (h : HostId) (r : ReadAccess) (s : State) : Host.Outcome State Fault Refusal := .next (busRead h r s)
def execPkClr (h : HostId) (s : State) : Host.Outcome State Fault Refusal := .next (writeAt h .telCtl 1 s)
def execHourCount (s : State) : Host.Outcome State Fault Refusal := .next (hourCount s)
def execEvLatchClear (h : HostId) (i : Fin 8) (data : Word) (s : State) : Host.Outcome State Fault Refusal := .next (writeAt h (.evLatch i) data s)
def execEvDcntRead (h : HostId) (s : State) : Host.Outcome State Fault Refusal := .next (readAt h .evDcnt .ok s)
def execRegisterWrite (h : HostId) (a : Addr) (words : List Word) (pec : Option Byte) (s : State) : Host.Outcome State Fault Refusal :=
  .next (registerWrite h a words pec s)
def execBusInterrupt (h : HostId) (position : Byte) (s : State) : Host.Outcome State Fault Refusal := .next (busInterrupt h position s)
def execBusTimeout (s : State) (position : Byte := 0) : Host.Outcome State Fault Refusal := .next (busTimeout position s)
def execSdaRelease (s : State) (position : Byte := 0) : Host.Outcome State Fault Refusal := .next (sdaRelease position s)
def execHeartbeatWrite (h whose : HostId) (data : Word) (s : State) : Host.Outcome State Fault Refusal := .next (writeAt h (hbReg whose) data s)
def execHeartbeatLapse (whose : HostId) (s : State) : Host.Outcome State Fault Refusal := .next (heartbeatLapse whose s)
def execClaimTake (h : HostId) (s : State) : Host.Outcome State Fault Refusal := .next (writeAt h .claim 0x100#32 s)
def execClaimRelease (h : HostId) (s : State) : Host.Outcome State Fault Refusal := .next (writeAt h .claim 0x200#32 s)
def execLinkAuthWrite (h : HostId) (data : Word) (s : State) : Host.Outcome State Fault Refusal := .next (writeAt h .linkAuth data s)
def execImgBegin (h : HostId) (len : BitVec 16) (answers : Bool) (s : State) : Host.Outcome State Fault Refusal :=
  .next (busWrite1 answers h Reg.imgCtl.addr (word (1 + len.toNat * 65536)) s)
def execImgDataWrite (h : HostId) (data : Word) (s : State) : Host.Outcome State Fault Refusal := .next (writeAt h .imgData data s)
def execImgCommit (h : HostId) (s : State) : Host.Outcome State Fault Refusal := .next (writeAt h .imgCtl 2 s)
def execImgAbort (h : HostId) (s : State) : Host.Outcome State Fault Refusal := .next (writeAt h .imgCtl 3 s)
def execNvmProgram (h : HostId) (s : State) : Host.Outcome State Fault Refusal := .next (writeAt h .nvmCmd 1 s)
def execCalSave (h : HostId) (arg : BitVec 3) (s : State) : Host.Outcome State Fault Refusal :=
  .next (writeAt h .nvmCmd (word (2 + 16 * arg.toNat)) s)
def execRecErase (h : HostId) (arg : BitVec 3) (s : State) : Host.Outcome State Fault Refusal :=
  .next (writeAt h .nvmCmd (word (3 + 16 * arg.toNat)) s)
def execFlush (h : HostId) (s : State) : Host.Outcome State Fault Refusal := .next (writeAt h .nvmCmd 4 s)
def execNvmDataAccess (h : HostId) (write : Option Word) (s : State) : Host.Outcome State Fault Refusal :=
  .next (match write with | some w => writeAt h .nvmData w s | none => readAt h .nvmData .ok s)
def execJournalLoad (h : HostId) (s : State) (ecc : Ecc := .ok) : Host.Outcome State Fault Refusal := .next (readAt h (.jrnE 0) ecc s)
def execJournalPop (h : HostId) (s : State) : Host.Outcome State Fault Refusal := .next (readAt h (.jrnE 7) .ok s)
def execJournalMoveOldest (h : HostId) (s : State) : Host.Outcome State Fault Refusal := .next (writeAt h .jrnHctl 1 s)
def execJournalMoveNewest (h : HostId) (s : State) : Host.Outcome State Fault Refusal := .next (writeAt h .jrnHctl 2 s)
def execXmemPrefetch (h : HostId) (data : Word) (s : State) : Host.Outcome State Fault Refusal := .next (writeAt h .xmIdx data s)
def execXmemWindowAdvance (h : HostId) (s : State) : Host.Outcome State Fault Refusal := .next (readAt h (.xmData 15) .ok s)
def execRecArm (h : HostId) (s : State) : Host.Outcome State Fault Refusal := .next (writeAt h .recCtl 1 s)
def execRecTrig (h : HostId) (s : State) : Host.Outcome State Fault Refusal := .next (writeAt h .recCtl 2 s)
def execRecStop (h : HostId) (s : State) : Host.Outcome State Fault Refusal := .next (writeAt h .recCtl 4 s)
def execRecRelease (h : HostId) (s : State) : Host.Outcome State Fault Refusal := .next (writeAt h .recCtl 8 s)
def execRecBdataRead (h : HostId) (s : State) (ecc : Ecc := .ok) : Host.Outcome State Fault Refusal := .next (readAt h .recBdata ecc s)
def execRtcSet (h : HostId) (data : Word) (s : State) : Host.Outcome State Fault Refusal :=
  .next (writeAt h .rtcSet1 (data ||| 0x80000000#32) s)
def execRtcRead (h : HostId) (s : State) : Host.Outcome State Fault Refusal := .next (readAt h .rtc0 .ok s)
def execClrFault (h : HostId) (s : State) : Host.Outcome State Fault Refusal := .next (writeAt h .chgCtl 1 s)
def execSvcClose (h : HostId) (s : State) : Host.Outcome State Fault Refusal := .next (writeAt h .svcCtl 1 s)
def execBrumationArm (h : HostId) (s : State) : Host.Outcome State Fault Refusal := .next (writeAt h .brumCtl 1 s)
def execBrumDisarm (h : HostId) (s : State) : Host.Outcome State Fault Refusal := .next (writeAt h .brumCtl 2 s)
def execClearingRead (h : HostId) (r : ReadAccess) (s : State) : Host.Outcome State Fault Refusal := .next (busRead h r s)
def execTransactionEnd (h : HostId) (write : Bool) (position : Byte) (bytes : Nat) (s : State) : Host.Outcome State Fault Refusal :=
  .next (transactionEnd h write position bytes s)
/-- A page program ends; with the host's own commit MSCL is released (R412). -/
def execNvmOperationDone (verified : Bool) (s : State) : Host.Outcome State Fault Refusal := .next (afterHold (nvmOperationDone verified s))
def execCommitHoldLimit (s : State) : Host.Outcome State Fault Refusal := .next (commitHoldLimit s)

end Sys2Proof.Machine
end

