-- ==== Sys2Proof/Machine/Dispatch.lean ====
section
/-! DEFINITION. The dispatch of commands: one arm per constructor of Instr, each one call of its meaning. -/

namespace Sys2Proof.Machine

def exec (i : Instr) (s : State) : Host.Outcome State Fault Refusal :=
  match i with
  | .boot b => Sys2Proof.Machine.execBoot b s
  | .resetNLow ns => Sys2Proof.Machine.execResetNLow ns s
  | .vsupReset held => Sys2Proof.Machine.execVsupReset s held
  | .vioReset held => Sys2Proof.Machine.execVioReset s held
  | .coreSupplyReset held => Sys2Proof.Machine.execCoreSupplyReset s held
  | .clockFault kind held => Sys2Proof.Machine.execClockFault kind s held
  | .rstCmd h data => Sys2Proof.Machine.execRstCmd h data s
  | .keepaliveWake byStart => Sys2Proof.Machine.execKeepaliveWake byStart s
  | .carrierPeak t => Sys2Proof.Machine.execCarrierPeak t s
  | .carrierValley t => Sys2Proof.Machine.execCarrierValley t s
  | .tripRecognised t tick => Sys2Proof.Machine.execTripRecognised t tick s
  | .tripLatchClear h t data level => Sys2Proof.Machine.execTripLatchClear h t data level s
  | .tileSettingWrite h t which data => Sys2Proof.Machine.execTileSettingWrite h t which data s
  | .lowSideForceEnd t tick => Sys2Proof.Machine.execLowSideForceEnd t tick s
  | .deLowSideOff t tick => Sys2Proof.Machine.execDeLowSideOff t tick s
  | .windowSample k microvolts => Sys2Proof.Machine.execWindowSample k microvolts s
  | .leapTileRelease t tick => Sys2Proof.Machine.execLeapTileRelease t tick s
  | .leapHoldoffExpiry k => Sys2Proof.Machine.execLeapHoldoffExpiry k s
  | .coarseConversion k c => Sys2Proof.Machine.execCoarseConversion k c s
  | .likConversion k c => Sys2Proof.Machine.execLikConversion k c s
  | .prebiasReading k => Sys2Proof.Machine.execPrebiasReading k s
  | .tileCurrentSample t which r => Sys2Proof.Machine.execTileCurrentSample t which r s
  | .autozeroRequest h k => Sys2Proof.Machine.execAutozeroRequest h k s
  | .autozeroStart k => Sys2Proof.Machine.execAutozeroStart k s
  | .autozeroDone k tick => Sys2Proof.Machine.execAutozeroDone k tick s
  | .autozeroTimeout k => Sys2Proof.Machine.execAutozeroTimeout k s
  | .snsCalWrite h k data => Sys2Proof.Machine.execSnsCalWrite h k data s
  | .icalWrite h t data => Sys2Proof.Machine.execIcalWrite h t data s
  | .loopUpdate k => Sys2Proof.Machine.execLoopUpdate k s
  | .targetWrite h k data => Sys2Proof.Machine.execTargetWrite h k data s
  | .csetWrite h k data => Sys2Proof.Machine.execCsetWrite h k data s
  | .coefDataAccess h k write ecc => Sys2Proof.Machine.execCoefDataAccess h k write s ecc
  | .referenceValley k ecc => Sys2Proof.Machine.execReferenceValley k ecc s
  | .readyTimeout t => Sys2Proof.Machine.execReadyTimeout t s
  | .moultCtlWrite h k data => Sys2Proof.Machine.execMoultCtlWrite h k data s
  | .mapDataRead h ecc => Sys2Proof.Machine.execMapDataRead h ecc s
  | .mapDataWrite h data => Sys2Proof.Machine.execMapDataWrite h data s
  | .scrubWord m ecc => Sys2Proof.Machine.execScrubWord m ecc s
  | .syncInEdge tick => Sys2Proof.Machine.execSyncInEdge tick s
  | .syncInLoss => Sys2Proof.Machine.execSyncInLoss s
  | .syncOutPulse => Sys2Proof.Machine.execSyncOutPulse s
  | .railOn h k clear => Sys2Proof.Machine.execRailOn h k clear s
  | .railOff h k => Sys2Proof.Machine.execRailOff h k s
  | .railKill h k clear => Sys2Proof.Machine.execRailKill h k clear s
  | .railClear h k => Sys2Proof.Machine.execRailClear h k s
  | .railStart k ecc => Sys2Proof.Machine.execRailStart k ecc s
  | .seqDelayExpiry k => Sys2Proof.Machine.execSeqDelayExpiry k s
  | .softstartEntry k => Sys2Proof.Machine.execSoftstartEntry k s
  | .prebiasWaitTimeout k => Sys2Proof.Machine.execPrebiasWaitTimeout k s
  | .trackFailure k => Sys2Proof.Machine.execTrackFailure k s
  | .hiccupRetry k ecc => Sys2Proof.Machine.execHiccupRetry k ecc s
  | .retryClear k => Sys2Proof.Machine.execRetryClear k s
  | .stoppingComplete k => Sys2Proof.Machine.execStoppingComplete k s
  | .pgoodAssert k => Sys2Proof.Machine.execPgoodAssert k s
  | .lenChange k level => Sys2Proof.Machine.execLenChange k level s
  | .railClassClear h k data => Sys2Proof.Machine.execRailClassClear h k data s
  | .tileClassClear h t data => Sys2Proof.Machine.execTileClassClear h t data s
  | .tileAdmit h t gen => Sys2Proof.Machine.execTileAdmit h t gen s
  | .tileExclude h t gen => Sys2Proof.Machine.execTileExclude h t gen s
  | .hkConversion raw => Sys2Proof.Machine.execHkConversion raw s
  | .hkRoundEnd => Sys2Proof.Machine.execHkRoundEnd s
  | .fastLaneTimer raws vsup => Sys2Proof.Machine.execFastLaneTimer raws vsup s
  | .tsdGraceExpiry => Sys2Proof.Machine.execTsdGraceExpiry s
  | .xchkReq h => Sys2Proof.Machine.execXchkReq h s
  | .vsupWarning => Sys2Proof.Machine.execVsupWarning s
  | .vsupWarningClear => Sys2Proof.Machine.execVsupWarningClear s
  | .powerFail => Sys2Proof.Machine.execPowerFail s
  | .snapshotComplete verified => Sys2Proof.Machine.execSnapshotComplete s verified
  | .vioWarning => Sys2Proof.Machine.execVioWarning s
  | .preregFault => Sys2Proof.Machine.execPreregFault s
  | .refPpmWindow deviation => Sys2Proof.Machine.execRefPpmWindow deviation s
  | .pwrStandby h stopMode vxio => Sys2Proof.Machine.execPwrStandby h stopMode s vxio
  | .pwrReady h stopMode vxio => Sys2Proof.Machine.execPwrReady h stopMode s vxio
  | .pwrRun h stopMode vxio => Sys2Proof.Machine.execPwrRun h stopMode s vxio
  | .pwrKeepalive h stopMode => Sys2Proof.Machine.execPwrKeepalive h stopMode s
  | .powerTransitionComplete => Sys2Proof.Machine.execPowerTransitionComplete s
  | .domCtlWrite h data vxio => Sys2Proof.Machine.execDomCtlWrite h data s vxio
  | .bankPowerUp b => Sys2Proof.Machine.execBankPowerUp b s
  | .bankPowerUpDone b => Sys2Proof.Machine.execBankPowerUpDone b s
  | .bistStart h => Sys2Proof.Machine.execBistStart h s
  | .bistSweep refs => Sys2Proof.Machine.execBistSweep refs s
  | .bistSweepEnd => Sys2Proof.Machine.execBistSweepEnd s
  | .telemetrySample => Sys2Proof.Machine.execTelemetrySample s
  | .telemetryWindowEnd => Sys2Proof.Machine.execTelemetryWindowEnd s
  | .telemetrySwap => Sys2Proof.Machine.execTelemetrySwap s
  | .peakClearingRead h r => Sys2Proof.Machine.execPeakClearingRead h r s
  | .pkClr h => Sys2Proof.Machine.execPkClr h s
  | .hourCount => Sys2Proof.Machine.execHourCount s
  | .journalWrite => Sys2Proof.Machine.execJournalWrite s
  | .evLatchClear h idx data => Sys2Proof.Machine.execEvLatchClear h idx data s
  | .evDcntRead h => Sys2Proof.Machine.execEvDcntRead h s
  | .registerWrite h a words pec => Sys2Proof.Machine.execRegisterWrite h a words pec s
  | .busInterrupt h position => Sys2Proof.Machine.execBusInterrupt h position s
  | .busTimeout position => Sys2Proof.Machine.execBusTimeout s position
  | .sdaRelease position => Sys2Proof.Machine.execSdaRelease s position
  | .heartbeatWrite h whose data => Sys2Proof.Machine.execHeartbeatWrite h whose data s
  | .heartbeatLapse whose => Sys2Proof.Machine.execHeartbeatLapse whose s
  | .claimTake h => Sys2Proof.Machine.execClaimTake h s
  | .claimRelease h => Sys2Proof.Machine.execClaimRelease h s
  | .setTarget seq k flags value => Sys2Proof.Machine.execSetTarget seq k flags value s
  | .query seq k flags value => Sys2Proof.Machine.execQuery seq k flags value s
  | .ping seq k flags value => Sys2Proof.Machine.execPing seq k flags value s
  | .badFrame ty seq k flags value => Sys2Proof.Machine.execBadFrame ty seq k flags value s
  | .linkFrameError frame stop => Sys2Proof.Machine.execLinkFrameError frame stop s
  | .glClkStop receiving resumes => Sys2Proof.Machine.execGlClkStop receiving s resumes
  | .ack => Sys2Proof.Machine.execAck s
  | .settled => Sys2Proof.Machine.execSettled s
  | .settleTimeout k => Sys2Proof.Machine.execSettleTimeout k s
  | .loadLapse => Sys2Proof.Machine.execLoadLapse s
  | .linkAuthWrite h data => Sys2Proof.Machine.execLinkAuthWrite h data s
  | .imgBegin h len answers => Sys2Proof.Machine.execImgBegin h len answers s
  | .imgDataWrite h data => Sys2Proof.Machine.execImgDataWrite h data s
  | .imgCommit h => Sys2Proof.Machine.execImgCommit h s
  | .imgAbort h => Sys2Proof.Machine.execImgAbort h s
  | .eepromPageWrite answer losses => Sys2Proof.Machine.execEepromPageWrite answer s losses
  | .replacementCheckDone answer losses => Sys2Proof.Machine.execReplacementCheckDone s answer losses
  | .nvmOperationStart => Sys2Proof.Machine.execNvmOperationStart s
  | .nvmOperationDone verified => Sys2Proof.Machine.execNvmOperationDone verified s
  | .nvmProgram h => Sys2Proof.Machine.execNvmProgram h s
  | .calSave h arg => Sys2Proof.Machine.execCalSave h arg s
  | .recErase h arg => Sys2Proof.Machine.execRecErase h arg s
  | .flush h => Sys2Proof.Machine.execFlush h s
  | .nvmDataAccess h write => Sys2Proof.Machine.execNvmDataAccess h write s
  | .counterCommit c => Sys2Proof.Machine.execCounterCommit c s
  | .recordRetry r => Sys2Proof.Machine.execRecordRetry r s
  | .marginRead differs => Sys2Proof.Machine.execMarginRead differs s
  | .journalLoad h ecc => Sys2Proof.Machine.execJournalLoad h s ecc
  | .journalPop h => Sys2Proof.Machine.execJournalPop h s
  | .journalMoveOldest h => Sys2Proof.Machine.execJournalMoveOldest h s
  | .journalMoveNewest h => Sys2Proof.Machine.execJournalMoveNewest h s
  | .xmemDiscovery sfdp => Sys2Proof.Machine.execXmemDiscovery sfdp s
  | .journalHeadSearch => Sys2Proof.Machine.execJournalHeadSearch s
  | .journalBurst ecc => Sys2Proof.Machine.execJournalBurst s ecc
  | .xmemBurstDone => Sys2Proof.Machine.execXmemBurstDone s
  | .xmemStall => Sys2Proof.Machine.execXmemStall s
  | .xmemRecovery => Sys2Proof.Machine.execXmemRecovery s
  | .xmemPrefetch h data => Sys2Proof.Machine.execXmemPrefetch h data s
  | .xmemWindowAdvance h => Sys2Proof.Machine.execXmemWindowAdvance h s
  | .recArm h => Sys2Proof.Machine.execRecArm h s
  | .recTrig h => Sys2Proof.Machine.execRecTrig h s
  | .recStop h => Sys2Proof.Machine.execRecStop h s
  | .recRelease h => Sys2Proof.Machine.execRecRelease h s
  | .recorderFrame => Sys2Proof.Machine.execRecorderFrame s
  | .recorderBurst ecc => Sys2Proof.Machine.execRecorderBurst ecc s
  | .recBdataRead h ecc => Sys2Proof.Machine.execRecBdataRead h s ecc
  | .drawArbiterSample microvolts => Sys2Proof.Machine.execDrawArbiterSample microvolts s
  | .leaveWaitLong r => Sys2Proof.Machine.execLeaveWaitLong r s
  | .kaMonitorRun m => Sys2Proof.Machine.execKaMonitorRun m s
  | .kaSourceLoss => Sys2Proof.Machine.execKaSourceLoss s
  | .kaSourceQualified => Sys2Proof.Machine.execKaSourceQualified s
  | .cellCutoff => Sys2Proof.Machine.execCellCutoff s
  | .rtcSet h data => Sys2Proof.Machine.execRtcSet h data s
  | .rtcRead h => Sys2Proof.Machine.execRtcRead h s
  | .rtcTrimInterval => Sys2Proof.Machine.execRtcTrimInterval s
  | .clrFault h => Sys2Proof.Machine.execClrFault h s
  | .serviceKeyRelease => Sys2Proof.Machine.execServiceKeyRelease s
  | .serviceArmExpiry => Sys2Proof.Machine.execServiceArmExpiry s
  | .svcClose h => Sys2Proof.Machine.execSvcClose h s
  | .brumationArm h => Sys2Proof.Machine.execBrumationArm h s
  | .brumDisarm h => Sys2Proof.Machine.execBrumDisarm h s
  | .residueHourlyWrite => Sys2Proof.Machine.execResidueHourlyWrite s
  | .brumationWake byKey => Sys2Proof.Machine.execBrumationWake byKey s
  | .keepaliveDomainPowerUp sourcePresent => Sys2Proof.Machine.execKeepaliveDomainPowerUp sourcePresent s
  | .kaSourceReturn => Sys2Proof.Machine.execKaSourceReturn s
  | .clearingRead h r => Sys2Proof.Machine.execClearingRead h r s
  | .transactionEnd h write position bytes => Sys2Proof.Machine.execTransactionEnd h write position bytes s
  | .commitHoldLimit => Sys2Proof.Machine.execCommitHoldLimit s
  | .serviceKeyPress => Sys2Proof.Machine.execServiceKeyPress s
  | .testAccessPortInstruction load resetNLow => Sys2Proof.Machine.execTestAccessPortInstruction load resetNLow s

end Sys2Proof.Machine
end

