-- ==== Sys2Proof/Machine/Pins.lean ====
section
/-! DEFINITION. What the pins do: the table of R592, and the test access port's hold on them (R432, R433, R575, R592, R599). -/

namespace Sys2Proof.Machine

/-- A driven level. -/
def driveLevel (b : Bool) : PinDrive := if b then .high else .low
/-- An open-drain pin. -/
def pullLow (b : Bool) : PinDrive := if b then .low else .released

/-- A pin with the function `p`: while EXTEST, CLAMP or HIGHZ holds the pins it follows its boundary cell, or is high impedance (R599). -/
def padOf (s : State) (p : PinDrive) : PinDrive := if tapDrives s then (if s.tap.ins = .highz then .released else .boundary) else p

/-- SPp_Hx and SPp_Lx of tile t. -/
def pinHigh (s : State) (t : TileId) : PinDrive := padOf s (driveLevel (outHigh s t))
def pinLow (s : State) (t : TileId) : PinDrive := padOf s (driveLevel (outLow s t))
/-- PGOODk, FAULT_N and SYNC_OUT. -/
def pinPgood (s : State) (k : RailId) : PinDrive := padOf s (driveLevel (s.pwr.phase == .up && (s.rail k).seq.pgood))
def pinFaultN (s : State) : PinDrive := padOf s (driveLevel (faultN s))
def pinSyncOut (s : State) : PinDrive := padOf s (driveLevel (syncOutLevel s))
/-- GL_DO between frames, and GL_ATTN_N. -/
def pinGlDo (s : State) : PinDrive := padOf s (driveLevel (glDoIdle s))
def pinGlAttnN (s : State) : PinDrive := padOf s (pullLow (attn s))
/-- ALERT_N. -/
def pinAlertN (s : State) : PinDrive := padOf s (pullLow (!alertN s))
/-- MSCL: held low for a commit, else a target's (R412); MSDA. -/
def pinMscl (s : State) : PinDrive := padOf s (if s.bus.holdFrom.isSome then .low else if pastStep1 s then .working else .released)
def pinMsda (s : State) : PinDrive := padOf s (if pastStep1 s then .working else .released)
/-- The boot bus, BWP and the external memory port. -/
def pinBootBus (s : State) : PinDrive := padOf s (bootBus s)
def pinBwp (s : State) : PinDrive := padOf s (bwp s)
def pinXcsN (s : State) : PinDrive := padOf s (xcsN s)
def pinXclk (s : State) : PinDrive := padOf s (xclk s)
def pinXio (s : State) : PinDrive := padOf s (xio s)
/-- TDO: released but while a register of the test access port is shifted, which no row leaves open. -/
def pinTdo (_ : State) : PinDrive := .released

/-- What SEAL_A does in one check of the seal loop: low for 1 ms, high for 1 ms, then released (R575). The check is part of KA_MONITOR_RUN,
and of BOOT. -/
def sealPhases : List PinDrive := [.low, .high, .released]
/-- SEAL_A between the commands: released between checks, and where the keep-alive domain has no power (R575, R592). -/
def pinSealA (s : State) : PinDrive := padOf s (sealPhases.getLastD .released)
/-- KA_ST1 and KA_ST2 follow R570 alone (R592), but for the test access port (R599). -/
def pinLight (s : State) (l : Light) : PinDrive ⊕ Light := if tapDrives s then .inl (padOf s .released) else .inr l
def pinKaSt (s : State) : (PinDrive ⊕ Light) × (PinDrive ⊕ Light) := (pinLight s (kaSt1 s), pinLight s (kaSt2 s))

end Sys2Proof.Machine
end

