-- ==== Sys2Proof/Safety.lean ====
section
/-! DEFINITION. What the claims call canonical and completed, and what a frame says: the parts of the state that may have changed. -/

namespace Sys2Proof.Machine

/-- Every sparse store of the block is in its canonical form: keys strictly rising, no entry equal to what an unlisted key reads as. -/
def State.Canonical (s : State) : Prop :=
  Store.wf 0 s.settings = true ∧ Store.wf 0 s.coef = true ∧ Store.wf 0 s.tempTab = true ∧ Store.wf 0 s.map.mem = true
    ∧ Store.wf blank s.eeprom = true ∧ Store.wf blank s.nvm.mem = true ∧ Store.wf blank s.xm.mem = true
  deriving Decidable

/-- The NVM queue holds at most 16 requests, a waiting host command among them, and none twice (R499). -/
abbrev Nvm.Bounded (n : Nvm) : Prop := nvmFill n ≤ 16 ∧ n.queue.Nodup
/-- The journal ring holds at most 1,024 entries, at most 64 of them pinned (R28, R531). -/
abbrev Journal.Bounded (j : Journal) : Prop := j.ring.length ≤ 1024 ∧ (j.ring.filter JournalEntry.pinned).length ≤ 64

/-- Every queue keeps to its size (R545): 512 entries of the event queue, the ring, 4 bursts of the memory port, 16 SETTLED frames, and
the NVM queue. -/
def State.Bounded (s : State) : Prop :=
  s.ev.queue.length ≤ 512 ∧ Journal.Bounded s.jrn ∧ s.xm.bursts.length ≤ 4 ∧ s.link.settled.length ≤ 16 ∧ Nvm.Bounded s.nvm
  deriving Decidable

/-- A command runs to a next state. -/
def Completes (c : Instr) (s : State) : Prop := ∃ t, exec c s = .next t

/-- The parts of the state, one for each of its fields. -/
inductive Part where
  | pending | now | free | settings | coef | tempTab | eeprom | tiles | rails | pwr | test | map | hk
  | tel | ev | bus | link | ldr | nvm | jrn | xm | rcd | draw | ka | sync | tap
  deriving DecidableEq, Repr

/-- Two states agree on a part. -/
def Part.same (s t : State) : Part → Prop
  | .pending => t.pending = s.pending
  | .now => t.now = s.now
  | .free => t.free = s.free
  | .settings => t.settings = s.settings
  | .coef => t.coef = s.coef
  | .tempTab => t.tempTab = s.tempTab
  | .eeprom => t.eeprom = s.eeprom
  | .tiles => t.tiles = s.tiles
  | .rails => t.rails = s.rails
  | .pwr => t.pwr = s.pwr
  | .test => t.test = s.test
  | .map => t.map = s.map
  | .hk => t.hk = s.hk
  | .tel => t.tel = s.tel
  | .ev => t.ev = s.ev
  | .bus => t.bus = s.bus
  | .link => t.link = s.link
  | .ldr => t.ldr = s.ldr
  | .nvm => t.nvm = s.nvm
  | .jrn => t.jrn = s.jrn
  | .xm => t.xm = s.xm
  | .rcd => t.rcd = s.rcd
  | .draw => t.draw = s.draw
  | .ka => t.ka = s.ka
  | .sync => t.sync = s.sync
  | .tap => t.tap = s.tap

/-- From `s` to `t` nothing changed outside the parts named: each other part is the same in both. -/
def Within (ps : List Part) (s t : State) : Prop := ∀ p : Part, p ∉ ps → p.same s t

/-- Every tile but `t` is unchanged. -/
def OtherTiles (t : TileId) (s s' : State) : Prop := ∀ u : TileId, u ≠ t → s'.tile u = s.tile u

/-- Every rail but `k` is unchanged. -/
def OtherRails (k : RailId) (s s' : State) : Prop := ∀ j : RailId, j ≠ k → s'.rail j = s.rail j

/-- Every tile that rail k does not hold is unchanged. -/
def OtherSets (k : RailId) (s s' : State) : Prop := ∀ u : TileId, (s.tile u).rail ≠ some k → s'.tile u = s.tile u

/-- The bookkeeping of event source e. -/
def State.source (s : State) (e : Nat) : EventSource := s.ev.src.get (finOf 256 (by decide) e)

/-- An occurrence of source e stays inside the event system: it is ignored there, or it triggers no recorder and acts on no rail (R383, R387). -/
def Quiet (s : State) (e : Nat) : Prop := evEn s e = false ∨ (evRec s e = false ∧ evResp s e ≠ 4 ∧ evResp s e ≠ 6)
  deriving Decidable

/-- No stop of rail k has come in the present cycle, so its detectors judge the rail as it stands (R269). -/
def NoStopNow (s : State) (k : RailId) : Prop := (s.rail k).was.all (fun w => decide (w.cycle < cycleOf s)) = true
  deriving Decidable

/-- No settle watch of rail k is open, and none has closed in the present cycle (R445). -/
def NoWatch (s : State) (k : RailId) : Prop :=
  (s.rail k).link.watch = none ∧ (s.rail k).link.closed.all (fun c => decide (c.cycle < cycleOf s)) = true
  deriving Decidable

/-- `s` after the address bytes of an access of one register by host h: the transaction is open and the pointer stands after the word (R402). -/
def State.addressed (s : State) (h : HostId) (a : Nat) : State :=
  let was := match s.bus.txn with | some (x, b) => x == h && b | none => false
  let s' := s.modHost h fun x => { x with ptr := BitVec.ofNat 16 (a + 4) }
  { s' with bus := { s'.bus with
      txn := some (h, was || inTelemetry a), surplus := false, shape := { coded := pecOn s, lead := if pecOn s then 4 else 3 } } }

/-- The state in which the one word that host h writes at address a commits (R403, R407). -/
def State.opened (s : State) (h : HostId) (a : Nat) : State :=
  let s' := s.addressed h a
  { s' with bus := { s'.bus with nak := false, codeAt := if pecOn s then 5 else 0 } }

/-- A one-word write of register r by host h passes the judgements made before its effect: CORE works, the claim is the host's where the
register needs it, the register is present and powered, and the word holds no reserved encoding (R403, R415, R37, R8); no commit holds
the bus (R412). -/
def WordLands (s : State) (h : HostId) (r : Reg) (data : Word) : Prop :=
  coreOn s = true ∧ s.bus.holdFrom = none ∧ (freeOfClaim h r = true ∨ s.bus.owner = some h) ∧ regLive s r = true ∧ encOk s.settings r (candidate s r data) = true
  deriving Decidable

end Sys2Proof.Machine
end

