-- ==== Sys2Proof/Certificates/Slice0/Obligations.lean ====
section
/-! DEFINITION. The statements for the provers: what the spec's rules say the block does, over all states and operands. -/

open Sys2Proof Sys2Proof.Machine

/-- For every command c and state s whose queue is c followed by a rest, a step of s is exec of c on s with the queue's rest.
(01_architecture.md, 95_what_each_step_holds.md) -/
def Obligations.StepRunsFrontCommand : Prop :=
  ∀ (c : Instr) (rest : List Instr) (s : State), s.pending = c :: rest → step s = exec c { s with pending := rest }

/-- A step of a state whose queue is empty answers the same state one tick of 16 fine steps later. That time passes so is the
model's own choice (log 2), not a rule of the spec. (00_scope.md (Units, time and conditions)) -/
def Obligations.IdleStepPassesOneTick : Prop :=
  ∀ s : State, s.pending = [] → step s = .next { s with now := s.now + 16 }

/-- The state after reset has an empty queue, boot not complete, every rail OFF, both outputs of every tile low, no owner of the
claim, both hosts' address pointers 0x0000, no register set and no image anywhere. That every image register reads 0 and that
the EEPROM and the external memory hold nothing is the model's own choice (logs 3, 4 and 16), not a rule of the spec.
(01_architecture.md (R29), 08_rail_start_stop.md (R235), 13_management_bus.md (R402, R418)) -/
def Obligations.ResetHoldsOutputsLowAndNoCommand : Prop :=
  State.reset.pending = [] ∧ State.reset.pwr.phase = .inReset
    ∧ (∀ k : RailId, railSt State.reset k = .off)
    ∧ (∀ t : TileId, outHigh State.reset t = false ∧ outLow State.reset t = false)
    ∧ State.reset.bus.owner = none ∧ (∀ h : HostId, (State.reset.host h).ptr = 0)
    ∧ (∀ r : Reg, setWord State.reset r = 0) ∧ State.reset.eeprom = [] ∧ State.reset.xm.mem = []

/-- The seven sparse stores of the state after reset (settings, coefficients, temperature tables, map, EEPROM, NVM, external
memory) are in their canonical form, and its queues (event queue, journal ring, bursts of the memory port, SETTLED frames,
NVM requests) are within the sizes of R545. (17_journal_recorder_queues.md (R545)) -/
def Obligations.ResetIsCanonical : Prop :=
  State.reset.Canonical ∧ State.reset.Bounded

/-- No command ends in a fault or a refusal: for every command and every state exec answers a next state. What each next state
holds is said by the statements about the commands. (00_scope.md, 01_architecture.md) -/
def Obligations.NoCommandStopsTheBlock : Prop :=
  ∀ (c : Instr) (s : State), ∃ t, exec c s = .next t

/-- For every state whose stores are canonical, whatever command stands in front of the queue (or none), the next state's stores
are canonical too: register settings, coefficients, temperature tables, operating map, boot-bus EEPROM, on-chip NVM and
external memory. Equal contents are therefore equal data in every run. And for every state whose queues are within their
bounds, those of the next state are too: at most 512 entries in the event queue (R27), at most 1,024 in the journal ring
(R28), at most 64 of them pinned, at most 4 bursts of the memory port (R536), at most 16 SETTLED frames (R444), and at most
16 requests of the NVM, a waiting host command among them, none of them queued twice (R499). (01_architecture.md (R27, R28),
06_moult_operating_map.md (R196), 14_gulsan_load_link.md (R444), 16_nvm_records.md (R496, R499),
17_journal_recorder_queues.md (R531, R536, R545)) -/
def Obligations.StepKeepsStoresCanonical : Prop :=
  ∀ s t : State, step s = .next t → (s.Canonical → t.Canonical) ∧ (s.Bounded → t.Bounded)

/-- For every command and state, the next state that exec answers has the same waiting commands; only a step takes one.
(01_architecture.md, 95_what_each_step_holds.md) -/
def Obligations.CommandLeavesTheQueue : Prop :=
  ∀ (c : Instr) (s t : State), exec c s = .next t → t.pending = s.pending

/-- decodeTableWord answers none for every word, and placing a word leaves the state unchanged, the operations of the block
having no encoding of their own: log 3, the model's choice. (13_management_bus.md) -/
def Obligations.NoTableWordSpellsACommand : Prop :=
  ∀ (nbits w : Nat) (s : State), decodeTableWord nbits w = none ∧ s.withFetchWord nbits w = s

/-- For every register of the map, for every loop, tile and index, its address has bits [1:0] = 0b00, fits 16 bits, and decodes
to that register; so no two registers share an address. (01_architecture.md (R34)) -/
def Obligations.RegisterAddressesDecode : Prop :=
  ∀ r : Reg, decodeAddr r.addr = some r ∧ r.addr % 4 = 0 ∧ r.addr < 65536

/-- An address is unmapped where no register stands at it, 0x3800 to 0x3FFF and 0x8100 to 0xEFFF among them. While the target
answers, a read of one sends 0 and leaves everything but the bus interface alone. With CORE working, a write to one, sent
without a code (or with the right one), counts one refused write against its host, whoever holds the claim, and a write of up
to 16 words that are all unmapped one for each word. The write of a host that holds the claim changes nothing else but the
address pointer and the transaction that is open; a write of one that does not counts a claim refusal as well, and changes
nothing else outside the event system where event 137, which it causes (R421), stays inside that. (While MSCL is held the
target takes no byte.) (R35) -/
def Obligations.UnmappedAddressReadsZeroAndRefuses : Prop :=
  (∀ (h : HostId) (a : Addr) (ecc : Ecc) (s : State), busAnswers s = true → decodeAddr a.toNat = none →
      ∃ t, exec (.clearingRead h (.one a ecc)) s = .next t ∧ t.bus.sent = [0] ∧ (t.host h).ptr = a + 4
        ∧ (∀ g, g ≠ h → t.host g = s.host g) ∧ t.bus.owner = s.bus.owner ∧ Within [.bus] s t)
    ∧ (∀ (h : HostId) (a : Addr) (w : Word) (pec : Option Byte) (s : State), coreOn s = true → s.bus.holdFrom = none →
      decodeAddr a.toNat = none →
      (pecOn s = true → ∃ p, pec = some p ∧ p.toNat = pecOf s h a.toNat [w]) →
      ∃ t, exec (.registerWrite h a [w] pec) s = .next t ∧ (t.host h).refCnt = satInc (s.host h).refCnt 65535
        ∧ (s.bus.owner = some h → t.host h = { s.host h with ptr := a + 4, refCnt := (t.host h).refCnt } ∧ (∀ g, g ≠ h → t.host g = s.host g)
            ∧ t.bus = { s.bus with hostA := t.bus.hostA, hostB := t.bus.hostB, nak := false, codeAt := t.bus.codeAt, txn := t.bus.txn
                                   surplus := false, shape := t.bus.shape }
            ∧ Within [.bus] s t)
        ∧ (s.bus.owner ≠ some h → Quiet s 137 →
            t.host h = { s.host h with ptr := a + 4, refCnt := (t.host h).refCnt, claimCnt := satInc (s.host h).claimCnt 65535 }
            ∧ (∀ g, g ≠ h → t.host g = s.host g)
            ∧ t.bus = { s.bus with hostA := t.bus.hostA, hostB := t.bus.hostB, nak := false, codeAt := t.bus.codeAt, txn := t.bus.txn
                                   surplus := false, shape := t.bus.shape }
            ∧ Within [.bus, .ev] s t))
    ∧ (∀ (h : HostId) (a : Addr) (ws : List Word) (pec : Option Byte) (s : State), coreOn s = true → s.bus.holdFrom = none → s.bus.owner = some h →
      ws.length ≤ 16 → (∀ i : Nat, i < ws.length → decodeAddr ((a.toNat + 4 * i) % 65536) = none) →
      (pecOn s = true → ∃ p, pec = some p ∧ p.toNat = pecOf s h a.toNat ws) →
      ∃ t, exec (.registerWrite h a ws pec) s = .next t
        ∧ t.host h = { s.host h with ptr := (t.host h).ptr, refCnt := ws.foldl (fun n _ => satInc n 65535) (s.host h).refCnt }
        ∧ (∀ g, g ≠ h → t.host g = s.host g) ∧ t.settings = s.settings ∧ (∀ k, railSt t k = railSt s k))
    ∧ ∀ a : Nat, (0x3800 ≤ a ∧ a ≤ 0x3FFF) ∨ (0x8100 ≤ a ∧ a ≤ 0xEFFF) → decodeAddr a = none

/-- A one-word write of any register outside the free list, by a host that does not hold the claim (another owner or none),
changes no setting, rail, tile, memory or other unit. It counts one refused write and one claim refusal against its host, and
with event 137 enabled and latching its latch is set (event 137 is taken to trigger no recorder and act on no rail; it has
not occurred in this cycle). A word that lands on one of the image registers of events, draw, recorder, housekeeping,
telemetry or synchronisation: where the image marks it run-time writable its image bits take the word, else it keeps its
value, and an attempt to change it counts one refused write; every other register and everything else stays, but that a
synchronisation input that is present becomes absent with SI_EN = 0 (event 112 is taken to stay inside the event system).
(Without a code, or with the right one.) (00_scope.md (R6, R7), 13_management_bus.md (R415, R421), 15_boot_image.md (R473)) -/
def Obligations.RegisterWriteNeedsClaimAndMark : Prop :=
  ∀ (h : HostId) (r : Reg) (w : Word) (pec : Option Byte) (s : State), (pecOn s = true → ∃ p, pec = some p ∧ p.toNat = pecOf s h r.addr [w]) →
      (coreOn s = true → s.bus.holdFrom = none → freeOfClaim h r = false → s.bus.owner ≠ some h → Quiet s 137 → occurredNow s 137 = false →
        ∃ t, exec (.registerWrite h (BitVec.ofNat 16 r.addr) [w] pec) s = .next t
          ∧ (t.host h).refCnt = satInc (s.host h).refCnt 65535 ∧ (t.host h).claimCnt = satInc (s.host h).claimCnt 65535
          ∧ t.bus.owner = s.bus.owner ∧ Within [.bus, .ev] s t
          ∧ (evEn s 137 = true → evLatchEn s 137 = true → (t.source 137).latch = true))
      ∧ (s.Canonical → WordLands s h r w → (r = .syncCfg → Quiet s 112) → ((∃ i, r = .evCfg i) ∨ (∃ i, r = .recCh i)
            ∨ r ∈ [.drawCfg, .drawCost, .recCfg, .recPost, .hkCfg, .tsdCfg, .telCfg, .syncCfg]) →
        let mask := word (imgBits r)
        let marked := s.ldr.rtMarks.contains r.addr = true
        ∃ t, exec (.registerWrite h (BitVec.ofNat 16 r.addr) [w] pec) s = .next t
          ∧ setWord t r = (if marked then (setWord s r &&& ~~~mask) ||| (w &&& mask) else setWord s r)
          ∧ (∀ q, q ≠ r → setWord t q = setWord s q)
          ∧ (t.host h).refCnt = (if marked ∨ (setWord s r ^^^ w) &&& mask = 0 then (s.host h).refCnt else satInc (s.host h).refCnt 65535)
          ∧ (t.host h).claimCnt = (s.host h).claimCnt ∧ t.bus.owner = s.bus.owner
          ∧ (r ≠ .syncCfg ∨ marked ∧ siEn t = true ∨ ¬marked → Within [.bus, .settings] s t)
          ∧ (r = .syncCfg → marked → siEn t = false → t.sync.present = false
              ∧ (s.sync.present = false → Within [.bus, .settings, .sync] s t)
              ∧ Within [.bus, .settings, .sync, .ev, .rails, .tiles] s t))

/-- With CORE working and events 132 to 134 and 137 staying inside the event system (and no image replacement that an owner
change would abort): TAKE of a free claim makes the host owner; TAKE by the owner changes nothing; TAKE from the other host
is accepted if its heartbeat has lapsed or a service arm is open, else refused, counted in both counters. RELEASE by the
owner leaves no owner; by any other host it is refused and counted in REF_CNT only. Each change of owner increments CHG_CNT,
and its event enters the event queue with the host's identity while that has room. Event 133's detail names the lapse (0)
where the heartbeat has lapsed and an arm is open too: R421 does not say which, and log 105 is the model's choice.
(13_management_bus.md (R418, R421)) -/
def Obligations.ClaimTakenAndReleased : Prop :=
  ∀ (h : HostId) (s : State), coreOn s = true → s.bus.holdFrom = none → (∀ e ∈ [132, 133, 134, 137], Quiet s e ∧ occurredNow s e = false) → replBusy s = false →
      (∃ t, exec (.claimTake h) s = .next t ∧ Within [.bus, .ev] s t ∧
        (match s.bus.owner with
          | none => t.bus.owner = some h ∧ t.bus.chgCnt = satInc s.bus.chgCnt 255 ∧ (s.ev.queue.length < 512 → ∃ q ∈ t.ev.queue, q.id = 132 ∧ q.detail = word (hostCode h))
          | some o =>
            if o = h then t = s.opened h Reg.claim.addr
            else if (s.host o).alive = false ∨ armOpen s = true then
              t.bus.owner = some h ∧ t.bus.chgCnt = satInc s.bus.chgCnt 255 ∧ (s.ev.queue.length < 512 → ∃ q ∈ t.ev.queue, q.id = 133 ∧
                q.detail = word (hostCode h + (if (s.host o).alive = false then 0 else 2)))
            else t.bus.owner = some o ∧ (t.host h).refCnt = satInc (s.host h).refCnt 65535
              ∧ (t.host h).claimCnt = satInc (s.host h).claimCnt 65535))
      ∧ ∃ t, exec (.claimRelease h) s = .next t ∧ Within [.bus, .ev] s t ∧
        (if s.bus.owner = some h then
          t.bus.owner = none ∧ t.bus.chgCnt = satInc s.bus.chgCnt 255 ∧ (s.ev.queue.length < 512 → ∃ q ∈ t.ev.queue, q.id = 134 ∧ q.detail = word (hostCode h))
        else t.bus.owner = s.bus.owner ∧ (t.host h).refCnt = satInc (s.host h).refCnt 65535 ∧ (t.host h).claimCnt = (s.host h).claimCnt)

/-- With CORE working: a host's write of its own heartbeat register keeps the value, refreshes the heartbeat and ends a lapse;
the other host's write of it changes no heartbeat and counts one refused write. A live heartbeat whose last write lies more
than HOST_WDT ms back (HOST_WDT not 0) lapses, and its event (135 or 136) latches where it is set so; with HOST_WDT = 0, or
before that time, nothing changes. (Events 135, 136 and 148 stay inside the event system.) (13_management_bus.md (R417,
R421)) -/
def Obligations.HeartbeatKeptAndLapsed : Prop :=
  ∀ (h : HostId) (s : State), coreOn s = true → s.bus.holdFrom = none → (∀ e ∈ [135, 136, 137, 148], Quiet s e) →
      (∀ w : Word, ∃ t, exec (.heartbeatWrite h h w) s = .next t ∧ (t.host h).hbCount = BitVec.ofNat 8 w.toNat
        ∧ (t.host h).hbAt = some s.now ∧ (t.host h).alive = true ∧ (∀ g, g ≠ h → t.host g = s.host g) ∧ t.link.fallback = false
        ∧ Within [.bus, .link, .ev] s t)
      ∧ (∀ (g : HostId) (w : Word), g ≠ h → ∃ t, exec (.heartbeatWrite h g w) s = .next t ∧ t.host g = s.host g
        ∧ (t.host h).refCnt = satInc (s.host h).refCnt 65535 ∧ (t.host h).alive = (s.host h).alive
        ∧ (t.host h).hbAt = (s.host h).hbAt ∧ (t.host h).hbCount = (s.host h).hbCount ∧ Within [.bus, .ev] s t)
      ∧ (∀ at', (s.host h).hbAt = some at' → (s.host h).alive = true → hostWdt s ≠ 0 → at' + ms (hostWdt s) < s.now →
        ∃ t, exec (.heartbeatLapse h) s = .next t ∧ (t.host h).alive = false ∧ (∀ g, g ≠ h → t.host g = s.host g)
          ∧ (∀ e, e = (match h with | .a => 135 | .b => 136) → occurredNow s e = false → evEn s e = true → evLatchEn s e = true →
              (t.source e).latch = true)
          ∧ Within [.bus, .link, .ev] s t)
      ∧ (hostWdt s = 0 ∨ (∃ at', (s.host h).hbAt = some at' ∧ s.now ≤ at' + ms (hostWdt s)) → exec (.heartbeatLapse h) s = .next s)

/-- With PEC_EN in force, a write of up to 16 words whose code is wrong commits none of them: its code byte is answered N, one
PEC error is counted, BUS_STAT.PEC is set, and nothing outside the bus interface and the event system changes. A write
without its code byte changes nothing but the pointer and the open transaction; a write of more than 16 words is answered N
at its LEN byte and commits nothing. No refused write is counted in any of these cases. (Event 129 is taken to stay inside
the event system.) (13_management_bus.md (R406, R407, R421)) -/
def Obligations.WrongCodeCommitsNoWord : Prop :=
  ∀ (h : HostId) (a : Addr) (words : List Word) (s : State), pecOn s = true → s.bus.holdFrom = none → Quiet s 129 →
      (∀ p : Byte, words.length ≤ 16 → p.toNat ≠ pecOf s h a.toNat words →
        ∃ t, exec (.registerWrite h a words (some p)) s = .next t ∧ t.bus.nak = true ∧ t.bus.pecCnt = satInc s.bus.pecCnt 255
          ∧ t.bus.stat.getLsbD 1 = true ∧ (∀ g, t.host g = { s.host g with ptr := (t.host g).ptr }) ∧ t.bus.owner = s.bus.owner ∧ Within [.bus, .ev] s t)
      ∧ (words.length ≤ 16 → ∃ t, exec (.registerWrite h a words none) s = .next t ∧ t.bus.nak = false
          ∧ (∀ g, t.host g = { s.host g with ptr := (t.host g).ptr }) ∧ t.bus.owner = s.bus.owner ∧ Within [.bus] s t)
      ∧ ∀ pec, 16 < words.length → ∃ t, exec (.registerWrite h a words pec) s = .next t ∧ t.bus.nak = true
          ∧ (∀ g, t.host g = { s.host g with ptr := (t.host g).ptr }) ∧ t.bus.owner = s.bus.owner ∧ Within [.bus] s t

/-- While the target answers (event 128 staying inside the event system): an interrupted transaction is abandoned and counts one
protocol error, and no register changes; bytes that it had moved past its last one (R403, R404, R407) and that had made no
error yet count one more. The end of a write counts one error where it leaves part of a word or has moved bytes past the
64th, or, where the transaction carries a code (as its START settled it, R406), where no code byte came or bytes followed it;
surplus bytes that have made their error count none again. The end of a write of whole words, with its code where one is due,
counts none and only closes the transaction. The end of a read counts one error for bytes past the 64 (and the code byte),
unless they have made it. Each end of a write, and an interruption, publishes a telemetry window that waited for the end
(R378 as log 115 reads it, the model's choice), and without one leaves telemetry as it stood. (13_management_bus.md (R403,
R407, R410, R421)) -/
def Obligations.BrokenTransactionCountsOneError : Prop :=
  ∀ (h : HostId) (position : Byte) (s : State), busAnswers s = true → Quiet s 128 →
      (∃ t, exec (.busInterrupt h position) s = .next t ∧ t.bus.txn = none
        ∧ t.bus.protoCnt = (if s.bus.txn ≠ none ∧ s.bus.surplus = false ∧ pastMost s s.bus.shape.write (position.toNat - 1 - s.bus.shape.lead) = true
            then satInc (satInc s.bus.protoCnt 255) 255 else satInc s.bus.protoCnt 255)
        ∧ t.bus.stat.getLsbD 0 = true ∧ (∀ g, t.host g = s.host g) ∧ t.tel.wait = none ∧ (s.tel.wait = none → t.tel = s.tel)
        ∧ Within [.bus, .tel, .ev] s t)
      ∧ (∀ bytes : Nat, (if coded s = true then s.bus.codeAt = 0 ∨ (s.bus.codeAt < bytes ∧ s.bus.surplus = false)
          else (bytes ≤ 64 ∧ bytes % 4 ≠ 0) ∨ (64 < bytes ∧ s.bus.surplus = false)) →
        ∃ t, exec (.transactionEnd h true position bytes) s = .next t ∧ t.bus.protoCnt = satInc s.bus.protoCnt 255 ∧ t.bus.txn = none
          ∧ (∀ g, t.host g = s.host g) ∧ t.tel.wait = none ∧ (s.tel.wait = none → t.tel = s.tel) ∧ Within [.bus, .tel, .ev] s t)
      ∧ (∀ bytes : Nat, (if coded s = true then 65 < bytes else 64 < bytes) → s.bus.surplus = false →
        ∃ t, exec (.transactionEnd h false position bytes) s = .next t ∧ t.bus.protoCnt = satInc s.bus.protoCnt 255 ∧ t.bus.txn = none
          ∧ (∀ g, t.host g = s.host g) ∧ Within [.bus, .tel, .ev] s t)
      ∧ (∀ bytes : Nat, ((if coded s = true then bytes ≤ 65 else bytes ≤ 64) ∨ s.bus.surplus = true) →
        ∃ t, exec (.transactionEnd h false position bytes) s = .next t
          ∧ t.bus = { s.bus with txn := none, codeAt := 0, surplus := false, rest := none } ∧ Within [.bus, .tel] s t)
      ∧ ∀ bytes : Nat, (if coded s = true then s.bus.codeAt ≠ 0 ∧ (bytes ≤ s.bus.codeAt ∨ (s.bus.surplus = true ∧ s.bus.nak = true))
          else (bytes ≤ 64 ∧ bytes % 4 = 0) ∨ (64 < bytes ∧ s.bus.surplus = true ∧ s.bus.nak = true)) →
        ∃ t, exec (.transactionEnd h true position bytes) s = .next t
          ∧ t.bus = { s.bus with txn := none, codeAt := 0, surplus := false, rest := none }
          ∧ t.tel.wait = none ∧ (s.tel.wait = none → t.tel = s.tel) ∧ Within [.bus, .tel] s t

/-- From the end of boot step 1 on (events 128, 130 and 131 staying inside the event system), a clock low for 25 ms and a data
line held for 10 ms reset the interface: their counter steps, a protocol error is counted only for surplus bytes that had
made none yet, the transaction is abandoned, any commit hold ends, a telemetry window that waited is published, and both
hosts' registers (pointers, heartbeats, counters among them) and the claim stay. A commit hold of 13 ms or more ends, and the
words of the write that it kept waiting go on in a cycle of their own (with none waiting nothing else changes); a shorter one
stays. (13_management_bus.md (R412, R413, R414)) -/
def Obligations.HungBusResetsTheInterface : Prop :=
  ∀ (position : Byte) (s : State), pastStep1 s = true → Quiet s 128 → Quiet s 130 → Quiet s 131 →
      let uncounted := s.bus.txn ≠ none ∧ s.bus.surplus = false ∧ pastMost s s.bus.shape.write (position.toNat - 1 - s.bus.shape.lead) = true
      (∃ t, exec (.busTimeout position) s = .next t ∧ t.bus.toutCnt = satInc s.bus.toutCnt 255 ∧ t.bus.txn = none ∧ t.bus.holdFrom = none
        ∧ t.bus.protoCnt = (if uncounted then satInc s.bus.protoCnt 255 else s.bus.protoCnt)
        ∧ (∀ g, t.host g = s.host g) ∧ t.bus.owner = s.bus.owner ∧ t.tel.wait = none ∧ Within [.bus, .tel, .ev] s t)
      ∧ (∃ t, exec (.sdaRelease position) s = .next t ∧ t.bus.relCnt = satInc s.bus.relCnt 255 ∧ t.bus.txn = none ∧ t.bus.holdFrom = none
        ∧ t.bus.protoCnt = (if uncounted then satInc s.bus.protoCnt 255 else s.bus.protoCnt)
        ∧ (∀ g, t.host g = s.host g) ∧ t.bus.owner = s.bus.owner ∧ t.tel.wait = none ∧ Within [.bus, .tel, .ev] s t)
      ∧ ∀ from', s.bus.holdFrom = some from' →
        (s.now < from' + ms 13 → exec .commitHoldLimit s = .next s)
        ∧ (from' + ms 13 ≤ s.now → s.bus.rest = none → exec .commitHoldLimit s = .next { s with bus := { s.bus with holdFrom := none } })
        ∧ ∀ h a left ws, from' + ms 13 ≤ s.now → s.bus.rest = some (h, a, left, ws) → exec .commitHoldLimit s =
            .next (plainWords h ws a left (laterCycle { s with bus := { s.bus with holdFrom := none, rest := none } }))

/-- With CORE working and the register powered: a read of ERR_CNT, LINK_ERR, LOOP[k].FAULT_CNT or TILE[t].TRIP_STAT by either
host sends the counters as they stood and clears them, TRIP_STAT with the level of the trip input at the read; a read of
EV_DCNT sends the selected source's count, clears it and steps the index where it auto-increments. Nothing else outside the
bus interface changes. (00_scope.md (R6), 12_telemetry_events.md (R397), 13_management_bus.md (R404, R409)) -/
def Obligations.ClearingReadSendsThenClears : Prop :=
  ∀ (h : HostId) (s : State), coreOn s = true → s.bus.holdFrom = none →
      (regLive s .errCnt = true → ∃ t, exec (.clearingRead h (.one (BitVec.ofNat 16 Reg.errCnt.addr) .ok)) s = .next t
        ∧ t.bus.rdata = readReg s h .errCnt ∧ t.bus.protoCnt = 0 ∧ t.bus.pecCnt = 0 ∧ t.bus.toutCnt = 0 ∧ t.bus.relCnt = 0 ∧ Within [.bus] s t)
      ∧ (regLive s .linkErr = true → ∃ t, exec (.clearingRead h (.one (BitVec.ofNat 16 Reg.linkErr.addr) .ok)) s = .next t
        ∧ t.bus.rdata = readReg s h .linkErr ∧ t.link = { s.link with crcCnt := 0, frmCnt := 0, dupCnt := 0, sovfCnt := 0 }
        ∧ Within [.bus, .link] s t)
      ∧ (∀ k : RailId, regLive s (.loop k .faultCnt) = true →
        ∃ t, exec (.clearingRead h (.one (BitVec.ofNat 16 (Reg.loop k .faultCnt).addr) .ok)) s = .next t ∧ t.bus.rdata = readReg s h (.loop k .faultCnt)
          ∧ t.rail k = { s.rail k with prot := { (s.rail k).prot with cntOv := 0, cntUv := 0, cntOcr := 0, cntThr := 0 } }
          ∧ OtherRails k s t ∧ Within [.bus, .rails] s t)
      ∧ (∀ u : TileId, regLive s (.tile u .tripStat) = true →
        ∀ trips : BitVec 48,
        let seen := s.modTile u fun x => { x with trip := { x.trip with active := trips.getLsbD u.val } }
        ∃ t, exec (.clearingRead h { ReadAccess.one (BitVec.ofNat 16 (Reg.tile u .tripStat).addr) .ok with trips := trips }) s = .next t
          ∧ t.bus.rdata = readReg seen h (.tile u .tripStat)
          ∧ t.tile u = { s.tile u with trip := { (s.tile u).trip with count := 0, active := trips.getLsbD u.val } } ∧ OtherTiles u s t ∧ Within [.bus, .tiles] s t)
      ∧ (regLive s .evDcnt = true → ∃ t, exec (.evDcntRead h) s = .next t ∧ t.bus.rdata = readReg s h .evDcnt
        ∧ (t.source (fld (s.host h).evDidx 7 0)).count = 0 ∧ (t.host h).evDidx = evStep (s.host h).evDidx
        ∧ (∀ e : SourceId, e.val ≠ fld (s.host h).evDidx 7 0 → t.source e.val = s.source e.val) ∧ t.ev.queue = s.ev.queue
        ∧ Within [.bus, .ev] s t)

/-- A word written to EV_LATCH[i] that lands, from either host and without the claim, clears exactly the latches of its 1 bits; a
source that has occurred and latched in the same housekeeping cycle keeps its latch, details, counts and the queue stay, and
ALERT_N, where it was low, stays low in that cycle. PK_CLR sets every held peak to its latest judged value (0 where none). A
read of a rail's voltage peak register does the same for that peak alone after sending it. (12_telemetry_events.md (R380,
R385, R386)) -/
def Obligations.LatchesAndPeaksClear : Prop :=
  ∀ (h : HostId) (s : State),
      (∀ (i : Fin 8) (w : Word), WordLands s h (.evLatch i) w → ∃ t, exec (.evLatchClear h i w) s = .next t
        ∧ (∀ e : SourceId, t.source e.val =
            if e.val / 32 = i.val ∧ bitOf w (e.val % 32) = true ∧ ¬((s.source e.val).cycle = some (cycleOf s) ∧ evEn s e.val = true ∧ evLatchEn s e.val = true)
            then { s.source e.val with latch := false } else s.source e.val)
        ∧ t.ev.queue = s.ev.queue ∧ (s.pwr.phase = .up → alerts s = true → alertN t = false) ∧ Within [.bus, .ev] s t)
      ∧ (WordLands s h .telCtl 1 → ∃ t, exec (.pkClr h) s = .next t
        ∧ (∀ k : RailId, (t.tel.railPeaks.get k).v = (s.tel.railPeaks.get k).v.clear ∧ (t.tel.railPeaks.get k).i = (s.tel.railPeaks.get k).i.clear
            ∧ (t.tel.railPeaks.get k).p = (s.tel.railPeaks.get k).p.clear ∧ (t.tel.railPeaks.get k).t = (s.tel.railPeaks.get k).t.clear)
        ∧ (∀ u : TileId, (t.tel.tilePeaks.get u).i = (s.tel.tilePeaks.get u).i.clear ∧ (t.tel.tilePeaks.get u).t = (s.tel.tilePeaks.get u).t.clear)
        ∧ t.tel.pub = s.tel.pub ∧ Within [.bus, .tel] s t)
      ∧ ∀ k : RailId, s.pwr.phase = .up → s.bus.holdFrom = none → ∃ t, exec (.peakClearingRead h (.one (BitVec.ofNat 16 (Reg.trVpeak k).addr) .ok)) s = .next t
        ∧ t.bus.rdata = readReg s h (.trVpeak k) ∧ (t.tel.railPeaks.get k).v = (s.tel.railPeaks.get k).v.clear
        ∧ (∀ j : RailId, j ≠ k → t.tel.railPeaks.get j = s.tel.railPeaks.get j) ∧ t.tel.tilePeaks = s.tel.tilePeaks ∧ Within [.bus, .tel] s t

/-- After boot a telemetry sample adds one to the running window: each rail whose loop group is powered adds its voltage and
current (0 in OFF, SAFE and HICCUP), and each ACTIVE or READY tile with a valid current adds it. When the window is complete
it is published and a new one begins; while a transaction addresses the telemetry block the published window stays and the
ended one waits, replacing one that waits already (SKIP counts it); SEQ advances by the windows ended. Before the window is
complete its end does nothing. A waiting window is published at the swap once no transaction addresses the block. A read of
TR[k].POWER sends the published sum over its count of samples, rounded toward zero, and 0 without a sample.
(12_telemetry_events.md (R375, R377, R378)) -/
def Obligations.TelemetryWindowsPublishWhole : Prop :=
  ∀ s : State, s.pwr.phase = .up →
      (∃ t, exec .telemetrySample s = .next t ∧ t.tel.samples = s.tel.samples + 1 ∧ t.tel.pub = s.tel.pub
        ∧ (∀ k : RailId, (t.tel.cur.rails.get k).n = (s.tel.cur.rails.get k).n + (if groupOn s k = true then 1 else 0)
            ∧ (t.tel.cur.rails.get k).v = (s.tel.cur.rails.get k).v + (if groupOn s k = true then (s.rail k).fe.vout else 0)
            ∧ (t.tel.cur.rails.get k).i = (s.tel.cur.rails.get k).i + (if groupOn s k = true then telCurrent s k else 0))
        ∧ (∀ u : TileId, ((s.tile u).act = .active ∨ (s.tile u).act = .ready) → (s.tile u).sen.valid = true →
            (t.tel.cur.tiles.get u).i = (s.tel.cur.tiles.get u).i + (s.tile u).sen.itile)
        ∧ Within [.tel, .ka] s t)
      ∧ (0 < windowLen s → windowLen s ≤ s.tel.samples → ∃ t, exec .telemetryWindowEnd s = .next t ∧ t.tel.samples = 0
        ∧ (telBusy s = false → t.tel.wait = none ∧ t.tel.seq = t.tel.pub.seq
            ∧ (s.tel.wait = none → t.tel.pub = { s.tel.cur with seq := (s.tel.seq + 1) % 65536 })
            ∧ (∀ w, s.tel.wait = some w → t.tel.pub = { s.tel.cur with seq := ((s.tel.seq + w.seq) % 65536 + 1) % 65536 }))
        ∧ (telBusy s = true → t.tel.pub = s.tel.pub ∧ t.tel.seq = s.tel.seq
            ∧ (s.tel.wait = none → t.tel.wait = some { s.tel.cur with seq := 1 } ∧ t.tel.skip = s.tel.skip)
            ∧ (∀ w, s.tel.wait = some w → t.tel.wait = some { s.tel.cur with seq := w.seq + 1 } ∧ t.tel.skip = satInc s.tel.skip 255))
        ∧ Within [.tel] s t)
      ∧ (windowLen s = 0 ∨ s.tel.samples < windowLen s → exec .telemetryWindowEnd s = .next s)
      ∧ (∀ w, s.tel.wait = some w → ∃ t, exec .telemetrySwap s = .next t ∧ Within [.tel] s t
        ∧ (if telBusy s = true then t = s else t.tel.pub = { w with seq := (s.tel.seq + w.seq) % 65536 } ∧ t.tel.wait = none))
      ∧ ∀ (h : HostId) (k : RailId), s.bus.holdFrom = none →
        ∃ t, exec (.clearingRead h (.one (BitVec.ofNat 16 (Reg.trPower k).addr) .ok)) s = .next t ∧ Within [.bus] s t
          ∧ t.bus.rdata = BitVec.ofInt 32 (if (s.tel.pub.rails.get k).n = 0 then 0 else (s.tel.pub.rails.get k).p.tdiv (s.tel.pub.rails.get k).n)

/-- For the VIO warning (98) and the pre-regulator fault (99) with CORE working, the source staying inside the event system and
not yet occurred in this housekeeping cycle: with EN = 1 the detail is 0, the count steps (saturating), and the latch is set
if LATCH = 1, else unchanged; with JRNL = 1 too the entry is in the queue while it has room, and in a queue of 512 the
overflow counter steps and the queue stays. With EN = 0 no detail, count or latch changes and nothing enters the queue. Every
other source and everything outside the event system stays. A second occurrence in the same cycle changes nothing.
(01_architecture.md (R26, R27), 11_supply_clocks_power_states.md (R363), 12_telemetry_events.md (R383, R384)) -/
def Obligations.OccurrenceSetsDetailCountLatchAndQueue : Prop :=
  ∀ (c : Instr) (e : SourceId) (s : State), (c = .vioWarning ∧ e.val = 98 ∨ c = .preregFault ∧ e.val = 99) → coreOn s = true → Quiet s e.val →
      (occurredNow s e.val = true → exec c s = .next s)
      ∧ (occurredNow s e.val = false → ∃ t, exec c s = .next t ∧ Within [.ev] s t
        ∧ (∀ f : SourceId, f ≠ e → t.source f.val = s.source f.val)
        ∧ (evEn s e.val = true → (t.source e.val).detail = 0 ∧ (t.source e.val).count = satInc (s.source e.val).count 65535
            ∧ (t.source e.val).latch = ((s.source e.val).latch || evLatchEn s e.val))
        ∧ (evEn s e.val = false → (t.source e.val).detail = (s.source e.val).detail ∧ (t.source e.val).count = (s.source e.val).count
            ∧ (t.source e.val).latch = (s.source e.val).latch)
        ∧ (evEn s e.val = true → evJrnl s e.val = true →
            if s.ev.queue.length < 512 then t.ev.queue.length = s.ev.queue.length + 1 ∧ ∃ q ∈ t.ev.queue, q.id = e.val ∧ q.detail = 0 ∧ q.cyc = cycleOf s
            else t.ev.queue = s.ev.queue ∧ t.ev.ovfCnt = satInc s.ev.ovfCnt 255)
        ∧ ((evEn s e.val && evJrnl s e.val) = false → t.ev.queue = s.ev.queue))

/-- A word REQ = ON that lands, without a die shutdown: CMD.REQ reads ON, a host stop that waits is withdrawn (that ON withdraws
it is log 62, the model's choice), and nothing else of the rail, no other rail and no tile changes; with CLEAR it also takes
a rail in SAFE, whose cause and class bits allow it, to OFF with cause 9, no tile of it ACTIVE or READY. A CLEAR outside SAFE
does nothing (log 62); a CLEAR that a class bit or a persisting cause refuses (which causes persist is log 42, the model's
choice) counts one refused write, and the ON beside it acts (R7, log 138). During a die shutdown the word is refused and
counted once. (00_scope.md (R7), 08_rail_start_stop.md (R236, R253, R258), 09_protection_tail_drop.md (R271),
10_thermal_housekeeping.md (R329)) -/
def Obligations.OnRequestStandsUnlessDieShutdown : Prop :=
  ∀ (h : HostId) (k : RailId) (s : State), s.Canonical → NoWatch s k →
      (WordLands s h (.loop k .cmd) 1 → s.hk.tsd = false → ∃ t, exec (.railOn h k false) s = .next t ∧ reqOn t k = true
        ∧ t.rail k = { s.rail k with seq := { (s.rail k).seq with stopWait :=
            match (s.rail k).seq.stopWait with | some (false, 1) => none | w => w } }
        ∧ OtherRails k s t ∧ Within [.bus, .settings, .rails] s t)
      ∧ (WordLands s h (.loop k .cmd) 0x11#32 → railSt s k = .safe → clearRefused s k = false → s.hk.tsd = false →
        ∃ t, exec (.railOn h k true) s = .next t ∧ reqOn t k = true ∧ railSt t k = .off ∧ (t.rail k).seq.cause = 9
          ∧ (∀ u, (s.tile u).rail = some k → (t.tile u).act ≠ .active ∧ (t.tile u).act ≠ .ready)
          ∧ OtherSets k s t ∧ Within [.bus, .settings, .rails, .tiles] s t)
      ∧ (∀ clear : Bool, WordLands s h (.loop k .cmd) (if clear = true then 0x11#32 else 1) → s.hk.tsd = true →
        exec (.railOn h k clear) s = .next (refuse h (s.opened h (Reg.loop k .cmd).addr)))
      ∧ (WordLands s h (.loop k .cmd) 0x11#32 → s.hk.tsd = false → clearRefused s k = true ∨ railSt s k ≠ .safe →
        ∃ t, exec (.railOn h k true) s = .next t ∧ reqOn t k = true
          ∧ (t.host h).refCnt = (if clearRefused s k = true then satInc (s.host h).refCnt 65535 else (s.host h).refCnt)
          ∧ t.rail k = { s.rail k with seq := { (s.rail k).seq with stopWait :=
              match (s.rail k).seq.stopWait with | some (false, 1) => none | w => w } }
          ∧ OtherRails k s t ∧ Within [.bus, .settings, .rails] s t)

/-- A word REQ = OFF that lands while no stop waits anywhere and the rail's settle watch is closed: REQ reads OFF. In OFF, SAFE
and STOPPING no rail changes. In HICCUP, and in PREPARE at once, the rail enters OFF with cause 1. In SOFTSTART, REGULATE and
SLEW, with the dependency met and no Leap, it enters STOPPING toward OFF with end point min(STOP_FLOOR, REF), PGOOD falls and
its ACTIVE tiles emulate diodes. Otherwise the stop waits and the state stays. Other rails keep their states, tiles of other
rails are untouched. (07_leap_response.md (R225), 08_rail_start_stop.md (R236, R249, R250, R255, R258)) -/
def Obligations.OffRequestStopsInOrder : Prop :=
  ∀ (h : HostId) (k : RailId) (s : State), s.Canonical → WordLands s h (.loop k .cmd) 0 → (∀ j, (s.rail j).seq.stopWait = none) →
      NoWatch s k →
      ∃ t, exec (.railOff h k) s = .next t ∧ reqOn t k = false ∧ (∀ j, j ≠ k → railSt t j = railSt s j) ∧ OtherSets k s t
        ∧ Within [.bus, .settings, .rails, .tiles] s t
        ∧ (match railSt s k with
          | .off | .safe | .stopping => t.rails = s.rails ∧ t.tiles = s.tiles
          | .hiccup => railSt t k = .off ∧ (t.rail k).seq.cause = 1
          | .prepare => railSt t k = .off ∧ (t.rail k).seq.cause = 1
          | .softstart | .regulate | .slew =>
            if leapActive s k = false ∧ stopDepOk s k = true then
              railSt t k = .stopping ∧ (t.rail k).seq.stopSafe = false ∧ (t.rail k).seq.stopCause = 1 ∧ (t.rail k).seq.pgood = false
                ∧ (t.rail k).seq.stopEnd = min (stopFloor s k) (refCode s k)
                ∧ ∀ u, (s.tile u).rail = some k → (s.tile u).act = .active → (t.tile u).emulating = true
            else railSt t k = railSt s k ∧ (t.rail k).seq.stopWait = some (false, 1))

/-- A word REQ = KILL that lands (no stop waiting, settle watch closed) takes a rail that is not OFF to OFF with cause 2 and
PGOOD low at once: no tile of it stays ACTIVE or READY, those that were have both outputs low from the next tick on, REQ
reads OFF. A rail already OFF only has its request cleared. A word CLEAR that lands takes a rail in SAFE to OFF with cause 9,
unless a die shutdown, a set class bit or a persisting cause refuses it (log 42): then it counts one refused write and only
its REQ = OFF acts (R7, log 138); in OFF and STOPPING a CLEAR does nothing but that (log 62). A word KILL with CLEAR takes a
rail in SAFE whose CLEAR is accepted to OFF with cause 9 and every other rail that is not OFF with cause 2, and counts one
refused write where its CLEAR is refused. Other rails keep their states, their tiles are untouched. (00_scope.md (R7),
08_rail_start_stop.md (R236, R253, R258), 09_protection_tail_drop.md (R271), 10_thermal_housekeeping.md (R329)) -/
def Obligations.KillAndClearLeaveOff : Prop :=
  ∀ (h : HostId) (k : RailId) (s : State), s.Canonical → (∀ j, (s.rail j).seq.stopWait = none) → NoWatch s k →
      (WordLands s h (.loop k .cmd) 2 → railSt s k ≠ .off → ∃ t, exec (.railKill h k false) s = .next t ∧ railSt t k = .off
        ∧ (t.rail k).seq.cause = 2 ∧ (t.rail k).seq.pgood = false ∧ reqOn t k = false
        ∧ (∀ u, (s.tile u).rail = some k → (t.tile u).act ≠ .active ∧ (t.tile u).act ≠ .ready)
        ∧ (∀ u, (s.tile u).rail = some k → (s.tile u).act = .active ∨ (s.tile u).act = .ready →
            ∀ x : Int, (s.now : Int) + 16 ≤ x → highAt (t.tile u).edg x = false ∧ lowAt (t.tile u).edg x = false)
        ∧ (∀ j, j ≠ k → railSt t j = railSt s j) ∧ OtherSets k s t ∧ Within [.bus, .settings, .rails, .tiles] s t)
      ∧ (WordLands s h (.loop k .cmd) 2 → railSt s k = .off → ∃ t, exec (.railKill h k false) s = .next t ∧ reqOn t k = false
        ∧ Within [.bus, .settings] s t)
      ∧ (WordLands s h (.loop k .cmd) 0x10#32 → railSt s k = .safe → clearRefused s k = false → ∃ t, exec (.railClear h k) s = .next t
        ∧ railSt t k = .off ∧ (t.rail k).seq.cause = 9 ∧ (∀ j, j ≠ k → railSt t j = railSt s j) ∧ OtherSets k s t
        ∧ Within [.bus, .settings, .rails, .tiles] s t)
      ∧ (WordLands s h (.loop k .cmd) 0x10#32 → (railSt s k = .safe ∧ clearRefused s k = true) ∨ railSt s k = .off ∨ railSt s k = .stopping →
        ∃ t, exec (.railClear h k) s = .next t ∧ reqOn t k = false ∧ t.rails = s.rails ∧ t.tiles = s.tiles
          ∧ (t.host h).refCnt = (if clearRefused s k = true then satInc (s.host h).refCnt 65535 else (s.host h).refCnt)
          ∧ Within [.bus, .settings] s t)
      ∧ (WordLands s h (.loop k .cmd) 0x12#32 → railSt s k ≠ .off → ∃ t, exec (.railKill h k true) s = .next t ∧ railSt t k = .off
        ∧ (t.rail k).seq.cause = (if railSt s k = .safe ∧ clearRefused s k = false then 9 else 2) ∧ reqOn t k = false
        ∧ (t.host h).refCnt = (if clearRefused s k = true then satInc (s.host h).refCnt 65535 else (s.host h).refCnt)
        ∧ (∀ u, (s.tile u).rail = some k → (t.tile u).act ≠ .active ∧ (t.tile u).act ≠ .ready)
        ∧ (∀ j, j ≠ k → railSt t j = railSt s j) ∧ OtherSets k s t ∧ Within [.bus, .settings, .rails, .tiles] s t)

/-- A rail in OFF that meets every start condition (among them that the device is not leaving RUN, log 136), and a rail in HICCUP
whose HICCUP_T has passed and that meets them, enters PREPARE at this instant: its preparation is not yet complete, its
reference carrier runs, a start from OFF sets DTHR to DMAX; other rails and the tiles of other rails are untouched. (For the
case that every sensor of the rail's ports that has a round reading agrees with the median of at least two neighbours, so
that the cross-check of PREPARE excludes no tile.) Where the map is in use and its word reads with two wrong bits (event 224
staying inside the event system), PREPARE takes the safe entry and marks the word. Where all the rail's tiles, COLD, lie on
one port whose sensor the cross-check finds broken, they are EXCLUDED and the rail enters SAFE with cause 7 in place of
PREPARE. If a start condition fails, nothing changes. (06_moult_operating_map.md (R194), 08_rail_start_stop.md (R237, R238,
R248), 09_protection_tail_drop.md (R278), 10_thermal_housekeeping.md (R325, R326, R330, R332, R333)) -/
def Obligations.StartAndRetryEnterPrepare : Prop :=
  ∀ (k : RailId) (s : State),
      ((∀ c ∈ railPorts s k, ∀ v, roundOf s c = some v → offMedian s c v = false ∧ 2 ≤ (neighbours s c).length ∧ (s.chan c).broken = false) →
          startOk s k = true →
        (railSt s k = .off → ∃ t, exec (.railStart k .ok) s = .next t ∧ railSt t k = .prepare ∧ (t.rail k).seq.prepFrom = s.now
          ∧ (t.rail k).seq.prepDone = none ∧ (t.rail k).seq.pbDone = false ∧ (t.rail k).car.running = true
          ∧ (t.rail k).prot.dthr = (dmax s k).toNat ∧ OtherRails k s t ∧ OtherSets k s t ∧ t.settings = s.settings ∧ t.ev = s.ev)
        ∧ (railSt s k = .hiccup → (s.rail k).seq.hiccupFrom + ms (hiccupT s k) ≤ s.now → ∃ t, exec (.hiccupRetry k .ok) s = .next t
          ∧ railSt t k = .prepare ∧ (t.rail k).seq.prepFrom = s.now ∧ (t.rail k).seq.retry = (s.rail k).seq.retry
          ∧ (t.rail k).car.running = true ∧ OtherRails k s t ∧ OtherSets k s t ∧ t.settings = s.settings ∧ t.ev = s.ev)
        ∧ (railSt s k = .off → Quiet s 224 → ∃ t, exec (.railStart k .double) s = .next t ∧ railSt t k = .prepare
          ∧ (rgEn s k = true → s.map.bad.contains (mapWord (t.rail k).mo.entryIdx) = false → (t.rail k).mo.safe = true
            ∧ (t.rail k).mo.entry = safeEntry s k ∧ t.map.dbeFlag = true ∧ t.map.bad = mapWord (t.rail k).mo.entryIdx :: s.map.bad)
          ∧ OtherRails k s t ∧ OtherSets k s t ∧ t.settings = s.settings))
      ∧ (∀ (c : ChanId) (v : Int), railPorts s k = [c] → (∀ u, (portOf u).val = c.val → (s.tile u).rail = some k) →
          (∀ u, (s.tile u).rail = some k → (s.tile u).act = .cold) → roundOf s c = some v → offMedian s c v = true → (s.chan c).broken = false →
          Quiet s 95 → Quiet s (chSource c) → (∀ j, (s.rail j).seq.stopWait = none) → NoWatch s k →
          railSt s k = .off → startOk s k = true →
        ∃ t, exec (.railStart k .ok) s = .next t ∧ railSt t k = .safe ∧ (t.rail k).seq.cause = 7 ∧ (t.chan c).broken = true ∧ (t.chan c).bcause = 3
          ∧ (∀ u, (s.tile u).rail = some k → (t.tile u).act = .excluded ∧ (t.tile u).reason = 14) ∧ OtherSets k s t
          ∧ (∀ j, j ≠ k → railSt t j = railSt s j))
      ∧ ∀ ecc : Ecc, (¬(railSt s k = .off ∧ startOk s k = true) → exec (.railStart k ecc) s = .next s)
        ∧ (¬(railSt s k = .hiccup ∧ (s.rail k).seq.hiccupFrom + ms (hiccupT s k) ≤ s.now ∧ startOk s k = true) →
            exec (.hiccupRetry k ecc) s = .next s)

/-- Each of four timed commands of rail k acts exactly when due and else leaves the state as it is: the start dependency is met
SEQ_DLY after its PGOOD; a pre-bias wait of 100 ms latches its event once and waits on; HICCUP_T in REGULATE or SLEW clears
RETRY; PG_DLY in window in REGULATE or SLEW asserts PGOOD (and ends diode emulation where DE_END says so). Only the rail's
sequencer (for PGOOD also the dependents' times, for the wait also event 48 + k) changes. (08_rail_start_stop.md (R240, R247,
R252, R255)) -/
def Obligations.RailTimersActWhenDue : Prop :=
  ∀ (k : RailId) (s : State),
      (∀ f, (s.rail k).seq.depFrom = some f → exec (.seqDelayExpiry k) s = .next
        (if sdepEn s k = true ∧ (s.rail (startDep s k)).seq.pgood = true ∧ f + us (10 * seqDly s k) ≤ s.now
          then s.modSeq k fun q => { q with depMet := true } else s))
      ∧ ((s.rail k).seq.depFrom = none → exec (.seqDelayExpiry k) s = .next s)
      ∧ (Quiet s (48 + k.val) → (s.rail k).seq.state = .prepare → (s.rail k).seq.pbHigh = true → (s.rail k).seq.pbTold = false →
        (s.rail k).seq.pbWaitFrom + ms 100 ≤ s.now → ∃ t, exec (.prebiasWaitTimeout k) s = .next t
          ∧ t.rail k = { s.rail k with seq := { (s.rail k).seq with pbTold := true } } ∧ OtherRails k s t ∧ Within [.rails, .ev] s t
          ∧ (evEn s (48 + k.val) = true → evLatchEn s (48 + k.val) = true → occurredNow s (48 + k.val) = false →
              (t.source (48 + k.val)).latch = true))
      ∧ ((s.rail k).seq.state ≠ .prepare ∨ (s.rail k).seq.pbHigh = false ∨ (s.rail k).seq.pbTold = true
            ∨ s.now < (s.rail k).seq.pbWaitFrom + ms 100 → exec (.prebiasWaitTimeout k) s = .next s)
      ∧ exec (.retryClear k) s = .next
          (if steady (railSt s k) = true ∧ (s.rail k).seq.steadyFrom + ms (hiccupT s k) ≤ s.now
            then s.modSeq k fun q => { q with retry := 0 } else s)
      ∧ (∀ f, (s.rail k).seq.winFrom = some f → steady (railSt s k) = true → (s.rail k).seq.pgood = false → f + us (10 * pgDly s k) ≤ s.now →
        ∃ t, exec (.pgoodAssert k) s = .next t ∧ (t.rail k).seq.pgood = true
          ∧ (t.rail k).seq.deEnded = ((s.rail k).seq.deEnded || deEnd s k) ∧ (∀ j, railSt t j = railSt s j) ∧ Within [.rails] s t)
      ∧ ((s.rail k).seq.winFrom = none ∨ (∃ f, (s.rail k).seq.winFrom = some f ∧ s.now < f + us (10 * pgDly s k)) ∨ steady (railSt s k) = false
            ∨ (s.rail k).seq.pgood = true → exec (.pgoodAssert k) s = .next s)

/-- A rail in PREPARE whose preloaded update has been aimed enters SOFTSTART at V1, the next reference valley: REF starts from
the pre-bias, PREPARE's completion mark goes, its ACTIVE tiles emulate diodes unless the pre-bias is above the target and
discharging is allowed, the starts counter of the rail (R381; counter 8 + k of R508) takes one increment, and other rails and
their tiles stay. Any other rail is unchanged by the command. (08_rail_start_stop.md (R238, R239, R241),
12_telemetry_events.md (R381), 16_nvm_records.md (R508)) -/
def Obligations.SoftstartBeginsAtThePreloadedValley : Prop :=
  ∀ (k : RailId) (s : State),
      ((s.rail k).seq.state = .prepare → (s.rail k).eng.aimed = true → ∃ t, exec (.softstartEntry k) s = .next t ∧ railSt t k = .softstart
        ∧ (t.rail k).eng.ref = (s.rail k).seq.pb * 65536 ∧ (t.rail k).seq.prepDone = none ∧ (t.rail k).seq.trackMax = 0
        ∧ (t.rail k).seq.v1 = (if (s.rail k).car.atPeak = true then (s.rail k).car.nextValley else ((s.rail k).car.toPeak true).nextValley)
        ∧ t.now = max s.now (t.rail k).seq.v1.toNat
        ∧ (∀ u, (s.tile u).rail = some k → (s.tile u).act = .active →
            (t.tile u).emulating = !(pbDisch s k && decide (target s k < (s.rail k).seq.pb)))
        ∧ t.ka.pend.get (finOf 73 (by decide) (8 + k.val)) = s.ka.pend.get (finOf 73 (by decide) (8 + k.val)) + 1
        ∧ OtherRails k s t ∧ OtherSets k s t ∧ Within [.now, .rails, .tiles, .ka] s t)
      ∧ (¬((s.rail k).seq.state = .prepare ∧ (s.rail k).eng.aimed = true) → exec (.softstartEntry k) s = .next s)

/-- With no stop waiting anywhere and the rail's settle watch closed: a shortfall longer than TRACK_T in SOFTSTART increments
RETRY and takes the rail to HICCUP with cause 4, or to SAFE with cause 5 where RETRY exceeds RETRY_N. A rail in STOPPING at
its end point with all tiles low enters OFF, or SAFE where it was a fault's stop, with the stop's cause. An inactive LENk
level takes a rail under immediate mode (LEN_MODE = 1) that is not OFF to OFF with cause 3 at once, no tile of it ACTIVE or
READY. Under LEN_MODE = 0 a level that becomes inactive asks for an orderly stop with cause 3: PREPARE goes to OFF, a rail in
SOFTSTART, REGULATE or SLEW begins STOPPING with the stop dependency met and no Leap, else the stop waits; OFF, SAFE, HICCUP
and STOPPING stay. Any other level changes the accepted level only. Other rails keep their states, and their tiles stay.
(08_rail_start_stop.md (R246, R247, R249, R250, R254)) -/
def Obligations.FailedAndFinishedRailsTurnOff : Prop :=
  ∀ (k : RailId) (s : State), (∀ j, (s.rail j).seq.stopWait = none) → NoWatch s k →
      (∀ f, (s.rail k).seq.shortFrom = some f → railSt s k = .softstart → trackT s k ≠ 0 → f + us (trackT s k) < s.now → Quiet s (48 + k.val) →
        ∃ t, exec (.trackFailure k) s = .next t ∧ OtherSets k s t ∧ (∀ j, j ≠ k → railSt t j = railSt s j)
          ∧ Within [.rails, .tiles, .ev] s t
          ∧ (let n := satInc (s.rail k).seq.retry 255
             if retryN s k < n ∧ retryN s k ≠ 255 then railSt t k = .safe ∧ (t.rail k).seq.cause = 5
             else railSt t k = .hiccup ∧ (t.rail k).seq.cause = 4 ∧ (t.rail k).seq.retry = n))
      ∧ ((s.rail k).seq.shortFrom = none ∨ (∃ f, (s.rail k).seq.shortFrom = some f ∧ s.now ≤ f + us (trackT s k)) ∨ railSt s k ≠ .softstart
          ∨ trackT s k = 0 → exec (.trackFailure k) s = .next s)
      ∧ (railSt s k = .stopping → (s.rail k).seq.stopReached = true →
          (∀ u, (s.tile u).rail = some k → (s.tile u).act = .active → (s.tile u).lowed = true) →
        ∃ t, exec (.stoppingComplete k) s = .next t ∧ railSt t k = (if (s.rail k).seq.stopSafe = true then .safe else .off)
          ∧ (t.rail k).seq.cause = (s.rail k).seq.stopCause ∧ OtherSets k s t ∧ (∀ j, j ≠ k → railSt t j = railSt s j)
          ∧ Within [.rails, .tiles] s t)
      ∧ (railSt s k ≠ .stopping ∨ (s.rail k).seq.stopReached = false
          ∨ (∃ u, (s.tile u).rail = some k ∧ (s.tile u).act = .active ∧ (s.tile u).lowed = false) → exec (.stoppingComplete k) s = .next s)
      ∧ (∀ level : Bool, coreOn s = true →
        let pin := s.modSeq k fun q => { q with lenPin := some level }
        (lenEn s k = true → level ≠ lenPol s k → lenMode s k = true →
          (railSt s k ≠ .off → ∃ t, exec (.lenChange k level) s = .next t ∧ railSt t k = .off ∧ (t.rail k).seq.cause = 3
            ∧ (t.rail k).seq.pgood = false ∧ (t.rail k).seq.lenPin = some level
            ∧ (∀ u, (s.tile u).rail = some k → (t.tile u).act ≠ .active ∧ (t.tile u).act ≠ .ready)
            ∧ (∀ j, j ≠ k → railSt t j = railSt s j) ∧ OtherSets k s t ∧ Within [.rails, .tiles] s t)
          ∧ (railSt s k = .off → exec (.lenChange k level) s = .next pin))
        ∧ (lenEn s k = true → level ≠ lenPol s k → lenMode s k = false → lenActive s k = true →
          match railSt s k with
          | .off | .safe | .hiccup | .stopping => exec (.lenChange k level) s = .next pin
          | .prepare => ∃ t, exec (.lenChange k level) s = .next t ∧ railSt t k = .off ∧ (t.rail k).seq.cause = 3
              ∧ (t.rail k).seq.lenPin = some level ∧ (∀ j, j ≠ k → railSt t j = railSt s j) ∧ OtherSets k s t ∧ Within [.rails, .tiles] s t
          | .softstart | .regulate | .slew =>
            if leapActive s k = false ∧ stopDepOk s k = true then
              ∃ t, exec (.lenChange k level) s = .next t ∧ railSt t k = .stopping ∧ (t.rail k).seq.stopSafe = false ∧ (t.rail k).seq.stopCause = 3
                ∧ (t.rail k).seq.pgood = false ∧ (t.rail k).seq.stopEnd = min (stopFloor s k) (refCode s k) ∧ (t.rail k).seq.lenPin = some level
                ∧ (∀ u, (s.tile u).rail = some k → (s.tile u).act = .active → (t.tile u).emulating = true)
                ∧ (∀ j, j ≠ k → railSt t j = railSt s j) ∧ OtherSets k s t ∧ Within [.rails, .tiles] s t
            else exec (.lenChange k level) s = .next (s.modSeq k fun q => { q with lenPin := some level, stopWait := some (false, 3) }))
        ∧ (lenEn s k = false ∨ level = lenPol s k ∨ (lenActive s k = false ∧ lenMode s k = false) →
          exec (.lenChange k level) s = .next pin))
      ∧ (coreOn s = false → ∀ level : Bool, exec (.lenChange k level) s = .next s)

/-- An ADMIT word that lands: with another generation than the tile's it changes nothing but CREF and the refused count. With the
right one, where R292 allows it, ADMIT brings the tile back to its rail's set as COLD (reason 7, pending request and detector
counts cleared) and EXCLUDE takes a COLD, READY or DROPPED tile to EXCLUDED (reason 6) at once, while an ACTIVE one keeps
running with the request pending; both enter a record in the event queue where it has room. Where it does not allow it, only
the refused count changes. Every other tile stays. (09_protection_tail_drop.md (R291, R292, R293, R294, R315),
17_journal_recorder_queues.md (R529)) -/
def Obligations.AdmitAndExcludeAreConditional : Prop :=
  ∀ (h : HostId) (u : TileId) (gen : BitVec 16) (s : State),
      (WordLands s h (.tile u .admission) (word (gen.toNat + 0x10000)) →
        (gen ≠ (s.tile u).gen → ∃ t, exec (.tileAdmit h u gen) s = .next t
          ∧ t.tile u = { s.tile u with cref := satInc (s.tile u).cref 255 } ∧ OtherTiles u s t
          ∧ (t.host h).refCnt = satInc (s.host h).refCnt 65535 ∧ Within [.bus, .tiles] s t)
        ∧ (gen = (s.tile u).gen → admitAllowed s u = true → ∃ t, exec (.tileAdmit h u gen) s = .next t ∧ (t.tile u).act = .cold
          ∧ (t.tile u).reason = 7 ∧ (t.tile u).gen = gen + 1 ∧ (t.tile u).reqOut = false ∧ (t.tile u).prot.ocHi = 0
          ∧ (t.tile u).prot.openCnt = 0 ∧ (t.tile u).hea.lUpd = 0 ∧ OtherTiles u s t ∧ Within [.bus, .tiles, .ev] s t
          ∧ (s.ev.queue.length < 512 → t.ev.queue.length = s.ev.queue.length + 1))
        ∧ (gen = (s.tile u).gen → admitAllowed s u = false →
          exec (.tileAdmit h u gen) s = .next (refuse h (s.opened h (Reg.tile u .admission).addr))))
      ∧ (WordLands s h (.tile u .admission) (word (gen.toNat + 0x20000)) → gen = (s.tile u).gen →
        (excludeAllowed s u = true → (s.tile u).act = .active → ∃ t, exec (.tileExclude h u gen) s = .next t
          ∧ t.tile u = { s.tile u with reqOut := true, reqPend := true } ∧ OtherTiles u s t ∧ Within [.bus, .tiles, .ev] s t
          ∧ (s.ev.queue.length < 512 → t.ev.queue.length = s.ev.queue.length + 1))
        ∧ (excludeAllowed s u = true → (s.tile u).act = .cold ∨ (s.tile u).act = .ready ∨ (s.tile u).act = .dropped → (s.tile u).leap.under = false →
          ∃ t, exec (.tileExclude h u gen) s = .next t ∧ (t.tile u).act = .excluded ∧ (t.tile u).reason = 6 ∧ (t.tile u).reqOut = true
            ∧ (t.tile u).gen = gen + 1 ∧ OtherTiles u s t ∧ Within [.bus, .tiles, .rails, .ev] s t
            ∧ (s.ev.queue.length < 512 → t.ev.queue.length = s.ev.queue.length + 1))
        ∧ (excludeAllowed s u = false →
          exec (.tileExclude h u gen) s = .next (refuse h (s.opened h (Reg.tile u .admission).addr))))

/-- A word with CLASS_CLR (the bit that the row sets, log 106) that lands at RAIL_FAULT or FAULT first clears the cause bits it
names: that they clear before CLASS_CLR acts is the model's choice (log 111), R271, R306 and R312 give no order. With a
service arm open it then clears exactly the class bits that have no cause bit left; without an arm no class bit changes and
one refused write is counted. No other rail or tile changes; a change of a class bit is recorded in the event queue and asks
for the fault summary to be written, where the queues have room; else neither changes. (09_protection_tail_drop.md (R271,
R306, R312), 16_nvm_records.md (R507), 17_journal_recorder_queues.md (R529)) -/
def Obligations.ClassBitsClearOnlyUnderAnArm : Prop :=
  ∀ (h : HostId) (s : State),
      (∀ (k : RailId) (w : Word), WordLands s h (.loop k .railFault) (w ||| 0x80000000#32) →
        let fault := (s.rail k).prot.fault &&& ~~~(BitVec.ofNat 7 (w ||| 0x80000000#32).toNat)
        (armOpen s = true → ∃ t, exec (.railClassClear h k w) s = .next t ∧ OtherRails k s t ∧ Within [.bus, .rails, .nvm, .draw, .ev] s t
          ∧ t.rail k = { s.rail k with prot := { (s.rail k).prot with fault := fault, cls := (s.rail k).prot.cls &&& BitVec.ofNat 5 fault.toNat } }
          ∧ (if (t.rail k).prot.cls = (s.rail k).prot.cls then t.ev = s.ev ∧ t.nvm = s.nvm
             else (s.ev.queue.length < 512 → t.ev.queue.length = s.ev.queue.length + 1)
               ∧ (nvmFill s.nvm < 16 → (NvmJob.record 1 false) ∈ t.nvm.queue)))
        ∧ (armOpen s = false → ∃ t, exec (.railClassClear h k w) s = .next t ∧ OtherRails k s t ∧ Within [.bus, .rails] s t
          ∧ t.rail k = { s.rail k with prot := { (s.rail k).prot with fault := fault } }
          ∧ (t.host h).refCnt = satInc (s.host h).refCnt 65535))
      ∧ ∀ (u : TileId) (w : Word), WordLands s h (.tile u .fault) (w ||| 0x8000#32) →
        let fault := (s.tile u).prot.fault &&& ~~~(BitVec.ofNat 8 (w ||| 0x8000#32).toNat)
        (armOpen s = true → ∃ t, exec (.tileClassClear h u w) s = .next t ∧ OtherTiles u s t ∧ Within [.bus, .tiles, .nvm, .draw, .ev] s t
          ∧ t.tile u = { s.tile u with prot := { (s.tile u).prot with fault := fault, cls := (s.tile u).prot.cls &&& tileKeep fault } }
          ∧ (if (t.tile u).prot.cls = (s.tile u).prot.cls then t.ev = s.ev ∧ t.nvm = s.nvm
             else (s.ev.queue.length < 512 → t.ev.queue.length = s.ev.queue.length + 1)
               ∧ (nvmFill s.nvm < 16 → (NvmJob.record 1 false) ∈ t.nvm.queue)))
        ∧ (armOpen s = false → ∃ t, exec (.tileClassClear h u w) s = .next t ∧ OtherTiles u s t ∧ Within [.bus, .tiles] s t
          ∧ t.tile u = { s.tile u with prot := { (s.tile u).prot with fault := fault } }
          ∧ (t.host h).refCnt = satInc (s.host h).refCnt 65535)

/-- A running carrier of a rail's tile that counts up reaches its peak: its fields are those of R42, the hold of a trip ends, the
tripped periods in a row are counted and the TRIP_N-th sets the cause bit (stated for a rail that sets no response and no
class to it; that TRIP fires at the peak which ends that period is log 30, the model's choice), and under a RELOAD that
selects peaks a shadow written at least two ticks before transfers. One that counts down reaches its valley: a period written
at least two ticks before takes effect, as does a setting; a later one waits. ITILE is the mean of the latest two samples,
IMEAN is formed anew where the tile is counted, and the trim integrator takes one saturated step where it counts for balance.
The valley is stated for a tile whose detectors cannot complete at it: of one that does not fade only the tile, the rail's
IMEAN, the time and peak telemetry change; one that fades in or out, no Leap holding it, steps its factor, and is no longer
fading in after eighths reach eight; a shed that has faded to none makes it READY with its slot given up and a re-spacing
due. A stopped carrier (past the cycle of its stop, R269), or one on the other half, stays. (02_phase_tiles_pwm.md (R41, R42,
R52, R54, R60), 03_sensing_front_ends.md (R87), 04_loop_engines.md (R117), 06_moult_operating_map.md (R189, R190, R191),
09_protection_tail_drop.md (R269, R619)) -/
def Obligations.CarriersTurnAtTheirReloadPoints : Prop :=
  ∀ (u : TileId) (k : RailId) (s : State), (s.tile u).rail = some k →
      (let fires := (s.tile u).trip.inPeriod = true ∧ (s.tile u).trip.fired = false ∧ (s.tile u).trip.run + 1 = tripN s k
       (s.tile u).car.running = true → (s.tile u).car.atPeak = false →
          (fires → respCode (loopW s k .respTile) 0 = 0 ∧ respClass (loopW s k .respTile) 0 = false) →
        ∃ t, exec (.carrierPeak u) s = .next t ∧ t.now = max s.now (s.tile u).car.nextPeak.toNat
          ∧ (t.tile u).car = (s.tile u).car.toPeak (glidePaused s k) ∧ (t.tile u).trip.held = false
          ∧ (t.tile u).trip.run = (if (s.tile u).trip.inPeriod = true then (s.tile u).trip.run + 1 else 0)
          ∧ (reloadPeak (s.tile u) = true → (s.tile u).car.waits (s.tile u).car.nextPeak = false → (s.tile u).duty.coming = none →
              (s.tile u).duty.shdPend = true →
            ((s.tile u).duty.shdAt ≤ (s.tile u).car.nextPeak - 32 → (t.tile u).duty.shdPend = false
              ∧ (t.tile u).duty.cmp = (s.tile u).duty.shdCmp ∧ (t.tile u).duty.fine = (s.tile u).duty.shdFine)
            ∧ ((s.tile u).car.nextPeak - 32 < (s.tile u).duty.shdAt → (t.tile u).duty = (s.tile u).duty ∧ (t.tile u).st.late = true))
          ∧ (reloadPeak (s.tile u) = false → (t.tile u).duty = (s.tile u).duty)
          ∧ (t.tile u).act = (s.tile u).act ∧ (t.tile u).fade = (s.tile u).fade
          ∧ (t.tile u).prot = { (s.tile u).prot with fault := if fires then (s.tile u).prot.fault ||| 1 else (s.tile u).prot.fault }
          ∧ OtherTiles u s t ∧ Within [.now, .tiles] s t)
      ∧ (∀ a b : Int, (s.tile u).car.running = true → (s.tile u).car.atPeak = true → (s.tile u).fade = .none →
          (s.tile u).sen.evalid = false → (s.tile u).prot.openCnt < 15 → iRange (s.tile u) = false →
          (s.tile u).sen.iv = some a → (s.tile u).sen.ip = some b →
        let v := valleyCurrent u s
        ∃ t, exec (.carrierValley u) s = .next t ∧ t.now = max s.now (s.tile u).car.nextValley.toNat
          ∧ (t.tile u).car.atPeak = false ∧ (t.tile u).car.time = (s.tile u).car.nextValley
          ∧ (∀ p, (s.tile u).car.pend = some p → (s.tile u).car.coming = none →
            (p.writtenAt ≤ (s.tile u).car.nextValley - 32 →
              (t.tile u).car.prd = p.prd ∧ (t.tile u).car.frac = p.frac ∧ (t.tile u).car.pend = none)
            ∧ ((s.tile u).car.nextValley - 32 < p.writtenAt → (t.tile u).car.prd = (s.tile u).car.prd ∧ (t.tile u).car.pend = some p))
          ∧ (∀ (w : TileSetting × Word × Int), (s.tile u).setWait = [w] → (t.tile u).setWait = (if w.2.2 ≤ (s.tile u).car.nextValley - 32 then [] else [w])
            ∧ (w.1 = .minp → (t.tile u).minpNow = (if w.2.2 ≤ (s.tile u).car.nextValley - 32 then w.2.1 else (s.tile u).minpNow)))
          ∧ (t.tile u).sen.itile = ashr (a + b) 1 ∧ (t.tile u).sen.valid = true
          ∧ (t.tile u).prot.trimAcc =
              (if balEn s k = true ∧ counted (v.tile u) = true ∧ 2 ≤ (countedTiles v k).length ∧ leapActive s k = false then
                sat ((s.tile u).prot.trimAcc + (meanNow v k - ashr (a + b) 1) * kb s k) (-(trimMax s k * 65536)) (trimMax s k * 65536)
              else (s.tile u).prot.trimAcc)
          ∧ t.rail k = { s.rail k with eng := { (s.rail k).eng with imean := if counted (v.tile u) = true then meanNow v k else imean s k } }
          ∧ (t.tile u).act = (s.tile u).act ∧ OtherTiles u s t ∧ OtherRails k s t ∧ Within [.now, .tiles, .rails, .tel] s t)
      ∧ ((s.tile u).car.running = true → (s.tile u).car.atPeak = true → (s.tile u).leap.under = false →
          (s.tile u).sen.evalid = false → (s.tile u).prot.openCnt < 15 → iRange (s.tile u) = false → (s.tile u).sen.iv.isSome = true →
          (s.tile u).sen.ip.isSome = true →
        (∀ f : Nat, (s.tile u).fade = .fadeIn f → ∃ t, exec (.carrierValley u) s = .next t ∧ (t.tile u).act = (s.tile u).act
          ∧ (t.tile u).fade = (if 7 ≤ f then .none else .fadeIn (f + 1)) ∧ OtherTiles u s t ∧ OtherRails k s t)
        ∧ (∀ (n : Nat) (goal : FadeGoal), (s.tile u).fade = .fadeOut (n + 1) goal → ∃ t, exec (.carrierValley u) s = .next t
          ∧ (t.tile u).act = (s.tile u).act ∧ (t.tile u).fade = .fadeOut n goal ∧ OtherTiles u s t ∧ OtherRails k s t)
        ∧ ((s.tile u).fade = .fadeOut 0 .ready → (s.tile u).reqPend = false → readyT s k ≠ 0 → (s.tile u).act = .active →
          ∃ t, exec (.carrierValley u) s = .next t ∧ (t.tile u).act = .ready ∧ (t.tile u).reason = 2 ∧ (t.tile u).slot = none
            ∧ (t.tile u).fade = .none ∧ (t.tile u).gen = (s.tile u).gen + 1 ∧ (t.rail k).ilv.respaceDue = ((s.rail k).ilv.respaceDue || (s.tile u).slot.isSome)
            ∧ (∀ v, v ≠ u → (t.tile v).act = (s.tile v).act) ∧ OtherRails k s t))
      ∧ ((s.tile u).car.running = false → stoppedNow s (s.tile u) = false → exec (.carrierPeak u) s = .next s ∧ exec (.carrierValley u) s = .next s)
      ∧ ((s.tile u).car.atPeak = true → exec (.carrierPeak u) s = .next s)
      ∧ ((s.tile u).car.atPeak = false → exec (.carrierValley u) s = .next s)

/-- TRIP_RECOGNISED at a tick, for an enabled ACTIVE or READY tile without a latched trip and with three samples outside
blanking, its event source one that triggers nothing outside: the high side is low at every later instant as planned, also
the low side where TRIP_LS is set, the period counts as tripped, and COUNT takes one increment at the first trip of a period.
A latched trip (with no response of its source, the tile not under a Leap) sets LATCH and the cause bit with both sides low.
One whose source carries code 3 and no class drops the tile, no Leap of the rail being active and another tile of it ACTIVE:
DROPPED with reason 12, both sides low, slot, fade and trim gone, a re-spacing due where it held a slot, and the rail's
capacity is judged at the next reference valley. A tile not enabled, or one whose trip is latched already, is unchanged. No
other tile and no rail changes. (02_phase_tiles_pwm.md (R59, R60, R61), 09_protection_tail_drop.md (R268, R283, R284, R290)) -/
def Obligations.TripsForceTheOutputs : Prop :=
  ∀ (u : TileId) (k : RailId) (tick : Nat) (s : State), (s.tile u).rail = some k →
      ((s.tile u).act = .active ∨ (s.tile u).act = .ready → tripEn (s.tile u) = true →
          tripClear (s.tile u) tick = true → Quiet s u.val →
        (tripLatched (s.tile u) = false → ∃ t, exec (.tripRecognised u tick) s = .next t ∧ t.now = max s.now (16 * tick)
          ∧ (∀ x : Int, 16 * (tick : Int) + 16 ≤ x → highAt (t.tile u).edg x = false)
          ∧ (tripLs (s.tile u) = true → ∀ x : Int, 16 * (tick : Int) + 16 ≤ x → lowAt (t.tile u).edg x = false)
          ∧ (t.tile u).trip.held = true ∧ (t.tile u).trip.active = true ∧ (t.tile u).trip.inPeriod = true
          ∧ (t.tile u).trip.count = (if (s.tile u).trip.inPeriod = true then (s.tile u).trip.count else satInc (s.tile u).trip.count 65535)
          ∧ (t.tile u).act = (s.tile u).act ∧ OtherTiles u s t ∧ Within [.now, .tiles, .ka, .ev] s t)
        ∧ (tripLatched (s.tile u) = true → (s.tile u).leap.under = false → respCode (loopW s k .respTile) 0 = 0 →
            respClass (loopW s k .respTile) 0 = false → ∃ t, exec (.tripRecognised u tick) s = .next t
          ∧ (∀ x : Int, 16 * (tick : Int) + 16 ≤ x → highAt (t.tile u).edg x = false ∧ lowAt (t.tile u).edg x = false)
          ∧ (t.tile u).trip.latch = true ∧ (t.tile u).trip.held = true ∧ (t.tile u).trip.active = true
          ∧ (t.tile u).trip.count = satInc (s.tile u).trip.count 65535
          ∧ (t.tile u).prot.fault = (s.tile u).prot.fault ||| 1 ∧ (t.tile u).act = (s.tile u).act
          ∧ OtherTiles u s t ∧ Within [.now, .tiles, .ka, .ev] s t)
        ∧ (tripLatched (s.tile u) = true → leapActive s k = false → respCode (loopW s k .respTile) 0 = 3 →
            respClass (loopW s k .respTile) 0 = false → (s.rail k).seq.stopWait = none → (∃ v, v ≠ u ∧ (s.tile v).rail = some k ∧ (s.tile v).act = .active) →
          ∃ t, exec (.tripRecognised u tick) s = .next t ∧ (t.tile u).act = .dropped ∧ (t.tile u).reason = 12 ∧ (t.tile u).gen = (s.tile u).gen + 1
          ∧ (∀ x : Int, 16 * (tick : Int) + 16 ≤ x → highAt (t.tile u).edg x = false ∧ lowAt (t.tile u).edg x = false)
          ∧ (t.tile u).slot = none ∧ (t.tile u).fade = .none ∧ (t.tile u).prot.trimAcc = 0 ∧ (t.tile u).prot.fault = (s.tile u).prot.fault ||| 1
          ∧ (t.rail k).prot.dropCheck = true ∧ (t.rail k).ilv.respaceDue = ((s.rail k).ilv.respaceDue || (s.tile u).slot.isSome)
          ∧ railSt t k = railSt s k ∧ (∀ v, v ≠ u → (t.tile v).act = (s.tile v).act) ∧ OtherRails k s t))
      ∧ (tripEn (s.tile u) = false ∨ tripClear (s.tile u) tick = false → exec (.tripRecognised u tick) s = .next s)

/-- LOW_SIDE_FORCE_END ends the low pulse of a released READY tile at the tick at which its predicted current has reached zero,
and not before. DE_LOW_SIDE_OFF ends a low pulse in diode emulation one tick after its predicted current reached zero, or
where it is settled to end sooner, and puts a rising edge that is still to come at least the rising dead time after that end.
READY_TIMEOUT makes a READY tile that no Leap holds, that does not fade and that no exclusion waits for COLD (reason 3,
outputs low from the next tick) READY_T after it became READY, unless it is being admitted. Nothing else changes.
(06_moult_operating_map.md (R191), 07_leap_response.md (R221), 08_rail_start_stop.md (R242)) -/
def Obligations.LowSideAndReadyTilesEndInTime : Prop :=
  ∀ (u : TileId) (s : State),
      (∀ (tick : Nat) (r : Int), (s.tile u).leap.lowFrom = some r →
        let i := (s.tile u).leap.i0 * 65536 + (s.tile u).leap.qUp * (s.tile u).leap.onTotal - (s.tile u).leap.qDn * (16 * (tick : Int) - r).tdiv 16
        ((s.tile u).act = .ready → i ≤ 0 → ∃ t, exec (.lowSideForceEnd u tick) s = .next t
          ∧ (∀ x : Int, 16 * (tick : Int) ≤ x → lowAt (t.tile u).edg x = false) ∧ (t.tile u).leap.lowFrom = none
          ∧ (t.tile u).act = .ready ∧ t.now = max s.now (16 * tick) ∧ OtherTiles u s t ∧ Within [.now, .tiles] s t)
        ∧ (0 < i → exec (.lowSideForceEnd u tick) s = .next s))
      ∧ (∀ (k : RailId) (tick : Nat), (s.tile u).rail = some k →
        let x : Int := 16 * (tick : Int)
        let i := (s.tile u).sen.inForce x * 65536
          - qDnOf s k u * ((x - (if (s.tile u).sen.icAt + 384 ≤ x then (s.tile u).sen.icAt else (s.tile u).sen.icPrevAt)) / 16)
        ((s.tile u).emulating = true → (s.tile u).act = .active → lowAt (s.tile u).edg x = true →
            (∀ p ∈ (s.tile u).edg.lo, x + 16 ≤ p.1 → p.2 = false) → i ≤ 0 →
          ∃ t, exec (.deLowSideOff u tick) s = .next t ∧ (∀ y : Int, x + 16 ≤ y → lowAt (t.tile u).edg y = false)
            ∧ (let off := (Wave.last (Wave.endPulse (s.tile u).edg.lo (x + 16)) false (x + 16)).getD (x + 16)
               ∀ r : Int, (r, true) ∈ (s.tile u).edg.hi → x < r → (max r (off + dtr (s.tile u)), true) ∈ (t.tile u).edg.hi)
            ∧ (t.tile u).car = (s.tile u).car ∧ t.now = max s.now (16 * tick) ∧ OtherTiles u s t ∧ Within [.now, .tiles] s t)
        ∧ ((s.tile u).emulating = false ∨ lowAt (s.tile u).edg x = false ∨ 0 < i → exec (.deLowSideOff u tick) s = .next s))
      ∧ (∀ k : RailId, (s.tile u).rail = some k →
        ((s.tile u).act = .ready → readyT s k ≠ 65535 → (s.tile u).readyAt + ms (readyT s k) ≤ s.now → (s.rail k).ilv.adding ≠ some u →
            (s.tile u).leap.under = false → (s.tile u).reqPend = false → (s.tile u).fade = .none →
          ∃ t, exec (.readyTimeout u) s = .next t ∧ (t.tile u).act = .cold ∧ (t.tile u).reason = 3 ∧ (t.tile u).gen = (s.tile u).gen + 1
            ∧ (∀ x : Int, s.now + 16 ≤ x → highAt (t.tile u).edg x = false ∧ lowAt (t.tile u).edg x = false)
            ∧ (t.tile u).car.running = false ∧ OtherTiles u s t ∧ Within [.tiles] s t)
        ∧ ((s.tile u).act ≠ .ready ∨ readyT s k = 65535 ∨ s.now < (s.tile u).readyAt + ms (readyT s k) ∨ (s.rail k).ilv.adding = some u →
          exec (.readyTimeout u) s = .next s))

/-- A conversion of an ACTIVE or READY tile with a running carrier, at an instant at which R85 takes it: the corrected sample is
sat(((16·r − OFFSET) × GAIN) >> 15) of ICAL, it becomes the sample in force with its instant, it joins the four latest raw
samples, and it is kept as the valley, peak, rising-edge or falling-edge sample by its kind. Within the current limits it
clears both counts and changes no other tile, no rail and no event. Where R85 omits the sample, and for a tile in another
state, nothing changes. (03_sensing_front_ends.md (R84, R85, R86), 09_protection_tail_drop.md (R279)) -/
def Obligations.CurrentSamplesAreCorrected : Prop :=
  ∀ (u : TileId) (k : RailId) (which : SampleKind) (r : BitVec 12) (s : State), (s.tile u).rail = some k →
      let ic := sat (ashr ((16 * (r.toNat : Int) - icalOffset s u) * icalGain s u) 15) (-32768) 32767
      (∀ x : Int, (s.tile u).act = .active ∨ (s.tile u).act = .ready → (s.tile u).car.running = true → sampleAt s k (s.tile u) which = some x →
          ocLo s u ≤ ic → ic ≤ ocHi s u →
        ∃ t, exec (.tileCurrentSample u which r) s = .next t ∧ (t.tile u).sen.ic = ic ∧ (t.tile u).sen.icAt = x
          ∧ (t.tile u).sen.icPrev = (s.tile u).sen.ic ∧ (t.tile u).sen.raws = pushKeep 4 r.toNat (s.tile u).sen.raws
          ∧ (t.tile u).sen.iv = (if which = .valley then some ic else (s.tile u).sen.iv)
          ∧ (t.tile u).sen.ip = (if which = .peak then some ic else (s.tile u).sen.ip)
          ∧ (t.tile u).sen.riseSample = (if which = .rising then some ic else (s.tile u).sen.riseSample)
          ∧ (t.tile u).sen.fallSample = (if which = .falling then some ic else (s.tile u).sen.fallSample)
          ∧ (t.tile u).sen.itile = (s.tile u).sen.itile ∧ (t.tile u).prot.ocHi = 0 ∧ (t.tile u).prot.ocLo = 0
          ∧ (t.tile u).car = (s.tile u).car ∧ (t.tile u).act = (s.tile u).act ∧ t.now = max s.now x.toNat
          ∧ OtherTiles u s t ∧ Within [.now, .tiles] s t)
      ∧ (sampleAt s k (s.tile u) which = none ∨ (s.tile u).car.running = false ∨ ((s.tile u).act ≠ .active ∧ (s.tile u).act ≠ .ready) →
        stoppedNow s (s.tile u) = false → exec (.tileCurrentSample u which r) s = .next s)

/-- A word that lands at CFG, DEADTIME, MINP or TBLANK of a tile: with the image's run-time mark its fields are stored, to act
from the tile's next valley two ticks on; without the mark it is counted as refused where it would change a field, and does
nothing otherwise; a dead time or minimum pulse that breaks R48 (at the present period, on a locking rail at that of PRD_T)
is refused. A word that lands at ICAL, or at SNS_CAL of a rail in OFF or SAFE, is stored while a service arm is open and no
register else changes; at any other time it is refused. A word at TRIP_STAT with LATCH clears a set latch where the input is
not at its active level and no class fault needs an arm; else it is refused. (00_scope.md (R6, R7), 02_phase_tiles_pwm.md
(R55, R61), 03_sensing_front_ends.md (R89)) -/
def Obligations.TimingSettingsNeedTheirMark : Prop :=
  ∀ (h : HostId) (u : TileId) (data : Word) (s : State), s.Canonical →
      (∀ which : TileSetting,
        let r := Reg.tile u (settingReg which)
        WordLands s h r data →
        ((which = .deadtime ∨ which = .minp) → tileTimingOk s u (settingReg which) data = false →
          exec (.tileSettingWrite h u which data) s = .next (refuse h (s.opened h r.addr)))
        ∧ (which = .cfg ∨ which = .tblank ∨ tileTimingOk s u (settingReg which) data = true →
          (openBits s r ≠ 0 → ∃ t, exec (.tileSettingWrite h u which data) s = .next t
            ∧ setWord t r = merge (setWord s r) data (word (openBits s r)) ∧ (∀ r', r' ≠ r → setWord t r' = setWord s r')
            ∧ t.tile u = { s.tile u with setWait := (s.tile u).setWait ++ [(which, setWord t r, (s.now : Int))] } ∧ OtherTiles u s t ∧ Within [.bus, .settings, .tiles] s t)
          ∧ (openBits s r = 0 → exec (.tileSettingWrite h u which data) s =
              .next (if (setWord s r ^^^ data) &&& word (lockedBits s r) = 0 then s.opened h r.addr else refuse h (s.opened h r.addr)))))
      ∧ (WordLands s h (.tile u .ical) data → armOpen s = false → exec (.icalWrite h u data) s = .next (refuse h (s.opened h (Reg.tile u .ical).addr)))
      ∧ (WordLands s h (.tile u .ical) data → armOpen s = true → ∃ t, exec (.icalWrite h u data) s = .next t
          ∧ setWord t (.tile u .ical) = merge (setWord s (.tile u .ical)) data (word (openBits s (.tile u .ical)))
          ∧ (∀ r', r' ≠ .tile u .ical → setWord t r' = setWord s r') ∧ Within [.bus, .settings] s t)
      ∧ (∀ k : RailId, WordLands s h (.loop k .snsCal) data →
          (armOpen s = true → railSt s k = .off ∨ railSt s k = .safe → ∃ t, exec (.snsCalWrite h k data) s = .next t
            ∧ setWord t (.loop k .snsCal) = merge (setWord s (.loop k .snsCal)) data (word (openBits s (.loop k .snsCal)))
            ∧ (∀ r', r' ≠ .loop k .snsCal → setWord t r' = setWord s r') ∧ Within [.bus, .settings] s t)
          ∧ (armOpen s = false ∨ (railSt s k ≠ .off ∧ railSt s k ≠ .safe) →
            exec (.snsCalWrite h k data) s = .next (refuse h (s.opened h (Reg.loop k .snsCal).addr))))
      ∧ (WordLands s h (.tile u .tripStat) data → bitOf data 16 = true → (s.tile u).trip.latch = true →
          ∀ level : Bool,
          (level ≠ tripPol (s.tile u) → tripIsClass s u = false ∨ armOpen s = true → ∃ t, exec (.tripLatchClear h u data level) s = .next t
            ∧ t.tile u = { s.tile u with trip := { (s.tile u).trip with latch := false, fired := false, resume := true, active := false } }
            ∧ OtherTiles u s t ∧ Within [.bus, .tiles] s t)
          ∧ (level = tripPol (s.tile u) ∨ (tripIsClass s u = true ∧ armOpen s = false) → ∃ t, exec (.tripLatchClear h u data level) s = .next t
            ∧ t.tile u = { s.tile u with trip := { (s.tile u).trip with active := level == tripPol (s.tile u) } }
            ∧ (t.host h).refCnt = satInc (s.host h).refCnt 65535 ∧ OtherTiles u s t ∧ Within [.bus, .tiles] s t))

/-- On a powered loop group: a window sample strictly inside the window, with the Leap detectors disabled and no autozero
running, is kept with the DAC code it was taken against, moves the reference one slew step toward its end point (held where
the rail has none) and gives the DAC the code of the new reference. A sample of a rail in REGULATE that meets R213's
threshold and slope begins a Leap at its completion (the window sources off): each ACTIVE or READY tile of the rail that no
trip or fade touches comes under it, its high side on from the response's delay and the rising dead time on. The OV_N-th
conversion in a row above OV_LVL of a rail that switches, OV carrying code 5 and no class, sends it to SAFE at once with
cause 6 and counts it; the UV_N-th below REF less UV_WIN, UV carrying code 1, sets the cause bit and counts it, and the rail
keeps its state. An output-sense conversion not above the over-voltage level of a rail outside REGULATE and SLEW, its settle
watch closed, gives VOUT; one inside both windows of a rail in REGULATE or SLEW starts or keeps the in-window time of
power-good (REF at the conversion instant: log 22, deduced; the time from that conversion: log 175, the model's choice). An
input conversion other than 0 and 4,095 gives VIN_FAST, the mean of the latest eight (where it divides exactly; else the
model's free rounding, log 8), and FF from it; 0 or 4,095 only counts. (Conversions: no stop of this rail in the present
cycle.) Nothing of another rail changes. On a group without power nothing happens. (03_sensing_front_ends.md (R75, R76, R77,
R80, R82), 04_loop_engines.md (R113, R125), 07_leap_response.md (R211, R212, R213, R214, R216, R217), 08_rail_start_stop.md
(R252), 09_protection_tail_drop.md (R268, R272, R274)) -/
def Obligations.ConversionsTakeEffect : Prop :=
  ∀ (k : RailId) (s : State),
      (groupOn s k = true →
        (∀ uv : Int, (∀ b n z, (s.rail k).fe.autozero ≠ .running b n z) → (s.rail k).leap.state = .idle → leapEn s k = false → lbEn s k = false →
            -512 < windowCode uv (s.rail k).fe.dac → windowCode uv (s.rail k).fe.dac < 511 →
          let ref := match refGoal s k with
            | some (goal, rate) => slewStep (s.rail k).eng.ref goal rate
            | none => (s.rail k).eng.ref
          ∃ t, exec (.windowSample k uv) s = .next t ∧ t.now = max s.now (windowAt s k).toNat ∧ (t.rail k).fe.winAt = windowAt s k
            ∧ (t.rail k).fe.window = pushKeep 17 (windowCode uv (s.rail k).fe.dac, (s.rail k).fe.dac) (s.rail k).fe.window
            ∧ (t.rail k).eng.ref = ref ∧ (t.rail k).fe.dac = dacOf s k ((ref + 0x8000) / 65536) ∧ (t.rail k).fe.stat = (s.rail k).fe.stat
            ∧ (railSt s k = .softstart → railSt t k = if ref = target s k * 65536 then .regulate else .softstart)
            ∧ OtherRails k s t ∧ Within [.now, .rails] s t)
        ∧ (∀ (uv w4 d4 : Int) (u : TileId),
            let w := windowCode uv (s.rail k).fe.dac
            let j := entLset (s.rail k).mo.entry
            (∀ b n z, (s.rail k).fe.autozero ≠ .running b n z) → (s.rail k).leap.state = .idle → railSt s k = .regulate → leapEn s k = true → wsN s k = 0 →
            (s.rail k).fe.window[3]? = some (w4, d4) → leapV s k j < -w → 256 * (w - w4) + 75 * ((s.rail k).fe.dac - d4) < -16 * leapS s k j →
            (s.tile u).rail = some k → (s.tile u).act = .active ∨ (s.tile u).act = .ready → (s.tile u).trip = {} → (s.tile u).fade = .none →
            (s.rail k).seq.stopWait = none → Quiet s (56 + k.val) →
          ∃ t, exec (.windowSample k uv) s = .next t ∧ (t.rail k).leap.state = .leap ∧ (t.rail k).leap.detAt = t.now
            ∧ t.now = max s.now (windowAt s k).toNat ∧ (t.rail k).leap.cntLeap = satInc (s.rail k).leap.cntLeap 65535
            ∧ (t.tile u).leap.under = true ∧ (t.tile u).act = (s.tile u).act
            ∧ (∀ y : Int, (t.now : Int) + 112 + dtr (s.tile u) ≤ y → highAt (t.tile u).edg y = true) ∧ OtherSets k s t ∧ OtherRails k s t)
        ∧ (∀ c : BitVec 12, NoWatch s k → (∀ j, (s.rail j).seq.stopWait = none) → switching (railSt s k) = true → railSt s k ≠ .stopping → NoStopNow s k →
            respCode (loopW s k .respRail) 0 = 5 → respClass (loopW s k .respRail) 0 = false → Quiet s (48 + k.val) →
            ovLvl s k < voutOf s k c.toNat 1 → (s.rail k).prot.ovCnt + 1 = ovN s k →
          ∃ t, exec (.coarseConversion k c) s = .next t ∧ railSt t k = .safe ∧ (t.rail k).seq.cause = 6 ∧ (t.rail k).seq.pgood = false
            ∧ (t.rail k).prot.fault = (s.rail k).prot.fault ||| 1 ∧ (t.rail k).prot.cntOv = satInc (s.rail k).prot.cntOv 255
            ∧ (∀ u, (s.tile u).rail = some k → (t.tile u).act ≠ .active ∧ (t.tile u).act ≠ .ready) ∧ OtherSets k s t
            ∧ (∀ j, j ≠ k → railSt t j = railSt s j))
        ∧ (∀ c : BitVec 12, NoWatch s k → NoStopNow s k → steady (railSt s k) = true → (s.rail k).leap.state ≠ .leap → throttles s k = false →
            respCode (loopW s k .respRail) 2 = 1 → respClass (loopW s k .respRail) 2 = false → Quiet s (48 + k.val) → c ≠ 4095 → voutOf s k c.toNat 1 ≤ ovLvl s k →
            (voutOf s k c.toNat 1 : Int) < refAt s k (convAt s) - uvWin s k → (s.rail k).prot.uvCnt + 1 = uvN s k →
          ∃ t, exec (.coarseConversion k c) s = .next t ∧ railSt t k = railSt s k
            ∧ (t.rail k).prot.fault = (s.rail k).prot.fault ||| 4 ∧ (t.rail k).prot.cntUv = satInc (s.rail k).prot.cntUv 255
            ∧ OtherSets k s t ∧ OtherRails k s t)
        ∧ (∀ c : BitVec 12, NoWatch s k → NoStopNow s k →
            (steady (railSt s k) = false → voutOf s k c.toNat 1 ≤ ovLvl s k → c ≠ 4095 →
              ∃ t, exec (.coarseConversion k c) s = .next t ∧ (t.rail k).fe.coarse = c.toNat ∧ (t.rail k).fe.vout = voutOf s k c.toNat 1
                ∧ railSt t k = railSt s k ∧ OtherRails k s t ∧ Within [.rails, .tel] s t)
            ∧ (steady (railSt s k) = true → voutOf s k c.toNat 1 ≤ ovLvl s k → c ≠ 4095 →
                |(voutOf s k c.toNat 1 : Int) - refAt s k (convAt s)| ≤ pgWin s k →
                (refAt s k (convAt s) : Int) - uvWin s k ≤ voutOf s k c.toNat 1 →
              ∃ t, exec (.coarseConversion k c) s = .next t ∧ (t.rail k).fe.vout = voutOf s k c.toNat 1
                ∧ (t.rail k).seq.winFrom = some ((s.rail k).seq.winFrom.getD s.now) ∧ (t.rail k).seq.winOut = 0
                ∧ (t.rail k).seq.pgood = (s.rail k).seq.pgood ∧ railSt t k = railSt s k ∧ OtherRails k s t ∧ Within [.rails, .tel] s t))
        ∧ (∀ c : BitVec 12, c ≠ 0 → c ≠ 4095 →
            let recent := pushKeep 8 c.toNat (if (s.rail k).fe.vinFrozen = true then [] else (s.rail k).fe.vinRecent)
            ∃ t, exec (.likConversion k c) s = .next t ∧ (t.rail k).fe.vinRecent = recent
              ∧ (t.rail k).fe.vinFast = (quotFree (16 * (recent.sum : Nat)) recent.length).toNat
              ∧ (t.rail k).fe.vinBad = 0 ∧ (t.rail k).fe.vinFrozen = false
              ∧ (ffEn s k = true → (t.rail k).fe.vinFast ≠ 0 → (t.rail k).eng.ff = sat (vnom s k * 32768 / (t.rail k).fe.vinFast) 8192 131071)
              ∧ (ffEn s k = false → (t.rail k).eng.ff = 32768)
              ∧ (t.rail k).seq = (s.rail k).seq ∧ OtherRails k s t ∧ Within [.rails] s t)
        ∧ (∀ c : BitVec 12, c = 0 ∨ c = 4095 → ∃ t, exec (.likConversion k c) s = .next t
            ∧ (t.rail k).fe.vinBad = min ((s.rail k).fe.vinBad + 1) 8 ∧ (t.rail k).fe.vinFast = (s.rail k).fe.vinFast
            ∧ (t.rail k).eng = (s.rail k).eng ∧ OtherRails k s t ∧ Within [.rails] s t))
      ∧ (groupOn s k = false → ∀ (uv : Int) (c : BitVec 12), exec (.windowSample k uv) s = .next s
          ∧ exec (.coarseConversion k c) s = .next s ∧ exec (.likConversion k c) s = .next s)

/-- A pre-bias reading of 64 conversions becomes PB, capped at TARGET after a wait; above TARGET without leave to discharge the
rail waits instead. A host's autozero request is taken only in OFF, where it asks the draw arbiter for leave; otherwise it is
refused and counted. A requested autozero starts once leave is held; its end corrects by 8/4,096 of the sum where that lies
within ±127 and is flagged otherwise; a start's request that has waited 5 ms without leave is given up and flagged. The scale
and sign of the correction are log 66's reading of R88 and its rounding is free (log 8). Whichever of reading and autozero
comes last completes preparation, with the reference at PB. Other rails stay. (03_sensing_front_ends.md (R81, R88),
08_rail_start_stop.md (R238, R239, R240)) -/
def Obligations.PreparationEndsWithPrebiasAndAutozero : Prop :=
  ∀ (k : RailId) (s : State),
      ((s.rail k).seq.state = .prepare → (s.rail k).fe.pbN = 64 → (s.rail k).seq.pbDone = false →
          let pb := voutOf s k (s.rail k).fe.pbSum 64
          ∃ t, exec (.prebiasReading k) s = .next t ∧ OtherRails k s t ∧ Within [.rails] s t ∧ (t.rail k).fe.pbN = 0
            ∧ (if (s.rail k).seq.pbWaitDone = false ∧ target s k < pb ∧ pbDisch s k = false then
                (t.rail k).seq.pbHigh = true ∧ (t.rail k).seq.pbWaitFrom = s.now ∧ (t.rail k).seq.pbDone = false
                  ∧ (t.rail k).seq.prepDone = (s.rail k).seq.prepDone
              else
                (t.rail k).seq.pb = (if (s.rail k).seq.pbWaitDone = true then min pb (target s k) else pb) ∧ (t.rail k).seq.pbDone = true
                  ∧ ((s.rail k).fe.autozero = .idle → (s.rail k).seq.prepDone = none →
                      (t.rail k).seq.prepDone = some s.now ∧ (t.rail k).eng.ref = (t.rail k).seq.pb * 65536)))
      ∧ ((s.rail k).seq.state ≠ .prepare ∨ (s.rail k).fe.pbN ≠ 64 ∨ (s.rail k).seq.pbDone = true → exec (.prebiasReading k) s = .next s)
      ∧ (∀ h : HostId, WordLands s h (.loop k .snsStat) 0x80000000#32 →
          (railSt s k = .off → (s.rail k).fe.autozero = .idle → leaveWaits s (.autozero k) = false →
            ∃ t, exec (.autozeroRequest h k) s = .next t ∧ (t.rail k).fe.autozero = .requested false s.now
              ∧ t.draw.waiting = s.draw.waiting ++ [{ user := .autozero k, since := s.now, long := false }]
              ∧ (t.rail k).fe.stat = (s.rail k).fe.stat ∧ OtherRails k s t ∧ Within [.bus, .rails, .draw] s t)
          ∧ (railSt s k ≠ .off → ∃ t, exec (.autozeroRequest h k) s = .next t ∧ (t.host h).refCnt = satInc (s.host h).refCnt 65535
              ∧ (t.rail k).fe.autozero = (s.rail k).fe.autozero ∧ OtherRails k s t ∧ Within [.bus, .rails] s t))
      ∧ (∀ (b : Bool) (f : Nat), (s.rail k).fe.autozero = .requested b f →
          exec (.autozeroStart k) s = .next (if leaveHeld s (.autozero k) = true then s.modFe k fun x => { x with autozero := .running b 0 0 } else s)
          ∧ (b = true → f + ms 5 ≤ s.now → leaveHeld s (.autozero k) = false → ∃ t, exec (.autozeroTimeout k) s = .next t ∧ (t.rail k).fe.autozero = .idle
              ∧ (t.rail k).fe.stat = (s.rail k).fe.stat ||| 16 ∧ leaveWaits t (.autozero k) = false ∧ OtherRails k s t ∧ Within [.rails, .draw] s t)
          ∧ (b = false ∨ s.now < f + ms 5 ∨ leaveHeld s (.autozero k) = true → exec (.autozeroTimeout k) s = .next s))
      ∧ (∀ (b : Bool) (sum : Int) (tick : Nat), (s.rail k).fe.autozero = .running b 4096 sum →
          let az := quotFree (8 * sum) 4096
          ∃ t, exec (.autozeroDone k tick) s = .next t ∧ (t.rail k).fe.autozero = .idle ∧ t.draw = (releaseLeave (.autozero k) s).draw ∧ t.now = max s.now (16 * tick)
            ∧ (if -127 ≤ az ∧ az ≤ 127 then (t.rail k).fe.az = az ∧ (t.rail k).fe.stat = (s.rail k).fe.stat
               else (t.rail k).fe.az = (s.rail k).fe.az ∧ (t.rail k).fe.stat = (s.rail k).fe.stat ||| 32)
            ∧ ((s.rail k).seq.state = .prepare → (s.rail k).seq.pbDone = true → (s.rail k).seq.prepDone = none →
                (t.rail k).seq.prepDone = some t.now ∧ (t.rail k).eng.ref = (s.rail k).seq.pb * 65536)
            ∧ OtherRails k s t ∧ Within [.now, .rails, .draw] s t)
      ∧ (∀ (b : Bool) (n tick : Nat) (sum : Int), (s.rail k).fe.autozero = .running b n sum → n < 4096 → exec (.autozeroDone k tick) s = .next s)

/-- A loop update of a switching rail, with no update aimed yet, no Leap, no preload and no switch or period change pending: its
error word enters the history, y is the compensator sum of the active set clamped to YLO and YHI, the duty is y scaled by FF
and clamped, SAT_CNT counts a clamp, and every ACTIVE or READY tile of the rail gets its CMP and FINE of that duty in a
shadow write that completes 128 fine steps before the reload point aimed at; a write that has completed by then stands in the
shadow until this one does. A rail without a running reference carrier, with an update already aimed, or in PREPARE before V1
can be met is unchanged. (03_sensing_front_ends.md (R77, R78), 04_loop_engines.md (R105, R106, R107, R110, R111, R115)) -/
def Obligations.LoopUpdateWritesTheShadows : Prop :=
  ∀ (k : RailId) (s : State),
      ((s.rail k).car.running = true → (s.rail k).eng.aimed = false → switching (railSt s k) = true → leapActive s k = false →
          (s.rail k).eng.preload = .none → (s.rail k).eng.setPend = none → (s.rail k).mo.freqGo = none →
        let aim := if (s.rail k).car.atPeak = true then (s.rail k).car.nextValley else (s.rail k).car.nextPeak
        let e := (s.rail k).eng
        let err := (errorWord s k).1
        let raw := compensate s k e.setAct [err, e.e1, e.e2, e.e3] [e.u1, e.u2, e.u3]
        let y := sat raw e.ylo e.yhi
        let d := dutyOf s k y
        ∃ t, exec (.loopUpdate k) s = .next t ∧ t.now = max s.now (aim - 1408).toNat
          ∧ (t.rail k).eng.err = err ∧ (t.rail k).eng.e1 = err ∧ (t.rail k).eng.e2 = e.e1 ∧ (t.rail k).eng.e3 = e.e2
          ∧ (t.rail k).eng.u1 = y ∧ (t.rail k).eng.u2 = e.u1 ∧ (t.rail k).eng.u3 = e.u2 ∧ (t.rail k).eng.d = d
          ∧ (t.rail k).eng.satCnt = (if y = raw then e.satCnt else satInc e.satCnt 65535)
          ∧ (t.rail k).eng.aimed = (s.rail k).car.atPeak
          ∧ (t.rail k).car = (if (s.rail k).car.atPeak = true then (s.rail k).car else (s.rail k).car.toPeak (glidePaused s k))
          ∧ (∀ u, t.tile u =
              (if (s.tile u).rail = some k ∧ ((s.tile u).act = .active ∨ (s.tile u).act = .ready) then
                { s.tile u with duty := { (s.tile u).duty.land (t.now : Int) with
                    coming := some { cmp := (tileDuty s k (s.tile u) d (aim - 128)).1, fine := (tileDuty s k (s.tile u) d (aim - 128)).2, writtenAt := aim - 128, d := d } } }
              else s.tile u))
          ∧ (t.rail k).seq = (s.rail k).seq ∧ OtherRails k s t ∧ Within [.now, .rails, .tiles] s t)
      ∧ ((s.rail k).car.running = false ∨ (s.rail k).eng.aimed = true ∨ (railSt s k = .prepare ∧ startValley s k = none) →
          exec (.loopUpdate k) s = .next s)

/-- REFERENCE_VALLEY of a rail with a running reference carrier always runs to a next state, at the carrier's next valley. In
PREPARE, with no period or exclusion pending and with the duty ceiling neither throttled nor asked to be, it forms IR as the
sum of ITILE of the ACTIVE tiles with VALID, ILIM_EFF from the present limits, clears the aimed mark, judges the rail's
current and power peaks and leaves every tile, every other rail and every event alone. In REGULATE or SLEW, with no Leap, no
glide, no lock and no period or exclusion pending, below the resistance tracking's current: with M below the target for
ADD_DWELL valleys the tile that the admission order puts first is being added; with M above it for SHED_DWELL valleys and
above N_MIN the tile of the last slot fades out; a rotation that is due begins when nothing is to be added, shed or faded;
bins that step look up the entry of the new bins, which becomes the present entry where its word is good. The OCR_N-th valley
in a row with IR above ILIM_EFF sets the cause bit and counts; with code 2 the duty ceiling goes down one step, with code 1
it stays; the rail keeps its state. A Tail-drop's capacity check with IR above ILIM_EFF and a code below 4 sets the cause bit
and throttles. (No event of these reaches a recorder or a response; no stop of this rail in the present cycle.) Of a rail
whose reference carrier stands it changes nothing. (04_loop_engines.md (R105), 05_interleave_rotation_sync.md (R149, R156),
06_moult_operating_map.md (R176, R180, R181, R182, R186, R187, R188, R189), 09_protection_tail_drop.md (R268, R276, R277,
R278, R284)) -/
def Obligations.ReferenceValleyForIrAndLimits : Prop :=
  ∀ (k : RailId) (ecc : Ecc) (s : State),
      ((s.rail k).car.running = true →
        let c := if (s.rail k).car.atPeak = true then (s.rail k).car else (s.rail k).car.toPeak (glidePaused s k)
        let fresh := throttleCause s k = false ∧ (s.rail k).prot.dthr = (dmax s k).toNat ∧ (s.rail k).prot.dropThrottle = false
          ∧ (s.rail k).car.pend = none ∧ (∀ u, (s.tile u).rail = some k → (s.tile u).reqPend = false) ∧ NoStopNow s k
        let above := (ilimEffOf s k : Int) * 256 < irOf s k
        let calm := fresh ∧ steady (railSt s k) = true ∧ leapActive s k = false ∧ imean s k < rmeasI s k ∧ (s.rail k).ilv.lock = .free
          ∧ (s.rail k).car.coming = none ∧ (s.rail k).ilv.glide = .none ∧ (s.rail k).ilv.respaceDue = false ∧ (s.rail k).ilv.adding = none
          ∧ shedFading s k = false ∧ (s.rail k).mo.freqPend = none ∧ (s.rail k).mo.freqGo = none
        let cap := (s.rail k).prot.dropCheck = false ∧ ¬above
        (∃ t, exec (.referenceValley k ecc) s = .next t ∧ t.now = max s.now c.nextValley.toNat
          ∧ Within [.now, .rails, .tiles, .tel, .ev, .link, .rcd, .draw, .nvm, .map, .test] s t)
        ∧ (railSt s k = .prepare → fresh → (s.rail k).prot.dropCheck = false →
          ∃ t, exec (.referenceValley k ecc) s = .next t ∧ (t.rail k).eng.aimed = false ∧ (t.rail k).car.atPeak = false
            ∧ (t.rail k).car.time = c.nextValley
            ∧ (t.rail k).mo.ir = (tilesOf s k).foldl
                (fun a u => if isActive (s.tile u) = true ∧ (s.tile u).sen.valid = true then a + (s.tile u).sen.itile else a) 0
            ∧ (t.rail k).prot.ilimEff = ilimEffOf s k ∧ (t.rail k).prot.dthr = (s.rail k).prot.dthr ∧ railSt t k = .prepare
            ∧ OtherRails k s t ∧ Within [.now, .rails, .tel] s t)
        ∧ (calm → cap → rgEn s k = false →
          (∀ u : TileId, mOf s k < moultTgt s k → addDwell s k ≤ min ((s.rail k).mo.addCnt + 1) 255 → (admitOrder s k).head? = some u →
            ∃ t, exec (.referenceValley k ecc) s = .next t ∧ (t.rail k).ilv.adding = some u ∧ (t.rail k).mo.adds = satInc (s.rail k).mo.adds 255
              ∧ (∀ v, (t.tile v).act = (s.tile v).act ∧ (t.tile v).fade = (s.tile v).fade) ∧ OtherSets k s t ∧ OtherRails k s t)
          ∧ (∀ u : TileId, moultTgt s k < mOf s k → shedDwell s k ≤ min ((s.rail k).mo.shedCnt + 1) 65535 → nMin s k < mOf s k →
              shedTile s k = some u → ∃ t, exec (.referenceValley k ecc) s = .next t
              ∧ (t.tile u).fade = .fadeOut (fadeFrom (s.tile u)) .ready ∧ (t.rail k).mo.sheds = satInc (s.rail k).mo.sheds 255
              ∧ (t.rail k).mo.shedCnt = 0 ∧ (∀ v, (t.tile v).act = (s.tile v).act ∧ (v ≠ u → (t.tile v).fade = (s.tile v).fade))
              ∧ OtherSets k s t ∧ OtherRails k s t)
          ∧ (mOf s k = moultTgt s k → 0 < rotInt s k → rotInt s k ≤ min ((s.rail k).ilv.rotValleys + 1) 65535 → 2 ≤ nOf s k →
              (∀ u, (s.tile u).rail = some k → (s.tile u).fade = .none ∧ (s.tile u).car.pend = none ∧ (s.tile u).car.coming = none) →
            ∃ t, exec (.referenceValley k ecc) s = .next t ∧ (t.rail k).ilv.glide = .rotation ∧ (t.rail k).ilv.rotValleys = 0
              ∧ (∀ v, (t.tile v).act = (s.tile v).act ∧ (t.tile v).slot = (s.tile v).slot) ∧ OtherSets k s t ∧ OtherRails k s t))
        ∧ (let vb := binUpdate (vDim s k) (s.rail k).mo.vbin (vinSlowShown s k)
           let ib := binUpdate (iDim s k) (s.rail k).mo.ibin (irOf s k)
           let tb := binUpdate (tDim s k) (s.rail k).mo.tbin (railTemp s k)
           let i := rgBase s k + (tb * rgNi s k + ib) * rgNv s k + vb
           calm → cap → rgEn s k = true → ¬(vb = (s.rail k).mo.vbin ∧ ib = (s.rail k).mo.ibin ∧ tb = (s.rail k).mo.tbin) → ecc ≠ .double →
             s.map.bad.contains (mapWord i) = false → ∃ t, exec (.referenceValley k ecc) s = .next t
             ∧ (t.rail k).mo.entry = Store.get 0 s.map.mem i ∧ (t.rail k).mo.entryIdx = i ∧ (t.rail k).mo.safe = false
             ∧ (t.rail k).mo.vbin = vb ∧ (t.rail k).mo.ibin = ib ∧ (t.rail k).mo.tbin = tb ∧ t.map.mem = s.map.mem ∧ OtherRails k s t)
        ∧ (calm → above → respClass (loopW s k .respRail) 4 = false → Quiet s (48 + k.val) → Quiet s 224 →
            let code := respCode (loopW s k .respRail) 4
            let lower := (max (dmax s k - thrStep s k) (dmin s k)).toNat
            ((s.rail k).prot.ocrCnt + 1 = ocrN s k → code = 1 ∨ code = 2 → ∃ t, exec (.referenceValley k ecc) s = .next t
              ∧ (t.rail k).prot.fault.getLsbD 4 = true ∧ (t.rail k).prot.cntOcr = satInc (s.rail k).prot.cntOcr 255 ∧ railSt t k = railSt s k
              ∧ ((s.rail k).prot.dropCheck = false → code = 1 → (t.rail k).prot.dthr = (s.rail k).prot.dthr)
              ∧ (code = 2 → (t.rail k).prot.dthr = lower) ∧ OtherRails k s t)
            ∧ ((s.rail k).prot.dropCheck = true → code < 4 → ∃ t, exec (.referenceValley k ecc) s = .next t
              ∧ (t.rail k).prot.fault.getLsbD 6 = true ∧ (t.rail k).prot.dropThrottle = true ∧ (t.rail k).prot.dropCheck = false
              ∧ (t.rail k).prot.dthr = lower ∧ railSt t k = railSt s k ∧ OtherRails k s t)))
      ∧ ((s.rail k).car.running = false → NoStopNow s k → exec (.referenceValley k ecc) s = .next s)

/-- Words that land. TARGET within TMIN to TMAX under HOST authority (no settle watch open) becomes the target, its source the
host; under LINK authority or outside the limits it is refused. CSET is stored; where it changes the source of the set it
asks for the one it forces or the map's, or withdraws the request where that one is active. COEF_DATA reaches a coefficient
of a run-time set that is neither active nor asked for, if the value is one the word may hold, and is refused otherwise; the
index steps on either way. MOULT_CTL stores its open bits. A COEF_DATA read gives the word of the index and steps it on.
(00_scope.md (R6, R7), 04_loop_engines.md (R118, R121, R124, R139), 06_moult_operating_map.md (R193)) -/
def Obligations.DirectWritesOfTheLoop : Prop :=
  ∀ (h : HostId) (k : RailId) (data : Word) (s : State), s.Canonical →
      (WordLands s h (.loop k .target) data →
        (linkAuth s k = false → tMin s k ≤ fld data 15 0 → fld data 15 0 ≤ tMax s k → NoWatch s k →
          ∃ t, exec (.targetWrite h k data) s = .next t ∧ target t k = fld data 15 0
            ∧ t.rail k = { s.rail k with eng := { (s.rail k).eng with srcLink := false } }
            ∧ (∀ r, r ≠ .loop k .target → setWord t r = setWord s r) ∧ OtherRails k s t ∧ Within [.bus, .settings, .rails] s t)
        ∧ (linkAuth s k = true ∨ fld data 15 0 < tMin s k ∨ tMax s k < fld data 15 0 →
          exec (.targetWrite h k data) s = .next (refuse h (s.opened h (Reg.loop k .target).addr))))
      ∧ (WordLands s h (.loop k .cset) data → ∃ t, exec (.csetWrite h k data) s = .next t
          ∧ setWord t (.loop k .cset) = data &&& 0x1F0000#32 ∧ (∀ r, r ≠ .loop k .cset → setWord t r = setWord s r)
          ∧ (t.rail k).eng.setPend = (if setSource t k = setSource s k then (s.rail k).eng.setPend
              else if wantedSet t k = (s.rail k).eng.setAct then none else some (wantedSet t k))
          ∧ (t.rail k).eng.setAct = (s.rail k).eng.setAct ∧ OtherRails k s t ∧ Within [.bus, .settings, .rails] s t)
      ∧ (WordLands s h (.loop k .moultCtl) data → (setWord s (.loop k .moultCtl) ^^^ data) &&& word (lockedBits s (.loop k .moultCtl)) = 0 →
          ∃ t, exec (.moultCtlWrite h k data) s = .next t
            ∧ setWord t (.loop k .moultCtl) = merge (setWord s (.loop k .moultCtl)) data (word (openBits s (.loop k .moultCtl)))
            ∧ (∀ r, r ≠ .loop k .moultCtl → setWord t r = setWord s r) ∧ Within [.bus, .settings] s t)
      ∧ (let i := coefIdxOf s h k
         let free := s.ldr.coefRt.getLsbD k.val = true ∧ (s.rail k).eng.setAct ≠ coefIdxSet i ∧ (s.rail k).eng.setPend ≠ some (coefIdxSet i)
           ∧ coefOk (coefIdxWord i) (data &&& 0xFFFFFF#32) = true
         WordLands s h (.loop k .coefData) data → ∃ t, exec (.coefDataAccess h k (some data)) s = .next t
          ∧ coefIdxOf t h k = coefStep i ∧ (∀ j, j ≠ k → coefIdxOf t h j = coefIdxOf s h j) ∧ Within [.bus, .coef] s t
          ∧ (free → coefWord t k (coefIdxSet i) (coefIdxWord i) = data &&& 0xFFFFFF#32 ∧ (t.host h).refCnt = (s.host h).refCnt
              ∧ ∀ key, key ≠ coefKey k (coefIdxSet i) (coefIdxWord i) → Store.get 0 t.coef key = Store.get 0 s.coef key)
          ∧ (¬free → t.coef = s.coef ∧ (t.host h).refCnt = satInc (s.host h).refCnt 65535))
      ∧ (coreOn s = true → s.bus.holdFrom = none → regLive s (.loop k .coefData) = true → ∃ t, exec (.coefDataAccess h k none) s = .next t
          ∧ t.bus.rdata = coefWord s k (coefIdxSet (coefIdxOf s h k)) (coefIdxWord (coefIdxOf s h k))
          ∧ coefIdxOf t h k = coefStep (coefIdxOf s h k) ∧ Within [.bus] s t)

/-- A read of MAP_DATA gives the entry of the host's MAP_IDX and steps the index on; one wrong bit is corrected and counted, for
the tables from 0x4000 on as one of the image shadow. Two wrong bits in the map (event 224 staying inside the event system)
mark the word bad and the read gives 0 with RD_ERR; in a table they count and mark no map word. A MAP_DATA word that lands
with a service arm open, the image's mark set, the rail that owns the entry in OFF or SAFE, a value the entry may hold (a PRD
of a rail set to lock also at PRD_T, log 143) and a good word is stored at that entry alone, and becomes the present entry of
a rail whose safe entry it is where the rail uses that (its set taken with it, or its frequency code asked for where that
differs); otherwise it is refused. A scrubbed word advances its memory's scrub position by one, leaves one word less of a
self-test's pass (R364; that the sweep's pass is made of these rows is log 87, the model's choice), and a single wrong bit
counts in that memory's counter. (01_architecture.md (R33), 06_moult_operating_map.md (R194, R196, R197),
11_supply_clocks_power_states.md (R364), 13_management_bus.md (R409)) -/
def Obligations.MapIsReadWrittenAndScrubbed : Prop :=
  ∀ (h : HostId) (s : State), s.Canonical →
      (coreOn s = true → s.bus.holdFrom = none → regLive s .mapData = true → mapIdxOf s h ≤ 0x4087 → s.map.bad.contains (mapWord (mapIdxOf s h)) = false →
        (∃ t, exec (.mapDataRead h .ok) s = .next t ∧ t.bus.sent = [Store.get 0 s.map.mem (mapIdxOf s h)]
          ∧ (t.host h).mapIdx = mapStep (s.host h).mapIdx ∧ Within [.bus] s t)
        ∧ (∃ t, exec (.mapDataRead h .single) s = .next t ∧ t.bus.sent = [Store.get 0 s.map.mem (mapIdxOf s h)]
          ∧ (t.host h).mapIdx = mapStep (s.host h).mapIdx ∧ Within [.bus, .map, .test] s t
          ∧ t.map = (if mapIdxOf s h < 0x4000 then { s.map with sbe := satInc s.map.sbe 65535 } else s.map)
          ∧ t.test = (if mapIdxOf s h < 0x4000 then s.test else { s.test with sbeImg := satInc s.test.sbeImg 255 }))
        ∧ (0x4000 ≤ mapIdxOf s h → ∃ t, exec (.mapDataRead h .double) s = .next t ∧ t.map = s.map ∧ t.test.dbe = satInc s.test.dbe 255
          ∧ (t.host h).mapIdx = mapStep (s.host h).mapIdx)
        ∧ (mapIdxOf s h < 0x4000 → Quiet s 224 → ∃ t, exec (.mapDataRead h .double) s = .next t ∧ t.bus.sent = [0] ∧ t.map.rdErr = true ∧ t.map.dbeFlag = true
          ∧ t.map.bad = mapWord (mapIdxOf s h) :: s.map.bad ∧ t.map.dbe = satInc s.map.dbe 255 ∧ t.map.mem = s.map.mem
          ∧ Within [.bus, .map, .test, .ev] s t))
      ∧ (∀ data : Word, WordLands s h .mapData data →
        let i := mapIdxOf s h
        let free := s.ldr.mapRt = true ∧ armOpen s = true ∧ i ≤ 0x4087
          ∧ (∀ k, mapOwner s i = some k → railSt s k = .off ∨ railSt s k = .safe)
          ∧ mapValueOk s i data = true ∧ s.map.bad.contains (mapWord i) = false
        ∃ t, exec (.mapDataWrite h data) s = .next t ∧ (t.host h).mapIdx = mapStep (s.host h).mapIdx ∧ Within [.bus, .map, .rails] s t
          ∧ (∀ k : RailId, let own := free ∧ i = 0x4080 + k.val ∧ ((s.rail k).mo.safe = true ∨ rgEn s k = false)
              (¬own → t.rail k = s.rail k)
              ∧ (own → (t.rail k).mo.entry = data ∧ (t.rail k).seq = (s.rail k).seq ∧ (t.rail k).prot = (s.rail k).prot
                ∧ (if entFcode data = (s.rail k).mo.fcode then (t.rail k).mo.mapSet = entCset data
                   else (t.rail k).mo.freqPend = some (entFcode data) ∧ (t.rail k).mo.mapSet = (s.rail k).mo.mapSet)))
          ∧ (free → t.map = { s.map with mem := t.map.mem } ∧ Store.get 0 t.map.mem i = data
              ∧ (∀ j, j ≠ i → Store.get 0 t.map.mem j = Store.get 0 s.map.mem j) ∧ (t.host h).refCnt = (s.host h).refCnt)
          ∧ (¬free → t.map = s.map ∧ (t.host h).refCnt = satInc (s.host h).refCnt 65535))
      ∧ (coreOn s = true → ∀ ecc : Ecc, ecc ≠ .double →
        (∃ t, exec (.scrubWord .map ecc) s = .next t ∧ t.test = { s.test with scrubMap := (s.test.scrubMap + 1) % mapWords, passMap := s.test.passMap - 1 }
          ∧ t.map = (if ecc = .single ∧ s.map.bad.contains s.test.scrubMap = false then { s.map with sbe := satInc s.map.sbe 65535 } else s.map)
          ∧ Within [.test, .map] s t)
        ∧ (∃ t, exec (.scrubWord .ring ecc) s = .next t ∧ Within [.test] s t ∧ t.test = { s.test with
            scrubRing := (s.test.scrubRing + 1) % ringWords, passRing := s.test.passRing - 1, sbeRing := if ecc = .single then satInc s.test.sbeRing 255 else s.test.sbeRing })
        ∧ (∃ t, exec (.scrubWord .recorder ecc) s = .next t ∧ Within [.test] s t ∧ t.test = { s.test with
            scrubRec := (s.test.scrubRec + 1) % recWords, passRec := s.test.passRec - 1, sbeRec := if ecc = .single then satInc s.test.sbeRec 255 else s.test.sbeRec })
        ∧ (∃ t, exec (.scrubWord .shadow ecc) s = .next t ∧ Within [.test] s t ∧ t.test = { s.test with
            scrubImg := (s.test.scrubImg + 1) % Config.shadowWords, passImg := s.test.passImg - 1, sbeImg := if ecc = .single then satInc s.test.sbeImg 255 else s.test.sbeImg }))
      ∧ (coreOn s = false → ∀ (m : EccMemory) (ecc : Ecc), exec (.scrubWord m ecc) s = .next s)

/-- LEAP_TILE_RELEASE, from seven ticks after detection on (for a Leap-back the model's choice, log 128), of a tile that a cause
releases (current, error or time), on a rail with no stop waiting: the tile is no longer under the response; its high side
ends after one minimum pulse at the latest (Leap), or its low side is off from the next tick (Leap-back). While another tile
of the rail is under it the response goes on; with none left it ends in HOLDOFF with the release's cause and the next update
preloads. Without a cause nothing changes. LEAP_HOLDOFF_EXPIRY ends the hold-off HOLDOFF ticks after the end of the response.
No other tile and no other rail changes. (07_leap_response.md (R219, R220, R221, R222, R223, R224, R228)) -/
def Obligations.LeapReleaseAndHoldoff : Prop :=
  ∀ (s : State),
      (∀ (u : TileId) (k : RailId) (tick : Nat), (s.tile u).rail = some k →
        let x : Int := 16 * (tick : Int)
        (∀ c : Nat, (s.tile u).leap.under = true → leapActive s k = true → (s.rail k).leap.detAt + 112 ≤ x →
            releaseCause s k (s.tile u) x = some c → (s.rail k).seq.stopWait = none →
          ∃ t, exec (.leapTileRelease u tick) s = .next t ∧ (t.tile u).leap.under = false ∧ t.now = max s.now (16 * tick)
            ∧ (t.tile u).act = (s.tile u).act ∧ OtherTiles u s t ∧ OtherRails k s t ∧ Within [.now, .rails, .tiles] s t
            ∧ ((s.rail k).leap.state = .leapBack → ∀ y : Int, x + 16 ≤ y → lowAt (t.tile u).edg y = false)
            ∧ ((s.rail k).leap.state = .leap → ∀ y : Int,
                (if highAt (s.tile u).edg (x + 15) = true then
                    max (x + 16) (match Wave.last (s.tile u).edg.hi true (x + 15) with | some r => r + minp (s.tile u) | none => x + 16)
                  else x + 16) ≤ y →
                highAt (t.tile u).edg y = false)
            ∧ (if ∃ v, v ≠ u ∧ v ∈ underTiles s k then (t.rail k).leap.state = (s.rail k).leap.state ∧ (t.rail k).eng = (s.rail k).eng
               else (t.rail k).leap.state = .holdoff ∧ (t.rail k).leap.cause = c ∧ (t.rail k).leap.holdoffFrom = t.now
                ∧ (t.rail k).eng.preload = .leap ∧ (t.rail k).leap.tmaxHit = ((s.rail k).leap.tmaxHit || (s.rail k).leap.tmaxSeen || decide (c = 2))))
        ∧ ((s.tile u).leap.under = false ∨ leapActive s k = false ∨ x < (s.rail k).leap.detAt + 112 ∨ releaseCause s k (s.tile u) x = none →
          exec (.leapTileRelease u tick) s = .next s))
      ∧ ∀ k : RailId,
        ((s.rail k).leap.state = .holdoff → ∃ t, exec (.leapHoldoffExpiry k) s = .next t
          ∧ t.rail k = { s.rail k with leap := { (s.rail k).leap with state := .idle } }
          ∧ t.now = max s.now ((s.rail k).leap.holdoffFrom + 16 * leapHoldoff s k).toNat ∧ OtherRails k s t ∧ Within [.now, .rails] s t)
        ∧ ((s.rail k).leap.state ≠ .holdoff → exec (.leapHoldoffExpiry k) s = .next s)

/-- With SYNC_IN enabled and no rail set to lock or locked: the first edge starts the measurement; each further edge adds its
interval, eight good intervals in a row (18 to 131,070 ticks) make the input present, and the fourth bad one in a row of a
present input makes it lost. SYNC_IN_LOSS makes a present input lost two periods after its last edge. SYNC_OUT_PULSE rises
SO_PHASE after an origin valley of its rail, not more than half a tick before the later of the present instant and the latest
pulse, nor more than an origin period and a tick after it, and falls SO_WIDTH ticks later. Where one rail is set to lock and
is FREE, an edge of a present input with P16* in range makes it LOCKED in OFF (event 113 staying inside the event system) and
ACQUIRING in any other state, that edge being its present one for any MULT (log 134, the model's choice); the loss of the
input makes it FREE (event 112 likewise). An input that is not enabled changes nothing. (05_interleave_rotation_sync.md
(R157, R158, R159, R162)) -/
def Obligations.SynchronisationFollowsItsInput : Prop :=
  ∀ (s : State),
      ((∀ k, lockEn s k = false ∧ (s.rail k).ilv.lock = .free) →
        (∀ tick : Nat, siEn s = true → s.pwr.phase = .up →
          (s.sync.lastEdge = none → ∃ t, exec (.syncInEdge tick) s = .next t ∧ t.sync = { s.sync with lastEdge := some tick }
            ∧ t.now = max s.now (16 * tick) ∧ Within [.now, .sync] s t)
          ∧ (∀ l : Nat, s.sync.lastEdge = some l →
            let ok := 18 ≤ tick - l ∧ tick - l ≤ 131070
            ∃ t, exec (.syncInEdge tick) s = .next t ∧ t.now = max s.now (16 * tick) ∧ Within [.now, .sync] s t ∧ t.sync.lastEdge = some tick
              ∧ (if s.sync.present = true ∧ ¬ok ∧ 3 ≤ s.sync.bad then
                  t.sync.present = false ∧ t.sync.lost = true ∧ t.sync.lossCnt = satInc s.sync.lossCnt 255 ∧ t.sync.good = 0
                else
                  t.sync.good = (if ok then min (s.sync.good + 1) 8 else 0) ∧ t.sync.bad = (if ok then 0 else s.sync.bad + 1)
                    ∧ t.sync.intervals = pushKeep 8 (tick - l) s.sync.intervals
                    ∧ t.sync.present = (s.sync.present || decide (ok ∧ 7 ≤ s.sync.good)) ∧ t.sync.lost = s.sync.lost)))
        ∧ (∀ l : Nat, s.sync.lastEdge = some l → s.sync.present = true → ∃ t, exec .syncInLoss s = .next t ∧ t.sync.present = false
            ∧ t.sync.lost = true ∧ t.sync.lossCnt = satInc s.sync.lossCnt 255 ∧ t.sync.period = 0
            ∧ t.now = max s.now (16 * l + 2 * s.sync.period) ∧ Within [.now, .sync] s t))
      ∧ (siEn s = false → ∀ tick : Nat, exec (.syncInEdge tick) s = .next s)
      ∧ (s.sync.present = false ∨ s.sync.lastEdge = none → exec .syncInLoss s = .next s)
      ∧ (soEn s = true → coreOn s = true → 0 < originPeriod s (soRail s) → ∃ t, exec .syncOutPulse s = .next t ∧ Within [.now, .sync] s t
          ∧ ∃ n : Int,
            let x := 16 * roundQ (((s.rail (soRail s)).ilv.originAt + n * originPeriod s (soRail s)) * 4096
              + soPhase s * originPeriod s (soRail s)) 65536
            t.sync.outRise = some x ∧ t.sync.outFall = some (x + 16 * soWidth s) ∧ t.now = max s.now x.toNat
              ∧ (16 ≤ originPeriod s (soRail s) →
                let from' : Int := match s.sync.outRise with | some r => max (s.now : Int) (r + 1) | none => s.now
                from' - 8 ≤ x ∧ x < from' + originPeriod s (soRail s) + 16))
      ∧ (∀ (k : RailId) (tick l : Nat), (∀ j, j ≠ k → lockEn s j = false ∧ (s.rail j).ilv.lock = .free) → lockEn s k = true → siEn s = true →
          s.pwr.phase = .up → s.sync.present = true → s.sync.lastEdge = some l → 18 ≤ tick - l → tick - l ≤ 131070 → Quiet s 113 →
          let ints := pushKeep 8 (tick - l) s.sync.intervals
          starInRange { s with sync := { s.sync with period := (quotFree (16 * (ints.sum : Nat)) ints.length).toNat } } k = true →
          (s.rail k).ilv.lock = .free → ∃ t, exec (.syncInEdge tick) s = .next t ∧ t.sync.present = true ∧ OtherRails k s t
            ∧ (t.rail k).ilv.lock = (if railSt s k = .off then .locked else .acquiring) ∧ (t.rail k).ilv.quiet = 0
            ∧ (t.rail k).ilv.edgeAt = (t.now : Int) ∧ (evEn s 113 = true → evLatchEn s 113 = true →
                (s.source 113).cycle ≠ some (cycleOf t) → railSt s k = .off → (t.source 113).latch = true))
      ∧ (∀ (k : RailId) (l : Nat), (∀ j, j ≠ k → lockEn s j = false ∧ (s.rail j).ilv.lock = .free) → lockEn s k = true →
          s.sync.present = true → s.sync.lastEdge = some l → Quiet s 112 → ∃ t, exec .syncInLoss s = .next t ∧ t.sync.present = false
            ∧ (t.rail k).ilv.lock = .free ∧ OtherRails k s t)
      ∧ (soEn s = false → exec .syncOutPulse s = .next s)

/-- With HK powered: a conversion goes to the next channel of the pass that is not in the fast lane, joins its round, and the
pass ends after the last such channel. At the end of the sixteenth pass, with no cross-check waiting and event 94 staying
inside the event system, every voltage channel's reading is the mean of its conversions in sixteenths, the round count steps
on and a requested cross-check is due at the next round (that XCHK_REQ waits for a full round is log 27, the model's choice).
A fast conversion of the only fast-lane channel, a stage NTC not broken, gives the reading of its latest four conversions:
below its warning level less 2 °C no event; from the warning level up to SHUT the warning, its event's latch and the derating
factor of R322; at or above SHUT the floor of the factor, the COLD and READY tiles of its port are EXCLUDED with reason 14,
and an ACTIVE one of a port with no such tile, no Leap, glide or stop of its rail running, fades out over eight periods; a
reading outside its range or with a step (from the base of log 33, deduced) marks it broken with its cause and counts as
SHUT. (Its events stay inside the event system.) XCHK_REQ is taken only while every rail is OFF, SAFE or HICCUP. Without
power nothing is converted. (10_thermal_housekeeping.md (R317, R318, R319, R321, R322, R325, R330, R331, R333),
11_supply_clocks_power_states.md (R346)) -/
def Obligations.HousekeepingConvertsAndPublishes : Prop :=
  ∀ (s : State),
      (hkRuns s = true →
        (s.hk.pass < 16 → ∀ (raw : BitVec 12) (c : ChanId), nextChan s s.hk.next = some c →
          ∃ t, exec (.hkConversion raw) s = .next t
            ∧ t.chan c = { s.chan c with latest := raw.toNat, round := pushKeep 16 raw.toNat (s.chan c).round }
            ∧ (∀ d, d ≠ c → t.chan d = s.chan d)
            ∧ t.hk.next = (if (nextChan s (c.val + 1)).isSome = true then c.val + 1 else 0)
            ∧ t.hk.pass = (if (nextChan s (c.val + 1)).isSome = true then s.hk.pass else s.hk.pass + 1)
            ∧ Within [.hk, .pwr] s t ∧ (s.pwr.warn = false → t.pwr = s.pwr))
        ∧ (s.hk.pass = 16 → s.hk.xchkWait = 0 → Quiet s 94 → ∃ t, exec .hkRoundEnd s = .next t
            ∧ t.hk.pass = 0 ∧ t.hk.next = 0 ∧ t.hk.rounds = (s.hk.rounds + 1) % 65536 ∧ t.hk.xchkWait = s.hk.xchkNext ∧ t.hk.xchkNext = 0
            ∧ (∀ c : ChanId, 36 ≤ c.val → (s.chan c).inFast = false → (t.chan c).value = mean16 (s.chan c).round (s.chan c).raw16)
            ∧ t.now = s.now ∧ t.bus = s.bus ∧ t.nvm = s.nvm)
        ∧ (∀ (raws : Vector (BitVec 12) 64) (vsup : BitVec 12) (c : ChanId), fastList s = [c] → isStage c = true → chEn s c = true →
            (s.chan c).broken = false → s.pwr.warn = false →
          let h := s.chan c
          let four := (pushKeep 16 (raws.get c).toNat h.fastRaws).take 4
          let raw16 := (quotFree (16 * (four.sum : Nat) + (4 - four.length : Nat) * h.raw16) 4).toNat
          let v := readingOf s c raw16
          let rise : Int := match h.fastReads[15]? <|> h.lastRound with | some b => v - b | none => 0
          (brokenCause c raw16 v rise = none → h.warn = false → chWarn s c ≤ v → v < chShut s c → Quiet s (chSource c) →
            ∃ t, exec (.fastLaneTimer raws vsup) s = .next t ∧ (t.chan c).value = v ∧ (t.chan c).warn = true ∧ (t.chan c).shut = false
              ∧ (t.chan c).g = (max (throttleMin s) (256 - 256 * (v - chWarn s c) / (chShut s c - chWarn s c))).toNat
              ∧ (evEn s (chSource c) = true → evLatchEn s (chSource c) = true → occurredNow s (chSource c) = false → (t.source (chSource c)).latch = true)
              ∧ (∀ d, d ≠ c → t.chan d = s.chan d) ∧ Within [.hk, .tel, .ev] s t)
          ∧ (brokenCause c raw16 v rise = none → chShut s c ≤ v → Quiet s (chSource c) → (∀ j, (s.rail j).seq.stopWait = none) →
              (∀ j, NoWatch s j) → ∃ t, exec (.fastLaneTimer raws vsup) s = .next t ∧ (t.chan c).shut = true ∧ (t.chan c).g = (throttleMin s).toNat
              ∧ ∀ (u : TileId) (k : RailId), (portOf u).val = c.val → (s.tile u).rail = some k → (s.tile u).act = .ready ∨ (s.tile u).act = .cold →
                  (t.tile u).act = .excluded ∧ (t.tile u).reason = 14 ∧ (t.tile u).gen = (s.tile u).gen + 1)
          ∧ (brokenCause c raw16 v rise = none → chShut s c ≤ v → Quiet s (chSource c) → (∀ j, (s.rail j).seq.stopWait = none) → (∀ j, NoWatch s j) →
              (∀ u, (portOf u).val = c.val → (s.tile u).act ≠ .ready ∧ (s.tile u).act ≠ .cold) → ∃ t, exec (.fastLaneTimer raws vsup) s = .next t
              ∧ ∀ (u : TileId) (k : RailId), (portOf u).val = c.val → (s.tile u).rail = some k → (s.tile u).act = .active → (s.tile u).fade = .none →
                  (s.rail k).ilv.glide = .none → leapActive s k = false → railSt s k ≠ .stopping →
                  (t.tile u).act = .active ∧ (t.tile u).fade = .fadeOut 8 .thermalOut)
          ∧ (∀ b : Nat, brokenCause c raw16 v rise = some b → Quiet s (chSource c) → Quiet s 93 → ∃ t, exec (.fastLaneTimer raws vsup) s = .next t
              ∧ (t.chan c).broken = true ∧ (t.chan c).bcause = b ∧ (t.chan c).g = (throttleMin s).toNat ∧ (t.chan c).shut = true)
          ∧ (brokenCause c raw16 v rise = none → v < chWarn s c - 32 → v < chShut s c →
          ∃ t, exec (.fastLaneTimer raws vsup) s = .next t ∧ (t.chan c).value = v ∧ (t.chan c).latest = (raws.get c).toNat
            ∧ (t.chan c).warn = false ∧ (t.chan c).shut = false ∧ (∀ d, d ≠ c → t.chan d = s.chan d) ∧ Within [.hk, .tel] s t)))
      ∧ (hkRuns s = false → (∀ raw, exec (.hkConversion raw) s = .next s) ∧ exec .hkRoundEnd s = .next s
          ∧ ∀ raws vsup, exec (.fastLaneTimer raws vsup) s = .next s)
      ∧ (∀ h : HostId, WordLands s h .hkCtl 1 →
          ((∀ k, railOut (railSt s k) = true) → exec (.xchkReq h) s = .next
            { s.opened h Reg.hkCtl.addr with hk := { s.hk with xchkNext := BitVec.allOnes 36 } })
          ∧ (¬(∀ k, railOut (railSt s k) = true) → exec (.xchkReq h) s = .next (refuse h (s.opened h Reg.hkCtl.addr))))

/-- TSD_GRACE_EXPIRY, the grace over and no stop waiting and no settle watch open: every rail still in STOPPING enters SAFE with
cause 7, every other keeps its state. A VSUP warning pauses the charger, whose grant goes back and is asked for again; its
end counts a dip, re-arms the power-fail monitor and lets the memory begin the burst that waits (log 78), event 96 staying
inside the event system. POWER_FAIL, the monitor armed, commits to a snapshot where a fault page is blank, its page formed at
once where no operation runs, and is skipped with PF_SKIP otherwise; a crossing before that snapshot is complete asks for one
after it. SNAPSHOT_COMPLETE, no operation running, programs the page into the fault pages and takes up one that was asked
for; a first failed verify repeats the program, a second counts and latches event 173 (R497). REF_PPM takes the deviation of
each full second. Out of these conditions each changes nothing. (10_thermal_housekeeping.md (R328),
11_supply_clocks_power_states.md (R346, R348, R349, R353), 16_nvm_records.md (R497)) -/
def Obligations.GraceEndsAndSupplyWarns : Prop :=
  ∀ (s : State),
      (s.hk.graceOn = true → s.hk.tsdFrom + ms (tsdGrace s) ≤ s.now → (∀ k, (s.rail k).seq.stopWait = none) → (∀ k, NoWatch s k) →
          ∃ t, exec .tsdGraceExpiry s = .next t ∧ t.hk = { s.hk with graceOn := false } ∧ Within [.hk, .rails, .tiles] s t
            ∧ ∀ k, if railSt s k = .stopping then railSt t k = .safe ∧ (t.rail k).seq.cause = 7 else railSt t k = railSt s k)
      ∧ (s.hk.graceOn = false ∨ s.now < s.hk.tsdFrom + ms (tsdGrace s) → exec .tsdGraceExpiry s = .next s)
      ∧ (coreOn s = true → s.pwr.warn = false → ∃ t, exec .vsupWarning s = .next t ∧ t.pwr = { s.pwr with warn := true, vsupSeen := false }
          ∧ t.ka = { s.ka with chg := s.ka.chg.pause } ∧ Within [.pwr, .ka, .draw] s t
          ∧ (leaveHeld s .charger = true → leaveWaits t .charger = true) ∧ (leaveHeld s .charger = false → t.draw.waiting = s.draw.waiting))
      ∧ (coreOn s = true → s.pwr.warn = true → Quiet s 96 → ∃ t, exec .vsupWarningClear s = .next t
          ∧ t.pwr = { s.pwr with warn := false, dip := true, dipCnt := satInc s.pwr.dipCnt 255, pfArmed := true } ∧ Within [.pwr, .xm, .ev] s t
          ∧ t.xm = { s.xm with began := t.xm.began } ∧ (s.xm.bursts = [] ∨ s.xm.began.isSome = true → t.xm = s.xm)
          ∧ (s.xm.bursts ≠ [] → s.xm.began = none → freeGrant s .xmJournal = false → t.xm.began = some s.now))
      ∧ (s.pwr.warn = true → exec .vsupWarning s = .next s) ∧ (s.pwr.warn = false → exec .vsupWarningClear s = .next s)
      ∧ (coreOn s = true → s.pwr.pfArmed = true →
          (s.pwr.pfCommitted = true → exec .powerFail s = .next { s with pwr := { s.pwr with pfArmed := false, pfAgain := true } })
          ∧ (s.pwr.pfCommitted = false → blankPage (nvmPage s 510) = true ∨ blankPage (nvmPage s 511) = true → ∃ t, exec .powerFail s = .next t
            ∧ (if s.nvm.op = none then
                t.pwr = { s.pwr with pfArmed := false, pfCommitted := true, pfPage := faultPage s (s.ka.snapNo + 1) }
                  ∧ t.ka = { s.ka with snapNo := s.ka.snapNo + 1 }
              else t.pwr = { s.pwr with pfArmed := false, pfCommitted := true, pfPage := [] } ∧ t.ka = s.ka ∧ t.free = s.free)
            ∧ Within [.pwr, .ka, .free] s t)
          ∧ (s.pwr.pfCommitted = false → blankPage (nvmPage s 510) = false → blankPage (nvmPage s 511) = false → exec .powerFail s = .next
              { s with pwr := { s.pwr with pfArmed := false }, nvm := { s.nvm with pfSkip := true }, ka := { s.ka with pfSkipped := true } }))
      ∧ (s.pwr.pfArmed = false → exec .powerFail s = .next s)
      ∧ (coreOn s = true → s.pwr.pfCommitted = true → s.nvm.op = none → Quiet s 97 →
          let page := if s.pwr.pfPage = [] then faultPage s (s.ka.snapNo + 1) else s.pwr.pfPage
          (s.pwr.pfRetried = false → ∃ t, exec (.snapshotComplete false) s = .next t ∧ t.pwr = { s.pwr with pfPage := page, pfRetried := true }
            ∧ t.nvm = s.nvm ∧ Within [.pwr, .ka, .free] s t)
          ∧ (s.pwr.pfRetried = true → Quiet s 173 → ∃ t, exec (.snapshotComplete false) s = .next t ∧ t.nvm.vfailCnt = satInc s.nvm.vfailCnt 255
            ∧ t.pwr.pf = s.pwr.pf ∧ (s.pwr.pfAgain = false → t.pwr.pfCommitted = false)
            ∧ (evEn s 173 = true → evLatchEn s 173 = true → occurredNow s 173 = false → (t.source 173).latch = true)
            ∧ Within [.nvm, .pwr, .ka, .free, .ev] s t)
          ∧ ∃ t, exec (.snapshotComplete true) s = .next t
          ∧ t.nvm.mem = progBytes false s.nvm.mem (64 * (if blankPage (nvmPage s 510) = true then 510 else 511)) page
          ∧ t.pwr.pf = true ∧ t.pwr.pfAgain = false ∧ Within [.nvm, .pwr, .ka, .free, .ev] s t
          ∧ (s.pwr.pfAgain = false → t.pwr = { s.pwr with pfCommitted := false, pfRetried := false, pfPage := [], pf := true })
          ∧ (s.pwr.pfAgain = true → t.pwr.pfCommitted = true ∨ t.nvm.pfSkip = true))
      ∧ (s.pwr.pfCommitted = false ∨ s.nvm.op.isSome = true → ∀ v : Bool, exec (.snapshotComplete v) s = .next s)
      ∧ (∀ d : BitVec 16, s.pwr.phase = .up → s.pwr.bootEnd + secs 1 ≤ s.now → exec (.refPpmWindow d) s = .next
          { s with pwr := { s.pwr with ppmValid := true, refPpm := d, bootEnd := s.pwr.bootEnd + secs 1 } })
      ∧ (∀ d : BitVec 16, s.now < s.pwr.bootEnd + secs 1 → exec (.refPpmWindow d) s = .next s)

/-- With CORE working and no snapshot, NVM operation or memory burst under way, RESET_N low for 200 ns or longer (or still low
from before), VSUP, VIO and the core supply below their reset levels, a clock fault, and RST_CMD 0x5A of a host that may
write each leave the controller in reset with their cause code, every setting and rail and tile at its reset value, every
output low, the NVM, the EEPROM and the external memory unchanged and, of the keep-alive domain, the RTC and the pending
counts kept. It leaves reset 100 µs after the source clears (R361). A pulse shorter than 150 ns does nothing. In KEEPALIVE a
wake or RESET_N resets with cause WAKE; the core supply's absence and clock faults do nothing there, and a source that comes
while another acts, or within 100 µs after it, leaves the lower of the two codes, a later one its own: both are log 85, the
model's choice. Where the armed keep-alive domain has lost its power, the fall of VSUP takes the rest of the device into
Brumation (R580). Any other RST_CMD value is refused. (11_supply_clocks_power_states.md (R345, R352, R359, R361, R362, R363,
R372), 18_keepalive_cell_service.md (R580), 19_pins.md (R599)) -/
def Obligations.ResetsClearAllButWhatIsKept : Prop :=
  ∀ (s : State),
      let clears (c : Instr) (cause held : Nat) : Prop := ∃ t, exec c s = .next t ∧ t.ka.cause = cause
        ∧ t.pwr = { phase := .inReset, outAt := if s.pwr.phase = .inReset then max s.pwr.outAt (s.now + held + us 100) else s.now + held + us 100, vxio := s.pwr.vxio, warn := s.pwr.warn, pfArmed := s.pwr.pfArmed }
        ∧ t.settings = [] ∧ (∀ k, t.rail k = State.reset.rail k) ∧ (∀ u, t.tile u = State.reset.tile u)
        ∧ (∀ u, outHigh t u = false ∧ outLow t u = false) ∧ t.ka.rtcBase = s.ka.rtcBase ∧ t.ka.rtcAt = s.ka.rtcAt ∧ t.ka.pend = s.ka.pend
        ∧ t.ka.armUntil = none ∧ t.bus.owner = none ∧ t.ev.queue = [] ∧ t.nvm.queue = []
        ∧ t.nvm.mem = s.nvm.mem ∧ t.eeprom = s.eeprom ∧ t.xm.mem = s.xm.mem ∧ t.now = s.now ∧ t.pending = s.pending
      (coreOn s = true → s.ka.brum = false → s.pwr.pfCommitted = false → s.nvm.op = none → s.xm.bursts = [] →
        (∀ ns : Nat, 200 ≤ ns ∨ s.tap.resetLow = true → clears (.resetNLow ns) 2 (ofNs ns))
        ∧ (∀ ns : Nat, clears (.vsupReset ns) 1 (ofNs ns) ∧ clears (.vioReset ns) 5 (ofNs ns) ∧ clears (.coreSupplyReset ns) 6 (ofNs ns)
            ∧ ∀ kind : ClockFault, clears (.clockFault kind ns) 4 (ofNs ns))
        ∧ (∀ (h : HostId) (d : Word), WordLands s h .rstCmd d → fld d 7 0 = 0x5A → clears (.rstCmd h d) 3 (us 10)))
      ∧ (∀ (h : HostId) (d : Word), WordLands s h .rstCmd d → fld d 7 0 ≠ 0x5A →
          exec (.rstCmd h d) s = .next (refuse h (s.opened h Reg.rstCmd.addr)))
      ∧ (∀ ns : Nat, ns < 150 → s.tap.resetLow = false → exec (.resetNLow ns) s = .next s)
      ∧ (coreOn s = true → s.ka.brum = true → s.pwr.pfCommitted = false → s.nvm.op = none → s.xm.bursts = [] → ∀ ns : Nat, ∃ t, exec (.vsupReset ns) s = .next t
          ∧ t.pwr.phase = .brumation ∧ t.ka = { s.ka with hourSec := t.ka.hourSec } ∧ t.settings = [] ∧ (∀ u, outHigh t u = false ∧ outLow t u = false)
          ∧ t.nvm.mem = s.nvm.mem ∧ t.eeprom = s.eeprom ∧ t.xm.mem = s.xm.mem)
      ∧ (s.pwr.phase = .keepAlive → s.ka.brum = false → s.pwr.pfCommitted = false → s.nvm.op = none → s.xm.bursts = [] →
          (∀ b : Bool, clears (.keepaliveWake b) 7 0) ∧ (∀ ns : Nat, 200 ≤ ns ∨ s.tap.resetLow = true → clears (.resetNLow ns) 7 (ofNs ns))
          ∧ ∀ ns : Nat, exec (.coreSupplyReset ns) s = .next s ∧ ∀ kind : ClockFault, exec (.clockFault kind ns) s = .next s)
      ∧ (s.pwr.phase = .inReset → s.ka.brum = false → s.pwr.pfCommitted = false → s.nvm.op = none → s.xm.bursts = [] →
          let low (n : Nat) : Nat := if inReset s = true then min s.ka.cause n else n
          ∀ ns : Nat, (200 ≤ ns ∨ s.tap.resetLow = true → clears (.resetNLow ns) (low 2) (ofNs ns)) ∧ clears (.vsupReset ns) (low 1) (ofNs ns)
            ∧ clears (.vioReset ns) (low 5) (ofNs ns) ∧ clears (.coreSupplyReset ns) (low 6) (ofNs ns)
            ∧ ∀ kind : ClockFault, clears (.clockFault kind ns) (low 4) (ofNs ns))
      ∧ (s.pwr.phase ≠ .keepAlive → ∀ b : Bool, exec (.keepaliveWake b) s = .next s)

/-- BOOT of a controller in reset whose RESET_N is high always runs to its end, from 100 µs after the last reset source at the
earliest (R361). Where the search of the primary source chooses a copy, or fails there and chooses one of the fall-back
source, it ends running with that source and slot, the copy of the primary source having set every register (but the
calibration words that the records hold), the coefficients, the temperature tables, the map and the assignment, with no byte
of NVM or EEPROM changed, the link's fall-back on, every origin at the present instant and a cross-check of all channels due.
Where no source gives a copy it ends in SAFE-IDLE, with both pins low, all outputs low and no setting loaded. A controller
that is not in reset, or whose RESET_N is low, is unchanged. (01_architecture.md (R29), 11_supply_clocks_power_states.md
(R360), 15_boot_image.md (R460, R470, R471, R472, R477, R478)) -/
def Obligations.BootEndsInStandbyOrSafeIdle : Prop :=
  ∀ (b : BootInputs) (s : State),
      (s.pwr.phase = .inReset → s.tap.resetLow = false →
        let s1 := bootStart b s
        let runs (src : ImageSource) (slotB fb : Bool) : Prop := ∃ t, exec (.boot b) s = .next t ∧ t.pwr.phase = .up ∧ max s.now s.pwr.outAt ≤ t.now ∧ t.ldr.src = src
          ∧ t.ldr.slotB = slotB ∧ t.ldr.fallback = fb ∧ t.nvm.mem = s.nvm.mem ∧ t.eeprom = s.eeprom ∧ t.link.fallback = true ∧ t.hk.xchkWait = BitVec.allOnes 36 ∧ t.pwr.bootEnd = t.now
          ∧ (∀ k, (t.rail k).ilv.originAt = t.now)
        let idles : Prop := ∃ t, exec (.boot b) s = .next t ∧ t.pwr.phase = .safeIdle ∧ max s.now s.pwr.outAt ≤ t.now ∧ t.settings = s.settings
          ∧ faultN t = false ∧ alertN t = false ∧ ∀ u, outHigh t u = false ∧ outLow t u = false
        let first := judgeSource b s1 (primarySrc b)
        let loads (t : State) (d : ImageData) : Prop := t.map.mem = Store.ofList 0 0 d.map ∧ t.tempTab = Store.ofList 0 0 (d.temp.map (BitVec.ofNat 16))
          ∧ t.coef = Store.ofList 0 0 (d.coef.flatMap fun x => x.2.map word) ∧ (∀ u : TileId, (t.tile u).rail = assigned (d.assign.getD u.val 0xFF))
          ∧ t.ldr.mapRt = d.mapRt
          ∧ ∀ r : Reg, (∀ k, r ≠ .loop k .snsCal) → (∀ u, r ≠ .tile u .ical) → setWord t r = setWord (loadImage d s) r
        (∀ slot d, first.chosen = some (slot, d) → runs (primarySrc b) slot false ∧ ∀ t, exec (.boot b) s = .next t → loads t d)
        ∧ (first.chosen = none →
            (∀ f, fallbackSrc b = some f → ∀ slot d, (judgeSource b s1 f).chosen = some (slot, d) → runs f slot true)
            ∧ ((fallbackSrc b = none ∨ ∃ f, fallbackSrc b = some f ∧ (judgeSource b s1 f).chosen = none) → idles)))
      ∧ (s.pwr.phase ≠ .inReset ∨ s.tap.resetLow = true → exec (.boot b) s = .next s)

/-- Words that land on a running controller. PWR_CMD with any of its four requests becomes the target of a transition (with HK
powered, no KEEPALIVE target to withdraw); READY to RUN then completes at once, RUN to READY once every rail is OFF or SAFE,
with the whole seconds of RUN carried toward the hour count (that a started second is dropped is log 142's reading of R382,
the model's choice), with event 103 staying inside the event system. READY or RUN from STANDBY is refused while a bank is
needed and HK is off (log 88 has the same for a bank's ramp). The level of VXIO that a command tells is kept (log 147).
DOM_CTL is taken whole where its limits allow it and refused whole otherwise. A bank that holds leave, is wanted and not
powered, ramps alone; at the end of its ramp it is powered, its COLD tiles have reason BANK and outputs low, and its channels
are due for a cross-check. (01_architecture.md (R16), 11_supply_clocks_power_states.md (R354, R355, R356, R357, R358),
12_telemetry_events.md (R382)) -/
def Obligations.PowerStatesFollowTheTarget : Prop :=
  ∀ (s : State),
      (∀ (h : HostId) (mode : Bool), s.pwr.phase = .up → s.pwr.hk = true → s.pwr.target ≠ .keepalive →
        let takes (c : Instr) (n : Nat) (p : Power) : Prop := WordLands s h .pwrCmd (pwrWord n mode) →
          ∃ t, exec c s = .next t ∧ t.pwr.target = p ∧ t.pwr.trans = true ∧ t.pwr.stopMode = mode ∧ t.pwr.state = s.pwr.state
            ∧ (t.host h).refCnt = (s.host h).refCnt ∧ t.settings = s.settings
        (∀ v : Nat, takes (.pwrStandby h mode v) 0 .standby ∧ takes (.pwrReady h mode v) 1 .ready ∧ takes (.pwrRun h mode v) 2 .run)
          ∧ takes (.pwrKeepalive h mode) 3 .keepalive)
      ∧ (∀ (h : HostId) (mode : Bool), s.pwr.phase = .up → s.pwr.state = .standby → s.pwr.hk = false → (∃ b, bankNeeded s b = true) →
          (∀ v : Nat, WordLands s h .pwrCmd (pwrWord 1 mode) → exec (.pwrReady h mode v) s = .next (refuse h ((s.withVxio v).opened h Reg.pwrCmd.addr)))
          ∧ (∀ v : Nat, WordLands s h .pwrCmd (pwrWord 2 mode) → exec (.pwrRun h mode v) s = .next (refuse h ((s.withVxio v).opened h Reg.pwrCmd.addr))))
      ∧ (s.pwr.phase = .up → s.pwr.trans = true → Quiet s 103 →
          (s.pwr.state = .ready → s.pwr.target = .run → ∃ t, exec .powerTransitionComplete s = .next t
            ∧ t.pwr = { s.pwr with state := .run, trans := false, runFrom := s.now } ∧ Within [.pwr, .ev] s t)
          ∧ (s.pwr.state = .run → s.pwr.target = .ready →
            (railsDown s = true → ∃ t, exec .powerTransitionComplete s = .next t
              ∧ t.pwr = { s.pwr with state := .ready, trans := false, runFrom := s.now }
              ∧ t.ka = { s.ka with hourSec := s.ka.hourSec + (s.now - s.pwr.runFrom) / secs 1 } ∧ Within [.pwr, .ka, .ev] s t)
            ∧ (railsDown s = false → exec .powerTransitionComplete s = .next s)))
      ∧ (s.pwr.trans = false → exec .powerTransitionComplete s = .next s)
      ∧ (∀ (h : HostId) (data : Word) (v : Nat), WordLands s h .domCtl data →
          (domAllowed s data = true → ∃ t, exec (.domCtlWrite h data v) s = .next t ∧ t.pwr.bankWant = BitVec.ofNat 4 (fld data 3 0)
            ∧ t.pwr.hk = bitOf data 4 ∧ t.pwr.xmi = bitOf data 5 ∧ t.pwr.xmiEn = bitOf data 5 ∧ t.pwr.state = s.pwr.state ∧ t.settings = s.settings ∧ t.rails = s.rails)
          ∧ (domAllowed s data = false → exec (.domCtlWrite h data v) s = .next (refuse h ((s.withVxio v).opened h Reg.domCtl.addr))))
      ∧ (∀ b : BankId,
          (leaveHeld s (.bank b) = true → s.pwr.ramping = none → s.pwr.bankWant.getLsbD b.val = true → s.pwr.banks.getLsbD b.val = false →
            exec (.bankPowerUp b) s = .next { s with pwr := { s.pwr with ramping := some b } })
          ∧ (leaveHeld s (.bank b) = false ∨ s.pwr.ramping.isSome = true → exec (.bankPowerUp b) s = .next s)
          ∧ (s.pwr.ramping = some b → ∃ t, exec (.bankPowerUpDone b) s = .next t ∧ t.pwr.ramping = none
              ∧ t.pwr.banks = s.pwr.banks ||| (1#4 <<< b.val) ∧ t.hk = { s.hk with xchkNext := s.hk.xchkNext ||| bankChans b }
              ∧ (∀ u, bankOf u = b → (t.tile u).edg = {} ∧ (t.tile u).act = (s.tile u).act
                  ∧ ((s.tile u).act = .cold → (t.tile u).reason = 5))
              ∧ (∀ u, bankOf u ≠ b → t.tile u = s.tile u) ∧ Within [.pwr, .hk, .tiles, .draw] s t)
          ∧ (s.pwr.ramping ≠ some b → exec (.bankPowerUpDone b) s = .next s))

/-- BIST_CMD.START that lands asks the draw arbiter for leave and reads busy; while busy it is refused. With leave, no stop
waiting, and every temperature channel that has a round reading agreeing with the median of two or more neighbours, the sweep
begins, with FAIL_CH naming the first reference channel outside its limits (event 229 staying inside the event system) and a
die shutdown ending where the dies allow it (R329); a channel that the cross-check finds off the median is marked broken with
cause 3 and fails the sweep. Its end, once its scrub pass (made of SCRUB_WORD rows: log 87, the model's choice) has read
every word of the four memories, leaves the test no longer busy, FAIL shows whether it found anything, RUNS counts it and
leave is returned (event 228 inside the event system); before that it does nothing. HOUR_COUNT adds one to LIFE_HOURS'
pending count for each 3,600 s in RUN, carried whole seconds included (log 142), and does nothing before they are full or in
another power state. (10_thermal_housekeeping.md (R329, R332, R333), 11_supply_clocks_power_states.md (R364),
12_telemetry_events.md (R381, R382)) -/
def Obligations.SelfTestSweepAndRunHours : Prop :=
  ∀ (s : State),
      (∀ h : HostId, WordLands s h .bistCmd 1 →
          (s.test.busy = false → ∃ t, exec (.bistStart h) s = .next t ∧ t.test = { s.test with busy := true } ∧ leaveWaits t .bist = true
            ∧ Within [.bus, .test, .draw] s t)
          ∧ (s.test.busy = true → exec (.bistStart h) s = .next (refuse h (s.opened h Reg.bistCmd.addr))))
      ∧ (∀ refs : Vector (BitVec 12) 14, s.test.busy = true → s.test.running = false → leaveHeld s .bist = true → Quiet s 229 →
          (∀ c v, roundOf s c = some v → isTemp s c = true → offMedian s c v = false ∧ 2 ≤ (neighbours s c).length ∧ (s.chan c).broken = false) →
          (∀ k, (s.rail k).seq.stopWait = none) → ∃ t, exec (.bistSweep refs) s = .next t
          ∧ t.test = { s.test with running := true, failCh := (refFail refs).getD 0, sweepBad := (refFail refs).isSome
                                   passMap := mapWords, passRing := ringWords, passRec := recWords, passImg := Config.shadowWords }
          ∧ t.hk = { s.hk with tsd := t.hk.tsd } ∧ (s.hk.tsd = false → t.hk = s.hk) ∧ Within [.test, .hk, .ev] s t)
      ∧ (∀ (refs : Vector (BitVec 12) 14) (c : ChanId) (v : Int), s.test.busy = true → s.test.running = false → leaveHeld s .bist = true →
          (∀ d x, d.val < c.val → roundOf s d = some x → isTemp s d = true →
            offMedian s d x = false ∧ 2 ≤ (neighbours s d).length ∧ (s.chan d).broken = false) →
          roundOf s c = some v → isTemp s c = true → offMedian s c v = true → (s.chan c).broken = false →
          ∃ t, exec (.bistSweep refs) s = .next t ∧ t.test.running = true ∧ t.test.sweepBad = true ∧ t.test.failCh = (refFail refs).getD 0
            ∧ (t.chan c).broken = true ∧ (t.chan c).bcause = 3)
      ∧ (∀ refs : Vector (BitVec 12) 14, leaveHeld s .bist = false ∨ s.test.running = true → exec (.bistSweep refs) s = .next s)
      ∧ (s.test.running = true → passDone s.test = true → Quiet s 228 → ∃ t, exec .bistSweepEnd s = .next t
          ∧ t.test = { s.test with busy := false, running := false, fail := s.test.sweepBad, runs := satInc s.test.runs 65535 }
          ∧ t.draw = (releaseLeave .bist s).draw ∧ Within [.test, .draw, .ev] s t)
      ∧ (s.test.running = false ∨ passDone s.test = false → exec .bistSweepEnd s = .next s)
      ∧ (let n := s.ka.hourSec + (s.now - s.pwr.runFrom) / secs 1
         s.pwr.phase = .up → s.pwr.state = .run → 3600 ≤ n → ∃ t, exec .hourCount s = .next t ∧ Within [.ka, .pwr] s t
          ∧ t.ka = { s.ka with hourSec := n - 3600, pend := t.ka.pend }
          ∧ t.pwr = { s.pwr with runFrom := s.pwr.runFrom + (s.now - s.pwr.runFrom) / secs 1 * secs 1 }
          ∧ ∀ c : Fin 73, t.ka.pend.get c = s.ka.pend.get c + (if c = 24 then 1 else 0))
      ∧ (s.pwr.state ≠ .run ∨ s.ka.hourSec + (s.now - s.pwr.runFrom) / secs 1 < 3600 → exec .hourCount s = .next s)

/-- While the link runs, a PING of any SEQ, any RAIL (powered or not, with or without tiles) and any VALUE is answered by one ACK
at the end of the transmit queue with result ACCEPTED, its SEQ and RAIL copied and its VALUE echoed; the frame counts as
accepted. (The frame's FLAGS are 0.) Where event 147 stays inside the event system nothing changes but the link and the
events. (R442) -/
def Obligations.PingIsAnsweredWhateverItsRail : Prop :=
  ∀ (seq : Byte) (k : RailId) (value : BitVec 16) (s : State),
      linkRuns s = true → ∃ t, exec (.ping seq k 0 value) s = .next t
        ∧ t.link.acks = s.link.acks ++ [{ ty := 0x91, seq := seq, rail := k, flags := 0, value := value }]
        ∧ t.link.rxCnt = satInc s.link.rxCnt 65535 ∧ t.link.refCnt = s.link.refCnt ∧ t.settings = s.settings
        ∧ (Quiet s 147 → Within [.link, .ev] s t)

/-- While the link runs and the load counts as alive, every load frame is answered by one ACK with its SEQ and RAIL. SET_TARGET:
a reserved flag gives BAD_FRAME, a rail without power or tile UNAVAILABLE, a repetition DUPLICATE with TARGET, missing
authority NO_AUTH, a value outside TMIN to TMAX RANGE, each changing no rail and no setting; else VALUE becomes TARGET,
ACCEPTED, and SETTLE_REQ opens a watch on a rail in PREPARE, SOFTSTART, REGULATE or SLEW. A QUERY returns its item. Any other
type is BAD_FRAME. (That a QUERY or PING with FLAGS set, and a frame of the controller's own types, are BAD_FRAME too is log
108, the model's choice.) A stop bit of 0 or a wrong CRC counts in its own counter and is not answered; a frame with neither
is judged. Events 144, 145 and 149 are taken to stay inside the event system. (04_loop_engines.md (R124),
14_gulsan_load_link.md (R434, R436, R437, R438, R439, R440, R441)) -/
def Obligations.LoadFramesAreJudgedInOrder : Prop :=
  ∀ (seq : Byte) (k : RailId) (flags : BitVec 5) (value : BitVec 16) (s : State), s.Canonical → Quiet s 149 →
      linkRuns s = true → s.link.alive = true →
      let ack (code : BitVec 5) (v : BitVec 16) : LinkFrame := { ty := 0x91, seq := seq, rail := k, flags := code, value := v }
      let answers (c : Instr) (code : BitVec 5) (v : BitVec 16) : Prop := ∃ t, exec c s = .next t ∧ t.link.acks = s.link.acks ++ [ack code v]
        ∧ t.link.rxCnt = satInc s.link.rxCnt 65535 ∧ t.link.refCnt = (if code.toNat < 2 then s.link.refCnt else satInc s.link.refCnt 65535)
        ∧ Within [.link, .ev] s t
      let set := Instr.setTarget seq k flags value
      let dup := (s.rail k).link.valid = true ∧ (s.rail k).link.seq = seq ∧ (s.rail k).link.value = value
      let outside := value.toNat < tMin s k ∨ tMax s k < value.toNat
      (flags.toNat / 2 ≠ 0 → answers set 4 0)
      ∧ (flags.toNat / 2 = 0 →
        (railAvail s k = false → answers set 5 0)
        ∧ (railAvail s k = true →
          (dup → (s.rail k).link.told = false ∨ (s.rail k).link.outcome = none → answers set 1 (BitVec.ofNat 16 (target s k)))
          ∧ (¬dup → linkAuth s k = false → answers set 2 (BitVec.ofNat 16 (target s k)))
          ∧ (¬dup → linkAuth s k = true → outside → answers set 3 (BitVec.ofNat 16 (target s k)))
          ∧ (¬dup → linkAuth s k = true → ¬outside → NoWatch s k →
              railSt s k = .prepare ∨ railSt s k = .softstart ∨ railSt s k = .regulate ∨ railSt s k = .slew →
            ∃ t, exec set s = .next t ∧ t.link.acks = s.link.acks ++ [ack 0 value] ∧ target t k = value.toNat
              ∧ t.rail k = { s.rail k with
                  eng := { (s.rail k).eng with srcLink := true }
                  link := { (s.rail k).link with
                    seq := seq, value := value, valid := true, outcome := none, told := false
                    watch := if flags.getLsbD 0 = true then some { seq := seq, openedAt := s.now, inWinFrom := none, target := value.toNat } else none } }
              ∧ OtherRails k s t ∧ Within [.link, .settings, .rails] s t)))
      ∧ (∀ v, queryItem s k value.toNat = some v →
        (flags = 0 → railAvail s k = true → answers (.query seq k flags value) 0 (BitVec.ofNat 16 v))
        ∧ (flags = 0 → railAvail s k = false → answers (.query seq k flags value) 5 0)
        ∧ (flags ≠ 0 → answers (.query seq k flags value) 4 0))
      ∧ (flags ≠ 0 → answers (.ping seq k flags value) 4 0)
      ∧ (queryItem s k value.toNat = none → answers (.query seq k flags value) 4 0)
      ∧ (∀ ty : Byte, ty ≠ 0x11 → ty ≠ 0x12 → ty ≠ 0x13 → answers (.badFrame ty seq k flags value) 4 0)
      ∧ (∀ f : BitVec 48, Quiet s 144 → Quiet s 145 →
        (∃ t, exec (.linkFrameError f false) s = .next t ∧ t.link = { s.link with clkActive := true, frmCnt := satInc s.link.frmCnt 255 }
          ∧ Within [.link, .ev] s t)
        ∧ (f.toNat % 256 ≠ rawCrc f → ∃ t, exec (.linkFrameError f true) s = .next t
          ∧ t.link = { s.link with clkActive := true, crcCnt := satInc s.link.crcCnt 255 } ∧ Within [.link, .ev] s t)
        ∧ (f.toNat % 256 = rawCrc f → exec (.linkFrameError f true) s =
            exec (.badFrame (BitVec.ofNat 8 (f.toNat >>> 40)) (BitVec.ofNat 8 (f.toNat >>> 32)) (railOf (f.toNat >>> 29))
              (BitVec.ofNat 5 (f.toNat >>> 24)) (BitVec.ofNat 16 (f.toNat >>> 8))) s))

/-- While the link runs the oldest ACK leaves its queue first; a SETTLED frame leaves only while no ACK waits, and marks its
command's outcome as sent; that sending one shows that the clock runs is log 109, the model's choice. A PING that arrives
while the link does not run (EN = 0) only shows that its clock runs, and nothing without CORE (R431, R433). A settle watch
closes SET_TMO after it opened with outcome 3 and VOUT in a SETTLED frame at the queue's end (room in the queue, event 150
inside the event system). A load without an accepted frame for LINK_WDT is no longer alive. A stop of the clock ends
CLK_ACTIVE and counts a frame in reception. LINK_AUTH that lands is stored and changes no other register. Events 145, 146 and
148 are taken to stay inside the event system. What is not due, and an empty queue, change nothing. (14_gulsan_load_link.md
(R431, R432, R433, R443, R444, R445, R447, R450)) -/
def Obligations.LinkSendsSettlesAndLapses : Prop :=
  ∀ (s : State),
      (linkRuns s = true →
        (∀ f rest, s.link.acks = f :: rest → exec .ack s = .next { s with link := { s.link with acks := rest, sent := some f, clkActive := true } })
        ∧ (∀ f rest, s.link.acks = [] → s.link.settled = f :: rest → ∃ t, exec .settled s = .next t
            ∧ t.link = { s.link with settled := rest, sent := some f, clkActive := true }
            ∧ (t.rail f.rail).link.told = ((s.rail f.rail).link.told
                || decide ((s.rail f.rail).link.seq = f.seq ∧ (s.rail f.rail).link.outcome = some (f.flags, f.value)))
            ∧ OtherRails f.rail s t ∧ Within [.link, .rails] s t)
        ∧ (Quiet s 145 → ∃ t, exec (.glClkStop true false) s = .next t
            ∧ t.link = { s.link with clkActive := false, frmCnt := satInc s.link.frmCnt 255 } ∧ Within [.link, .ev] s t))
      ∧ (linkRuns s = false → ∀ (seq : Byte) (k : RailId) (flags : BitVec 5) (value : BitVec 16), exec (.ping seq k flags value) s
          = .next (if coreOn s = true then { s with link := { s.link with clkActive := true } } else s))
      ∧ (s.link.acks = [] → exec .ack s = .next s)
      ∧ (s.link.acks ≠ [] ∨ s.link.settled = [] → exec .settled s = .next s)
      ∧ exec (.glClkStop false false) s = .next { s with link := { s.link with clkActive := false } }
      ∧ (∀ (k : RailId) (w : Watch), (s.rail k).link.watch = some w →
        (setTmo s k ≠ 0 → w.openedAt + ms (setTmo s k) ≤ s.now → s.link.settled.length < 16 → Quiet s 150 →
          ∃ t, exec (.settleTimeout k) s = .next t ∧ (t.rail k).link.watch = none ∧ (t.rail k).link.told = ((s.rail k).link.told && !((s.rail k).link.valid && w.seq == (s.rail k).link.seq))
            ∧ t.link = { s.link with settled := s.link.settled ++
                [{ ty := 0x92, seq := w.seq, rail := k, flags := 3, value := BitVec.ofNat 16 (s.rail k).fe.vout }] }
            ∧ (t.rail k).link.outcome = (if (s.rail k).link.valid = true ∧ w.seq = (s.rail k).link.seq
                then some (3, BitVec.ofNat 16 (s.rail k).fe.vout) else (s.rail k).link.outcome)
            ∧ OtherRails k s t ∧ Within [.link, .rails, .ev] s t)
        ∧ (setTmo s k = 0 ∨ s.now < w.openedAt + ms (setTmo s k) → exec (.settleTimeout k) s = .next s))
      ∧ (∀ r : Nat, s.link.rxAt = some r → s.link.alive = true → linkWdt s ≠ 0 → s.pwr.phase = .up →
        (r + ms (linkWdt s) < s.now → Quiet s 146 → ∃ t, exec .loadLapse s = .next t
          ∧ t.link = { s.link with alive := false, everLapsed := true } ∧ Within [.link, .ev] s t)
        ∧ (s.now ≤ r + ms (linkWdt s) → exec .loadLapse s = .next s))
      ∧ (∀ (h : HostId) (data : Word), s.Canonical → WordLands s h .linkAuth data → Quiet s 148 → ∃ t, exec (.linkAuthWrite h data) s = .next t
          ∧ setWord t .linkAuth = data &&& 0xFF#32 ∧ (∀ r, r ≠ .linkAuth → setWord t r = setWord s r) ∧ Within [.bus, .settings, .ev] s t)

/-- Words that land with a service arm open, the seal loop open where the replacement needs it. BEGIN with 68 to 18,432 bytes and
no replacement running starts one toward the other slot, provided its source answers. A word of IMG_DATA past the header
joins the buffer where there is room. COMMIT of a whole copy is taken, ABORT of a running replacement ends it with result 14
(event 166 inside the event system). Without an arm IMG_CTL is refused. A page write in time stores the next page's bytes and
takes them from the buffer; that of the header ends the writing and the copy is read back; one that the EEPROM does not
acknowledge fails the replacement with code 1. A copy read back is DONE where it is judged valid, FAILED with its code and
its MAGIC to be cleared otherwise. (That OFFSET stops at LEN, the header is held back to the end, a buffer is emptied at an
end and all sectors are asked for at BEGIN is log 94, the model's choice.) (15_boot_image.md (R482, R483, R484, R485, R486,
R487, R492, R494)) -/
def Obligations.ReplacementRunsFromBeginToVerdict : Prop :=
  ∀ (s : State),
      (armOpen s = true → (replNeedsSeal s = true → sealOpen s = true) → ∀ h : HostId,
        (∀ len : BitVec 16, WordLands s h .imgCtl (word (1 + len.toNat * 65536)) → replBusy s = false → 68 ≤ len.toNat → len.toNat ≤ 18432 →
            (targetSrc s = .xmem → xmUp s = true) → ∃ t, exec (.imgBegin h len true) s = .next t
          ∧ t.ldr = { s.ldr with
              repl := .receiving, result := 0, tgtSrc := targetSrc s, tgtB := targetB s, len := len.toNat, offset := 0, header := [], buffer := []
              progAt := 64, committing := false, headerDone := false, clearMagic := true
              eraseNext := if targetSrc s = .xmem ∧ xmRam s = false then some 0 else none }
          ∧ Within [.bus, .ldr] s t)
        ∧ (∀ data : Word, WordLands s h .imgData data → s.ldr.repl = .receiving → 64 ≤ s.ldr.offset → s.ldr.offset < s.ldr.len → 4 ≤ replFree s →
            ∃ t, exec (.imgDataWrite h data) s = .next t ∧ Within [.bus, .ldr] s t
          ∧ t.ldr = { s.ldr with offset := min (s.ldr.offset + 4) s.ldr.len
                                 buffer := s.ldr.buffer ++ (beBytes 4 data.toNat).take (s.ldr.len - s.ldr.offset) })
        ∧ (WordLands s h .imgCtl 2 → s.ldr.repl = .receiving → s.ldr.committing = false → s.ldr.len ≤ s.ldr.offset →
            ∃ t, exec (.imgCommit h) s = .next t ∧ t.ldr = { s.ldr with committing := true } ∧ Within [.bus, .ldr] s t)
        ∧ (WordLands s h .imgCtl 3 → replBusy s = true → Quiet s 166 → ∃ t, exec (.imgAbort h) s = .next t ∧ t.ldr.repl = .aborted
            ∧ t.ldr.result = 14 ∧ t.ldr.clearMagic = true ∧ t.ldr.buffer = [] ∧ Within [.bus, .ldr, .ev] s t))
      ∧ (armOpen s = false → ∀ h : HostId,
        (WordLands s h .imgCtl 2 → exec (.imgCommit h) s = .next (refuse h (s.opened h Reg.imgCtl.addr)))
        ∧ (WordLands s h .imgCtl 3 → exec (.imgAbort h) s = .next (refuse h (s.opened h Reg.imgCtl.addr)))
        ∧ (∀ (len : BitVec 16) (a : Bool), WordLands s h .imgCtl (word (1 + len.toNat * 65536)) →
            exec (.imgBegin h len a) s = .next (refuse h (s.opened h Reg.imgCtl.addr))))
      ∧ (s.ldr.tgtSrc = .eeprom → coreOn s = true → s.Canonical → ∀ bs : List Byte, imgNext s = some (.body bs) →
          ∃ t, exec (.eepromPageWrite .answers 0) s = .next t ∧ Within [.eeprom, .ldr] s t
            ∧ t.ldr = { s.ldr with buffer := s.ldr.buffer.drop bs.length, progAt := s.ldr.progAt + bs.length }
            ∧ Store.bytes t.eeprom (slotBase s.ldr.tgtB + s.ldr.progAt) bs.length = bs
            ∧ ∀ a, a < slotBase s.ldr.tgtB + s.ldr.progAt ∨ slotBase s.ldr.tgtB + s.ldr.progAt + bs.length ≤ a →
                Store.get blank t.eeprom a = Store.get blank s.eeprom a)
      ∧ (s.ldr.tgtSrc = .eeprom → coreOn s = true → s.Canonical → s.ldr.repl = .receiving → imgNext s = some .header →
          ∃ t, exec (.eepromPageWrite .answers 0) s = .next t ∧ t.ldr = { s.ldr with repl := .checking, header := [], headerDone := true }
            ∧ Store.bytes t.eeprom (slotBase s.ldr.tgtB) s.ldr.header.length = s.ldr.header ∧ Within [.eeprom, .ldr] s t)
      ∧ (s.ldr.tgtSrc = .eeprom → coreOn s = true → replBusy s = true → (imgNext s).isSome = true → Quiet s 166 →
          ∃ t, exec (.eepromPageWrite .silent 0) s = .next t ∧ t.ldr.repl = .failed ∧ t.ldr.result = 1 ∧ t.ldr.buffer = []
            ∧ Within [.eeprom, .ldr, .free, .ev] s t)
      ∧ (imgNext s = none ∨ s.ldr.tgtSrc ≠ .eeprom → ∀ (o : EepromAnswer) (n : Nat), exec (.eepromPageWrite o n) s = .next s)
      ∧ (s.ldr.repl = .checking → (s.ldr.tgtSrc = .xmem → xmUp s = true ∧ s.xm.stall = false) → Quiet s 165 → Quiet s 166 →
          let verdict := judgeSlot s s.ldr.tgtSrc s.ldr.tgtB (runningGen s)
          ∃ t, exec (.replacementCheckDone .answers 0) s = .next t ∧ Within [.ldr, .ev] s t
            ∧ (verdict = 0 → t.ldr = { s.ldr with repl := .done, result := 0, committing := false, headerDone := false })
            ∧ (verdict ≠ 0 → t.ldr.repl = .failed ∧ t.ldr.result = verdict ∧ t.ldr.clearMagic = true))
      ∧ (s.ldr.repl ≠ .checking → ∀ (o : EepromAnswer) (n : Nat), exec (.replacementCheckDone o n) s = .next s)

/-- With no host command waiting or running, room in the queue and no VSUP warning: PROGRAM of a loaded user page, and with a
service arm SAVE and ERASE of record 0 to 4, wait as the host's command with result 0, are recorded in the event queue and
hold the bus; FLUSH reads DONE at once (log 80, the model's choice), and marks every counter with a whole unit pending as
flushed, the request that it then has joining the queue while there is room and no operation runs. Each of the four commands
is refused and counted with result 1 while a host command waits or runs or (counted in FULL_CNT as well) the queue is full,
and with result 2 during a warning; SAVE and ERASE with 3 without an arm; ARG above 4 and PROGRAM of no user page with 4. A
word written to NVM_DATA of a user page enters the page buffer, loaded from the page first where needed, and NVM_IDX steps on
by four within the page; one to any other page is refused and counted; a read gives the four stored bytes.
(13_management_bus.md (R412), 16_nvm_records.md (R501, R502, R503, R509, R520, R521, R522), 17_journal_recorder_queues.md
(R529)) -/
def Obligations.NvmHostCommandsAreJudged : Prop :=
  ∀ (h : HostId) (s : State),
      let free := s.nvm.hostJob = none ∧ s.nvm.opHost = false ∧ nvmFill s.nvm < 16 ∧ s.pwr.warn = false
      let takes (c : Instr) (j : NvmJob) : Prop := ∃ t, exec c s = .next t ∧ Within [.bus, .nvm, .draw, .ev] s t
        ∧ t.nvm = { s.nvm with hostJob := some j, hostState := .waiting, hostResult := 0, hostB := h == .b }
        ∧ t.bus.holdFrom = some s.now ∧ (s.ev.queue.length < 512 → t.ev.queue.length = s.ev.queue.length + 1)
      let refuses (c : Instr) (n : Nat) : Prop := exec c s = .next (refuse h
        { s.opened h Reg.nvmCmd.addr with nvm := { s.nvm with hostResult := n, hostB := h == .b } })
      (free →
        (WordLands s h .nvmCmd 1 → s.nvm.bufValid = true → userPage s.nvm.bufPage = true → takes (.nvmProgram h) .hostProgram)
        ∧ (∀ a : BitVec 3, a.toNat ≤ 4 →
          (WordLands s h .nvmCmd (word (2 + 16 * a.toNat)) →
            (armOpen s = true → takes (.calSave h a) (.hostSave a.toNat)) ∧ (armOpen s = false → refuses (.calSave h a) 3))
          ∧ (WordLands s h .nvmCmd (word (3 + 16 * a.toNat)) →
            (armOpen s = true → takes (.recErase h a) (.hostErase a.toNat)) ∧ (armOpen s = false → refuses (.recErase h a) 3)))
        ∧ (WordLands s h .nvmCmd 4 → ∃ t, exec (.flush h) s = .next t ∧ t.nvm.hostState = .done ∧ t.nvm.hostResult = 0 ∧ t.nvm.mem = s.nvm.mem
            ∧ Within [.bus, .nvm, .draw, .ev] s t
            ∧ ∀ c : CntId, t.cnt c = { s.cnt c with flush := (s.cnt c).flush || decide (cntW c ≤ pendOf s c) }
              ∧ (cntW c ≤ pendOf s c → s.nvm.op = none → ∀ j, cntJob (s.modCnt c fun x => { x with flush := true }) c = some j →
                  j ∈ t.nvm.queue ∨ 16 ≤ nvmFill t.nvm))
        ∧ (WordLands s h .nvmCmd 1 → s.nvm.bufValid = false ∨ userPage s.nvm.bufPage = false → refuses (.nvmProgram h) 4)
        ∧ (∀ a : BitVec 3, 4 < a.toNat → armOpen s = true →
            (WordLands s h .nvmCmd (word (2 + 16 * a.toNat)) → refuses (.calSave h a) 4)
            ∧ (WordLands s h .nvmCmd (word (3 + 16 * a.toNat)) → refuses (.recErase h a) 4)))
      ∧ (∀ a : BitVec 3,
        let all (p : Word → Instr → Prop) : Prop := p 1 (.nvmProgram h) ∧ p (word (2 + 16 * a.toNat)) (.calSave h a)
          ∧ p (word (3 + 16 * a.toNat)) (.recErase h a) ∧ p 4 (.flush h)
        (s.nvm.hostJob.isSome = true ∨ s.nvm.opHost = true → all fun w c => WordLands s h .nvmCmd w → refuses c 1)
        ∧ (s.nvm.hostJob = none → s.nvm.opHost = false → 16 ≤ nvmFill s.nvm → all fun w c => WordLands s h .nvmCmd w →
            exec c s = .next (refuse h { s.opened h Reg.nvmCmd.addr with
              nvm := { s.nvm with hostResult := 1, hostB := h == .b, fullCnt := satInc s.nvm.fullCnt 255 } }))
        ∧ (s.nvm.hostJob = none → s.nvm.opHost = false → nvmFill s.nvm < 16 → s.pwr.warn = true → all fun w c => WordLands s h .nvmCmd w → refuses c 2))
      ∧ (∀ data : Word, WordLands s h .nvmData data → userPage (nvmPageIdx s h) = true →
          let load := s.nvm.bufStale = true ∨ s.nvm.bufValid = false ∨ s.nvm.bufPage ≠ nvmPageIdx s h ∨ (s.host h).pageMoved = true
          let old := if load then nvmPage s (nvmPageIdx s h) else s.nvm.buf
          ∃ t, exec (.nvmDataAccess h (some data)) s = .next t
            ∧ t.nvm = { s.nvm with bufPage := nvmPageIdx s h, bufValid := true, bufStale := false
                                   buf := old.take (nvmOffset s h) ++ beBytes 4 data.toNat ++ old.drop (nvmOffset s h + 4) }
            ∧ nvmOffset t h = (nvmOffset s h + 4) % 64 ∧ nvmPageIdx t h = nvmPageIdx s h ∧ Within [.bus, .nvm] s t)
      ∧ (∀ data : Word, WordLands s h .nvmData data → userPage (nvmPageIdx s h) = false → ∃ t, exec (.nvmDataAccess h (some data)) s = .next t
            ∧ (t.host h).refCnt = satInc (s.host h).refCnt 65535 ∧ t.nvm = s.nvm ∧ Within [.bus] s t)
      ∧ (coreOn s = true → s.bus.holdFrom = none → regLive s .nvmData = true → ∃ t, exec (.nvmDataAccess h none) s = .next t ∧ t.bus.rdata = nvmDataWord s h
            ∧ nvmOffset t h = (nvmOffset s h + 4) % 64 ∧ nvmPageIdx t h = nvmPageIdx s h ∧ Within [.bus] s t)

/-- With leave, no operation running, no VSUP warning and no snapshot committed, the next request starts with its page and bytes
and leaves the queue (a carry's choice of a spare page apart). A verified end leaves the memory with the operation's effect,
nothing running; the first failed verify repeats it, the second ends it without its effect. A due counter's request joins the
queue where there is room. A record write refused by a full queue is asked again 100 ms later. A margin read, a minute after
the one before it, that agrees only moves the scan on by one page; one that differs on a page that can be refreshed asks for
its refresh; earlier it does nothing. (16_nvm_records.md (R496, R497, R499, R500, R509, R515)) -/
def Obligations.NvmOperationsRunTheQueue : Prop :=
  ∀ (s : State),
      (coreOn s = true → s.nvm.op = none → s.pwr.warn = false → s.pwr.pfCommitted = false → nvmLeave s = true →
          ∀ (j : NvmJob) (kind page off : Nat) (bytes : List Byte), nextJob s.nvm = some j → (∀ c, j ≠ .counter c 1) →
          jobPlan s j = some (kind, page, off, bytes) → ∃ t, exec .nvmOperationStart s = .next t ∧ t.nvm.op = some j
            ∧ t.nvm.opKind = kind ∧ t.nvm.opPage = page ∧ t.nvm.opAt = off ∧ t.nvm.opBytes = bytes ∧ t.nvm.opHost = s.nvm.hostJob.isSome
            ∧ t.nvm.hostJob = none ∧ t.nvm.queue = (if s.nvm.hostJob.isSome = true then s.nvm.queue else eraseFirst (· == j) s.nvm.queue)
            ∧ t.nvm.mem = s.nvm.mem ∧ Within [.nvm, .draw, .ka] s t)
      ∧ (coreOn s = false ∨ s.nvm.op.isSome = true ∨ s.pwr.warn = true ∨ s.pwr.pfCommitted = true ∨ nvmLeave s = false →
          exec .nvmOperationStart s = .next s)
      ∧ (∀ j : NvmJob, s.nvm.op = some j →
        (∃ t, exec (.nvmOperationDone true) s = .next t ∧ t.nvm.op = none ∧ t.nvm.mem = opEffect s.nvm ∧ t.eeprom = s.eeprom)
        ∧ (s.nvm.retried = false → exec (.nvmOperationDone false) s = .next { s with nvm := { s.nvm with retried := true } })
        ∧ (s.nvm.retried = true → ∃ t, exec (.nvmOperationDone false) s = .next t ∧ t.nvm.op = none
            ∧ ∀ a, a / 64 ≠ s.nvm.opPage → s.nvm.opKind ≠ 2 → Store.wf blank s.nvm.mem = true → Store.get blank t.nvm.mem a = Store.get blank s.nvm.mem a))
      ∧ (s.nvm.op = none → ∀ v : Bool, exec (.nvmOperationDone v) s = .next s)
      ∧ (∀ c : Fin 73, coreOn s = true → s.nvm.op = none →
        (∀ j, cntJob s c = some j → s.nvm.queue.contains j = false → nvmFill s.nvm < 16 → ∃ t, exec (.counterCommit c) s = .next t
            ∧ t.nvm = { s.nvm with queue := s.nvm.queue ++ [j] } ∧ Within [.nvm, .draw] s t)
        ∧ (cntJob s c = none → exec (.counterCommit c) s = .next s))
      ∧ (∀ r : Fin 81,
        (∀ x, s.nvm.retries.find? (fun x => x.1 == r.val && decide (x.2 + ms 100 ≤ s.now)) = some x →
            s.nvm.queue.contains (.record r.val false) = false → nvmFill s.nvm < 16 → ∃ t, exec (.recordRetry r) s = .next t
          ∧ t.nvm = { s.nvm with queue := s.nvm.queue ++ [.record r.val false], retries := eraseFirst (· == x) s.nvm.retries }
          ∧ Within [.nvm, .draw] s t)
        ∧ ((∀ x ∈ s.nvm.retries, x.1 = r.val → s.now < x.2 + ms 100) → exec (.recordRetry r) s = .next s))
      ∧ (coreOn s = false ∨ marginDue s = false → ∀ b : Bool, exec (.marginRead b) s = .next s)
      ∧ (coreOn s = true → marginDue s = true →
          exec (.marginRead false) s = .next { s with nvm := { s.nvm with scan := (s.nvm.scan + 1) % 512, marginAt := some s.now } })
      ∧ (coreOn s = true → marginDue s = true → (refreshPlan s s.nvm.scan).isSome = true → s.nvm.queue.contains (.refresh s.nvm.scan) = false → nvmFill s.nvm < 16 →
          ∃ t, exec (.marginRead true) s = .next t ∧ Within [.nvm, .draw] s t
            ∧ t.nvm = { s.nvm with scan := (s.nvm.scan + 1) % 512, marginAt := some s.now, queue := s.nvm.queue ++ [.refresh s.nvm.scan] })

/-- With CORE on the journal writer takes the oldest queued entry once its cycle has come (that of a time being set is the cycle
of its take: log 98), numbers it, gives it its SEQ, its snapshot as the values stand and a pin where it asks for one and
fewer than 64 are pinned, and puts it at the ring's end; a full ring first gives up its oldest unpinned entry (here one that
XMEM holds), counts it, and moves a host's pointer that stood there to the oldest entry left. A read of JRN_E[0] loads the
entry at the host's pointer, or zeros. A read of JRN_E[7] pops the loaded entry once; with no journal region in service it
loses its pin. MOVE sets the pointer to the oldest entry or past the newest. The other host is never touched by a host's own
accesses. (01_architecture.md (R28), 17_journal_recorder_queues.md (R527, R528, R529, R530, R531, R533, R552)) -/
def Obligations.JournalKeepsPopsAndMoves : Prop :=
  ∀ (s : State),
      (∀ (q : QueueEntry) (rest : List QueueEntry), coreOn s = true → s.ev.queue = q :: rest → q.cyc ≤ cycleOf s →
        let wants := q.cls || q.snap || (q.record && q.id == 4)
        let pin := wants && decide (pinnedCount s < 64)
        let e : JournalEntry := {
          no := s.jrn.nextNo, sec := q.sec, frac := q.frac, flags := BitVec.ofNat 8 (flagsOf q + atB pin 2), id := BitVec.ofNat 8 q.id
          seq := q.seq.getD s.ka.nextSeq, detail := q.detail, snap := q.snapBytes.getD (snapOf s q), writtenAt := s.now, inXmem := false }
        let seqDone (t : State) : Prop := t.ka = (if q.seq.isSome = true then s.ka else { s.ka with nextSeq := s.ka.nextSeq + 1 })
        (s.jrn.ring.length < 1024 → wants = pin → ∃ t, exec .journalWrite s = .next t ∧ t.ev = { s.ev with queue := rest }
          ∧ t.jrn = { s.jrn with ring := s.jrn.ring ++ [e], nextNo := s.jrn.nextNo + 1 } ∧ seqDone t ∧ Within [.ev, .jrn, .ka] s t)
        ∧ (s.jrn.ring.length < 1024 → wants = true → 64 ≤ pinnedCount s → Quiet s 185 → ∃ t, exec .journalWrite s = .next t
          ∧ t.jrn = { s.jrn with ring := s.jrn.ring ++ [e], nextNo := s.jrn.nextNo + 1, pinOvf := satInc s.jrn.pinOvf 255 }
          ∧ seqDone t ∧ Within [.ev, .jrn, .ka] s t)
        ∧ (∀ (old o : JournalEntry) (more : List JournalEntry), 1024 ≤ s.jrn.ring.length → wants = pin →
            s.jrn.ring.find? (fun x => !x.pinned) = some old → old.inXmem = true →
            eraseFirst (fun x => !x.pinned) s.jrn.ring = o :: more → ∃ t, exec .journalWrite s = .next t ∧ t.ev = { s.ev with queue := rest }
          ∧ t.jrn = { s.jrn with ring := o :: more ++ [e], nextNo := s.jrn.nextNo + 1, ovrCnt := satInc s.jrn.ovrCnt 65535 }
          ∧ (∀ h : HostId, t.host h = { s.host h with
              jrnPtr := if (s.host h).jrnPtr = old.no then o.no else (s.host h).jrnPtr
              skipped := if (s.host h).jrnPtr ≤ old.no then satInc (s.host h).skipped 65535 else (s.host h).skipped })
          ∧ seqDone t ∧ Within [.ev, .jrn, .ka, .bus] s t))
      ∧ (coreOn s = false ∨ s.ev.queue = [] ∨ (∃ q rest, s.ev.queue = q :: rest ∧ cycleOf s < q.cyc) → exec .journalWrite s = .next s)
      ∧ (∀ h : HostId, coreOn s = true → s.bus.holdFrom = none → regLive s (.jrnE 0) = true → ∃ t, exec (.journalLoad h .ok) s = .next t ∧ Within [.bus] s t
        ∧ (∀ g, g ≠ h → t.host g = s.host g) ∧ (t.host h).jrnPtr = (s.host h).jrnPtr ∧ t.bus.rdata = bufWord t h 0
        ∧ (∀ e, nextUnread s h = some e → (t.host h).jrnBuf = BitVec.ofNat 256 (beNat e.bytes) ∧ (t.host h).jrnLoaded = some e.no)
        ∧ (nextUnread s h = none → (t.host h).jrnBuf = 0 ∧ (t.host h).jrnLoaded = none ∧ t.bus.rdata = 0))
      ∧ (∀ h : HostId, coreOn s = true → s.bus.holdFrom = none → regLive s (.jrnE 7) = true →
        (∀ e, (s.host h).jrnLoaded = some e.no → nextUnread s h = some e → ∃ t, exec (.journalPop h) s = .next t
          ∧ (∀ g, g ≠ h → t.host g = s.host g) ∧ t.bus.rdata = bufWord s h 7
          ∧ (t.host h).jrnPtr = e.no + 1 ∧ (t.host h).jrnLoaded = none ∧ (t.host h).jrnBuf = (s.host h).jrnBuf
          ∧ t.jrn = (if jrInService s = true then s.jrn
              else { s.jrn with ring := s.jrn.ring.map fun x => if x.no = e.no then x.unpin else x })
          ∧ Within [.bus, .jrn] s t)
        ∧ ((s.host h).jrnLoaded = none → ∃ t, exec (.journalPop h) s = .next t ∧ t.bus.rdata = bufWord s h 7
          ∧ (t.host h).jrnPtr = (s.host h).jrnPtr ∧ (∀ g, g ≠ h → t.host g = s.host g) ∧ Within [.bus] s t))
      ∧ (∀ h : HostId,
        (WordLands s h .jrnHctl 1 → ∃ t, exec (.journalMoveOldest h) s = .next t ∧ Within [.bus] s t ∧ (∀ g, g ≠ h → t.host g = s.host g)
          ∧ (t.host h).jrnPtr = (s.jrn.ring.map JournalEntry.no).headD s.jrn.nextNo)
        ∧ (WordLands s h .jrnHctl 2 → ∃ t, exec (.journalMoveNewest h) s = .next t ∧ Within [.bus] s t ∧ (∀ g, g ≠ h → t.host g = s.host g)
          ∧ (t.host h).jrnPtr = s.jrn.nextNo))

/-- With CORE and XMI on, discovery of a valid table with a 4 KiB erase, or of a RAM, and regions inside takes the density, at
most 2^26 bytes, the page size and the times; a journal region outside is out of service; nothing valid leaves the memory
absent. With leave, the head search takes the head that find_head gives, or formats the region's first sector. A ready
journal burst with a credit and leave takes the uncopied entries that fit the page behind those in flight, or first erases
the next sector (on a RAM, fills it with 0xFF by bursts of its own: log 165, deduced); it goes ahead of every other user's
burst that the memory has not begun. A burst ends in the order staged (log 78, the model's choice, as is that leave is asked
when a burst's row comes; during a VSUP warning only one already begun): the oldest journal burst's end programs its bytes,
moves the head past them and marks the entries as copied and unpinned; a recorder's frames, an image page and an erase change
their bytes alone. An operation that lasts past its limit stalls the port, every credit freed, no byte changed where no write
was cut off; recovery asks for a new head search. A prefetch and a window read set XM_IDX and queue its fetch. Events 177,
178, 179 and 183 are taken to stay inside the event system. What is not due changes nothing. (01_architecture.md (R33),
15_boot_image.md (R485), 17_journal_recorder_queues.md (R534, R535, R536, R537, R538, R539, R540, R543, R546)) -/
def Obligations.XmemServesTheJournalAndTheHosts : Prop :=
  ∀ (s : State),
      (coreOn s = true → s.pwr.xmi = true →
        (∀ (d page : Nat) (e4k : Bool) (program erase : Option Nat), e4k = true ∨ xmRam s = true →
          let jr := regionOut s (min d 26) (fld (setWord s .xmJrg) 13 0) (jrSectors s)
          let rr := regionOut s (min d 26) (fld (setWord s .xmRrg) 13 0) (fld (setWord s .xmRrg) 29 16)
          let found (j : Bool) : Xmem := { s.xm with
            present := true, dens := min d 26, pageLog := page, progMax := program, eraseMax := erase, jdis := j, rdis := false }
          (jr = false → rr = false → ∃ t, exec (.xmemDiscovery (.valid d e4k page program erase)) s = .next t
            ∧ t.xm = found false ∧ Within [.xm, .draw] s t)
          ∧ (jr = true → rr = false → Quiet s 177 → ∃ t, exec (.xmemDiscovery (.valid d e4k page program erase)) s = .next t
            ∧ t.xm = found true ∧ jrInService t = false ∧ Within [.now, .xm, .draw, .ev] s t))
        ∧ (Quiet s 177 → ∀ f : Sfdp, (f = .absent ∨ f = .notValid ∨ (∃ d page p e, f = .valid d false page p e) ∧ xmRam s = false) →
            ∃ t, exec (.xmemDiscovery f) s = .next t ∧ t.xm = { s.xm with present := false, dens := 0 } ∧ Within [.xm, .ev] s t))
      ∧ (coreOn s = false ∨ s.pwr.xmi = false → ∀ f : Sfdp, exec (.xmemDiscovery f) s = .next s)
      ∧ (jrInService s = true → s.xm.stall = false → s.xm.jready = false → freeGrant s .xmJournal = true → Quiet s 183 →
          ∃ t, exec .journalHeadSearch s = .next t ∧ Within [.xm, .draw, .ev] s t
            ∧ (∀ h, findHead s = some h → t.xm = { s.xm with head := h, jready := true, erasedFor := none, filled := 0 })
            ∧ (findHead s = none → t.xm = { s.xm with
                head := 0, jready := true, jfmt := true, erasedFor := none, filled := 0, mem := eraseSector s.xm.mem (jrBase s) }))
      ∧ (jrInService s = false ∨ s.xm.stall = true ∨ s.xm.jready = true → exec .journalHeadSearch s = .next s)
      ∧ (journalReady s = true → credits s < 4 → freeGrant s .xmJournal = true →
        let slot := nextSlot s
        let sct := slot / 128
        let after := (sct + 1) % jrSectors s
        let es := (uncopied s).take (burstRoom s (jrBase s + 32 * slot) / 32)
        let starts (b : XBurst) (filled : Nat) : Prop := ∃ t, exec (.journalBurst []) s = .next t ∧ Within [.xm] s t
          ∧ t.xm = { s.xm with bursts := t.xm.bursts, began := t.xm.began, filled := filled }
          ∧ ((∀ x ∈ s.xm.bursts, isJournalBurst x = false) →
              t.xm.bursts = (if s.xm.began.isSome = true then s.xm.bursts.take 1 ++ b :: s.xm.bursts.drop 1 else b :: s.xm.bursts))
          ∧ ((∀ x ∈ s.xm.bursts, isJournalBurst x = true) → t.xm.bursts = s.xm.bursts ++ [b])
        (slot % 128 ≠ 0 ∨ s.xm.erasedFor = some sct → starts (.journal (es.map (·.no)) slot (es.flatMap (·.bytes))) s.xm.filled)
        ∧ (slot % 128 = 0 → s.xm.erasedFor ≠ some sct → xmRam s = false → starts (.journalErase after) s.xm.filled)
        ∧ (slot % 128 = 0 → s.xm.erasedFor ≠ some sct → xmRam s = true →
            let n := burstRoom s (jrBase s + 4096 * after + s.xm.filled)
            starts (.journalFill after s.xm.filled n) (s.xm.filled + n)))
      ∧ (∀ (b : XBurst) (rest : List XBurst), xmUp s = true → s.xm.stall = false → s.xm.bursts = b :: rest →
          s.pwr.warn = false ∨ s.xm.began.isSome = true → ∃ t, exec .xmemBurstDone s = .next t
            ∧ (∀ nos slot bytes, b = .journal nos slot bytes → Within [.xm, .draw, .jrn, .ldr] s t
              ∧ t.xm.mem = progBytes (xmRam s) s.xm.mem (jrBase s + 32 * slot) bytes
              ∧ t.xm.head = (slot + nos.length) % (128 * jrSectors s)
              ∧ t.jrn = { s.jrn with ring := s.jrn.ring.map fun e => if nos.contains e.no = true then { e.unpin with inXmem := true } else e })
            ∧ (∀ a bytes, b = .recorder a bytes false ∨ b = .image a bytes → Within [.xm, .draw, .ldr] s t
              ∧ t.xm.mem = progBytes (xmRam s) s.xm.mem a bytes ∧ t.xm.head = s.xm.head)
            ∧ (∀ a, b = .recorderErase a ∨ b = .imageErase a → Within [.xm, .draw, .ldr] s t
              ∧ t.xm.mem = eraseSector s.xm.mem (a - a % 4096) ∧ t.xm.head = s.xm.head))
      ∧ (s.xm.bursts = [] ∨ xmUp s = false ∨ s.xm.stall = true ∨ (s.pwr.warn = true ∧ s.xm.began = none) → exec .xmemBurstDone s = .next s)
      ∧ (xmUp s = true → s.xm.stall = false → stallDue s = true → (s.xm.bursts = [] ∨ ∃ h a rest, s.xm.bursts = .prefetch h a :: rest) →
          s.rcd.state ≠ .capture → Quiet s 178 → ∃ t, exec .xmemStall s = .next t ∧ Within [.xm, .draw, .ldr, .ev] s t
            ∧ t.xm = { s.xm with stall := true, stallCnt := satInc s.xm.stallCnt 255, bursts := [], began := none, filled := 0, lost := 0 }
            ∧ t.ldr = { s.ldr with headerDone := s.ldr.headerDone && s.ldr.repl != .receiving }
            ∧ ∀ u, xmUser u = true → leaveHeld t u = false ∧ leaveWaits t u = false)
      ∧ (xmUp s = true → s.xm.stall = true → Quiet s 179 → ∃ t, exec .xmemRecovery s = .next t ∧ Within [.xm, .draw, .ev] s t
            ∧ t.xm = { s.xm with stall := false, jready := false })
      ∧ (xmUp s = false → exec .xmemStall s = .next s ∧ exec .xmemRecovery s = .next s)
      ∧ (stallDue s = false → exec .xmemStall s = .next s)
      ∧ (∀ h : HostId,
        let queued (t : State) (a : Nat) : Prop := (t.host h).xmIdx = word a ∧ (t.host h).xmHeld = none
          ∧ ((h, a) ∈ t.xm.prefetchWait ∨ XBurst.prefetch h a ∈ t.xm.bursts) ∧ t.xm.mem = s.xm.mem
          ∧ (∀ g, g ≠ h → t.host g = s.host g) ∧ Within [.bus, .xm, .draw] s t
        (∀ data, WordLands s h .xmIdx data → ∃ t, exec (.xmemPrefetch h data) s = .next t ∧ queued t (fld data 25 0))
        ∧ (coreOn s = true → s.bus.holdFrom = none → regLive s (.xmData 15) = true → ∃ t, exec (.xmemWindowAdvance h) s = .next t
            ∧ t.bus.rdata = xmDataWord s h 15 ∧ queued t ((fld (s.host h).xmIdx 25 0 + 64) % 2 ^ 26)))

/-- From the end of boot step 1 on, a sample (clamped to the converter's 150 mV) joins the 64 kept and IMEAS is their mean
current; the memory port has asked for its bursts first. With fewer than 64 samples, or during a VSUP warning, nothing is
granted. Else the requests are taken by rank, oldest first: each whose declared cost fits what is left of the budget (less
the measured draw that no grant of 1 ms or more covers, and less every grant) is granted, all of them where all fit. The
first that does not fit stops the sample, and it and all behind it wait on, unless one of two rules acts: with no grant
active, one that could never fit is granted alone; where the charger's grant would make room and the request is of a higher
rank, the charger is paused, counted and asks again, the request still waiting. The mean's rounding is free (log 8).
LEAVE_WAIT_LONG marks one request of its rank that has waited a second, counts it, and event 184 (taken to stay inside the
event system) is latched where its latch is enabled. Before that end, or with nothing late, nothing changes.
(17_journal_recorder_queues.md (R547, R548, R551), 20_electrical_package.md (R611)) -/
def Obligations.DrawArbiterGrantsUnderItsBudget : Prop :=
  ∀ (s : State),
      (pastStep1 s = false → coreOn s = false → ∀ uv : Nat, exec (.drawArbiterSample uv) s = .next s)
      ∧ (pastStep1 s = true → ∀ uv : Nat,
        let a := if coreOn s = true then xmAsk (imgWants s) s else s
        let samples := pushKeep 64 (min uv 150000) s.draw.samples
        let seen : Draw := { a.draw with samples := samples, imeas := min (measured s samples) 65535 }
        let b : Int := max ((measured s samples : Int) - grantSum s fun g => decide (g.since + ms 1 ≤ s.now)) 0
        let room : Int := drawBudget s - b - grantSum s fun _ => true
        let cost (l : List DrawRequest) : Int := ((l.map fun r => drawCostOf s r.user).sum : Nat)
        let granted (l : List DrawRequest) : List DrawGrant := l.map fun r => { user := r.user, cost := drawCostOf s r.user, since := s.now }
        let left (l : List DrawRequest) : List DrawRequest := l.foldl (fun w r => eraseFirst (fun x => x.user == r.user) w) a.draw.waiting
        let gives (d : Draw) : Prop := ∃ t, exec (.drawArbiterSample uv) s = .next t ∧ t.draw = d ∧ Within [.draw, .ka, .xm, .ldr] s t
        (samples.length < 64 ∨ s.pwr.warn = true → gives seen)
        ∧ (64 ≤ samples.length → s.pwr.warn = false →
          (cost (drawOrder a) ≤ room → gives { seen with waiting := [], active := s.draw.active ++ granted (drawOrder a) })
          ∧ (∀ (fit : List DrawRequest) (r : DrawRequest) (rest : List DrawRequest), drawOrder a = fit ++ r :: rest → cost fit ≤ room →
              room - cost fit < drawCostOf s r.user →
              (s.draw.active ++ granted fit ≠ [] ∨ (drawCostOf s r.user : Int) ≤ drawBudget s - b) →
              ((leaveHeld s .charger = false ∧ ∀ x ∈ fit, x.user ≠ .charger) ∨ drawRank r.user = 8) →
              gives { seen with waiting := left fit, active := s.draw.active ++ granted fit })
          ∧ (∀ (r : DrawRequest) (rest : List DrawRequest), drawOrder a = r :: rest → s.draw.active = [] →
              drawBudget s - b < drawCostOf s r.user → room < drawCostOf s r.user →
              gives { seen with waiting := left [r], active := granted [r] })
          ∧ (∀ (r : DrawRequest) (rest : List DrawRequest), drawOrder a = r :: rest → room < drawCostOf s r.user → leaveHeld s .charger = true →
              drawRank r.user < 8 → drawCostOf s r.user ≤ room + grantSum s (fun g => g.user == .charger) →
              ∃ t, exec (.drawArbiterSample uv) s = .next t ∧ t.draw.preemptCnt = satInc s.draw.preemptCnt 255
                ∧ t.draw.active = eraseFirst (fun g => g.user == .charger) s.draw.active ∧ leaveWaits t .charger = true ∧ r ∈ t.draw.waiting
                ∧ t.ka = { s.ka with chg := s.ka.chg.pause } ∧ Within [.draw, .ka, .xm, .ldr] s t)))
      ∧ (∀ r : Fin 8,
        let late (x : DrawRequest) : Bool := drawRank x.user == r.val + 1 && !x.long && decide (x.since + secs 1 ≤ s.now)
        (s.draw.waiting.any late = true → Quiet s 184 → ∃ t, exec (.leaveWaitLong r) s = .next t ∧ Within [.draw, .ev] s t
          ∧ t.draw = { s.draw with
              longCnt := satInc s.draw.longCnt 255
              waiting := modFirst late (fun y => { y with long := true }) s.draw.waiting }
          ∧ (evEn s 184 = true → evLatchEn s 184 = true → occurredNow s 184 = false → (t.source 184).latch = true))
        ∧ (s.draw.waiting.any late = false → exec (.leaveWaitLong r) s = .next s))

/-- A host that holds the claim arms an idle recorder with channels, triggers an armed one (event 180 taken to stay inside the
event system; any other state counts a missed trigger), stops an armed one at once and a capture by truncation (not once its
completion is staged: log 158, the model's choice), and releases a frozen one. A frame: ARMED keeps the latest PRE frames,
CAPTURE with room in the buffer and its region in service appends the frame and ends at POST, IDLE keeps none. A capture that
drains while its region is out of service freezes (event 182 likewise). A burst with credit and leave stages up to the rest
of a page and takes it from the buffer, the erase of the sector that it enters first, and with nothing left the completion of
the header, whose end closes the capture, complete or truncated (events 181, 182 likewise). REC_BDATA gives four bytes at
OFFSET and steps on. Words that land. (17_journal_recorder_queues.md (R541, R542, R543, R544, R554)) -/
def Obligations.RecorderArmsCapturesAndEnds : Prop :=
  ∀ (h : HostId) (s : State),
      (WordLands s h .recCtl 1 → s.rcd.state = .idle → recNch s ≠ 0 → ∃ t, exec (.recArm h) s = .next t
          ∧ t.rcd = { s.rcd with state := .armed, pre := [] } ∧ Within [.bus, .rcd] s t)
      ∧ (WordLands s h .recCtl 1 → s.rcd.state ≠ .idle ∨ recNch s = 0 → ∃ t, exec (.recArm h) s = .next t ∧ Within [.bus] s t)
      ∧ (WordLands s h .recCtl 2 →
        (s.rcd.state = .armed → Quiet s 180 → ∃ t, exec (.recTrig h) s = .next t ∧ Within [.bus, .rcd, .ev] s t
          ∧ t.rcd.state = .capture ∧ t.rcd.num = s.rcd.num + 1 ∧ t.rcd.trigHost = true ∧ t.rcd.trigSrc = 0 ∧ t.rcd.trigStamp = rtcStamp s
          ∧ t.rcd.preTaken = s.rcd.pre.length ∧ t.rcd.postTaken = 0 ∧ t.rcd.written = 0 ∧ t.rcd.base % 4096 = 0
          ∧ (s.rcd.pre.flatten <:+ t.rcd.buffer))
        ∧ (s.rcd.state ≠ .armed → ∃ t, exec (.recTrig h) s = .next t ∧ t.rcd = { s.rcd with missed := satInc s.rcd.missed 255 }
          ∧ Within [.bus, .rcd] s t))
      ∧ (WordLands s h .recCtl 4 → ∃ t, exec (.recStop h) s = .next t ∧ Within [.bus, .rcd] s t
          ∧ t.rcd = (if s.rcd.state = .armed then { s.rcd with state := .idle, pre := [] }
              else if s.rcd.state = .capture ∧ recClosed s = false then { s.rcd with trunc := true, ending := true } else s.rcd))
      ∧ (WordLands s h .recCtl 8 → ∃ t, exec (.recRelease h) s = .next t ∧ Within [.bus, .rcd] s t
          ∧ t.rcd = (if s.rcd.state = .frozen then { s.rcd with state := .idle, buffer := [] } else s.rcd))
      ∧ (coreOn s = true → s.bus.holdFrom = none → regLive s .recBdata = true → ∃ t, exec (.recBdataRead h .ok) s = .next t ∧ t.bus.rdata = recBdata s h
          ∧ (t.host h).recBidx = word ((fld (s.host h).recBidx 15 0 + 4) % 65536) ∧ (∀ g, g ≠ h → t.host g = s.host g) ∧ Within [.bus] s t)
      ∧ (recNch s = 0 ∨ coreOn s = false → exec .recorderFrame s = .next s)
      ∧ (recNch s ≠ 0 → coreOn s = true → ∃ t, exec .recorderFrame s = .next t ∧ t.free = s.free + recNch s
        ∧ (s.rcd.state = .idle → Within [.free] s t)
        ∧ (s.rcd.state = .armed → Within [.free, .rcd] s t
          ∧ t.rcd = { s.rcd with pre := (s.rcd.pre ++ [recFrameBytes s]).drop (s.rcd.pre.length + 1 - recPre s) })
        ∧ (s.rcd.state = .capture → s.rcd.ending = false → recStreams s = true →
            s.rcd.buffer.length + (recFrameBytes s).length ≤ 65536 → Within [.free, .rcd] s t
          ∧ t.rcd = { s.rcd with buffer := s.rcd.buffer ++ recFrameBytes s, postTaken := s.rcd.postTaken + 1
                                 ending := decide (recPost s ≤ s.rcd.postTaken + 1) })
        ∧ (s.rcd.state = .capture → recStreams s = false → s.rcd.ending = true → Quiet s 182 → Within [.free, .rcd, .ev] s t
          ∧ t.rcd.state = .frozen ∧ t.rcd.buffer = s.rcd.buffer ∧ t.rcd.truncCnt = satInc s.rcd.truncCnt 255))
      ∧ (recWants s = true → 0 < recorderCredits s → freeGrant s .xmRecorder = true →
        let addr := recBase s + s.rcd.base + s.rcd.written
        let n := burstRoom s addr
        (s.rcd.buffer ≠ [] → s.rcd.written < s.rcd.erasedTo → s.rcd.erasedTo % 4096 = 0 → ∃ t, exec (.recorderBurst .ok) s = .next t
          ∧ t.xm = { s.xm with bursts := s.xm.bursts ++ [.recorder addr (s.rcd.buffer.take n) false], began := t.xm.began }
          ∧ t.rcd = { s.rcd with buffer := s.rcd.buffer.drop n, written := s.rcd.written + (s.rcd.buffer.take n).length } ∧ Within [.xm, .rcd] s t)
        ∧ (s.rcd.buffer ≠ [] → s.rcd.erasedTo ≤ s.rcd.written → xmRam s = false → ∃ t, exec (.recorderBurst .ok) s = .next t
          ∧ t.xm = { s.xm with bursts := s.xm.bursts ++ [.recorderErase (recBase s + s.rcd.base + s.rcd.erasedTo)], began := t.xm.began }
          ∧ t.rcd = { s.rcd with erasedTo := s.rcd.erasedTo + 4096 } ∧ Within [.xm, .rcd] s t)
        ∧ (s.rcd.buffer = [] → ∃ t, exec (.recorderBurst .ok) s = .next t ∧ t.rcd = s.rcd ∧ Within [.xm] s t
          ∧ t.xm = { s.xm with bursts := s.xm.bursts ++
              [.recorder (recBase s + s.rcd.base + 19) (recFlags s.rcd :: recClosing s.rcd) true], began := t.xm.began }))
      ∧ (∀ (a : Nat) (bytes : List Byte) (rest : List XBurst), xmUp s = true → s.xm.stall = false → s.rcd.state = .capture →
          s.xm.bursts = .recorder a bytes true :: rest → s.pwr.warn = false ∨ s.xm.began.isSome = true → Quiet s 181 → Quiet s 182 → ∃ t, exec .xmemBurstDone s = .next t
          ∧ t.rcd.state = (if recAuto s = true then .armed else .idle) ∧ t.rcd.lastNum = s.rcd.num % 65536
          ∧ t.rcd.captures = (if s.rcd.trunc = true then s.rcd.captures else satInc s.rcd.captures 65535)
          ∧ t.rcd.truncCnt = (if s.rcd.trunc = true then satInc s.rcd.truncCnt 255 else s.rcd.truncCnt))

/-- A monitor run stores VCELL, the NTC code and the temperature; the charger is off where disabled and chooses its state by
VCELL where it starts and may run; a seal state changes only at its second consecutive check, which ends an arm opened under
the seal rule (no replacement busy; events 193, 195 and 197 to 200 taken to stay inside the event system). A lost source
moves the domain to the cell, and where armed takes its power: the rest of the device follows as its supply falls (till then
log 166, the model's choice), at once where CORE is off (Brumation); its return starts qualification, good after 100 ms. The
cell disconnects after 1 s below cut-off, and then feeds a power-up only with the source present. The domain powers up, or
wakes (also before the rest has followed), fresh and in reset. RTC_SET1 with SET makes the RTC take the staged seconds with
fraction 0 at its next tick, no reading changed before (log 98), and records it; RTC0 freezes RTC1; each trim interval adds
TRIM cycles, or lets |TRIM| pass without a count (between its ticks the RTC runs at 32,768 Hz: log 69). CLR_FAULT restarts a
faulted charger: it waits, timers at 0, until current may flow and then chooses its state (log 98, the model's choice).
(18_keepalive_cell_service.md (R555, R556, R557, R559, R560, R561, R562, R563, R568, R576, R580, R581)) -/
def Obligations.KeepAliveDomainFollowsSourceCellAndClock : Prop :=
  ∀ (s : State),
      (∀ m : KaReadings, kaOn s = true → replBusy s = false → Quiet s 193 → Quiet s 195 → Quiet s 197 → Quiet s 198 → Quiet s 199 → Quiet s 200 →
        let st := sealJudge m.sealLow m.sealHigh
        ∃ t, exec (.kaMonitorRun m) s = .next t ∧ Within [.ka, .ev, .draw, .nvm] s t
          ∧ t.ka.vcell = m.vcell ∧ t.ka.ntc = m.ntc ∧ t.ka.tj = m.tj ∧ t.nvm.mem = s.nvm.mem
          ∧ (chgEn s.ka.chg = false → t.ka.chg.state = .off)
          ∧ (chgEn s.ka.chg = true → s.ka.chg.state = .off → chgMayRun s = true → t.ka.chg.state = chgChoose s.ka.chg m.vcell.toNat)
          ∧ (st = s.ka.sealRec.state ∨ s.ka.sealRec.lastRead ≠ some st → t.ka.sealRec = { s.ka.sealRec with lastRead := some st })
          ∧ (st ≠ s.ka.sealRec.state → s.ka.sealRec.lastRead = some st → t.ka.sealRec.state = st ∧ t.ka.sealRec.chg = s.ka.sealRec.chg + 1)
          ∧ (st ≠ s.ka.sealRec.state → s.ka.sealRec.lastRead = some st → s.ka.sealArm = true → st ≠ .opened → t.ka.armUntil = none)
          ∧ (s.ka.onCell = false → t.ka.cutFrom = none)
          ∧ (s.ka.onCell = true → m.vcell.toNat < (chemOf s.ka.chg).cutoff → t.ka.cutFrom = some (s.ka.cutFrom.getD s.now)))
      ∧ (kaOn s = true → s.ka.src = true → s.ka.armed = false → ∃ t, exec .kaSourceLoss s = .next t ∧ Within [.ka] s t
          ∧ t.ka.src = false ∧ t.ka.onCell = true ∧ t.ka.srcGood = false ∧ t.ka.absCnt = satInc s.ka.absCnt 255 ∧ t.ka.chg = s.ka.chg.pause
          ∧ (s.ka.lossAt = none → t.ka.lossAt = some s.now))
      ∧ (kaOn s = true → s.ka.src = true → s.ka.armed = true → 
          (coreOn s = true → exec .kaSourceLoss s = .next { s with ka := { kaLost with brum := true } })
          ∧ (coreOn s = false → ∃ t, exec .kaSourceLoss s = .next t ∧ t.pwr.phase = .brumation ∧ t.ka.powered = false ∧ t.eeprom = s.eeprom ∧ t.settings = []))
      ∧ (coreOn s = true → s.ka.brum = true → ∀ b : Bool, ∃ t, exec (.brumationWake b) s = .next t ∧ t.pwr.phase = .inReset ∧ t.ka.src = !b
          ∧ t.ka.woke = (if b = true then 1 else 2) ∧ rtcCount t = 0 ∧ t.eeprom = s.eeprom)
      ∧ (kaOn s = true → s.ka.src = false → ∃ t, exec .kaSourceReturn s = .next t ∧ Within [.ka] s t ∧ t.ka.src = true ∧ t.ka.onCell = false
          ∧ t.ka.srcFrom = s.now ∧ t.ka.cellOff = false ∧ t.ka.srcGood = s.ka.srcGood ∧ (∀ u, s.ka.lossAt = some u → t.ka.absence = (s.now - u) / ms 1))
      ∧ (kaOn s = true → s.ka.src = true → s.ka.srcGood = false → s.ka.srcFrom + ms 100 ≤ s.now → Quiet s 201 →
          ∃ t, exec .kaSourceQualified s = .next t ∧ Within [.ka, .ev, .draw] s t ∧ t.ka.srcGood = true
            ∧ (s.ka.lossAt.isSome = true → t.ka.lastAbs = min s.ka.absence 65535 ∧ t.ka.lossAt = none)
            ∧ (s.ka.lossAt.isSome = true → s.ka.absence < 1000 → t.ka.chg = s.ka.chg)
            ∧ (s.ka.lossAt.isSome = true → 1000 ≤ s.ka.absence → s.ka.chg.state = .fault → t.ka.chg.state = .wait ∧ t.ka.chg.restart = true))
      ∧ (s.now < s.ka.srcFrom + ms 100 → exec .kaSourceQualified s = .next s)
      ∧ (kaOn s = true → s.ka.onCell = true → ∀ u, s.ka.cutFrom = some u →
          (u + secs 1 ≤ s.now → ∃ t, exec .cellCutoff s = .next t ∧ t.pwr.phase = .unpowered ∧ t.ka.powered = false ∧ t.ka.cellOff = true)
          ∧ (s.now < u + secs 1 → exec .cellCutoff s = .next s))
      ∧ (∀ b : Bool,
        (s.pwr.phase = .unpowered → b = false → s.ka.cellOff = true → exec (.keepaliveDomainPowerUp b) s = .next s)
        ∧ (s.pwr.phase = .unpowered → b = true ∨ s.ka.cellOff = false → ∃ t, exec (.keepaliveDomainPowerUp b) s = .next t ∧ t.pwr.phase = .inReset ∧ t.ka.src = b ∧ t.ka.onCell = (!b) ∧ rtcCount t = 0
          ∧ t.eeprom = s.eeprom ∧ t.nvm.mem = s.nvm.mem ∧ t.xm.mem = s.xm.mem)
        ∧ (s.pwr.phase ≠ .unpowered → exec (.keepaliveDomainPowerUp b) s = .next s)
        ∧ (s.pwr.phase = .brumation → ∃ t, exec (.brumationWake b) s = .next t ∧ t.pwr.phase = .inReset ∧ t.ka.src = !b
          ∧ t.ka.woke = (if b = true then 1 else 2) ∧ rtcCount t = 0 ∧ t.nvm.mem = s.nvm.mem)
        ∧ (s.pwr.phase ≠ .brumation → s.ka.brum = false → exec (.brumationWake b) s = .next s))
      ∧ (∀ (h : HostId) (data : Word), WordLands s h .rtcSet1 (data ||| 0x80000000#32) → ∃ t, exec (.rtcSet h data) s = .next t
          ∧ t.ka.set1 = data &&& 0xFF#32 ∧ rtcCount t = rtcCount s ∧ rtcInvalid t = rtcInvalid s ∧ s.now < rtcNext s
          ∧ (∀ x : Nat, rtcNext s ≤ x → rtcInvalid { t with now := x } = false
              ∧ rtcCount { t with now := x } = (s.ka.set0.toNat + fld data 7 0 * 2 ^ 32) * 32768 + (x - rtcNext s) * 32768 / secs 1)
          ∧ (s.ev.queue.length < 512 → t.ev.queue.length = s.ev.queue.length + 1) ∧ Within [.bus, .ka, .ev] s t)
      ∧ (∀ h : HostId, coreOn s = true → s.bus.holdFrom = none → regLive s .rtc0 = true → ∃ t, exec (.rtcRead h) s = .next t
          ∧ t.bus.rdata = word (rtcSec s).toNat ∧ t.bus.rtc1 = rtc1Word s ∧ Within [.bus] s t)
      ∧ (kaOn s = true → ∃ t, exec .rtcTrimInterval s = .next t ∧ Within [.ka] s t
          ∧ (0 ≤ s.ka.trim.toInt → rtcCount t = rtcCount s + s.ka.trim.toInt.toNat)
          ∧ (s.ka.trim.toInt < 0 → s.ka.rtcNew = none → rtcCount t = rtcCount s
            ∧ ∀ x : Nat, s.now ≤ x → x * 32768 < rtcTick s * 32768 + ((-s.ka.trim.toInt).toNat + 1) * secs 1 → rtcCount { t with now := x } = rtcCount s))
      ∧ (∀ h : HostId, WordLands s h .chgCtl 1 →
          (s.ka.chg.state = .fault → ∃ t, exec (.clrFault h) s = .next t ∧ Within [.bus, .ka, .draw] s t
            ∧ t.ka.chg = { s.ka.chg with state := .wait, restart := true, fcause := 0, preTmr := 0, fullTmr := 0, paused := true })
          ∧ (s.ka.chg.state ≠ .fault → ∃ t, exec (.clrFault h) s = .next t ∧ Within [.bus] s t))

/-- An accepted press starts a timing; its release within 2 s does nothing, between 2 s and 5 s opens an arm where CORE was on at
the press and still is and the seal rule allows it, and otherwise is rejected with cause 3, 1 or 2. An arm ends at its time
or at CLOSE (no replacement busy). BRUM_CTL.ARM needs an arm, else it is refused; it arms and begins to write the residue
block: its bytes (every pending count, the seconds toward the hour, CRC-32, in the places of log 53, presumed) are taken as
they stand, page 0 is next, and its job joins the NVM queue where there is room. With Brumation armed the same is done again
every hour, 3,600 s after the latest. DISARM ends it (while not armed too: log 100, deduced): a block that is being written
or reads fresh is to be marked stale, its pages are no longer asked for, and the mark's job joins the queue where there is
room; else the NVM is left alone. A change of the test access port's instruction (Test-Logic-Reset selects IDCODE) is held
with the level of RESET_N, whose fall resets a working controller and whose rise begins the 100 µs of R361; only with RESET_N
low do EXTEST, CLAMP and HIGHZ take the pins, HIGHZ releasing each, and otherwise each output pin keeps its function; IDCODE
reads 0x1488046B. Events 192, 193, 194, 203 and 204 are taken to stay inside the event system. What is not due changes
nothing. (16_nvm_records.md (R512), 18_keepalive_cell_service.md (R571, R572, R573, R574, R578, R579), 19_pins.md (R599)) -/
def Obligations.KeyArmAndBrumationFollowTheOperator : Prop :=
  ∀ (s : State),
      let room := nvmFill s.nvm < 16
      let blockBegins (t : State) : Prop := t.nvm.resBuf = residueBlock s ∧ t.nvm.resNext = some 0 ∧ t.nvm.stale = false ∧ t.nvm.mem = s.nvm.mem
        ∧ t.nvm.op = s.nvm.op ∧ (room → s.nvm.op ≠ some (.residue 0) → NvmJob.residue 0 ∈ t.nvm.queue)
      (kaOn s = true → s.ka.key = false → exec .serviceKeyPress s = .next { s with ka := { s.ka with
          key := true, pressAt := s.now, pressReady := coreOn s } })
      ∧ (s.ka.key = true → exec .serviceKeyPress s = .next s)
      ∧ (s.ka.key = false → exec .serviceKeyRelease s = .next s)
      ∧ (kaOn s = true → s.ka.key = true →
        let dur := s.now - s.ka.pressAt
        let ready := coreOn s && s.ka.pressReady
        let blocked := sealRule s && !sealOpen s
        let rejected (code : Nat) : Prop := ∃ t, exec .serviceKeyRelease s = .next t ∧ t.ka = { s.ka with key := false, rej := code }
          ∧ Within [.ka, .ev] s t
        (dur < secs 2 → exec .serviceKeyRelease s = .next { s with ka := { s.ka with key := false } })
        ∧ (secs 2 ≤ dur → Quiet s 194 →
          (ready = false → rejected 3) ∧ (ready = true → secs 5 < dur → rejected 1)
          ∧ (ready = true → dur ≤ secs 5 → blocked = true → rejected 2))
        ∧ (secs 2 ≤ dur → dur ≤ secs 5 → ready = true → blocked = false → Quiet s 192 → ∃ t, exec .serviceKeyRelease s = .next t
          ∧ t.ka = { s.ka with key := false, armUntil := some (s.now + secs (armWindow s)), sealArm := sealRule s, armCnt := satInc s.ka.armCnt 255 }
          ∧ Within [.ka, .ev] s t))
      ∧ (∀ u, s.ka.armUntil = some u →
        (u ≤ s.now → replBusy s = false → Quiet s 193 → ∃ t, exec .serviceArmExpiry s = .next t
          ∧ t.ka = { s.ka with armUntil := none, sealArm := false } ∧ Within [.ka, .ev] s t)
        ∧ (s.now < u → exec .serviceArmExpiry s = .next s))
      ∧ (s.ka.armUntil = none → exec .serviceArmExpiry s = .next s)
      ∧ (∀ h : HostId,
        (WordLands s h .svcCtl 1 →
          (armOpen s = true → replBusy s = false → Quiet s 193 → ∃ t, exec (.svcClose h) s = .next t
            ∧ t.ka = { s.ka with armUntil := none, sealArm := false } ∧ Within [.bus, .ka, .ev] s t)
          ∧ (armOpen s = false → ∃ t, exec (.svcClose h) s = .next t ∧ Within [.bus] s t))
        ∧ (WordLands s h .brumCtl 1 →
          (armOpen s = true → Quiet s 203 → ∃ t, exec (.brumationArm h) s = .next t
            ∧ t.ka = { s.ka with armed := true, residueAt := s.now } ∧ blockBegins t ∧ Within [.bus, .ka, .ev, .nvm, .draw] s t)
          ∧ (armOpen s = false → exec (.brumationArm h) s = .next (refuse h (s.opened h Reg.brumCtl.addr))))
        ∧ (WordLands s h .brumCtl 2 → Quiet s 204 → ∃ t, exec (.brumDisarm h) s = .next t
            ∧ t.ka = { s.ka with armed := false } ∧ t.nvm.mem = s.nvm.mem ∧ Within [.bus, .ka, .ev, .nvm, .draw] s t
            ∧ (s.nvm.resNext.isSome = true ∨ residueFresh s = true → t.nvm.resNext = none ∧ t.nvm.stale = true ∧ (∀ i, NvmJob.residue i ∉ t.nvm.queue)
              ∧ NvmJob.markFresh ∉ t.nvm.queue ∧ (room → s.nvm.op ≠ some .markStale → NvmJob.markStale ∈ t.nvm.queue))
            ∧ (s.nvm.resNext = none → residueFresh s = false → t.nvm = s.nvm)))
      ∧ (coreOn s = true → s.ka.armed = true → s.ka.residueAt + secs 3600 ≤ s.now → ∃ t, exec .residueHourlyWrite s = .next t
          ∧ t.ka = { s.ka with residueAt := s.now } ∧ blockBegins t ∧ Within [.ka, .nvm, .draw] s t)
      ∧ (s.ka.armed = false ∨ s.now < s.ka.residueAt + secs 3600 → exec .residueHourlyWrite s = .next s)
      ∧ (∀ (load : TapLoad) (low : Bool), ∃ t, exec (.testAccessPortInstruction load low) s = .next t
          ∧ t.tap = { ins := match load with | .testLogicReset => .idcode | .instruction i => i, resetLow := low }
          ∧ (low = s.tap.resetLow → t = { s with tap := t.tap })
          ∧ (low = false → s.tap.resetLow = true → t = { s with tap := t.tap, pwr := { s.pwr with outAt := t.pwr.outAt } }
              ∧ (s.pwr.phase = .inReset → t.pwr.outAt = max s.pwr.outAt (s.now + us 100)))
          ∧ (low = true → s.tap.resetLow = false → coreOn s = true → s.ka.brum = false → t.pwr.phase = .inReset ∧ t.ka.cause = 2
              ∧ ∀ u, outHigh t u = false ∧ outLow t u = false)
          ∧ (tapDrives t = true ↔ low = true ∧ (load = .instruction .extest ∨ load = .instruction .clamp ∨ load = .instruction .highz))
          ∧ (low = true → load = .instruction .highz → (∀ u, pinHigh t u = .released ∧ pinLow t u = .released) ∧ pinFaultN t = .released)
          ∧ (low = false → (∀ u, pinHigh t u = driveLevel (outHigh s u) ∧ pinLow t u = driveLevel (outLow s u)) ∧ pinFaultN t = driveLevel (faultN s)))
      ∧ idcode = 0x1488046B#32
end

