-- ==== Sys2Proof/Laws/Frame.lean ====
section
/-! SUPPORT. Frames: for every operation on the state, the parts it may change; each lemma is cited in place of unfolding the operation. -/

set_option Elab.async false

namespace Sys2Proof.Machine

theorem Within.refl {ps : List Part} {s : State} : Within ps s s := fun p _ => by cases p <;> rfl
theorem Within.trans {ps : List Part} {s t u : State} (h : Within ps s t) (h' : Within ps t u) : Within ps s u := fun p hp => by
  have a := h p hp
  have b := h' p hp
  cases p <;> exact Eq.trans b a
theorem Within.mono {ps qs : List Part} {s t : State} (h : Within ps s t) (hs : ∀ p ∈ ps, p ∈ qs) : Within qs s t :=
  fun p hp => h p fun hp' => hp (hs p hp')
theorem within_ite {ps : List Part} {s a b : State} {c : Prop} [Decidable c] (ha : Within ps s a) (hb : Within ps s b) :
    Within ps s (if c then a else b) := by split <;> assumption
theorem within_foldl {α : Type} {ps : List Part} {f : State → α → State} (hf : ∀ x a, Within ps x (f x a)) (l : List α) (s : State) :
    Within ps s (l.foldl f s) := by
  induction l generalizing s with
  | nil => exact Within.refl
  | cons a l ih => exact (hf s a).trans (ih (f s a))
theorem within_set_free_rcd (s : State) x0 x1 : Within [.free, .rcd] s { s with free := x0, rcd := x1 } :=
  fun p hp => by cases p <;> first | rfl | simp at hp
theorem within_set_xm_rcd (s : State) x0 x1 : Within [.xm, .rcd] s { s with xm := x0, rcd := x1 } :=
  fun p hp => by cases p <;> first | rfl | simp at hp
theorem within_set_pwr_nvm_ka (s : State) x0 x1 x2 : Within [.pwr, .nvm, .ka] s { s with pwr := x0, nvm := x1, ka := x2 } :=
  fun p hp => by cases p <;> first | rfl | simp at hp
theorem within_set_pwr_ldr_ka (s : State) x0 x1 x2 : Within [.pwr, .ldr, .ka] s { s with pwr := x0, ldr := x1, ka := x2 } :=
  fun p hp => by cases p <;> first | rfl | simp at hp
theorem within_set_draw_ka (s : State) x0 x1 : Within [.draw, .ka] s { s with draw := x0, ka := x1 } :=
  fun p hp => by cases p <;> first | rfl | simp at hp
theorem within_set_ka (s : State) x0 : Within [.ka] s { s with ka := x0 } :=
  fun p hp => by cases p <;> first | rfl | simp at hp
theorem within_set_tel (s : State) x0 : Within [.tel] s { s with tel := x0 } :=
  fun p hp => by cases p <;> first | rfl | simp at hp
theorem within_set_hk (s : State) x0 : Within [.hk] s { s with hk := x0 } :=
  fun p hp => by cases p <;> first | rfl | simp at hp
theorem within_set_link (s : State) x0 : Within [.link] s { s with link := x0 } :=
  fun p hp => by cases p <;> first | rfl | simp at hp
theorem within_set_xm (s : State) x0 : Within [.xm] s { s with xm := x0 } :=
  fun p hp => by cases p <;> first | rfl | simp at hp
theorem within_set_jrn_xm (s : State) x0 x1 : Within [.jrn, .xm] s { s with jrn := x0, xm := x1 } :=
  fun p hp => by cases p <;> first | rfl | simp at hp
theorem within_set_pwr_hk (s : State) x0 x1 : Within [.pwr, .hk] s { s with pwr := x0, hk := x1 } :=
  fun p hp => by cases p <;> first | rfl | simp at hp
theorem within_set_ldr (s : State) x0 : Within [.ldr] s { s with ldr := x0 } :=
  fun p hp => by cases p <;> first | rfl | simp at hp
theorem within_set_bus (s : State) x0 : Within [.bus] s { s with bus := x0 } :=
  fun p hp => by cases p <;> first | rfl | simp at hp
theorem within_set_nvm_ka (s : State) x0 x1 : Within [.nvm, .ka] s { s with nvm := x0, ka := x1 } :=
  fun p hp => by cases p <;> first | rfl | simp at hp
theorem within_set_free_nvm (s : State) x0 x1 : Within [.free, .nvm] s { s with free := x0, nvm := x1 } :=
  fun p hp => by cases p <;> first | rfl | simp at hp
theorem within_set_settings_coef_tempTab_tiles_map_ldr (s : State) x0 x1 x2 x3 x4 x5 : Within [.settings, .coef, .tempTab, .tiles, .map, .ldr] s { s with settings := x0, coef := x1, tempTab := x2, tiles := x3, map := x4, ldr := x5 } :=
  fun p hp => by cases p <;> first | rfl | simp at hp
theorem within_set_sync (s : State) x0 : Within [.sync] s { s with sync := x0 } :=
  fun p hp => by cases p <;> first | rfl | simp at hp
theorem within_set_ev (s : State) x0 : Within [.ev] s { s with ev := x0 } :=
  fun p hp => by cases p <;> first | rfl | simp at hp
theorem within_set_pwr (s : State) x0 : Within [.pwr] s { s with pwr := x0 } :=
  fun p hp => by cases p <;> first | rfl | simp at hp
theorem within_set_draw (s : State) x0 : Within [.draw] s { s with draw := x0 } :=
  fun p hp => by cases p <;> first | rfl | simp at hp
theorem within_set_coef (s : State) x0 : Within [.coef] s { s with coef := x0 } :=
  fun p hp => by cases p <;> first | rfl | simp at hp
theorem within_set_free_xm (s : State) x0 x1 : Within [.free, .xm] s { s with free := x0, xm := x1 } :=
  fun p hp => by cases p <;> first | rfl | simp at hp
theorem within_set_rcd (s : State) x0 : Within [.rcd] s { s with rcd := x0 } :=
  fun p hp => by cases p <;> first | rfl | simp at hp
theorem within_set_rails (s : State) x0 : Within [.rails] s { s with rails := x0 } :=
  fun p hp => by cases p <;> first | rfl | simp at hp
theorem within_set_xm_draw (s : State) x0 x1 : Within [.xm, .draw] s { s with xm := x0, draw := x1 } :=
  fun p hp => by cases p <;> first | rfl | simp at hp
theorem within_set_nvm (s : State) x0 : Within [.nvm] s { s with nvm := x0 } :=
  fun p hp => by cases p <;> first | rfl | simp at hp
theorem within_set_eeprom (s : State) x0 : Within [.eeprom] s { s with eeprom := x0 } :=
  fun p hp => by cases p <;> first | rfl | simp at hp
theorem within_set_free_eeprom_ldr (s : State) x0 x1 x2 : Within [.free, .eeprom, .ldr] s { s with free := x0, eeprom := x1, ldr := x2 } :=
  fun p hp => by cases p <;> first | rfl | simp at hp
theorem within_set_jrn_ka (s : State) x0 x1 : Within [.jrn, .ka] s { s with jrn := x0, ka := x1 } :=
  fun p hp => by cases p <;> first | rfl | simp at hp
theorem within_set_test_map (s : State) x0 x1 : Within [.test, .map] s { s with test := x0, map := x1 } :=
  fun p hp => by cases p <;> first | rfl | simp at hp
theorem within_set_free (s : State) x0 : Within [.free] s { s with free := x0 } :=
  fun p hp => by cases p <;> first | rfl | simp at hp
theorem within_set_jrn (s : State) x0 : Within [.jrn] s { s with jrn := x0 } :=
  fun p hp => by cases p <;> first | rfl | simp at hp
theorem within_set_now (s : State) x0 : Within [.now] s { s with now := x0 } :=
  fun p hp => by cases p <;> first | rfl | simp at hp
theorem within_set_test (s : State) x0 : Within [.test] s { s with test := x0 } :=
  fun p hp => by cases p <;> first | rfl | simp at hp
theorem within_set_pwr_ka (s : State) x0 x1 : Within [.pwr, .ka] s { s with pwr := x0, ka := x1 } :=
  fun p hp => by cases p <;> first | rfl | simp at hp
theorem within_set_pwr_hk_bus_link (s : State) x0 x1 x2 x3 : Within [.pwr, .hk, .bus, .link] s { s with pwr := x0, hk := x1, bus := x2, link := x3 } :=
  fun p hp => by cases p <;> first | rfl | simp at hp
theorem within_set_bus_nvm (s : State) x0 x1 : Within [.bus, .nvm] s { s with bus := x0, nvm := x1 } :=
  fun p hp => by cases p <;> first | rfl | simp at hp
theorem within_set_tiles (s : State) x0 : Within [.tiles] s { s with tiles := x0 } :=
  fun p hp => by cases p <;> first | rfl | simp at hp
theorem within_set_tap (s : State) x0 : Within [.tap] s { s with tap := x0 } :=
  fun p hp => by cases p <;> first | rfl | simp at hp
theorem within_set_map (s : State) x0 : Within [.map] s { s with map := x0 } :=
  fun p hp => by cases p <;> first | rfl | simp at hp
theorem within_set_pwr_nvm (s : State) x0 x1 : Within [.pwr, .nvm] s { s with pwr := x0, nvm := x1 } :=
  fun p hp => by cases p <;> first | rfl | simp at hp
theorem within_set_pwr_bus_ldr (s : State) x0 x1 x2 : Within [.pwr, .bus, .ldr] s { s with pwr := x0, bus := x1, ldr := x2 } :=
  fun p hp => by cases p <;> first | rfl | simp at hp
theorem within_set_pwr_xm (s : State) x0 x1 : Within [.pwr, .xm] s { s with pwr := x0, xm := x1 } :=
  fun p hp => by cases p <;> first | rfl | simp at hp
theorem within_set_free_pwr_ka (s : State) x0 x1 x2 : Within [.free, .pwr, .ka] s { s with free := x0, pwr := x1, ka := x2 } :=
  fun p hp => by cases p <;> first | rfl | simp at hp
theorem within_set_settings (s : State) x0 : Within [.settings] s { s with settings := x0 } :=
  fun p hp => by cases p <;> first | rfl | simp at hp
theorem within_set_pwr_xm_draw (s : State) x0 x1 x2 : Within [.pwr, .xm, .draw] s { s with pwr := x0, xm := x1, draw := x2 } :=
  fun p hp => by cases p <;> first | rfl | simp at hp
theorem within_set_now_bus_ldr_ka (s : State) x0 x1 x2 x3 : Within [.now, .bus, .ldr, .ka] s { s with now := x0, bus := x1, ldr := x2, ka := x3 } :=
  fun p hp => by cases p <;> first | rfl | simp at hp
theorem within_set_settings_coef_tempTab_tiles_rails_pwr_test_map_hk_tel_ev_bus_link_ldr_nvm_jrn_xm_rcd_draw_sync (s : State) x0 x1 x2 x3 x4 x5 x6 x7 x8 x9 x10 x11 x12 x13 x14 x15 x16 x17 x18 x19 : Within [.settings, .coef, .tempTab, .tiles, .rails, .pwr, .test, .map, .hk, .tel, .ev, .bus, .link, .ldr, .nvm, .jrn, .xm, .rcd, .draw, .sync] s { s with settings := x0, coef := x1, tempTab := x2, tiles := x3, rails := x4, pwr := x5, test := x6, map := x7, hk := x8, tel := x9, ev := x10, bus := x11, link := x12, ldr := x13, nvm := x14, jrn := x15, xm := x16, rcd := x17, draw := x18, sync := x19 } :=
  fun p hp => by cases p <;> first | rfl | simp at hp
theorem within_set_now_pwr_bus_ldr_ka (s : State) x0 x1 x2 x3 x4 : Within [.now, .pwr, .bus, .ldr, .ka] s { s with now := x0, pwr := x1, bus := x2, ldr := x3, ka := x4 } :=
  fun p hp => by cases p <;> first | rfl | simp at hp
theorem within_set_tiles_rails_ev (s : State) x0 x1 x2 : Within [.tiles, .rails, .ev] s { s with tiles := x0, rails := x1, ev := x2 } :=
  fun p hp => by cases p <;> first | rfl | simp at hp
theorem within_set_ldr_xm (s : State) x0 x1 : Within [.ldr, .xm] s { s with ldr := x0, xm := x1 } :=
  fun p hp => by cases p <;> first | rfl | simp at hp
theorem within_set_now_pwr_bus_ldr_ka_tap (s : State) x0 x1 x2 x3 x4 x5 : Within [.now, .pwr, .bus, .ldr, .ka, .tap] s { s with now := x0, pwr := x1, bus := x2, ldr := x3, ka := x4, tap := x5 } :=
  fun p hp => by cases p <;> first | rfl | simp at hp
theorem within_set_pwr_ldr_xm (s : State) x0 x1 x2 : Within [.pwr, .ldr, .xm] s { s with pwr := x0, ldr := x1, xm := x2 } :=
  fun p hp => by cases p <;> first | rfl | simp at hp
theorem Within.step {ps qs : List Part} {s t u : State} (h : Within ps s t) (h' : Within qs t u) (hs : ∀ p ∈ qs, p ∈ ps) :
    Within ps s u := h.trans (h'.mono hs)

theorem within_putWord (s : State) (a1 : Reg) (a2 : Word) : Within [.settings] s (putWord s a1 a2) := by
  unfold putWord
  try dsimp only
  exact Within.mono (within_set_settings _ _) (by decide)

theorem within_State_modTile (s : State) (a1 : TileId) (a2 : (Tile → Tile)) : Within [.tiles] s (State.modTile s a1 a2) := by
  unfold State.modTile
  try dsimp only
  exact Within.mono (within_set_tiles _ _) (by decide)

theorem within_State_modRail (s : State) (a1 : RailId) (a2 : (Rail → Rail)) : Within [.rails] s (State.modRail s a1 a2) := by
  unfold State.modRail
  try dsimp only
  exact Within.mono (within_set_rails _ _) (by decide)

theorem within_State_mapTiles (s : State) (a1 : (TileId → Tile → Tile)) : Within [.tiles] s (State.mapTiles s a1) := by
  unfold State.mapTiles
  try dsimp only
  exact Within.mono (within_set_tiles _ _) (by decide)

theorem within_State_mapRails (s : State) (a1 : (RailId → Rail → Rail)) : Within [.rails] s (State.mapRails s a1) := by
  unfold State.mapRails
  try dsimp only
  exact Within.mono (within_set_rails _ _) (by decide)

theorem within_State_modFe (s : State) (a1 : RailId) (a2 : (FrontEnd → FrontEnd)) : Within [.rails] s (State.modFe s a1 a2) := by
  unfold State.modFe
  try dsimp only
  exact Within.mono (within_State_modRail _ _ _) (by decide)

theorem within_State_modEng (s : State) (a1 : RailId) (a2 : (Engine → Engine)) : Within [.rails] s (State.modEng s a1 a2) := by
  unfold State.modEng
  try dsimp only
  exact Within.mono (within_State_modRail _ _ _) (by decide)

theorem within_State_modSeq (s : State) (a1 : RailId) (a2 : (Sequencer → Sequencer)) : Within [.rails] s (State.modSeq s a1 a2) := by
  unfold State.modSeq
  try dsimp only
  exact Within.mono (within_State_modRail _ _ _) (by decide)

theorem within_State_modIlv (s : State) (a1 : RailId) (a2 : (Interleave → Interleave)) : Within [.rails] s (State.modIlv s a1 a2) := by
  unfold State.modIlv
  try dsimp only
  exact Within.mono (within_State_modRail _ _ _) (by decide)

theorem within_State_modMo (s : State) (a1 : RailId) (a2 : (Moult → Moult)) : Within [.rails] s (State.modMo s a1 a2) := by
  unfold State.modMo
  try dsimp only
  exact Within.mono (within_State_modRail _ _ _) (by decide)

theorem within_State_modProt (s : State) (a1 : RailId) (a2 : (RailProt → RailProt)) : Within [.rails] s (State.modProt s a1 a2) := by
  unfold State.modProt
  try dsimp only
  exact Within.mono (within_State_modRail _ _ _) (by decide)

theorem within_State_modLeap (s : State) (a1 : RailId) (a2 : (LeapUnit → LeapUnit)) : Within [.rails] s (State.modLeap s a1 a2) := by
  unfold State.modLeap
  try dsimp only
  exact Within.mono (within_State_modRail _ _ _) (by decide)

theorem within_State_modTilesOf (s : State) (a1 : RailId) (a2 : (Tile → Tile)) : Within [.tiles] s (State.modTilesOf s a1 a2) := by
  unfold State.modTilesOf
  try dsimp only
  exact Within.mono (within_set_tiles _ _) (by decide)

theorem within_State_advance (s : State) (a1 : ℤ) : Within [.now] s (State.advance s a1) := by
  unfold State.advance
  try dsimp only
  exact Within.mono (within_set_now _ _) (by decide)

theorem within_idle (s : State) : Within [.now] s (idle s) := by
  unfold idle
  try dsimp only
  exact Within.mono (within_set_now _ _) (by decide)

theorem within_State_modHost (s : State) (a1 : HostId) (a2 : (HostRegs → HostRegs)) : Within [.bus] s (State.modHost s a1 a2) := by
  unfold State.modHost
  try dsimp only
  split
  · exact Within.mono (within_set_bus _ _) (by decide)
  · exact Within.mono (within_set_bus _ _) (by decide)

theorem within_refuse (a0 : HostId) (s : State) : Within [.bus] s (refuse a0 s) := by
  unfold refuse
  try dsimp only
  exact Within.mono (within_State_modHost _ _ _) (by decide)

theorem within_askLeave (a0 : DrawUser) (s : State) : Within [.draw] s (askLeave a0 s) := by
  unfold askLeave
  try dsimp only
  refine within_ite ?_ ?_
  · exact Within.refl
  · exact Within.mono (within_set_draw _ _) (by decide)

theorem within_askLeaves (a0 : DrawUser) (a1 : ℕ) (s : State) : Within [.draw] s (askLeaves a0 a1 s) := by
  unfold askLeaves
  try dsimp only
  exact Within.mono (within_set_draw _ _) (by decide)

theorem within_dropLeave (a0 : DrawUser) (s : State) : Within [.draw] s (dropLeave a0 s) := by
  unfold dropLeave
  try dsimp only
  exact Within.mono (within_set_draw _ _) (by decide)

theorem within_releaseLeave (a0 : DrawUser) (s : State) : Within [.draw] s (releaseLeave a0 s) := by
  unfold releaseLeave
  try dsimp only
  exact Within.mono (within_set_draw _ _) (by decide)

theorem within_nvmAsk (s : State) : Within [.draw] s (nvmAsk s) := by
  unfold nvmAsk
  try dsimp only
  refine within_ite ?_ ?_
  · exact Within.refl
  · split
    · refine Within.step ?_ (within_dropLeave _ _) (by decide)
      exact Within.mono (within_dropLeave _ _) (by decide)
    · refine within_ite ?_ ?_
      · refine Within.step ?_ (within_askLeave _ _) (by decide)
        exact Within.mono (within_dropLeave _ _) (by decide)
      · refine Within.step ?_ (within_askLeave _ _) (by decide)
        exact Within.mono (within_dropLeave _ _) (by decide)

theorem within_nvmRequest (a0 : NvmJob) (s : State) : Within [.nvm, .draw] s (nvmRequest a0 s) := by
  unfold nvmRequest
  try dsimp only
  refine within_ite ?_ ?_
  · exact Within.refl
  · split
    · refine Within.step ?_ (within_nvmAsk _) (by decide)
      exact Within.mono (within_set_nvm _ _) (by decide)
    · refine within_ite ?_ ?_
      · refine Within.step ?_ (within_nvmAsk _) (by decide)
        exact Within.mono (within_set_nvm _ _) (by decide)
      · refine within_ite ?_ ?_
        · refine Within.step ?_ (within_nvmAsk _) (by decide)
          exact Within.mono (within_set_nvm _ _) (by decide)
        · split
          · exact Within.mono (within_set_nvm _ _) (by decide)
          · exact Within.mono (within_set_nvm _ _) (by decide)

theorem within_fsumChanged (s : State) : Within [.nvm, .draw] s (fsumChanged s) := by
  unfold fsumChanged
  try dsimp only
  exact Within.mono (within_nvmRequest _ _) (by decide)

theorem within_lifeInc (a0 : Fin 73) (s : State) : Within [.ka] s (lifeInc a0 s) := by
  unfold lifeInc
  try dsimp only
  exact Within.mono (within_set_ka _ _) (by decide)

theorem within_enqueue (a0 : QueueEntry) (s : State) : Within [.ev] s (enqueue a0 s) := by
  unfold enqueue
  try dsimp only
  refine within_ite ?_ ?_
  · exact Within.mono (within_set_ev _ _) (by decide)
  · exact Within.mono (within_set_ev _ _) (by decide)

theorem within_recordEntry (a0 : ℕ) (a1 : Word) (a2 : HostId) (s : State) : Within [.ev] s (recordEntry a0 a1 a2 s) := by
  unfold recordEntry
  try dsimp only
  exact Within.mono (within_enqueue _ _) (by decide)

theorem within_laterCycle (s : State) : Within [.tiles, .rails, .ev] s (laterCycle s) := by
  unfold laterCycle
  try dsimp only
  exact Within.mono (within_set_tiles_rails_ev _ _ _ _) (by decide)

theorem within_startCapture (a0 : ℕ) (a1 : Bool) (s : State) : Within [.rcd] s (startCapture a0 a1 s) := by
  unfold startCapture
  try dsimp only
  exact Within.mono (within_set_rcd _ _) (by decide)

theorem within_latchSrc (a0 : ℕ) (a1 : Word) (s : State) : Within [.ev] s (latchSrc a0 a1 s) := by
  unfold latchSrc
  try dsimp only
  exact Within.mono (within_set_ev _ _) (by decide)

theorem within_markSrc (a0 : ℕ) (s : State) : Within [.ev] s (markSrc a0 s) := by
  unfold markSrc
  try dsimp only
  exact Within.mono (within_set_ev _ _) (by decide)

theorem within_markJrn (a0 : ℕ) (s : State) : Within [.ev] s (markJrn a0 s) := by
  unfold markJrn
  try dsimp only
  exact Within.mono (within_set_ev _ _) (by decide)

theorem within_setPgood (a0 : RailId) (a1 : Bool) (s : State) : Within [.rails] s (setPgood a0 a1 s) := by
  unfold setPgood
  try dsimp only
  exact Within.mono (within_State_mapRails _ _) (by decide)

theorem within_pushSettled (a0 : Raise) (a1 : LinkFrame) (s : State) (hr : ∀ e d x, Within [.tiles, .rails, .ev, .link, .rcd] x (a0 e d x)) : Within [.tiles, .rails, .ev, .link, .rcd] s (pushSettled a0 a1 s) := by
  unfold pushSettled
  try dsimp only
  split
  · refine within_ite ?_ ?_
    · refine Within.step ?_ (hr _ _ _) (by decide)
      exact Within.mono (within_set_link _ _) (by decide)
    · exact Within.mono (within_set_link _ _) (by decide)
  · exact Within.mono (within_set_link _ _) (by decide)

theorem within_recloseWatch (a0 : RailId) (a1 : BitVec 5) (a2 : BitVec 16) (s : State) : Within [.rails, .link] s (recloseWatch a0 a1 a2 s) := by
  unfold recloseWatch
  try dsimp only
  split
  · exact Within.refl
  · refine within_ite ?_ ?_
    · refine Within.step ?_ (within_set_link _ _) (by decide)
      exact Within.mono (within_State_modRail _ _ _) (by decide)
    · exact Within.refl

theorem within_closeWatch (a0 : Raise) (a1 : RailId) (a2 : BitVec 5) (a3 : BitVec 16) (s : State) (hr : ∀ e d x, Within [.tiles, .rails, .ev, .link, .rcd] x (a0 e d x)) : Within [.tiles, .rails, .ev, .link, .rcd] s (closeWatch a0 a1 a2 a3 s) := by
  unfold closeWatch
  try dsimp only
  split
  · refine Within.step ?_ (within_pushSettled _ _ _ hr) (by decide)
    exact Within.mono (within_State_modRail _ _ _) (by decide)
  · exact Within.mono (within_recloseWatch _ _ _ _) (by decide)

theorem within_abandonWatch (a0 : Raise) (a1 : RailId) (s : State) (hr : ∀ e d x, Within [.tiles, .rails, .ev, .link, .rcd] x (a0 e d x)) : Within [.tiles, .rails, .ev, .link, .rcd] s (abandonWatch a0 a1 s) := by
  unfold abandonWatch
  try dsimp only
  exact Within.mono (within_closeWatch _ _ _ _ _ hr) (by decide)

theorem within_closeSlot (a0 : RailId) (a1 : Option ℕ) (s : State) : Within [.tiles] s (closeSlot a0 a1 s) := by
  unfold closeSlot
  try dsimp only
  split
  · exact Within.refl
  · exact Within.mono (within_State_modTilesOf _ _ _) (by decide)

theorem within_endLeap (a0 : RailId) (a1 : Option ℕ) (s : State) : Within [.tiles, .rails] s (endLeap a0 a1 s) := by
  unfold endLeap
  try dsimp only
  refine Within.step ?_ (within_State_modTilesOf _ _ _) (by decide)
  exact Within.mono (within_State_modRail _ _ _) (by decide)

theorem within_leapCheck (a0 : RailId) (a1 : Option ℕ) (s : State) : Within [.tiles, .rails] s (leapCheck a0 a1 s) := by
  unfold leapCheck
  try dsimp only
  refine within_ite ?_ ?_
  · exact Within.mono (within_endLeap _ _ _) (by decide)
  · exact Within.refl

theorem within_beginStopping (a0 : Raise) (a1 : RailId) (a2 : Bool) (a3 : ℕ) (s : State) (hr : ∀ e d x, Within [.tiles, .rails, .ev, .link, .rcd] x (a0 e d x)) : Within [.tiles, .rails, .ev, .link, .rcd] s (beginStopping a0 a1 a2 a3 s) := by
  unfold beginStopping
  try dsimp only
  refine Within.step ?_ (within_abandonWatch _ _ _ hr) (by decide)
  refine Within.step ?_ (within_State_modRail _ _ _) (by decide)
  refine Within.step ?_ (within_State_modTilesOf _ _ _) (by decide)
  exact Within.mono (within_setPgood _ _ _) (by decide)

theorem within_resumeStop (a0 : Raise) (a1 : RailId) (s : State) (hr : ∀ e d x, Within [.tiles, .rails, .ev, .link, .rcd] x (a0 e d x)) : Within [.tiles, .rails, .ev, .link, .rcd] s (resumeStop a0 a1 s) := by
  unfold resumeStop
  try dsimp only
  split
  · exact Within.refl
  · refine within_ite ?_ ?_
    · exact Within.mono (within_beginStopping _ _ _ _ _ hr) (by decide)
    · exact Within.refl

theorem within_resumeStops (a0 : Raise) (s : State) (hr : ∀ e d x, Within [.tiles, .rails, .ev, .link, .rcd] x (a0 e d x)) : Within [.tiles, .rails, .ev, .link, .rcd] s (resumeStops a0 s) := by
  unfold resumeStops
  try dsimp only
  refine Within.trans ?_ (within_foldl (fun _ _ => ?_) _ _)
  · exact Within.refl
  · exact Within.mono (within_resumeStop _ _ _ hr) (by decide)

theorem within_enterOut (a0 : Raise) (a1 : RailId) (a2 : RailState) (a3 : ℕ) (a4 : ℕ) (s : State) (hr : ∀ e d x, Within [.tiles, .rails, .ev, .link, .rcd] x (a0 e d x)) : Within [.tiles, .rails, .ev, .link, .rcd] s (enterOut a0 a1 a2 a3 a4 s) := by
  unfold enterOut
  try dsimp only
  refine Within.step ?_ (within_resumeStops _ _ hr) (by decide)
  refine Within.step ?_ (within_abandonWatch _ _ _ hr) (by decide)
  refine Within.step ?_ (within_State_modRail _ _ _) (by decide)
  refine Within.step ?_ (within_setPgood _ _ _) (by decide)
  exact Within.mono (within_State_modTilesOf _ _ _) (by decide)

theorem within_State_before (s : State) (a1 : RailId) : Within [.tiles, .rails] s (State.before s a1) := by
  unfold State.before
  try dsimp only
  refine Within.step ?_ (within_State_modRail _ _ _) (by decide)
  exact Within.mono (within_State_modTilesOf _ _ _) (by decide)

theorem within_safeNow (a0 : Raise) (a1 : RailId) (a2 : ℕ) (s : State) (hr : ∀ e d x, Within [.tiles, .rails, .ev, .link, .rcd] x (a0 e d x)) : Within [.tiles, .rails, .ev, .link, .rcd] s (safeNow a0 a1 a2 s) := by
  unfold safeNow
  try dsimp only
  split
  · exact Within.refl
  · refine within_ite ?_ ?_
    · exact Within.mono (within_enterOut _ _ _ _ _ _ hr) (by decide)
    · exact Within.refl
  · exact Within.mono (within_enterOut _ _ _ _ _ _ hr) (by decide)

theorem within_orderlySafe (a0 : Raise) (a1 : RailId) (a2 : ℕ) (s : State) (hr : ∀ e d x, Within [.tiles, .rails, .ev, .link, .rcd] x (a0 e d x)) : Within [.tiles, .rails, .ev, .link, .rcd] s (orderlySafe a0 a1 a2 s) := by
  unfold orderlySafe
  try dsimp only
  split
  · exact Within.mono (within_enterOut _ _ _ _ _ _ hr) (by decide)
  · refine within_ite ?_ ?_
    · exact Within.refl
    · exact Within.mono (within_enterOut _ _ _ _ _ _ hr) (by decide)
  · refine within_ite ?_ ?_
    · exact Within.mono (within_State_modSeq _ _ _) (by decide)
    · exact Within.mono (within_beginStopping _ _ _ _ _ hr) (by decide)
  · refine within_ite ?_ ?_
    · exact Within.mono (within_State_modSeq _ _ _) (by decide)
    · exact Within.mono (within_beginStopping _ _ _ _ _ hr) (by decide)
  · refine within_ite ?_ ?_
    · exact Within.mono (within_State_modSeq _ _ _) (by decide)
    · exact Within.mono (within_beginStopping _ _ _ _ _ hr) (by decide)
  · exact Within.mono (within_State_modSeq _ _ _) (by decide)
  · refine within_ite ?_ ?_
    · exact Within.mono (within_enterOut _ _ _ _ _ _ hr) (by decide)
    · exact Within.refl
  · exact Within.refl

theorem within_orderlyOff (a0 : Raise) (a1 : RailId) (a2 : ℕ) (s : State) (hr : ∀ e d x, Within [.tiles, .rails, .ev, .link, .rcd] x (a0 e d x)) : Within [.tiles, .rails, .ev, .link, .rcd] s (orderlyOff a0 a1 a2 s) := by
  unfold orderlyOff
  try dsimp only
  split
  · exact Within.mono (within_enterOut _ _ _ _ _ _ hr) (by decide)
  · refine within_ite ?_ ?_
    · exact Within.mono (within_State_modSeq _ _ _) (by decide)
    · exact Within.mono (within_beginStopping _ _ _ _ _ hr) (by decide)
  · refine within_ite ?_ ?_
    · exact Within.mono (within_State_modSeq _ _ _) (by decide)
    · exact Within.mono (within_beginStopping _ _ _ _ _ hr) (by decide)
  · refine within_ite ?_ ?_
    · exact Within.mono (within_State_modSeq _ _ _) (by decide)
    · exact Within.mono (within_beginStopping _ _ _ _ _ hr) (by decide)
  · exact Within.refl
  · exact Within.refl
  · exact Within.refl
  · exact Within.refl

theorem within_respAction (a0 : Raise) (a1 : ℕ) (s : State) (hr : ∀ e d x, Within [.tiles, .rails, .ev, .link, .rcd] x (a0 e d x)) : Within [.tiles, .rails, .ev, .link, .rcd] s (respAction a0 a1 s) := by
  unfold respAction
  try dsimp only
  refine within_ite ?_ ?_
  · refine Within.trans ?_ (within_foldl (fun _ _ => ?_) _ _)
    · exact Within.refl
    · refine within_ite ?_ ?_
      · exact Within.refl
      · exact Within.mono (within_orderlySafe _ _ _ _ hr) (by decide)
  · refine within_ite ?_ ?_
    · refine Within.trans ?_ (within_foldl (fun _ _ => ?_) _ _)
      · exact Within.refl
      · exact Within.mono (within_safeNow _ _ _ _ hr) (by decide)
    · exact Within.refl

theorem within_journalClass (a0 : ℕ) (a1 : Word) (s : State) : Within [.ev] s (journalClass a0 a1 s) := by
  unfold journalClass
  try dsimp only
  refine within_ite ?_ ?_
  · exact Within.mono (within_set_ev _ _) (by decide)
  · refine Within.step ?_ (within_enqueue _ _) (by decide)
    exact Within.mono (within_markJrn _ _) (by decide)

theorem within_occurF (a0 : Nat) (a1 : Bool) (a2 : Nat) (a3 : Word) (s : State) : Within [.tiles, .rails, .ev, .link, .rcd] s (occurF a0 a1 a2 a3 s) := by
  induction a0 generalizing a1 a2 a3 s with
  | zero => exact Within.refl
  | succ n ih =>
    unfold occurF
    dsimp only
    have hm : Within [.tiles, .rails, .ev, .link, .rcd] s (markSrc a2 s) := Within.mono (within_markSrc _ _) (by decide)
    have hl : ∀ b : Bool, ∀ x, Within [.tiles, .rails, .ev, .link, .rcd] x (if b then latchSrc a2 a3 x else x) :=
      fun b x => within_ite (Within.mono (within_latchSrc _ _ _) (by decide)) Within.refl
    have hq : ∀ b : Bool, ∀ q x, Within [.tiles, .rails, .ev, .link, .rcd] x (if b then enqueue q (markJrn a2 x) else x) :=
      fun b q x => within_ite ((Within.mono (within_markJrn _ _) (by decide)).trans (Within.mono (within_enqueue _ _) (by decide))) Within.refl
    refine within_ite (within_ite (Within.mono (within_journalClass _ _ _) (by decide)) Within.refl) (Within.trans ?_
      (within_ite (Within.mono (within_respAction _ _ _ (fun e d x => ih _ e d x)) (by decide)) Within.refl))
    refine Within.trans ?_ (within_ite (within_ite
      (Within.trans (Within.mono (within_startCapture _ _ _) (by decide)) (ih _ _ _ _))
      (Within.mono (within_set_rcd _ _) (by decide))) Within.refl)
    exact (hm.trans (hl _ _)).trans (hq _ _ _)

theorem within_occur (a0 : ℕ) (a1 : Word) (s : State) : Within [.tiles, .rails, .ev, .link, .rcd] s (occur a0 a1 s) := by
  unfold occur
  try dsimp only
  exact Within.mono (within_occurF _ _ _ _ _) (by decide)

theorem within_occurClass (a0 : ℕ) (a1 : Word) (s : State) : Within [.tiles, .rails, .ev, .link, .rcd] s (occurClass a0 a1 s) := by
  unfold occurClass
  try dsimp only
  exact Within.mono (within_occurF _ _ _ _ _) (by decide)

theorem within_hostTrigger (s : State) : Within [.tiles, .rails, .ev, .link, .rcd] s (hostTrigger s) := by
  unfold hostTrigger
  try dsimp only
  refine within_ite ?_ ?_
  · refine Within.step ?_ (within_occur _ _ _) (by decide)
    exact Within.mono (within_startCapture _ _ _) (by decide)
  · exact Within.mono (within_set_rcd _ _) (by decide)

theorem within_railToOut (a0 : RailId) (a1 : RailState) (a2 : ℕ) (a3 : ℕ) (s : State) : Within [.tiles, .rails, .ev, .link, .rcd] s (railToOut a0 a1 a2 a3 s) := by
  unfold railToOut
  try dsimp only
  exact Within.mono (within_enterOut _ _ _ _ _ _ (fun e d x => within_occur e d x)) (by decide)

theorem within_leapRemove (a0 : TileId) (s : State) : Within [.tiles, .rails, .ev, .link, .rcd] s (leapRemove a0 s) := by
  unfold leapRemove
  try dsimp only
  split
  · exact Within.refl
  · refine within_ite ?_ ?_
    · refine Within.step ?_ (within_resumeStop _ _ _ (fun e d x => within_occur e d x)) (by decide)
      refine Within.step ?_ (within_leapCheck _ _ _) (by decide)
      exact Within.mono (within_State_modTile _ _ _) (by decide)
    · exact Within.refl

theorem within_settleChange (a0 : RailId) (s : State) : Within [.rails] s (settleChange a0 s) := by
  unfold settleChange
  try dsimp only
  refine within_ite ?_ ?_
  · exact Within.refl
  · exact Within.mono (within_State_modIlv _ _ _) (by decide)

theorem within_noTileLeft (a0 : RailId) (a1 : ℕ) (s : State) : Within [.tiles, .rails, .ev, .link, .rcd] s (noTileLeft a0 a1 s) := by
  unfold noTileLeft
  try dsimp only
  refine within_ite ?_ ?_
  · exact Within.mono (within_safeNow _ _ _ _ (fun e d x => within_occur e d x)) (by decide)
  · exact Within.refl

theorem within_removeTile (a0 : TileId) (a1 : TileAct) (a2 : ℕ) (s : State) : Within [.tiles, .rails, .ev, .link, .rcd] s (removeTile a0 a1 a2 s) := by
  unfold removeTile
  try dsimp only
  split
  · refine Within.step ?_ (within_State_modTile _ _ _) (by decide)
    exact Within.mono (within_leapRemove _ _) (by decide)
  · refine Within.step ?_ (within_noTileLeft _ _ _) (by decide)
    refine Within.step ?_ (within_settleChange _ _) (by decide)
    refine Within.step ?_ (within_State_modIlv _ _ _) (by decide)
    refine Within.step ?_ (within_closeSlot _ _ _) (by decide)
    refine Within.step ?_ (within_State_modTile _ _ _) (by decide)
    exact Within.mono (within_leapRemove _ _) (by decide)

theorem within_enterHiccup (a0 : RailId) (a1 : ℕ) (s : State) : Within [.tiles, .rails, .ev, .link, .rcd] s (enterHiccup a0 a1 s) := by
  unfold enterHiccup
  try dsimp only
  refine within_ite ?_ ?_
  · exact Within.mono (within_railToOut _ _ _ _ _) (by decide)
  · refine Within.step ?_ (within_railToOut _ _ _ _ _) (by decide)
    exact Within.mono (within_railToOut _ _ _ _ _) (by decide)

theorem within_hiccupFault (a0 : RailId) (a1 : ℕ) (s : State) : Within [.tiles, .rails, .ev, .link, .rcd] s (hiccupFault a0 a1 s) := by
  unfold hiccupFault
  try dsimp only
  refine within_ite ?_ ?_
  · exact Within.refl
  · refine within_ite ?_ ?_
    · refine Within.step ?_ (within_railToOut _ _ _ _ _) (by decide)
      exact Within.mono (within_State_modSeq _ _ _) (by decide)
    · refine Within.step ?_ (within_enterHiccup _ _ _) (by decide)
      exact Within.mono (within_State_modSeq _ _ _) (by decide)

theorem within_railResponse (a0 : RailId) (a1 : ℕ) (s : State) : Within [.tiles, .rails, .ev, .link, .rcd] s (railResponse a0 a1 s) := by
  unfold railResponse
  try dsimp only
  split
  · exact Within.mono (within_orderlySafe _ _ _ _ (fun e d x => within_occur e d x)) (by decide)
  · exact Within.mono (within_safeNow _ _ _ _ (fun e d x => within_occur e d x)) (by decide)
  · refine Within.trans ?_ (within_foldl (fun _ _ => ?_) _ _)
    · exact Within.refl
    · exact Within.mono (within_safeNow _ _ _ _ (fun e d x => within_occur e d x)) (by decide)
  · exact Within.mono (within_hiccupFault _ _ _) (by decide)
  · exact Within.refl

theorem within_fireRail (a0 : RailId) (a1 : RailSource) (s : State) : Within [.tiles, .rails, .ev, .link, .nvm, .rcd, .draw] s (fireRail a0 a1 s) := by
  unfold fireRail
  try dsimp only
  refine within_ite ?_ ?_
  · refine within_ite ?_ ?_
    · refine Within.step ?_ (within_journalClass _ _ _) (by decide)
      refine Within.step ?_ (within_railResponse _ _ _) (by decide)
      refine within_ite ?_ ?_
      · refine Within.step ?_ (within_fsumChanged _) (by decide)
        exact Within.mono (within_State_modProt _ _ _) (by decide)
      · exact Within.mono (within_State_modProt _ _ _) (by decide)
    · refine Within.step ?_ (within_railResponse _ _ _) (by decide)
      refine within_ite ?_ ?_
      · refine Within.step ?_ (within_fsumChanged _) (by decide)
        exact Within.mono (within_State_modProt _ _ _) (by decide)
      · exact Within.mono (within_State_modProt _ _ _) (by decide)
  · refine within_ite ?_ ?_
    · refine Within.step ?_ (within_occurClass _ _ _) (by decide)
      refine Within.step ?_ (within_railResponse _ _ _) (by decide)
      refine within_ite ?_ ?_
      · refine Within.step ?_ (within_fsumChanged _) (by decide)
        exact Within.mono (within_State_modProt _ _ _) (by decide)
      · exact Within.mono (within_State_modProt _ _ _) (by decide)
    · refine Within.step ?_ (within_occur _ _ _) (by decide)
      refine Within.step ?_ (within_railResponse _ _ _) (by decide)
      refine within_ite ?_ ?_
      · refine Within.step ?_ (within_fsumChanged _) (by decide)
        exact Within.mono (within_State_modProt _ _ _) (by decide)
      · exact Within.mono (within_State_modProt _ _ _) (by decide)

theorem within_tailDrop (a0 : TileId) (a1 : ℕ) (s : State) : Within [.tiles, .rails, .ev, .link, .rcd] s (tailDrop a0 a1 s) := by
  unfold tailDrop
  try dsimp only
  split
  · exact Within.refl
  · exact Within.refl
  · exact Within.refl
  · refine Within.step ?_ (within_State_modProt _ _ _) (by decide)
    exact Within.mono (within_removeTile _ _ _ _) (by decide)

theorem within_fireTile (a0 : TileId) (a1 : TileCause) (a2 : ℕ) (a3 : Bool) (s : State) : Within [.tiles, .rails, .ev, .link, .nvm, .rcd, .draw] s (fireTile a0 a1 a2 a3 s) := by
  unfold fireTile
  try dsimp only
  split
  · exact Within.refl
  · refine within_ite ?_ ?_
    · refine within_ite ?_ ?_
      · refine Within.step ?_ (within_journalClass _ _ _) (by decide)
        refine within_ite ?_ ?_
        · refine Within.step ?_ (within_tailDrop _ _ _) (by decide)
          refine within_ite ?_ ?_
          · refine Within.step ?_ (within_fsumChanged _) (by decide)
            exact Within.mono (within_State_modTile _ _ _) (by decide)
          · exact Within.mono (within_State_modTile _ _ _) (by decide)
        · refine Within.step ?_ (within_railResponse _ _ _) (by decide)
          refine within_ite ?_ ?_
          · refine Within.step ?_ (within_fsumChanged _) (by decide)
            exact Within.mono (within_State_modTile _ _ _) (by decide)
          · exact Within.mono (within_State_modTile _ _ _) (by decide)
      · refine within_ite ?_ ?_
        · refine Within.step ?_ (within_tailDrop _ _ _) (by decide)
          refine within_ite ?_ ?_
          · refine Within.step ?_ (within_fsumChanged _) (by decide)
            exact Within.mono (within_State_modTile _ _ _) (by decide)
          · exact Within.mono (within_State_modTile _ _ _) (by decide)
        · refine Within.step ?_ (within_railResponse _ _ _) (by decide)
          refine within_ite ?_ ?_
          · refine Within.step ?_ (within_fsumChanged _) (by decide)
            exact Within.mono (within_State_modTile _ _ _) (by decide)
          · exact Within.mono (within_State_modTile _ _ _) (by decide)
    · refine within_ite ?_ ?_
      · refine Within.step ?_ (within_occurClass _ _ _) (by decide)
        refine within_ite ?_ ?_
        · refine Within.step ?_ (within_tailDrop _ _ _) (by decide)
          refine within_ite ?_ ?_
          · refine Within.step ?_ (within_fsumChanged _) (by decide)
            exact Within.mono (within_State_modTile _ _ _) (by decide)
          · exact Within.mono (within_State_modTile _ _ _) (by decide)
        · refine Within.step ?_ (within_railResponse _ _ _) (by decide)
          refine within_ite ?_ ?_
          · refine Within.step ?_ (within_fsumChanged _) (by decide)
            exact Within.mono (within_State_modTile _ _ _) (by decide)
          · exact Within.mono (within_State_modTile _ _ _) (by decide)
      · refine Within.step ?_ (within_occur _ _ _) (by decide)
        refine within_ite ?_ ?_
        · refine Within.step ?_ (within_tailDrop _ _ _) (by decide)
          refine within_ite ?_ ?_
          · refine Within.step ?_ (within_fsumChanged _) (by decide)
            exact Within.mono (within_State_modTile _ _ _) (by decide)
          · exact Within.mono (within_State_modTile _ _ _) (by decide)
        · refine Within.step ?_ (within_railResponse _ _ _) (by decide)
          refine within_ite ?_ ?_
          · refine Within.step ?_ (within_fsumChanged _) (by decide)
            exact Within.mono (within_State_modTile _ _ _) (by decide)
          · exact Within.mono (within_State_modTile _ _ _) (by decide)

theorem within_judgeCoarse (a0 : RailId) (a1 : ℕ) (s : State) : Within [.tiles, .rails, .ev, .link, .nvm, .rcd, .draw] s (judgeCoarse a0 a1 s) := by
  unfold judgeCoarse
  try dsimp only
  refine within_ite ?_ ?_
  · refine Within.step ?_ (within_fireRail _ _ _) (by decide)
    refine within_ite ?_ ?_
    · refine Within.step ?_ (within_fireRail _ _ _) (by decide)
      exact Within.mono (within_State_modProt _ _ _) (by decide)
    · exact Within.mono (within_State_modProt _ _ _) (by decide)
  · refine within_ite ?_ ?_
    · refine Within.step ?_ (within_fireRail _ _ _) (by decide)
      exact Within.mono (within_State_modProt _ _ _) (by decide)
    · exact Within.mono (within_State_modProt _ _ _) (by decide)

theorem within_judgeWindow (a0 : RailId) (a1 : ℤ) (s : State) : Within [.tiles, .rails, .ev, .link, .nvm, .rcd, .draw] s (judgeWindow a0 a1 s) := by
  unfold judgeWindow
  try dsimp only
  refine within_ite ?_ ?_
  · refine Within.step ?_ (within_fireRail _ _ _) (by decide)
    refine within_ite ?_ ?_
    · refine Within.step ?_ (within_fireRail _ _ _) (by decide)
      exact Within.mono (within_State_modProt _ _ _) (by decide)
    · exact Within.mono (within_State_modProt _ _ _) (by decide)
  · refine within_ite ?_ ?_
    · refine Within.step ?_ (within_fireRail _ _ _) (by decide)
      exact Within.mono (within_State_modProt _ _ _) (by decide)
    · exact Within.mono (within_State_modProt _ _ _) (by decide)

theorem within_judgeOcr (a0 : RailId) (s : State) : Within [.tiles, .rails, .ev, .link, .nvm, .rcd, .draw] s (judgeOcr a0 s) := by
  unfold judgeOcr
  try dsimp only
  refine within_ite ?_ ?_
  · refine Within.step ?_ (within_fireRail _ _ _) (by decide)
    refine Within.step ?_ (within_State_modProt _ _ _) (by decide)
    exact Within.mono (within_State_modProt _ _ _) (by decide)
  · exact Within.mono (within_State_modProt _ _ _) (by decide)

theorem within_judgeDrop (a0 : RailId) (s : State) : Within [.tiles, .rails, .ev, .link, .rcd] s (judgeDrop a0 s) := by
  unfold judgeDrop
  try dsimp only
  refine within_ite ?_ ?_
  · refine Within.step ?_ (within_occur _ _ _) (by decide)
    exact Within.mono (within_State_modProt _ _ _) (by decide)
  · exact Within.mono (within_State_modProt _ _ _) (by decide)

theorem within_antiWindup (a0 : RailId) (s : State) : Within [.rails] s (antiWindup a0 s) := by
  unfold antiWindup
  try dsimp only
  exact Within.mono (within_State_modEng _ _ _) (by decide)

theorem within_throttleBegin (a0 : RailId) (a1 : Bool) (s : State) : Within [.tiles, .rails, .ev, .link, .rcd] s (throttleBegin a0 a1 s) := by
  unfold throttleBegin
  try dsimp only
  refine within_ite ?_ ?_
  · refine Within.step ?_ (within_occur _ _ _) (by decide)
    exact Within.mono (within_State_modProt _ _ _) (by decide)
  · exact Within.refl

theorem within_stepThrottle (a0 : RailId) (s : State) : Within [.tiles, .rails, .ev, .link, .rcd] s (stepThrottle a0 s) := by
  unfold stepThrottle
  try dsimp only
  refine Within.step ?_ (within_throttleBegin _ _ _) (by decide)
  refine Within.step ?_ (within_antiWindup _ _) (by decide)
  exact Within.mono (within_State_modProt _ _ _) (by decide)

theorem within_judgeOct (a0 : TileId) (a1 : ℤ) (s : State) : Within [.tiles, .rails, .ev, .link, .nvm, .rcd, .draw] s (judgeOct a0 a1 s) := by
  unfold judgeOct
  try dsimp only
  split
  · exact Within.refl
  · refine within_ite ?_ ?_
    · refine Within.step ?_ (within_fireTile _ _ _ _ _) (by decide)
      refine within_ite ?_ ?_
      · refine Within.step ?_ (within_fireTile _ _ _ _ _) (by decide)
        exact Within.mono (within_State_modTile _ _ _) (by decide)
      · exact Within.mono (within_State_modTile _ _ _) (by decide)
    · refine within_ite ?_ ?_
      · refine Within.step ?_ (within_fireTile _ _ _ _ _) (by decide)
        exact Within.mono (within_State_modTile _ _ _) (by decide)
      · exact Within.mono (within_State_modTile _ _ _) (by decide)

theorem within_judgeOpenSense (a0 : TileId) (a1 : Bool) (s : State) : Within [.tiles, .rails, .ev, .link, .nvm, .rcd, .draw] s (judgeOpenSense a0 a1 s) := by
  unfold judgeOpenSense
  try dsimp only
  split
  · exact Within.refl
  · refine within_ite ?_ ?_
    · refine Within.step ?_ (within_fireTile _ _ _ _ _) (by decide)
      exact Within.mono (within_State_modTile _ _ _) (by decide)
    · refine within_ite ?_ ?_
      · refine Within.step ?_ (within_fireTile _ _ _ _ _) (by decide)
        exact Within.mono (within_State_modTile _ _ _) (by decide)
      · refine within_ite ?_ ?_
        · refine Within.step ?_ (within_fireTile _ _ _ _ _) (by decide)
          exact Within.mono (within_State_modTile _ _ _) (by decide)
        · exact Within.mono (within_State_modTile _ _ _) (by decide)

theorem within_judgeHealth (a0 : TileId) (s : State) : Within [.tiles, .rails, .ev, .link, .nvm, .rcd, .draw] s (judgeHealth a0 s) := by
  unfold judgeHealth
  try dsimp only
  split
  · exact Within.refl
  · refine within_ite ?_ ?_
    · refine Within.step ?_ (within_fireTile _ _ _ _ _) (by decide)
      refine within_ite ?_ ?_
      · refine Within.step ?_ (within_fireTile _ _ _ _ _) (by decide)
        exact Within.mono (within_State_modTile _ _ _) (by decide)
      · exact Within.mono (within_State_modTile _ _ _) (by decide)
    · refine within_ite ?_ ?_
      · refine Within.step ?_ (within_fireTile _ _ _ _ _) (by decide)
        exact Within.mono (within_State_modTile _ _ _) (by decide)
      · exact Within.mono (within_State_modTile _ _ _) (by decide)

theorem within_updateL (a0 : TileId) (a1 : ℤ) (s : State) : Within [.tiles, .rails, .ev, .link, .nvm, .rcd, .draw] s (updateL a0 a1 s) := by
  unfold updateL
  try dsimp only
  split
  · exact Within.refl
  · refine Within.step ?_ (within_judgeHealth _ _) (by decide)
    exact Within.mono (within_State_modTile _ _ _) (by decide)

theorem within_updateR (a0 : TileId) (a1 : RailId) (a2 : ℤ) (a3 : ℤ) (a4 : ℚ) (s : State) : Within [.tiles] s (updateR a0 a1 a2 a3 a4 s) := by
  unfold updateR
  try dsimp only
  exact Within.mono (within_State_modTile _ _ _) (by decide)

theorem within_trackR (a0 : RailId) (s : State) : Within [.tiles, .rails, .ev, .link, .nvm, .rcd, .draw] s (trackR a0 s) := by
  unfold trackR
  try dsimp only
  refine within_ite ?_ ?_
  · refine Within.trans ?_ (within_foldl (fun _ _ => ?_) _ _)
    · refine Within.trans ?_ (within_foldl (fun _ _ => ?_) _ _)
      · exact Within.refl
      · exact Within.mono (within_updateR _ _ _ _ _ _) (by decide)
    · exact Within.mono (within_judgeHealth _ _) (by decide)
  · exact Within.refl

theorem within_restartHealth (a0 : TileId) (s : State) : Within [.tiles] s (restartHealth a0 s) := by
  unfold restartHealth
  try dsimp only
  exact Within.mono (within_State_modTile _ _ _) (by decide)

theorem within_clearRailClass (a0 : HostId) (a1 : RailId) (s : State) : Within [.rails, .ev, .nvm, .draw] s (clearRailClass a0 a1 s) := by
  unfold clearRailClass
  try dsimp only
  refine within_ite ?_ ?_
  · exact Within.refl
  · refine Within.step ?_ (within_recordEntry _ _ _ _) (by decide)
    refine Within.step ?_ (within_fsumChanged _) (by decide)
    exact Within.mono (within_State_modProt _ _ _) (by decide)

theorem within_clearTileClass (a0 : HostId) (a1 : TileId) (s : State) : Within [.tiles, .ev, .nvm, .draw] s (clearTileClass a0 a1 s) := by
  unfold clearTileClass
  try dsimp only
  refine within_ite ?_ ?_
  · exact Within.refl
  · refine Within.step ?_ (within_recordEntry _ _ _ _) (by decide)
    refine Within.step ?_ (within_fsumChanged _) (by decide)
    exact Within.mono (within_State_modTile _ _ _) (by decide)

theorem within_readmit (a0 : TileId) (s : State) : Within [.tiles] s (readmit a0 s) := by
  unfold readmit
  try dsimp only
  refine Within.step ?_ (within_restartHealth _ _) (by decide)
  exact Within.mono (within_State_modTile _ _ _) (by decide)

theorem within_excludeTile (a0 : TileId) (s : State) : Within [.tiles, .rails, .ev, .link, .rcd] s (excludeTile a0 s) := by
  unfold excludeTile
  try dsimp only
  split
  · exact Within.mono (within_State_modTile _ _ _) (by decide)
  · split
    · exact Within.refl
    · refine Within.step ?_ (within_settleChange _ _) (by decide)
      refine Within.step ?_ (within_State_modIlv _ _ _) (by decide)
      refine Within.step ?_ (within_State_modTile _ _ _) (by decide)
      exact Within.mono (within_leapRemove _ _) (by decide)
  · split
    · exact Within.refl
    · refine Within.step ?_ (within_settleChange _ _) (by decide)
      refine Within.step ?_ (within_State_modIlv _ _ _) (by decide)
      refine Within.step ?_ (within_State_modTile _ _ _) (by decide)
      exact Within.mono (within_leapRemove _ _) (by decide)
  · exact Within.mono (within_State_modTile _ _ _) (by decide)
  · exact Within.mono (within_State_modTile _ _ _) (by decide)

theorem within_admitWrite (a0 : HostId) (a1 : TileId) (a2 : BitVec 16) (a3 : ℕ) (s : State) : Within [.tiles, .rails, .ev, .bus, .link, .rcd] s (admitWrite a0 a1 a2 a3 s) := by
  unfold admitWrite
  try dsimp only
  refine within_ite ?_ ?_
  · exact Within.mono (within_refuse _ _) (by decide)
  · refine within_ite ?_ ?_
    · refine Within.step ?_ (within_refuse _ _) (by decide)
      exact Within.mono (within_State_modTile _ _ _) (by decide)
    · refine within_ite ?_ ?_
      · refine within_ite ?_ ?_
        · refine Within.step ?_ (within_recordEntry _ _ _ _) (by decide)
          exact Within.mono (within_readmit _ _) (by decide)
        · exact Within.mono (within_refuse _ _) (by decide)
      · refine within_ite ?_ ?_
        · refine Within.step ?_ (within_recordEntry _ _ _ _) (by decide)
          exact Within.mono (within_excludeTile _ _) (by decide)
        · exact Within.mono (within_refuse _ _) (by decide)

theorem within_State_modRailPeaks (s : State) (a1 : RailId) (a2 : (RailPeaks → RailPeaks)) : Within [.tel] s (State.modRailPeaks s a1 a2) := by
  unfold State.modRailPeaks
  try dsimp only
  exact Within.mono (within_set_tel _ _) (by decide)

theorem within_State_modTilePeaks (s : State) (a1 : TileId) (a2 : (TilePeaks → TilePeaks)) : Within [.tel] s (State.modTilePeaks s a1 a2) := by
  unfold State.modTilePeaks
  try dsimp only
  exact Within.mono (within_set_tel _ _) (by decide)

theorem within_peakVolt (a0 : RailId) (s : State) : Within [.tel] s (peakVolt a0 s) := by
  unfold peakVolt
  try dsimp only
  exact Within.mono (within_State_modRailPeaks _ _ _) (by decide)

theorem within_peakCurr (a0 : RailId) (s : State) : Within [.tel] s (peakCurr a0 s) := by
  unfold peakCurr
  try dsimp only
  exact Within.mono (within_State_modRailPeaks _ _ _) (by decide)

theorem within_peakTile (a0 : TileId) (s : State) : Within [.tel] s (peakTile a0 s) := by
  unfold peakTile
  try dsimp only
  refine within_ite ?_ ?_
  · exact Within.mono (within_State_modTilePeaks _ _ _) (by decide)
  · exact Within.refl

theorem within_clearPeaks (s : State) : Within [.tel] s (clearPeaks s) := by
  unfold clearPeaks
  try dsimp only
  exact Within.mono (within_set_tel _ _) (by decide)

theorem within_addEnergy (a0 : RailId) (a1 : ℤ) (s : State) : Within [.tel, .ka] s (addEnergy a0 a1 s) := by
  unfold addEnergy
  try dsimp only
  refine Within.trans ?_ (within_foldl (fun _ _ => ?_) _ _)
  · exact Within.mono (within_set_tel _ _) (by decide)
  · exact Within.mono (within_lifeInc _ _) (by decide)

theorem within_telSample (s : State) : Within [.tel, .ka] s (telSample s) := by
  unfold telSample
  try dsimp only
  refine Within.trans ?_ (within_foldl (fun _ _ => ?_) _ _)
  · exact Within.mono (within_set_tel _ _) (by decide)
  · refine within_ite ?_ ?_
    · exact Within.mono (within_addEnergy _ _ _) (by decide)
    · exact Within.refl

theorem within_telemetrySample (s : State) : Within [.tel, .ka] s (telemetrySample s) := by
  unfold telemetrySample
  try dsimp only
  refine within_ite ?_ ?_
  · exact Within.mono (within_telSample _) (by decide)
  · exact Within.refl

theorem within_publish (a0 : TelWindow) (a1 : ℕ) (s : State) : Within [.tel] s (publish a0 a1 s) := by
  unfold publish
  try dsimp only
  exact Within.mono (within_set_tel _ _) (by decide)

theorem within_telemetrySwap (s : State) : Within [.tel] s (telemetrySwap s) := by
  unfold telemetrySwap
  try dsimp only
  refine within_ite ?_ ?_
  · exact Within.refl
  · split
    · exact Within.refl
    · exact Within.mono (within_publish _ _ _) (by decide)

theorem within_telemetryWindowEnd (s : State) : Within [.tel] s (telemetryWindowEnd s) := by
  unfold telemetryWindowEnd
  try dsimp only
  refine within_ite ?_ ?_
  · refine within_ite ?_ ?_
    · split
      · refine Within.step ?_ (within_set_tel _ _) (by decide)
        exact Within.mono (within_telemetrySwap _) (by decide)
      · refine Within.step ?_ (within_set_tel _ _) (by decide)
        exact Within.mono (within_telemetrySwap _) (by decide)
    · refine Within.step ?_ (within_publish _ _ _) (by decide)
      refine Within.step ?_ (within_set_tel _ _) (by decide)
      exact Within.mono (within_telemetrySwap _) (by decide)
  · exact Within.refl

theorem within_runSettle (s : State) : Within [.pwr, .ka] s (runSettle s) := by
  unfold runSettle
  try dsimp only
  refine within_ite ?_ ?_
  · exact Within.mono (within_set_pwr_ka _ _ _) (by decide)
  · exact Within.refl

theorem within_hourCount (s : State) : Within [.pwr, .ka] s (hourCount s) := by
  unfold hourCount
  try dsimp only
  refine within_ite ?_ ?_
  · refine Within.step ?_ (within_lifeInc _ _) (by decide)
    refine Within.step ?_ (within_set_ka _ _) (by decide)
    exact Within.mono (within_runSettle _) (by decide)
  · exact Within.refl

theorem within_holdSlopes (a0 : RailId) (s : State) : Within [.tiles] s (holdSlopes a0 s) := by
  unfold holdSlopes
  try dsimp only
  exact Within.mono (within_State_mapTiles _ _) (by decide)

theorem within_tripPeriods (a0 : RailId) (a1 : TileId) (a2 : Bool) (s : State) : Within [.tiles, .rails, .ev, .link, .nvm, .rcd, .draw] s (tripPeriods a0 a1 a2 s) := by
  unfold tripPeriods
  try dsimp only
  refine within_ite ?_ ?_
  · refine Within.step ?_ (within_fireTile _ _ _ _ _) (by decide)
    exact Within.mono (within_State_modTile _ _ _) (by decide)
  · exact Within.refl

theorem within_lastPeak (a0 : TileId) (s : State) : Within [.now, .tiles, .rails, .ev, .link, .nvm, .rcd, .draw] s (lastPeak a0 s) := by
  unfold lastPeak
  try dsimp only
  split
  · exact Within.refl
  · refine within_ite ?_ ?_
    · refine Within.step ?_ (within_tripPeriods _ _ _ _) (by decide)
      refine Within.step ?_ (within_State_modTile _ _ _) (by decide)
      exact Within.mono (within_State_advance _ _) (by decide)
    · exact Within.refl

theorem within_carrierPeak (a0 : TileId) (s : State) : Within [.now, .tiles, .rails, .ev, .link, .nvm, .rcd, .draw] s (carrierPeak a0 s) := by
  unfold carrierPeak
  try dsimp only
  split
  · exact Within.refl
  · refine within_ite ?_ ?_
    · exact Within.mono (within_lastPeak _ _) (by decide)
    · refine within_ite ?_ ?_
      · exact Within.refl
      · refine Within.step ?_ (within_tripPeriods _ _ _ _) (by decide)
        refine Within.step ?_ (within_State_modTile _ _ _) (by decide)
        exact Within.mono (within_State_advance _ _) (by decide)

theorem within_valleyTake (a0 : TileId) (a1 : ℤ) (s : State) : Within [.tiles] s (valleyTake a0 a1 s) := by
  unfold valleyTake
  try dsimp only
  exact Within.mono (within_State_modTile _ _ _) (by decide)

theorem within_valleyStop (a0 : RailId) (a1 : TileId) (a2 : ℤ) (s : State) : Within [.tiles] s (valleyStop a0 a1 a2 s) := by
  unfold valleyStop
  try dsimp only
  refine within_ite ?_ ?_
  · exact Within.mono (within_State_modTile _ _ _) (by decide)
  · exact Within.refl

theorem within_valleyCurrent (a0 : TileId) (s : State) : Within [.tiles] s (valleyCurrent a0 s) := by
  unfold valleyCurrent
  try dsimp only
  exact Within.mono (within_State_modTile _ _ _) (by decide)

theorem within_valleyMean (a0 : RailId) (a1 : TileId) (s : State) : Within [.rails] s (valleyMean a0 a1 s) := by
  unfold valleyMean
  try dsimp only
  refine within_ite ?_ ?_
  · exact Within.mono (within_State_modEng _ _ _) (by decide)
  · exact Within.refl

theorem within_valleyBalance (a0 : RailId) (a1 : TileId) (s : State) : Within [.tiles] s (valleyBalance a0 a1 s) := by
  unfold valleyBalance
  try dsimp only
  exact Within.mono (within_State_modTile _ _ _) (by decide)

theorem within_valleyHealth (a0 : RailId) (a1 : TileId) (s : State) : Within [.tiles, .rails, .ev, .link, .nvm, .rcd, .draw] s (valleyHealth a0 a1 s) := by
  unfold valleyHealth
  try dsimp only
  split
  · exact Within.mono (within_State_modTile _ _ _) (by decide)
  · refine within_ite ?_ ?_
    · refine Within.step ?_ (within_updateL _ _ _) (by decide)
      exact Within.mono (within_State_modTile _ _ _) (by decide)
    · exact Within.mono (within_State_modTile _ _ _) (by decide)

theorem within_valleyDetect (a0 : TileId) (s : State) : Within [.tiles, .rails, .tel, .ev, .link, .nvm, .rcd, .draw] s (valleyDetect a0 s) := by
  unfold valleyDetect
  try dsimp only
  refine Within.step ?_ (within_judgeOpenSense _ _ _) (by decide)
  exact Within.mono (within_peakTile _ _) (by decide)

theorem within_valleyEmulation (a0 : RailId) (a1 : TileId) (s : State) : Within [.tiles] s (valleyEmulation a0 a1 s) := by
  unfold valleyEmulation
  try dsimp only
  refine within_ite ?_ ?_
  · exact Within.mono (within_State_modTile _ _ _) (by decide)
  · exact Within.refl

theorem within_fadeEnd (a0 : RailId) (a1 : TileId) (a2 : FadeGoal) (s : State) : Within [.tiles, .rails, .ev, .link, .rcd] s (fadeEnd a0 a1 a2 s) := by
  unfold fadeEnd
  try dsimp only
  refine Within.step ?_ (within_noTileLeft _ _ _) (by decide)
  refine within_ite ?_ ?_
  · refine Within.step ?_ (within_State_modIlv _ _ _) (by decide)
    refine Within.step ?_ (within_closeSlot _ _ _) (by decide)
    exact Within.mono (within_State_modTile _ _ _) (by decide)
  · exact Within.mono (within_State_modTile _ _ _) (by decide)

theorem within_valleyFade (a0 : RailId) (a1 : TileId) (s : State) : Within [.tiles, .rails, .ev, .link, .rcd] s (valleyFade a0 a1 s) := by
  unfold valleyFade
  try dsimp only
  refine within_ite ?_ ?_
  · exact Within.refl
  · split
    · exact Within.refl
    · exact Within.mono (within_State_modTile _ _ _) (by decide)
    · exact Within.mono (within_fadeEnd _ _ _ _) (by decide)
    · exact Within.mono (within_State_modTile _ _ _) (by decide)

theorem within_valleyConvert (a0 : RailId) (a1 : TileId) (a2 : ℤ) (a3 : Bool) (s : State) : Within [.tiles] s (valleyConvert a0 a1 a2 a3 s) := by
  unfold valleyConvert
  try dsimp only
  exact Within.mono (within_State_modTile _ _ _) (by decide)

theorem within_valleySettle (a0 : RailId) (a1 : TileId) (a2 : ℤ) (s : State) : Within [.tiles] s (valleySettle a0 a1 a2 s) := by
  unfold valleySettle
  try dsimp only
  exact Within.mono (within_State_modTile _ _ _) (by decide)

theorem within_lastValley (a0 : RailId) (a1 : TileId) (s : State) : Within [.now, .tiles, .rails, .tel, .ev, .link, .nvm, .rcd, .draw] s (lastValley a0 a1 s) := by
  unfold lastValley
  try dsimp only
  refine within_ite ?_ ?_
  · refine Within.step ?_ (within_valleyHealth _ _ _) (by decide)
    refine Within.step ?_ (within_valleyDetect _ _) (by decide)
    refine Within.step ?_ (within_valleyCurrent _ _) (by decide)
    exact Within.mono (within_State_advance _ _) (by decide)
  · exact Within.refl

theorem within_carrierValley (a0 : TileId) (s : State) : Within [.now, .tiles, .rails, .tel, .ev, .link, .nvm, .rcd, .draw] s (carrierValley a0 s) := by
  unfold carrierValley
  try dsimp only
  split
  · exact Within.refl
  · refine within_ite ?_ ?_
    · exact Within.mono (within_lastValley _ _ _) (by decide)
    · refine within_ite ?_ ?_
      · exact Within.refl
      · refine Within.step ?_ (within_valleySettle _ _ _ _) (by decide)
        refine within_ite ?_ ?_
        · refine Within.step ?_ (within_valleyConvert _ _ _ _ _) (by decide)
          refine Within.step ?_ (within_valleyFade _ _ _) (by decide)
          refine Within.step ?_ (within_valleyEmulation _ _ _) (by decide)
          refine Within.step ?_ (within_valleyHealth _ _ _) (by decide)
          refine Within.step ?_ (within_valleyDetect _ _) (by decide)
          refine Within.step ?_ (within_valleyBalance _ _ _) (by decide)
          refine Within.step ?_ (within_valleyMean _ _ _) (by decide)
          refine Within.step ?_ (within_valleyCurrent _ _) (by decide)
          refine Within.step ?_ (within_valleyStop _ _ _ _) (by decide)
          refine Within.step ?_ (within_valleyTake _ _ _) (by decide)
          exact Within.mono (within_State_advance _ _) (by decide)
        · refine Within.step ?_ (within_valleyFade _ _ _) (by decide)
          refine Within.step ?_ (within_valleyEmulation _ _ _) (by decide)
          refine Within.step ?_ (within_valleyHealth _ _ _) (by decide)
          refine Within.step ?_ (within_valleyDetect _ _) (by decide)
          refine Within.step ?_ (within_valleyBalance _ _ _) (by decide)
          refine Within.step ?_ (within_valleyMean _ _ _) (by decide)
          refine Within.step ?_ (within_valleyCurrent _ _) (by decide)
          refine Within.step ?_ (within_valleyStop _ _ _ _) (by decide)
          refine Within.step ?_ (within_valleyTake _ _ _) (by decide)
          exact Within.mono (within_State_advance _ _) (by decide)

theorem within_tripLatch (a0 : TileId) (a1 : ℤ) (s : State) : Within [.tiles, .rails, .ev, .link, .nvm, .rcd, .draw] s (tripLatch a0 a1 s) := by
  unfold tripLatch
  try dsimp only
  refine Within.step ?_ (within_fireTile _ _ _ _ _) (by decide)
  refine Within.step ?_ (within_State_modTile _ _ _) (by decide)
  exact Within.mono (within_leapRemove _ _) (by decide)

theorem within_tripCycle (a0 : TileId) (a1 : ℤ) (s : State) : Within [.tiles, .rails, .ev, .link, .rcd] s (tripCycle a0 a1 s) := by
  unfold tripCycle
  try dsimp only
  refine within_ite ?_ ?_
  · refine Within.step ?_ (within_occur _ _ _) (by decide)
    refine Within.step ?_ (within_State_modTile _ _ _) (by decide)
    exact Within.mono (within_State_modTile _ _ _) (by decide)
  · exact Within.mono (within_State_modTile _ _ _) (by decide)

theorem within_tripRecognised (a0 : TileId) (a1 : ℕ) (s : State) : Within [.now, .tiles, .rails, .ev, .link, .nvm, .rcd, .draw, .ka] s (tripRecognised a0 a1 s) := by
  unfold tripRecognised
  try dsimp only
  split
  · exact Within.refl
  · refine within_ite ?_ ?_
    · refine within_ite ?_ ?_
      · refine Within.step ?_ (within_tripLatch _ _ _) (by decide)
        refine Within.step ?_ (within_State_modTile _ _ _) (by decide)
        refine Within.step ?_ (within_lifeInc _ _) (by decide)
        exact Within.mono (within_State_advance _ _) (by decide)
      · refine Within.step ?_ (within_tripCycle _ _ _) (by decide)
        refine Within.step ?_ (within_State_modTile _ _ _) (by decide)
        refine Within.step ?_ (within_lifeInc _ _) (by decide)
        exact Within.mono (within_State_advance _ _) (by decide)
    · exact Within.refl

theorem within_lowSideForceEnd (a0 : TileId) (a1 : ℕ) (s : State) : Within [.now, .tiles] s (lowSideForceEnd a0 a1 s) := by
  unfold lowSideForceEnd
  try dsimp only
  split
  · exact Within.refl
  · refine within_ite ?_ ?_
    · refine Within.step ?_ (within_State_modTile _ _ _) (by decide)
      exact Within.mono (within_State_advance _ _) (by decide)
    · exact Within.refl

theorem within_deLowSideOff (a0 : TileId) (a1 : ℕ) (s : State) : Within [.now, .tiles] s (deLowSideOff a0 a1 s) := by
  unfold deLowSideOff
  try dsimp only
  split
  · exact Within.refl
  · refine within_ite ?_ ?_
    · refine Within.step ?_ (within_State_modTile _ _ _) (by decide)
      exact Within.mono (within_State_advance _ _) (by decide)
    · exact Within.refl

theorem within_tileCurrentSample (a0 : TileId) (a1 : SampleKind) (a2 : BitVec 12) (s : State) : Within [.now, .tiles, .rails, .ev, .link, .nvm, .rcd, .draw] s (tileCurrentSample a0 a1 a2 s) := by
  unfold tileCurrentSample
  try dsimp only
  split
  · exact Within.refl
  · refine within_ite ?_ ?_
    · split
      · exact Within.refl
      · refine Within.step ?_ (within_judgeOct _ _ _) (by decide)
        refine Within.step ?_ (within_State_modTile _ _ _) (by decide)
        exact Within.mono (within_State_advance _ _) (by decide)
    · refine within_ite ?_ ?_
      · exact Within.mono (within_judgeOct _ _ _) (by decide)
      · exact Within.refl

theorem within_leapDetect (a0 : RailId) (a1 : Bool) (s : State) : Within [.tiles, .rails, .ev, .link, .rcd, .ka] s (leapDetect a0 a1 s) := by
  unfold leapDetect
  try dsimp only
  refine Within.step ?_ (within_leapCheck _ _ _) (by decide)
  refine Within.trans ?_ (within_foldl (fun _ _ => ?_) _ _)
  · refine Within.step ?_ (within_occur _ _ _) (by decide)
    refine within_ite ?_ ?_
    · refine Within.step ?_ (within_State_modRail _ _ _) (by decide)
      exact Within.mono (within_State_mapTiles _ _) (by decide)
    · refine Within.step ?_ (within_lifeInc _ _) (by decide)
      refine Within.step ?_ (within_State_modRail _ _ _) (by decide)
      exact Within.mono (within_State_mapTiles _ _) (by decide)
  · exact Within.mono (within_removeTile _ _ _ _) (by decide)

theorem within_leapSample (a0 : RailId) (s : State) : Within [.tiles, .rails, .ev, .link, .rcd, .ka] s (leapSample a0 s) := by
  unfold leapSample
  try dsimp only
  split
  · refine within_ite ?_ ?_
    · refine Within.step ?_ (within_leapDetect _ _ _) (by decide)
      refine within_ite ?_ ?_
      · exact Within.mono (within_State_modLeap _ _ _) (by decide)
      · exact Within.refl
    · refine within_ite ?_ ?_
      · refine Within.step ?_ (within_leapDetect _ _ _) (by decide)
        refine within_ite ?_ ?_
        · exact Within.mono (within_State_modLeap _ _ _) (by decide)
        · exact Within.refl
      · refine within_ite ?_ ?_
        · exact Within.mono (within_State_modLeap _ _ _) (by decide)
        · exact Within.refl
  · refine within_ite ?_ ?_
    · refine Within.step ?_ (within_State_modLeap _ _ _) (by decide)
      refine within_ite ?_ ?_
      · exact Within.mono (within_State_modLeap _ _ _) (by decide)
      · exact Within.refl
    · refine within_ite ?_ ?_
      · exact Within.mono (within_State_modLeap _ _ _) (by decide)
      · exact Within.refl
  · split
    · refine within_ite ?_ ?_
      · refine Within.step ?_ (within_State_modLeap _ _ _) (by decide)
        refine within_ite ?_ ?_
        · exact Within.mono (within_State_modLeap _ _ _) (by decide)
        · exact Within.refl
      · refine within_ite ?_ ?_
        · exact Within.mono (within_State_modLeap _ _ _) (by decide)
        · exact Within.refl
    · refine within_ite ?_ ?_
      · exact Within.mono (within_State_modLeap _ _ _) (by decide)
      · exact Within.refl
  · split
    · refine within_ite ?_ ?_
      · refine Within.step ?_ (within_State_modLeap _ _ _) (by decide)
        refine within_ite ?_ ?_
        · exact Within.mono (within_State_modLeap _ _ _) (by decide)
        · exact Within.refl
      · refine within_ite ?_ ?_
        · exact Within.mono (within_State_modLeap _ _ _) (by decide)
        · exact Within.refl
    · refine within_ite ?_ ?_
      · exact Within.mono (within_State_modLeap _ _ _) (by decide)
      · exact Within.refl

theorem within_leapTileRelease (a0 : TileId) (a1 : ℕ) (s : State) : Within [.now, .tiles, .rails, .ev, .link, .rcd] s (leapTileRelease a0 a1 s) := by
  unfold leapTileRelease
  try dsimp only
  split
  · exact Within.refl
  · refine within_ite ?_ ?_
    · split
      · exact Within.refl
      · refine Within.step ?_ (within_resumeStop _ _ _ (fun e d x => within_occur e d x)) (by decide)
        refine Within.step ?_ (within_leapCheck _ _ _) (by decide)
        refine within_ite ?_ ?_
        · refine Within.step ?_ (within_State_modLeap _ _ _) (by decide)
          refine Within.step ?_ (within_State_modTile _ _ _) (by decide)
          exact Within.mono (within_State_advance _ _) (by decide)
        · refine Within.step ?_ (within_State_modTile _ _ _) (by decide)
          exact Within.mono (within_State_advance _ _) (by decide)
    · exact Within.refl

theorem within_leapHoldoffExpiry (a0 : RailId) (s : State) : Within [.now, .rails] s (leapHoldoffExpiry a0 s) := by
  unfold leapHoldoffExpiry
  try dsimp only
  refine within_ite ?_ ?_
  · refine Within.step ?_ (within_State_modLeap _ _ _) (by decide)
    exact Within.mono (within_State_advance _ _) (by decide)
  · exact Within.refl

theorem within_setRef (a0 : RailId) (a1 : ℕ) (a2 : ℤ) (s : State) : Within [.rails] s (setRef a0 a1 a2 s) := by
  unfold setRef
  try dsimp only
  exact Within.mono (within_State_modRail _ _ _) (by decide)

theorem within_followRef (a0 : RailId) (s : State) : Within [.rails] s (followRef a0 s) := by
  unfold followRef
  try dsimp only
  split
  · refine within_ite ?_ ?_
    · exact Within.mono (within_State_modSeq _ _ _) (by decide)
    · exact Within.refl
  · refine within_ite ?_ ?_
    · exact Within.refl
    · exact Within.mono (within_State_modRail _ _ _) (by decide)
  · refine within_ite ?_ ?_
    · exact Within.mono (within_State_modSeq _ _ _) (by decide)
    · exact Within.refl
  · refine within_ite ?_ ?_
    · exact Within.mono (within_State_modSeq _ _ _) (by decide)
    · exact Within.refl
  · exact Within.refl

theorem within_stepRef (a0 : RailId) (s : State) : Within [.rails] s (stepRef a0 s) := by
  unfold stepRef
  try dsimp only
  refine Within.step ?_ (within_State_modFe _ _ _) (by decide)
  refine Within.step ?_ (within_followRef _ _) (by decide)
  exact Within.mono (within_setRef _ _ _ _) (by decide)

theorem within_takeLset (a0 : RailId) (s : State) : Within [.rails] s (takeLset a0 s) := by
  unfold takeLset
  try dsimp only
  refine within_ite ?_ ?_
  · exact Within.refl
  · exact Within.mono (within_State_modMo _ _ _) (by decide)

theorem within_windowSample (a0 : RailId) (a1 : ℤ) (s : State) : Within [.now, .tiles, .rails, .ev, .link, .nvm, .rcd, .draw, .ka] s (windowSample a0 a1 s) := by
  unfold windowSample
  try dsimp only
  refine within_ite ?_ ?_
  · refine Within.step ?_ (within_stepRef _ _) (by decide)
    refine Within.step ?_ (within_judgeWindow _ _ _) (by decide)
    refine Within.step ?_ (within_leapSample _ _) (by decide)
    refine Within.step ?_ (within_takeLset _ _) (by decide)
    refine Within.step ?_ (within_State_modFe _ _ _) (by decide)
    exact Within.mono (within_State_advance _ _) (by decide)
  · exact Within.refl

theorem within_prepCheck (a0 : RailId) (s : State) : Within [.rails] s (prepCheck a0 s) := by
  unfold prepCheck
  try dsimp only
  refine within_ite ?_ ?_
  · refine Within.step ?_ (within_setRef _ _ _ _) (by decide)
    exact Within.mono (within_State_modSeq _ _ _) (by decide)
  · exact Within.refl

theorem within_prebiasWatch (a0 : RailId) (s : State) : Within [.rails] s (prebiasWatch a0 s) := by
  unfold prebiasWatch
  try dsimp only
  refine within_ite ?_ ?_
  · exact Within.mono (within_State_modRail _ _ _) (by decide)
  · exact Within.refl

theorem within_trackWatch (a0 : RailId) (s : State) : Within [.rails] s (trackWatch a0 s) := by
  unfold trackWatch
  try dsimp only
  refine within_ite ?_ ?_
  · exact Within.mono (within_State_modSeq _ _ _) (by decide)
  · exact Within.refl

theorem within_pgoodWatch (a0 : RailId) (s : State) : Within [.rails] s (pgoodWatch a0 s) := by
  unfold pgoodWatch
  try dsimp only
  refine within_ite ?_ ?_
  · refine within_ite ?_ ?_
    · exact Within.mono (within_State_modSeq _ _ _) (by decide)
    · refine within_ite ?_ ?_
      · refine Within.step ?_ (within_setPgood _ _ _) (by decide)
        exact Within.mono (within_State_modSeq _ _ _) (by decide)
      · exact Within.mono (within_State_modSeq _ _ _) (by decide)
  · exact Within.refl

theorem within_closedSettles (a0 : RailId) (s : State) : Within [.tiles, .rails, .link] s (closedSettles a0 s) := by
  unfold closedSettles
  try dsimp only
  split
  · exact Within.refl
  · refine within_ite ?_ ?_
    · exact Within.mono (within_recloseWatch _ _ _ _) (by decide)
    · exact Within.refl

theorem within_openSettles (a0 : RailId) (s : State) : Within [.tiles, .rails, .ev, .link, .rcd] s (openSettles a0 s) := by
  unfold openSettles
  try dsimp only
  split
  · exact Within.refl
  · refine within_ite ?_ ?_
    · refine within_ite ?_ ?_
      · exact Within.mono (within_closeWatch _ _ _ _ _ (fun e d x => within_occur e d x)) (by decide)
      · exact Within.mono (within_State_modRail _ _ _) (by decide)
    · exact Within.mono (within_State_modRail _ _ _) (by decide)

theorem within_settleWatch (a0 : RailId) (s : State) : Within [.tiles, .rails, .ev, .link, .rcd] s (settleWatch a0 s) := by
  unfold settleWatch
  try dsimp only
  refine Within.step ?_ (within_openSettles _ _) (by decide)
  exact Within.mono (within_closedSettles _ _) (by decide)

theorem within_coarseConversion (a0 : RailId) (a1 : BitVec 12) (s : State) : Within [.tiles, .rails, .tel, .ev, .link, .nvm, .rcd, .draw] s (coarseConversion a0 a1 s) := by
  unfold coarseConversion
  try dsimp only
  refine within_ite ?_ ?_
  · refine Within.step ?_ (within_settleWatch _ _) (by decide)
    refine Within.step ?_ (within_pgoodWatch _ _) (by decide)
    refine Within.step ?_ (within_trackWatch _ _) (by decide)
    refine Within.step ?_ (within_judgeCoarse _ _ _) (by decide)
    refine Within.step ?_ (within_peakVolt _ _) (by decide)
    refine Within.step ?_ (within_prebiasWatch _ _) (by decide)
    refine within_ite ?_ ?_
    · refine Within.step ?_ (within_State_modFe _ _ _) (by decide)
      exact Within.mono (within_State_modFe _ _ _) (by decide)
    · exact Within.mono (within_State_modFe _ _ _) (by decide)
  · exact Within.refl

theorem within_feedforward (a0 : RailId) (s : State) : Within [.rails] s (feedforward a0 s) := by
  unfold feedforward
  try dsimp only
  refine Within.step ?_ (within_antiWindup _ _) (by decide)
  exact Within.mono (within_State_modEng _ _ _) (by decide)

theorem within_likConversion (a0 : RailId) (a1 : BitVec 12) (s : State) : Within [.tiles, .rails] s (likConversion a0 a1 s) := by
  unfold likConversion
  try dsimp only
  refine within_ite ?_ ?_
  · refine within_ite ?_ ?_
    · exact Within.mono (within_State_modFe _ _ _) (by decide)
    · refine Within.step ?_ (within_holdSlopes _ _) (by decide)
      refine Within.step ?_ (within_feedforward _ _) (by decide)
      exact Within.mono (within_State_modFe _ _ _) (by decide)
  · exact Within.refl

theorem within_prebiasReading (a0 : RailId) (s : State) : Within [.rails] s (prebiasReading a0 s) := by
  unfold prebiasReading
  try dsimp only
  refine within_ite ?_ ?_
  · refine within_ite ?_ ?_
    · refine Within.step ?_ (within_prepCheck _ _) (by decide)
      refine Within.step ?_ (within_State_modSeq _ _ _) (by decide)
      exact Within.mono (within_State_modFe _ _ _) (by decide)
    · refine within_ite ?_ ?_
      · refine Within.step ?_ (within_State_modSeq _ _ _) (by decide)
        exact Within.mono (within_State_modFe _ _ _) (by decide)
      · refine Within.step ?_ (within_prepCheck _ _) (by decide)
        refine Within.step ?_ (within_State_modSeq _ _ _) (by decide)
        exact Within.mono (within_State_modFe _ _ _) (by decide)
  · exact Within.refl

theorem within_askAutozero (a0 : RailId) (a1 : Bool) (s : State) : Within [.rails, .draw] s (askAutozero a0 a1 s) := by
  unfold askAutozero
  try dsimp only
  split
  · refine within_ite ?_ ?_
    · exact Within.mono (within_State_modFe _ _ _) (by decide)
    · exact Within.refl
  · refine Within.step ?_ (within_askLeave _ _) (by decide)
    exact Within.mono (within_State_modFe _ _ _) (by decide)
  · refine within_ite ?_ ?_
    · exact Within.mono (within_State_modFe _ _ _) (by decide)
    · exact Within.refl

theorem within_autozeroAsk (a0 : HostId) (a1 : RailId) (s : State) : Within [.rails, .bus, .draw] s (autozeroAsk a0 a1 s) := by
  unfold autozeroAsk
  try dsimp only
  refine within_ite ?_ ?_
  · exact Within.mono (within_askAutozero _ _ _) (by decide)
  · exact Within.mono (within_refuse _ _) (by decide)

theorem within_autozeroStart (a0 : RailId) (s : State) : Within [.rails] s (autozeroStart a0 s) := by
  unfold autozeroStart
  try dsimp only
  split
  · refine within_ite ?_ ?_
    · exact Within.mono (within_State_modFe _ _ _) (by decide)
    · exact Within.refl
  · exact Within.refl

theorem within_autozeroDone (a0 : RailId) (a1 : ℕ) (s : State) : Within [.now, .rails, .draw] s (autozeroDone a0 a1 s) := by
  unfold autozeroDone
  try dsimp only
  split
  · refine within_ite ?_ ?_
    · refine Within.step ?_ (within_prepCheck _ _) (by decide)
      refine Within.step ?_ (within_State_modFe _ _ _) (by decide)
      refine Within.step ?_ (within_releaseLeave _ _) (by decide)
      exact Within.mono (within_State_advance _ _) (by decide)
    · exact Within.refl
  · exact Within.refl

theorem within_autozeroTimeout (a0 : RailId) (s : State) : Within [.rails, .draw] s (autozeroTimeout a0 s) := by
  unfold autozeroTimeout
  try dsimp only
  split
  · refine within_ite ?_ ?_
    · refine Within.step ?_ (within_prepCheck _ _) (by decide)
      refine Within.step ?_ (within_dropLeave _ _) (by decide)
      exact Within.mono (within_State_modFe _ _ _) (by decide)
    · exact Within.refl
  · exact Within.refl

theorem within_requestSet (a0 : RailId) (a1 : Bool × ℕ) (s : State) : Within [.rails] s (requestSet a0 a1 s) := by
  unfold requestSet
  try dsimp only
  refine within_ite ?_ ?_
  · exact Within.refl
  · exact Within.mono (within_State_modEng _ _ _) (by decide)

theorem within_refuseSet (a0 : RailId) (s : State) : Within [.tiles, .rails, .ev, .link, .rcd] s (refuseSet a0 s) := by
  unfold refuseSet
  try dsimp only
  refine Within.step ?_ (within_occur _ _ _) (by decide)
  exact Within.mono (within_State_modEng _ _ _) (by decide)

theorem within_writeShadows (a0 : RailId) (a1 : ℤ) (a2 : ℤ) (s : State) : Within [.tiles] s (writeShadows a0 a1 a2 s) := by
  unfold writeShadows
  try dsimp only
  exact Within.mono (within_State_mapTiles _ _) (by decide)

theorem within_writePeriod (a0 : RailId) (a1 : ℕ) (a2 : ℕ) (a3 : ℤ) (s : State) : Within [.tiles, .rails] s (writePeriod a0 a1 a2 a3 s) := by
  unfold writePeriod
  try dsimp only
  refine Within.step ?_ (within_State_modRail _ _ _) (by decide)
  exact Within.mono (within_State_mapTiles _ _) (by decide)

theorem within_makeUpdate (a0 : RailId) (a1 : ℤ) (a2 : Bool) (s : State) : Within [.now, .tiles, .rails, .ev, .link, .rcd] s (makeUpdate a0 a1 a2 s) := by
  unfold makeUpdate
  try dsimp only
  refine within_ite ?_ ?_
  · refine Within.step ?_ (within_writeShadows _ _ _ _) (by decide)
    refine Within.step ?_ (within_State_modEng _ _ _) (by decide)
    split
    · refine within_ite ?_ ?_
      · refine Within.step ?_ (within_State_modMo _ _ _) (by decide)
        refine Within.step ?_ (within_writePeriod _ _ _ _ _) (by decide)
        refine Within.step ?_ (within_State_modEng _ _ _) (by decide)
        refine Within.step ?_ (within_State_modFe _ _ _) (by decide)
        exact Within.mono (within_State_advance _ _) (by decide)
      · refine Within.step ?_ (within_State_modEng _ _ _) (by decide)
        refine Within.step ?_ (within_State_modFe _ _ _) (by decide)
        exact Within.mono (within_State_advance _ _) (by decide)
    · refine Within.step ?_ (within_State_modEng _ _ _) (by decide)
      refine Within.step ?_ (within_State_modFe _ _ _) (by decide)
      exact Within.mono (within_State_advance _ _) (by decide)
  · refine Within.step ?_ (within_writeShadows _ _ _ _) (by decide)
    refine Within.step ?_ (within_State_modEng _ _ _) (by decide)
    refine within_ite ?_ ?_
    · refine Within.step ?_ (within_refuseSet _ _) (by decide)
      split
      · refine within_ite ?_ ?_
        · refine Within.step ?_ (within_State_modMo _ _ _) (by decide)
          refine Within.step ?_ (within_writePeriod _ _ _ _ _) (by decide)
          refine Within.step ?_ (within_State_modEng _ _ _) (by decide)
          refine Within.step ?_ (within_State_modFe _ _ _) (by decide)
          exact Within.mono (within_State_advance _ _) (by decide)
        · refine Within.step ?_ (within_State_modEng _ _ _) (by decide)
          refine Within.step ?_ (within_State_modFe _ _ _) (by decide)
          exact Within.mono (within_State_advance _ _) (by decide)
      · refine Within.step ?_ (within_State_modEng _ _ _) (by decide)
        refine Within.step ?_ (within_State_modFe _ _ _) (by decide)
        exact Within.mono (within_State_advance _ _) (by decide)
    · split
      · refine within_ite ?_ ?_
        · refine Within.step ?_ (within_State_modMo _ _ _) (by decide)
          refine Within.step ?_ (within_writePeriod _ _ _ _ _) (by decide)
          refine Within.step ?_ (within_State_modEng _ _ _) (by decide)
          refine Within.step ?_ (within_State_modFe _ _ _) (by decide)
          exact Within.mono (within_State_advance _ _) (by decide)
        · refine Within.step ?_ (within_State_modEng _ _ _) (by decide)
          refine Within.step ?_ (within_State_modFe _ _ _) (by decide)
          exact Within.mono (within_State_advance _ _) (by decide)
      · refine Within.step ?_ (within_State_modEng _ _ _) (by decide)
        refine Within.step ?_ (within_State_modFe _ _ _) (by decide)
        exact Within.mono (within_State_advance _ _) (by decide)

theorem within_refToPeak (a0 : RailId) (s : State) : Within [.rails] s (refToPeak a0 s) := by
  unfold refToPeak
  try dsimp only
  exact Within.mono (within_State_modRail _ _ _) (by decide)

theorem within_loopUpdate (a0 : RailId) (s : State) : Within [.now, .tiles, .rails, .ev, .link, .rcd] s (loopUpdate a0 s) := by
  unfold loopUpdate
  try dsimp only
  refine within_ite ?_ ?_
  · exact Within.refl
  · refine within_ite ?_ ?_
    · split
      · exact Within.refl
      · refine Within.step ?_ (within_makeUpdate _ _ _ _) (by decide)
        refine Within.step ?_ (within_State_modEng _ _ _) (by decide)
        refine within_ite ?_ ?_
        · exact Within.refl
        · exact Within.mono (within_refToPeak _ _) (by decide)
    · refine within_ite ?_ ?_
      · refine within_ite ?_ ?_
        · refine Within.step ?_ (within_makeUpdate _ _ _ _) (by decide)
          exact Within.mono (within_State_modEng _ _ _) (by decide)
        · refine Within.step ?_ (within_refToPeak _ _) (by decide)
          exact Within.mono (within_makeUpdate _ _ _ _) (by decide)
      · exact Within.refl

theorem within_State_modChan (s : State) (a1 : ChanId) (a2 : (HkChannel → HkChannel)) : Within [.hk] s (State.modChan s a1 a2) := by
  unfold State.modChan
  try dsimp only
  exact Within.mono (within_set_hk _ _) (by decide)

theorem within_updateTherm (s : State) : Within [.hk] s (updateTherm s) := by
  unfold updateTherm
  try dsimp only
  exact Within.mono (within_set_hk _ _) (by decide)

theorem within_thermalOut (a0 : TileId) (s : State) : Within [.tiles, .rails, .ev, .link, .rcd] s (thermalOut a0 s) := by
  unfold thermalOut
  try dsimp only
  split
  · exact Within.refl
  · split
    · refine within_ite ?_ ?_
      · exact Within.refl
      · refine within_ite ?_ ?_
        · exact Within.mono (within_removeTile _ _ _ _) (by decide)
        · exact Within.mono (within_State_modTile _ _ _) (by decide)
    · exact Within.mono (within_removeTile _ _ _ _) (by decide)
    · exact Within.mono (within_removeTile _ _ _ _) (by decide)
    · exact Within.refl
    · exact Within.refl

theorem within_portOut (a0 : ChanId) (s : State) : Within [.tiles, .rails, .ev, .link, .rcd] s (portOut a0 s) := by
  unfold portOut
  try dsimp only
  refine Within.trans ?_ (within_foldl (fun _ _ => ?_) _ _)
  · exact Within.refl
  · exact Within.mono (within_thermalOut _ _) (by decide)

theorem within_setReq (a0 : RailId) (a1 : ℕ) (s : State) : Within [.settings] s (setReq a0 a1 s) := by
  unfold setReq
  try dsimp only
  exact Within.mono (within_putWord _ _ _) (by decide)

theorem within_tsdRail (a0 : Bool) (s : State) (a2 : RailId) : Within [.tiles, .rails, .ev, .link, .rcd] s (tsdRail a0 s a2) := by
  unfold tsdRail
  try dsimp only
  split
  · exact Within.refl
  · exact Within.refl
  · exact Within.mono (within_safeNow _ _ _ _ (fun e d x => within_occur e d x)) (by decide)
  · exact Within.mono (within_safeNow _ _ _ _ (fun e d x => within_occur e d x)) (by decide)
  · refine within_ite ?_ ?_
    · exact Within.mono (within_safeNow _ _ _ _ (fun e d x => within_occur e d x)) (by decide)
    · exact Within.mono (within_State_modSeq _ _ _) (by decide)
  · refine within_ite ?_ ?_
    · exact Within.mono (within_safeNow _ _ _ _ (fun e d x => within_occur e d x)) (by decide)
    · exact Within.mono (within_orderlySafe _ _ _ _ (fun e d x => within_occur e d x)) (by decide)
  · refine within_ite ?_ ?_
    · exact Within.mono (within_safeNow _ _ _ _ (fun e d x => within_occur e d x)) (by decide)
    · exact Within.mono (within_orderlySafe _ _ _ _ (fun e d x => within_occur e d x)) (by decide)
  · refine within_ite ?_ ?_
    · exact Within.mono (within_safeNow _ _ _ _ (fun e d x => within_occur e d x)) (by decide)
    · exact Within.mono (within_orderlySafe _ _ _ _ (fun e d x => within_occur e d x)) (by decide)

theorem within_dieRate (s : State) : Within [.tiles, .rails, .ev, .link, .rcd] s (dieRate s) := by
  unfold dieRate
  try dsimp only
  refine within_ite ?_ ?_
  · refine Within.trans ?_ (within_foldl (fun _ _ => ?_) _ _)
    · exact Within.refl
    · refine within_ite ?_ ?_
      · exact Within.mono (within_safeNow _ _ _ _ (fun e d x => within_occur e d x)) (by decide)
      · exact Within.refl
  · exact Within.refl

theorem within_dieShut (a0 : Bool) (s : State) : Within [.settings, .tiles, .rails, .hk, .ev, .link, .rcd] s (dieShut a0 s) := by
  unfold dieShut
  try dsimp only
  refine within_ite ?_ ?_
  · refine Within.step ?_ (within_dieRate _) (by decide)
    refine within_ite ?_ ?_
    · exact Within.mono (within_set_hk _ _) (by decide)
    · exact Within.refl
  · refine Within.trans ?_ (within_foldl (fun _ _ => ?_) _ _)
    · refine Within.trans ?_ (within_foldl (fun _ _ => ?_) _ _)
      · exact Within.mono (within_set_hk _ _) (by decide)
      · exact Within.mono (within_setReq _ _ _) (by decide)
    · exact Within.mono (within_tsdRail _ _ _) (by decide)

theorem within_tsdClear (s : State) : Within [.hk] s (tsdClear s) := by
  unfold tsdClear
  try dsimp only
  refine within_ite ?_ ?_
  · exact Within.mono (within_set_hk _ _) (by decide)
  · exact Within.refl

theorem within_reactCh (a0 : ChanId) (a1 : Bool) (s : State) : Within [.settings, .tiles, .rails, .hk, .ev, .link, .rcd] s (reactCh a0 a1 s) := by
  unfold reactCh
  try dsimp only
  refine within_ite ?_ ?_
  · refine Within.step ?_ (within_portOut _ _) (by decide)
    refine within_ite ?_ ?_
    · refine Within.step ?_ (within_occur _ _ _) (by decide)
      refine within_ite ?_ ?_
      · refine within_ite ?_ ?_
        · refine Within.step ?_ (within_dieShut _ _) (by decide)
          refine Within.step ?_ (within_updateTherm _) (by decide)
          refine Within.step ?_ (within_State_modChan _ _ _) (by decide)
          exact Within.mono (within_State_modChan _ _ _) (by decide)
        · refine Within.step ?_ (within_dieRate _) (by decide)
          refine Within.step ?_ (within_updateTherm _) (by decide)
          refine Within.step ?_ (within_State_modChan _ _ _) (by decide)
          exact Within.mono (within_State_modChan _ _ _) (by decide)
      · refine Within.step ?_ (within_updateTherm _) (by decide)
        refine Within.step ?_ (within_State_modChan _ _ _) (by decide)
        exact Within.mono (within_State_modChan _ _ _) (by decide)
    · refine within_ite ?_ ?_
      · refine within_ite ?_ ?_
        · refine Within.step ?_ (within_dieShut _ _) (by decide)
          refine Within.step ?_ (within_updateTherm _) (by decide)
          refine Within.step ?_ (within_State_modChan _ _ _) (by decide)
          exact Within.mono (within_State_modChan _ _ _) (by decide)
        · refine Within.step ?_ (within_dieRate _) (by decide)
          refine Within.step ?_ (within_updateTherm _) (by decide)
          refine Within.step ?_ (within_State_modChan _ _ _) (by decide)
          exact Within.mono (within_State_modChan _ _ _) (by decide)
      · refine Within.step ?_ (within_updateTherm _) (by decide)
        refine Within.step ?_ (within_State_modChan _ _ _) (by decide)
        exact Within.mono (within_State_modChan _ _ _) (by decide)
  · refine within_ite ?_ ?_
    · refine Within.step ?_ (within_occur _ _ _) (by decide)
      refine within_ite ?_ ?_
      · refine within_ite ?_ ?_
        · refine Within.step ?_ (within_dieShut _ _) (by decide)
          refine Within.step ?_ (within_updateTherm _) (by decide)
          refine Within.step ?_ (within_State_modChan _ _ _) (by decide)
          exact Within.mono (within_State_modChan _ _ _) (by decide)
        · refine Within.step ?_ (within_dieRate _) (by decide)
          refine Within.step ?_ (within_updateTherm _) (by decide)
          refine Within.step ?_ (within_State_modChan _ _ _) (by decide)
          exact Within.mono (within_State_modChan _ _ _) (by decide)
      · refine Within.step ?_ (within_updateTherm _) (by decide)
        refine Within.step ?_ (within_State_modChan _ _ _) (by decide)
        exact Within.mono (within_State_modChan _ _ _) (by decide)
    · refine within_ite ?_ ?_
      · refine within_ite ?_ ?_
        · refine Within.step ?_ (within_dieShut _ _) (by decide)
          refine Within.step ?_ (within_updateTherm _) (by decide)
          refine Within.step ?_ (within_State_modChan _ _ _) (by decide)
          exact Within.mono (within_State_modChan _ _ _) (by decide)
        · refine Within.step ?_ (within_dieRate _) (by decide)
          refine Within.step ?_ (within_updateTherm _) (by decide)
          refine Within.step ?_ (within_State_modChan _ _ _) (by decide)
          exact Within.mono (within_State_modChan _ _ _) (by decide)
      · refine Within.step ?_ (within_updateTherm _) (by decide)
        refine Within.step ?_ (within_State_modChan _ _ _) (by decide)
        exact Within.mono (within_State_modChan _ _ _) (by decide)

theorem within_markBroken (a0 : ChanId) (a1 : ℕ) (s : State) : Within [.tiles, .rails, .hk, .ev, .link, .rcd] s (markBroken a0 a1 s) := by
  unfold markBroken
  try dsimp only
  refine Within.step ?_ (within_occur _ _ _) (by decide)
  refine within_ite ?_ ?_
  · exact Within.refl
  · exact Within.mono (within_State_modChan _ _ _) (by decide)

theorem within_peakRailTemp (a0 : List ChanId) (s : State) : Within [.tel] s (peakRailTemp a0 s) := by
  unfold peakRailTemp
  try dsimp only
  refine Within.trans ?_ (within_foldl (fun _ _ => ?_) _ _)
  · exact Within.refl
  · exact Within.mono (within_State_modRailPeaks _ _ _) (by decide)

theorem within_peakTileTemp (a0 : ChanId) (s : State) : Within [.tel] s (peakTileTemp a0 s) := by
  unfold peakTileTemp
  try dsimp only
  refine within_ite ?_ ?_
  · refine Within.trans ?_ (within_foldl (fun _ _ => ?_) _ _)
    · exact Within.refl
    · exact Within.mono (within_State_modTilePeaks _ _ _) (by decide)
  · exact Within.refl

theorem within_judgeReading (a0 : (ChanId → ℕ)) (s : State) (a2 : ChanId) : Within [.settings, .tiles, .rails, .hk, .tel, .ev, .link, .rcd] s (judgeReading a0 s a2) := by
  unfold judgeReading
  try dsimp only
  refine within_ite ?_ ?_
  · refine Within.step ?_ (within_peakTileTemp _ _) (by decide)
    refine Within.step ?_ (within_reactCh _ _ _) (by decide)
    split
    · refine within_ite ?_ ?_
      · exact Within.mono (within_markBroken _ _ _) (by decide)
      · exact Within.refl
    · exact Within.refl
  · exact Within.refl

theorem within_fillLane (s : State) : Within [.tiles, .rails, .hk, .ev, .link, .rcd] s (fillLane s) := by
  unfold fillLane
  try dsimp only
  refine Within.trans ?_ (within_foldl (fun _ _ => ?_) _ _)
  · exact Within.mono (within_set_hk _ _) (by decide)
  · exact Within.mono (within_occur _ _ _) (by decide)

theorem within_leaveLane (a0 : ChanId) (s : State) : Within [.hk] s (leaveLane a0 s) := by
  unfold leaveLane
  try dsimp only
  refine within_ite ?_ ?_
  · exact Within.mono (within_State_modChan _ _ _) (by decide)
  · exact Within.refl

theorem within_crossCheck (s : State) (a1 : ChanId) : Within [.settings, .tiles, .rails, .hk, .ev, .link, .rcd] s (crossCheck s a1) := by
  unfold crossCheck
  try dsimp only
  split
  · exact Within.refl
  · refine within_ite ?_ ?_
    · exact Within.refl
    · refine within_ite ?_ ?_
      · refine Within.step ?_ (within_reactCh _ _ _) (by decide)
        refine Within.step ?_ (within_markBroken _ _ _) (by decide)
        refine within_ite ?_ ?_
        · exact Within.mono (within_set_hk _ _) (by decide)
        · exact Within.refl
      · refine within_ite ?_ ?_
        · refine Within.step ?_ (within_reactCh _ _ _) (by decide)
          refine Within.step ?_ (within_State_modChan _ _ _) (by decide)
          refine within_ite ?_ ?_
          · exact Within.mono (within_set_hk _ _) (by decide)
          · exact Within.refl
        · refine within_ite ?_ ?_
          · exact Within.mono (within_set_hk _ _) (by decide)
          · exact Within.refl

theorem within_crossChecks (a0 : BitVec 36) (s : State) : Within [.settings, .tiles, .rails, .hk, .ev, .link, .rcd] s (crossChecks a0 s) := by
  unfold crossChecks
  try dsimp only
  refine Within.trans ?_ (within_foldl (fun _ _ => ?_) _ _)
  · exact Within.refl
  · exact Within.mono (within_crossCheck _ _) (by decide)

theorem within_vsupTrack (a0 : ℕ) (s : State) : Within [.pwr] s (vsupTrack a0 s) := by
  unfold vsupTrack
  try dsimp only
  refine within_ite ?_ ?_
  · exact Within.mono (within_set_pwr _ _) (by decide)
  · exact Within.refl

theorem within_takeRaw (a0 : ChanId) (a1 : ℕ) (s : State) : Within [.pwr, .hk] s (takeRaw a0 a1 s) := by
  unfold takeRaw
  try dsimp only
  refine within_ite ?_ ?_
  · refine Within.step ?_ (within_vsupTrack _ _) (by decide)
    exact Within.mono (within_State_modChan _ _ _) (by decide)
  · exact Within.mono (within_State_modChan _ _ _) (by decide)

theorem within_hkConversion (a0 : BitVec 12) (s : State) : Within [.pwr, .hk] s (hkConversion a0 s) := by
  unfold hkConversion
  try dsimp only
  refine within_ite ?_ ?_
  · split
    · exact Within.mono (within_set_hk _ _) (by decide)
    · split
      · refine Within.step ?_ (within_set_hk _ _) (by decide)
        exact Within.mono (within_takeRaw _ _ _) (by decide)
      · refine Within.step ?_ (within_set_hk _ _) (by decide)
        exact Within.mono (within_takeRaw _ _ _) (by decide)
  · exact Within.refl

theorem within_publishRound (s : State) (a1 : ChanId) : Within [.hk] s (publishRound s a1) := by
  unfold publishRound
  try dsimp only
  exact Within.mono (within_State_modChan _ _ _) (by decide)

theorem within_telRound (s : State) : Within [.tel] s (telRound s) := by
  unfold telRound
  try dsimp only
  refine within_ite ?_ ?_
  · exact Within.mono (within_set_tel _ _) (by decide)
  · exact Within.refl

theorem within_judgeRound (s : State) : Within [.settings, .tiles, .rails, .hk, .tel, .ev, .link, .rcd] s (judgeRound s) := by
  unfold judgeRound
  try dsimp only
  refine Within.trans ?_ (within_foldl (fun _ _ => ?_) _ _)
  · refine Within.trans ?_ (within_foldl (fun _ _ => ?_) _ _)
    · exact Within.refl
    · exact Within.mono (within_publishRound _ _) (by decide)
  · exact Within.mono (within_judgeReading _ _ _) (by decide)

theorem within_hkRoundEnd (s : State) : Within [.settings, .tiles, .rails, .hk, .tel, .ev, .link, .rcd] s (hkRoundEnd s) := by
  unfold hkRoundEnd
  try dsimp only
  refine within_ite ?_ ?_
  · refine Within.step ?_ (within_telRound _) (by decide)
    refine Within.step ?_ (within_fillLane _) (by decide)
    refine Within.step ?_ (within_tsdClear _) (by decide)
    refine Within.step ?_ (within_crossChecks _ _) (by decide)
    refine Within.step ?_ (within_set_hk _ _) (by decide)
    refine Within.step ?_ (within_peakRailTemp _ _) (by decide)
    exact Within.mono (within_judgeRound _) (by decide)
  · exact Within.refl

theorem within_fastSample (a0 : Vector (BitVec 12) 64) (s : State) (a2 : ChanId) : Within [.hk] s (fastSample a0 s a2) := by
  unfold fastSample
  try dsimp only
  exact Within.mono (within_State_modChan _ _ _) (by decide)

theorem within_fastRound (a0 : Vector (BitVec 12) 64) (s : State) : Within [.settings, .tiles, .rails, .hk, .tel, .ev, .link, .rcd] s (fastRound a0 s) := by
  unfold fastRound
  try dsimp only
  refine Within.step ?_ (within_tsdClear _) (by decide)
  refine Within.trans ?_ (within_foldl (fun _ _ => ?_) _ _)
  · refine Within.trans ?_ (within_foldl (fun _ _ => ?_) _ _)
    · exact Within.refl
    · exact Within.mono (within_fastSample _ _ _) (by decide)
  · refine Within.step ?_ (within_leaveLane _ _) (by decide)
    refine Within.step ?_ (within_peakRailTemp _ _) (by decide)
    exact Within.mono (within_judgeReading _ _ _) (by decide)

theorem within_fastLaneTimer (a0 : Vector (BitVec 12) 64) (a1 : BitVec 12) (s : State) : Within [.settings, .tiles, .rails, .pwr, .hk, .tel, .ev, .link, .rcd] s (fastLaneTimer a0 a1 s) := by
  unfold fastLaneTimer
  try dsimp only
  refine within_ite ?_ ?_
  · refine within_ite ?_ ?_
    · refine Within.step ?_ (within_vsupTrack _ _) (by decide)
      refine Within.step ?_ (within_State_modChan _ _ _) (by decide)
      exact Within.mono (within_fastRound _ _) (by decide)
    · exact Within.mono (within_fastRound _ _) (by decide)
  · exact Within.refl

theorem within_tsdGraceExpiry (s : State) : Within [.tiles, .rails, .hk, .ev, .link, .rcd] s (tsdGraceExpiry s) := by
  unfold tsdGraceExpiry
  try dsimp only
  refine within_ite ?_ ?_
  · refine Within.trans ?_ (within_foldl (fun _ _ => ?_) _ _)
    · exact Within.mono (within_set_hk _ _) (by decide)
    · refine within_ite ?_ ?_
      · exact Within.mono (within_safeNow _ _ _ _ (fun e d x => within_occur e d x)) (by decide)
      · exact Within.refl
  · exact Within.refl

theorem within_setOrigin (a0 : RailId) (a1 : ℕ) (s : State) : Within [.rails] s (setOrigin a0 a1 s) := by
  unfold setOrigin
  try dsimp only
  exact Within.mono (within_State_modIlv _ _ _) (by decide)

theorem within_followOrigin (a0 : RailId) (a1 : ℤ) (a2 : Carrier) (a3 : ℕ) (s : State) : Within [.rails] s (followOrigin a0 a1 a2 a3 s) := by
  unfold followOrigin
  try dsimp only
  exact Within.mono (within_State_modIlv _ _ _) (by decide)

theorem within_startRotation (a0 : RailId) (s : State) : Within [.tiles, .rails] s (startRotation a0 s) := by
  unfold startRotation
  try dsimp only
  refine Within.step ?_ (within_State_modRail _ _ _) (by decide)
  exact Within.mono (within_State_modTilesOf _ _ _) (by decide)

theorem within_dropFading (a0 : RailId) (s : State) : Within [.tiles] s (dropFading a0 s) := by
  unfold dropFading
  try dsimp only
  refine Within.trans ?_ (within_foldl (fun _ _ => ?_) _ _)
  · exact Within.refl
  · refine Within.step ?_ (within_closeSlot _ _ _) (by decide)
    exact Within.mono (within_State_modTile _ _ _) (by decide)

theorem within_startRespace (a0 : RailId) (s : State) : Within [.tiles, .rails] s (startRespace a0 s) := by
  unfold startRespace
  try dsimp only
  refine Within.step ?_ (within_State_modRail _ _ _) (by decide)
  refine Within.step ?_ (within_State_modTilesOf _ _ _) (by decide)
  exact Within.mono (within_dropFading _ _) (by decide)

theorem within_abortGlide (a0 : RailId) (s : State) : Within [.tiles, .rails] s (abortGlide a0 s) := by
  unfold abortGlide
  try dsimp only
  refine Within.step ?_ (within_State_modRail _ _ _) (by decide)
  exact Within.mono (within_State_modTilesOf _ _ _) (by decide)

theorem within_refToOrigin (a0 : RailId) (a1 : ℤ) (s : State) : Within [.rails] s (refToOrigin a0 a1 s) := by
  unfold refToOrigin
  try dsimp only
  exact Within.mono (within_State_modRail _ _ _) (by decide)

theorem within_endRotation (a0 : RailId) (a1 : ℤ) (s : State) : Within [.tiles, .rails] s (endRotation a0 a1 s) := by
  unfold endRotation
  try dsimp only
  refine Within.step ?_ (within_State_modIlv _ _ _) (by decide)
  refine Within.step ?_ (within_refToOrigin _ _ _) (by decide)
  exact Within.mono (within_State_modTilesOf _ _ _) (by decide)

theorem within_endRespace (a0 : RailId) (s : State) : Within [.tiles, .rails] s (endRespace a0 s) := by
  unfold endRespace
  try dsimp only
  refine Within.step ?_ (within_State_modRail _ _ _) (by decide)
  exact Within.mono (within_State_modTilesOf _ _ _) (by decide)

theorem within_judgeRotation (a0 : RailId) (a1 : Bool) (s : State) : Within [.tiles, .rails] s (judgeRotation a0 a1 s) := by
  unfold judgeRotation
  try dsimp only
  refine within_ite ?_ ?_
  · exact Within.refl
  · refine within_ite ?_ ?_
    · refine Within.step ?_ (within_startRotation _ _) (by decide)
      refine Within.step ?_ (within_State_modIlv _ _ _) (by decide)
      refine within_ite ?_ ?_
      · exact Within.mono (within_State_modIlv _ _ _) (by decide)
      · exact Within.refl
    · refine Within.step ?_ (within_State_modIlv _ _ _) (by decide)
      refine within_ite ?_ ?_
      · exact Within.mono (within_State_modIlv _ _ _) (by decide)
      · exact Within.refl

theorem within_syncFree (a0 : RailId) (s : State) : Within [.tiles, .rails] s (syncFree a0 s) := by
  unfold syncFree
  try dsimp only
  refine within_ite ?_ ?_
  · exact Within.refl
  · refine within_ite ?_ ?_
    · refine Within.step ?_ (within_writePeriod _ _ _ _ _) (by decide)
      exact Within.mono (within_State_modIlv _ _ _) (by decide)
    · refine Within.step ?_ (within_setOrigin _ _ _) (by decide)
      exact Within.mono (within_State_modIlv _ _ _) (by decide)

theorem within_placeOrigin (a0 : RailId) (s : State) : Within [.rails] s (placeOrigin a0 s) := by
  unfold placeOrigin
  try dsimp only
  exact Within.mono (within_State_modIlv _ _ _) (by decide)

theorem within_syncJudge (a0 : Bool) (s : State) (a2 : RailId) : Within [.tiles, .rails, .ev, .link, .rcd, .sync] s (syncJudge a0 s a2) := by
  unfold syncJudge
  try dsimp only
  refine within_ite ?_ ?_
  · exact Within.mono (within_syncFree _ _) (by decide)
  · refine within_ite ?_ ?_
    · exact Within.mono (within_syncFree _ _) (by decide)
    · refine within_ite ?_ ?_
      · refine Within.step ?_ (within_syncFree _ _) (by decide)
        refine within_ite ?_ ?_
        · refine Within.step ?_ (within_occur _ _ _) (by decide)
          refine within_ite ?_ ?_
          · exact Within.mono (within_State_modIlv _ _ _) (by decide)
          · refine Within.step ?_ (within_set_sync _ _) (by decide)
            exact Within.mono (within_State_modIlv _ _ _) (by decide)
        · refine within_ite ?_ ?_
          · exact Within.mono (within_State_modIlv _ _ _) (by decide)
          · refine Within.step ?_ (within_set_sync _ _) (by decide)
            exact Within.mono (within_State_modIlv _ _ _) (by decide)
      · refine within_ite ?_ ?_
        · refine within_ite ?_ ?_
          · refine Within.step ?_ (within_occur _ _ _) (by decide)
            refine within_ite ?_ ?_
            · exact Within.mono (within_State_modIlv _ _ _) (by decide)
            · refine Within.step ?_ (within_set_sync _ _) (by decide)
              exact Within.mono (within_State_modIlv _ _ _) (by decide)
          · refine within_ite ?_ ?_
            · exact Within.mono (within_State_modIlv _ _ _) (by decide)
            · refine Within.step ?_ (within_set_sync _ _) (by decide)
              exact Within.mono (within_State_modIlv _ _ _) (by decide)
        · split
          · refine within_ite ?_ ?_
            · refine Within.step ?_ (within_occur _ _ _) (by decide)
              refine Within.step ?_ (within_placeOrigin _ _) (by decide)
              refine Within.step ?_ (within_State_modIlv _ _ _) (by decide)
              refine within_ite ?_ ?_
              · refine Within.step ?_ (within_occur _ _ _) (by decide)
                refine within_ite ?_ ?_
                · exact Within.mono (within_State_modIlv _ _ _) (by decide)
                · refine Within.step ?_ (within_set_sync _ _) (by decide)
                  exact Within.mono (within_State_modIlv _ _ _) (by decide)
              · refine within_ite ?_ ?_
                · exact Within.mono (within_State_modIlv _ _ _) (by decide)
                · refine Within.step ?_ (within_set_sync _ _) (by decide)
                  exact Within.mono (within_State_modIlv _ _ _) (by decide)
            · refine Within.step ?_ (within_State_modIlv _ _ _) (by decide)
              refine within_ite ?_ ?_
              · refine Within.step ?_ (within_occur _ _ _) (by decide)
                refine within_ite ?_ ?_
                · exact Within.mono (within_State_modIlv _ _ _) (by decide)
                · refine Within.step ?_ (within_set_sync _ _) (by decide)
                  exact Within.mono (within_State_modIlv _ _ _) (by decide)
              · refine within_ite ?_ ?_
                · exact Within.mono (within_State_modIlv _ _ _) (by decide)
                · refine Within.step ?_ (within_set_sync _ _) (by decide)
                  exact Within.mono (within_State_modIlv _ _ _) (by decide)
          · refine within_ite ?_ ?_
            · refine Within.step ?_ (within_setOrigin _ _ _) (by decide)
              refine Within.step ?_ (within_State_modIlv _ _ _) (by decide)
              refine within_ite ?_ ?_
              · refine Within.step ?_ (within_occur _ _ _) (by decide)
                refine within_ite ?_ ?_
                · exact Within.mono (within_State_modIlv _ _ _) (by decide)
                · refine Within.step ?_ (within_set_sync _ _) (by decide)
                  exact Within.mono (within_State_modIlv _ _ _) (by decide)
              · refine within_ite ?_ ?_
                · exact Within.mono (within_State_modIlv _ _ _) (by decide)
                · refine Within.step ?_ (within_set_sync _ _) (by decide)
                  exact Within.mono (within_State_modIlv _ _ _) (by decide)
            · refine Within.step ?_ (within_State_modIlv _ _ _) (by decide)
              refine within_ite ?_ ?_
              · refine Within.step ?_ (within_occur _ _ _) (by decide)
                refine within_ite ?_ ?_
                · exact Within.mono (within_State_modIlv _ _ _) (by decide)
                · refine Within.step ?_ (within_set_sync _ _) (by decide)
                  exact Within.mono (within_State_modIlv _ _ _) (by decide)
              · refine within_ite ?_ ?_
                · exact Within.mono (within_State_modIlv _ _ _) (by decide)
                · refine Within.step ?_ (within_set_sync _ _) (by decide)
                  exact Within.mono (within_State_modIlv _ _ _) (by decide)

theorem within_syncAbsent (s : State) : Within [.tiles, .rails, .ev, .link, .rcd, .sync] s (syncAbsent s) := by
  unfold syncAbsent
  try dsimp only
  refine Within.trans ?_ (within_foldl (fun _ _ => ?_) _ _)
  · refine within_ite ?_ ?_
    · refine Within.step ?_ (within_occur _ _ _) (by decide)
      exact Within.mono (within_set_sync _ _) (by decide)
    · exact Within.mono (within_set_sync _ _) (by decide)
  · exact Within.mono (within_syncJudge _ _ _) (by decide)

theorem within_syncInOff (s : State) : Within [.tiles, .rails, .ev, .link, .rcd, .sync] s (syncInOff s) := by
  unfold syncInOff
  try dsimp only
  refine within_ite ?_ ?_
  · exact Within.refl
  · refine Within.step ?_ (within_set_sync _ _) (by decide)
    refine within_ite ?_ ?_
    · exact Within.mono (within_syncAbsent _) (by decide)
    · exact Within.refl

theorem within_lockOff (a0 : RailId) (s : State) : Within [.tiles, .rails] s (lockOff a0 s) := by
  unfold lockOff
  try dsimp only
  refine within_ite ?_ ?_
  · exact Within.refl
  · exact Within.mono (within_syncFree _ _) (by decide)

theorem within_syncInEdge (a0 : ℕ) (s : State) : Within [.now, .tiles, .rails, .ev, .link, .rcd, .sync] s (syncInEdge a0 s) := by
  unfold syncInEdge
  try dsimp only
  refine within_ite ?_ ?_
  · split
    · refine Within.step ?_ (within_set_sync _ _) (by decide)
      exact Within.mono (within_State_advance _ _) (by decide)
    · refine within_ite ?_ ?_
      · refine Within.step ?_ (within_syncAbsent _) (by decide)
        refine Within.step ?_ (within_set_sync _ _) (by decide)
        exact Within.mono (within_State_advance _ _) (by decide)
      · refine Within.trans ?_ (within_foldl (fun _ _ => ?_) _ _)
        · refine Within.step ?_ (within_set_sync _ _) (by decide)
          exact Within.mono (within_State_advance _ _) (by decide)
        · exact Within.mono (within_syncJudge _ _ _) (by decide)
  · exact Within.refl

theorem within_syncInLoss (s : State) : Within [.now, .tiles, .rails, .ev, .link, .rcd, .sync] s (syncInLoss s) := by
  unfold syncInLoss
  try dsimp only
  split
  · exact Within.refl
  · refine within_ite ?_ ?_
    · refine Within.step ?_ (within_syncAbsent _) (by decide)
      exact Within.mono (within_State_advance _ _) (by decide)
    · exact Within.refl

theorem within_syncValley (a0 : RailId) (s : State) : Within [.tiles, .rails, .ev, .link, .rcd] s (syncValley a0 s) := by
  unfold syncValley
  try dsimp only
  refine within_ite ?_ ?_
  · exact Within.refl
  · refine Within.step ?_ (within_writePeriod _ _ _ _ _) (by decide)
    refine within_ite ?_ ?_
    · refine Within.step ?_ (within_occur _ _ _) (by decide)
      exact Within.mono (within_State_modIlv _ _ _) (by decide)
    · exact Within.mono (within_State_modIlv _ _ _) (by decide)

theorem within_syncOutPulse (s : State) : Within [.now, .sync] s (syncOutPulse s) := by
  unfold syncOutPulse
  try dsimp only
  refine within_ite ?_ ?_
  · refine Within.step ?_ (within_set_sync _ _) (by decide)
    exact Within.mono (within_State_advance _ _) (by decide)
  · exact Within.refl

theorem within_markMapBad (a0 : ℕ) (s : State) : Within [.tiles, .rails, .test, .map, .ev, .link, .rcd] s (markMapBad a0 s) := by
  unfold markMapBad
  try dsimp only
  refine within_ite ?_ ?_
  · exact Within.refl
  · refine Within.step ?_ (within_occur _ _ _) (by decide)
    exact Within.mono (within_set_test_map _ _ _) (by decide)

theorem within_readMapWord (a0 : ℕ) (a1 : Ecc) (s : State) : Within [.tiles, .rails, .test, .map, .ev, .link, .rcd] s (readMapWord a0 a1 s) := by
  unfold readMapWord
  try dsimp only
  refine within_ite ?_ ?_
  · exact Within.refl
  · split
    · exact Within.refl
    · exact Within.mono (within_set_map _ _) (by decide)
    · exact Within.mono (within_markMapBad _ _) (by decide)

theorem within_takeEntry (a0 : RailId) (a1 : Word) (s : State) : Within [.rails] s (takeEntry a0 a1 s) := by
  unfold takeEntry
  try dsimp only
  refine within_ite ?_ ?_
  · refine Within.step ?_ (within_requestSet _ _ _) (by decide)
    refine Within.step ?_ (within_State_modMo _ _ _) (by decide)
    exact Within.mono (within_State_modMo _ _ _) (by decide)
  · refine Within.step ?_ (within_State_modMo _ _ _) (by decide)
    exact Within.mono (within_State_modMo _ _ _) (by decide)

theorem within_judgeBins (a0 : RailId) (a1 : Ecc) (s : State) : Within [.tiles, .rails, .test, .map, .ev, .link, .rcd] s (judgeBins a0 a1 s) := by
  unfold judgeBins
  try dsimp only
  refine within_ite ?_ ?_
  · exact Within.refl
  · refine within_ite ?_ ?_
    · refine within_ite ?_ ?_
      · refine Within.step ?_ (within_takeEntry _ _ _) (by decide)
        exact Within.mono (within_State_modMo _ _ _) (by decide)
      · exact Within.refl
    · refine within_ite ?_ ?_
      · refine within_ite ?_ ?_
        · refine Within.step ?_ (within_takeEntry _ _ _) (by decide)
          exact Within.mono (within_State_modMo _ _ _) (by decide)
        · exact Within.refl
      · refine within_ite ?_ ?_
        · refine within_ite ?_ ?_
          · refine Within.step ?_ (within_takeEntry _ _ _) (by decide)
            refine Within.step ?_ (within_State_modMo _ _ _) (by decide)
            refine Within.step ?_ (within_readMapWord _ _ _) (by decide)
            refine Within.step ?_ (within_State_modMo _ _ _) (by decide)
            exact Within.mono (within_State_modMo _ _ _) (by decide)
          · refine Within.step ?_ (within_readMapWord _ _ _) (by decide)
            refine Within.step ?_ (within_State_modMo _ _ _) (by decide)
            exact Within.mono (within_State_modMo _ _ _) (by decide)
        · refine Within.step ?_ (within_takeEntry _ _ _) (by decide)
          refine Within.step ?_ (within_State_modMo _ _ _) (by decide)
          refine Within.step ?_ (within_readMapWord _ _ _) (by decide)
          refine Within.step ?_ (within_State_modMo _ _ _) (by decide)
          exact Within.mono (within_State_modMo _ _ _) (by decide)

theorem within_startEntry (a0 : RailId) (a1 : Ecc) (s : State) : Within [.tiles, .rails, .test, .map, .ev, .link, .rcd] s (startEntry a0 a1 s) := by
  unfold startEntry
  try dsimp only
  refine Within.step ?_ (within_State_modEng _ _ _) (by decide)
  refine Within.step ?_ (within_State_modMo _ _ _) (by decide)
  refine within_ite ?_ ?_
  · refine within_ite ?_ ?_
    · refine Within.step ?_ (within_State_modMo _ _ _) (by decide)
      refine Within.step ?_ (within_readMapWord _ _ _) (by decide)
      refine Within.step ?_ (within_State_modMo _ _ _) (by decide)
      exact Within.mono (within_State_modMo _ _ _) (by decide)
    · refine Within.step ?_ (within_State_modMo _ _ _) (by decide)
      refine Within.step ?_ (within_readMapWord _ _ _) (by decide)
      refine Within.step ?_ (within_State_modMo _ _ _) (by decide)
      exact Within.mono (within_State_modMo _ _ _) (by decide)
  · exact Within.mono (within_State_modMo _ _ _) (by decide)

theorem within_startAdd (a0 : RailId) (s : State) : Within [.tiles, .rails] s (startAdd a0 s) := by
  unfold startAdd
  try dsimp only
  split
  · exact Within.refl
  · refine Within.step ?_ (within_State_modTile _ _ _) (by decide)
    exact Within.mono (within_State_modRail _ _ _) (by decide)

theorem within_beginAdd (a0 : RailId) (a1 : TileId) (s : State) : Within [.tiles, .rails] s (beginAdd a0 a1 s) := by
  unfold beginAdd
  try dsimp only
  refine within_ite ?_ ?_
  · refine Within.step ?_ (within_State_modTile _ _ _) (by decide)
    refine Within.step ?_ (within_dropFading _ _) (by decide)
    exact Within.mono (within_State_modIlv _ _ _) (by decide)
  · refine Within.step ?_ (within_dropFading _ _) (by decide)
    exact Within.mono (within_State_modIlv _ _ _) (by decide)

theorem within_startShed (a0 : RailId) (s : State) : Within [.tiles, .rails] s (startShed a0 s) := by
  unfold startShed
  try dsimp only
  split
  · exact Within.refl
  · refine Within.step ?_ (within_State_modTile _ _ _) (by decide)
    refine Within.step ?_ (within_State_modIlv _ _ _) (by decide)
    exact Within.mono (within_State_modMo _ _ _) (by decide)

theorem within_judgeMoult (a0 : RailId) (s : State) : Within [.tiles, .rails] s (judgeMoult a0 s) := by
  unfold judgeMoult
  try dsimp only
  refine within_ite ?_ ?_
  · exact Within.mono (within_State_modMo _ _ _) (by decide)
  · refine within_ite ?_ ?_
    · exact Within.refl
    · refine within_ite ?_ ?_
      · exact Within.mono (within_State_modMo _ _ _) (by decide)
      · refine within_ite ?_ ?_
        · refine within_ite ?_ ?_
          · refine Within.step ?_ (within_startAdd _ _) (by decide)
            exact Within.mono (within_State_modMo _ _ _) (by decide)
          · refine within_ite ?_ ?_
            · exact Within.mono (within_State_modMo _ _ _) (by decide)
            · refine within_ite ?_ ?_
              · refine Within.step ?_ (within_startShed _ _) (by decide)
                exact Within.mono (within_State_modMo _ _ _) (by decide)
              · exact Within.mono (within_State_modMo _ _ _) (by decide)
        · exact Within.mono (within_State_modMo _ _ _) (by decide)

theorem within_judgeExclusion (a0 : RailId) (s : State) : Within [.tiles, .rails] s (judgeExclusion a0 s) := by
  unfold judgeExclusion
  try dsimp only
  refine within_ite ?_ ?_
  · split
    · refine Within.step ?_ (within_State_modTile _ _ _) (by decide)
      exact Within.mono (within_State_modIlv _ _ _) (by decide)
    · exact Within.refl
  · exact Within.refl

theorem within_judgeGlide (a0 : RailId) (a1 : ℤ) (s : State) : Within [.tiles, .rails] s (judgeGlide a0 a1 s) := by
  unfold judgeGlide
  try dsimp only
  refine within_ite ?_ ?_
  · refine within_ite ?_ ?_
    · refine within_ite ?_ ?_
      · exact Within.mono (within_endRotation _ _ _) (by decide)
      · exact Within.mono (within_endRespace _ _) (by decide)
    · exact Within.refl
  · refine within_ite ?_ ?_
    · refine Within.step ?_ (within_startRespace _ _) (by decide)
      split
      · refine Within.step ?_ (within_beginAdd _ _ _) (by decide)
        refine within_ite ?_ ?_
        · refine Within.step ?_ (within_abortGlide _ _) (by decide)
          refine within_ite ?_ ?_
          · refine within_ite ?_ ?_
            · exact Within.mono (within_endRotation _ _ _) (by decide)
            · exact Within.mono (within_endRespace _ _) (by decide)
          · exact Within.refl
        · refine within_ite ?_ ?_
          · refine within_ite ?_ ?_
            · exact Within.mono (within_endRotation _ _ _) (by decide)
            · exact Within.mono (within_endRespace _ _) (by decide)
          · exact Within.refl
      · refine within_ite ?_ ?_
        · refine Within.step ?_ (within_abortGlide _ _) (by decide)
          refine within_ite ?_ ?_
          · refine within_ite ?_ ?_
            · exact Within.mono (within_endRotation _ _ _) (by decide)
            · exact Within.mono (within_endRespace _ _) (by decide)
          · exact Within.refl
        · refine within_ite ?_ ?_
          · refine within_ite ?_ ?_
            · exact Within.mono (within_endRotation _ _ _) (by decide)
            · exact Within.mono (within_endRespace _ _) (by decide)
          · exact Within.refl
    · refine within_ite ?_ ?_
      · refine within_ite ?_ ?_
        · exact Within.mono (within_endRotation _ _ _) (by decide)
        · exact Within.mono (within_endRespace _ _) (by decide)
      · exact Within.refl

theorem within_judgeFreq (a0 : RailId) (s : State) : Within [.rails] s (judgeFreq a0 s) := by
  unfold judgeFreq
  try dsimp only
  split
  · exact Within.refl
  · refine within_ite ?_ ?_
    · refine Within.step ?_ (within_requestSet _ _ _) (by decide)
      exact Within.mono (within_State_modMo _ _ _) (by decide)
    · exact Within.refl

theorem within_refToValley (a0 : RailId) (s : State) : Within [.now, .rails] s (refToValley a0 s) := by
  unfold refToValley
  try dsimp only
  split
  · refine Within.step ?_ (within_followOrigin _ _ _ _ _) (by decide)
    refine Within.step ?_ (within_State_modRail _ _ _) (by decide)
    refine Within.step ?_ (within_State_advance _ _) (by decide)
    refine within_ite ?_ ?_
    · exact Within.refl
    · exact Within.mono (within_refToPeak _ _) (by decide)
  · refine Within.step ?_ (within_State_modRail _ _ _) (by decide)
    refine Within.step ?_ (within_State_advance _ _) (by decide)
    refine within_ite ?_ ?_
    · exact Within.refl
    · exact Within.mono (within_refToPeak _ _) (by decide)

theorem within_formIr (a0 : RailId) (s : State) : Within [.rails] s (formIr a0 s) := by
  unfold formIr
  try dsimp only
  exact Within.mono (within_State_modMo _ _ _) (by decide)

theorem within_judgeLimits (a0 : RailId) (s : State) : Within [.tiles, .rails, .ev, .link, .nvm, .rcd, .draw] s (judgeLimits a0 s) := by
  unfold judgeLimits
  try dsimp only
  refine Within.step ?_ (within_trackR _ _) (by decide)
  refine within_ite ?_ ?_
  · refine Within.step ?_ (within_judgeOcr _ _) (by decide)
    exact Within.mono (within_State_modProt _ _ _) (by decide)
  · refine Within.step ?_ (within_stepThrottle _ _) (by decide)
    refine Within.step ?_ (within_judgeDrop _ _) (by decide)
    refine Within.step ?_ (within_judgeOcr _ _) (by decide)
    exact Within.mono (within_State_modProt _ _ _) (by decide)

theorem within_lastRefValley (a0 : RailId) (s : State) : Within [.now, .tiles, .rails, .ev, .link, .nvm, .rcd, .draw] s (lastRefValley a0 s) := by
  unfold lastRefValley
  try dsimp only
  refine within_ite ?_ ?_
  · refine Within.step ?_ (within_trackR _ _) (by decide)
    refine Within.step ?_ (within_judgeOcr _ _) (by decide)
    refine Within.step ?_ (within_State_modMo _ _ _) (by decide)
    exact Within.mono (within_State_advance _ _) (by decide)
  · exact Within.refl

theorem within_referenceValley (a0 : RailId) (a1 : Ecc) (s : State) : Within [.now, .tiles, .rails, .test, .map, .tel, .ev, .link, .nvm, .rcd, .draw] s (referenceValley a0 a1 s) := by
  unfold referenceValley
  try dsimp only
  refine within_ite ?_ ?_
  · exact Within.mono (within_lastRefValley _ _) (by decide)
  · refine within_ite ?_ ?_
    · refine Within.step ?_ (within_judgeLimits _ _) (by decide)
      refine Within.step ?_ (within_judgeBins _ _ _) (by decide)
      refine Within.step ?_ (within_peakCurr _ _) (by decide)
      refine Within.step ?_ (within_formIr _ _) (by decide)
      refine Within.step ?_ (within_State_modEng _ _ _) (by decide)
      exact Within.mono (within_refToValley _ _) (by decide)
    · refine Within.step ?_ (within_settleChange _ _) (by decide)
      refine Within.step ?_ (within_syncValley _ _) (by decide)
      refine Within.step ?_ (within_judgeFreq _ _) (by decide)
      refine Within.step ?_ (within_judgeRotation _ _ _) (by decide)
      refine Within.step ?_ (within_judgeMoult _ _) (by decide)
      refine Within.step ?_ (within_judgeExclusion _ _) (by decide)
      refine Within.step ?_ (within_judgeGlide _ _ _) (by decide)
      refine Within.step ?_ (within_judgeLimits _ _) (by decide)
      refine Within.step ?_ (within_judgeBins _ _ _) (by decide)
      refine Within.step ?_ (within_peakCurr _ _) (by decide)
      refine Within.step ?_ (within_formIr _ _) (by decide)
      refine Within.step ?_ (within_State_modEng _ _ _) (by decide)
      exact Within.mono (within_refToValley _ _) (by decide)

theorem within_readyTimeout (a0 : TileId) (s : State) : Within [.tiles, .rails, .ev, .link, .rcd] s (readyTimeout a0 s) := by
  unfold readyTimeout
  try dsimp only
  split
  · exact Within.refl
  · refine within_ite ?_ ?_
    · refine Within.step ?_ (within_State_modTile _ _ _) (by decide)
      exact Within.mono (within_leapRemove _ _) (by decide)
    · exact Within.refl

theorem within_startCarriers (a0 : RailId) (s : State) : Within [.tiles, .rails] s (startCarriers a0 s) := by
  unfold startCarriers
  try dsimp only
  refine Within.step ?_ (within_State_modRail _ _ _) (by decide)
  refine Within.trans ?_ (within_foldl (fun _ _ => ?_) _ _)
  · exact Within.mono (within_setOrigin _ _ _) (by decide)
  · exact Within.mono (within_State_modTile _ _ _) (by decide)

theorem within_enterPrepare (a0 : RailId) (a1 : Ecc) (s : State) : Within [.settings, .tiles, .rails, .test, .map, .hk, .ev, .link, .rcd, .draw] s (enterPrepare a0 a1 s) := by
  unfold enterPrepare
  try dsimp only
  refine within_ite ?_ ?_
  · refine Within.trans ?_ (within_foldl (fun _ _ => ?_) _ _)
    · exact Within.mono (within_State_modRail _ _ _) (by decide)
    · exact Within.mono (within_crossCheck _ _) (by decide)
  · refine within_ite ?_ ?_
    · refine Within.step ?_ (within_railToOut _ _ _ _ _) (by decide)
      refine Within.trans ?_ (within_foldl (fun _ _ => ?_) _ _)
      · exact Within.mono (within_State_modRail _ _ _) (by decide)
      · exact Within.mono (within_crossCheck _ _) (by decide)
    · refine within_ite ?_ ?_
      · refine Within.step ?_ (within_askAutozero _ _ _) (by decide)
        refine Within.step ?_ (within_feedforward _ _) (by decide)
        refine Within.step ?_ (within_startCarriers _ _) (by decide)
        refine Within.step ?_ (within_startEntry _ _ _) (by decide)
        refine Within.trans ?_ (within_foldl (fun _ _ => ?_) _ _)
        · exact Within.mono (within_State_modRail _ _ _) (by decide)
        · exact Within.mono (within_crossCheck _ _) (by decide)
      · refine Within.step ?_ (within_feedforward _ _) (by decide)
        refine Within.step ?_ (within_startCarriers _ _) (by decide)
        refine Within.step ?_ (within_startEntry _ _ _) (by decide)
        refine Within.trans ?_ (within_foldl (fun _ _ => ?_) _ _)
        · exact Within.mono (within_State_modRail _ _ _) (by decide)
        · exact Within.mono (within_crossCheck _ _) (by decide)

theorem within_railStart (a0 : RailId) (a1 : Ecc) (s : State) : Within [.settings, .tiles, .rails, .test, .map, .hk, .ev, .link, .rcd, .draw] s (railStart a0 a1 s) := by
  unfold railStart
  try dsimp only
  refine within_ite ?_ ?_
  · exact Within.mono (within_enterPrepare _ _ _) (by decide)
  · exact Within.refl

theorem within_hiccupRetry (a0 : RailId) (a1 : Ecc) (s : State) : Within [.settings, .tiles, .rails, .test, .map, .hk, .ev, .link, .rcd, .draw] s (hiccupRetry a0 a1 s) := by
  unfold hiccupRetry
  try dsimp only
  refine within_ite ?_ ?_
  · exact Within.mono (within_enterPrepare _ _ _) (by decide)
  · exact Within.refl

theorem within_seqDelayExpiry (a0 : RailId) (s : State) : Within [.rails] s (seqDelayExpiry a0 s) := by
  unfold seqDelayExpiry
  try dsimp only
  split
  · exact Within.refl
  · refine within_ite ?_ ?_
    · exact Within.mono (within_State_modSeq _ _ _) (by decide)
    · exact Within.refl

theorem within_softstartEntry (a0 : RailId) (s : State) : Within [.now, .tiles, .rails, .ka] s (softstartEntry a0 s) := by
  unfold softstartEntry
  try dsimp only
  refine within_ite ?_ ?_
  · refine Within.step ?_ (within_lifeInc _ _) (by decide)
    refine Within.step ?_ (within_State_modTilesOf _ _ _) (by decide)
    refine Within.step ?_ (within_setRef _ _ _ _) (by decide)
    refine Within.step ?_ (within_State_modSeq _ _ _) (by decide)
    exact Within.mono (within_State_advance _ _) (by decide)
  · exact Within.refl

theorem within_prebiasWaitTimeout (a0 : RailId) (s : State) : Within [.tiles, .rails, .ev, .link, .rcd] s (prebiasWaitTimeout a0 s) := by
  unfold prebiasWaitTimeout
  try dsimp only
  refine within_ite ?_ ?_
  · refine Within.step ?_ (within_occur _ _ _) (by decide)
    exact Within.mono (within_State_modSeq _ _ _) (by decide)
  · exact Within.refl

theorem within_trackFailure (a0 : RailId) (s : State) : Within [.tiles, .rails, .ev, .link, .rcd] s (trackFailure a0 s) := by
  unfold trackFailure
  try dsimp only
  split
  · exact Within.refl
  · refine within_ite ?_ ?_
    · refine Within.step ?_ (within_occur _ _ _) (by decide)
      exact Within.mono (within_hiccupFault _ _ _) (by decide)
    · exact Within.refl

theorem within_retryClear (a0 : RailId) (s : State) : Within [.rails] s (retryClear a0 s) := by
  unfold retryClear
  try dsimp only
  refine within_ite ?_ ?_
  · exact Within.mono (within_State_modSeq _ _ _) (by decide)
  · exact Within.refl

theorem within_pgoodAssert (a0 : RailId) (s : State) : Within [.rails] s (pgoodAssert a0 s) := by
  unfold pgoodAssert
  try dsimp only
  split
  · exact Within.refl
  · refine within_ite ?_ ?_
    · refine Within.step ?_ (within_State_modSeq _ _ _) (by decide)
      exact Within.mono (within_setPgood _ _ _) (by decide)
    · exact Within.refl

theorem within_stoppingComplete (a0 : RailId) (s : State) : Within [.tiles, .rails, .ev, .link, .rcd] s (stoppingComplete a0 s) := by
  unfold stoppingComplete
  try dsimp only
  refine within_ite ?_ ?_
  · exact Within.mono (within_railToOut _ _ _ _ _) (by decide)
  · exact Within.refl

theorem within_immediateOff (a0 : RailId) (a1 : ℕ) (s : State) : Within [.tiles, .rails, .ev, .link, .rcd] s (immediateOff a0 a1 s) := by
  unfold immediateOff
  try dsimp only
  refine within_ite ?_ ?_
  · exact Within.refl
  · exact Within.mono (within_railToOut _ _ _ _ _) (by decide)

theorem within_lenJudge (a0 : RailId) (a1 : Bool) (s : State) : Within [.tiles, .rails, .ev, .link, .rcd] s (lenJudge a0 a1 s) := by
  unfold lenJudge
  try dsimp only
  refine within_ite ?_ ?_
  · exact Within.refl
  · refine within_ite ?_ ?_
    · exact Within.mono (within_immediateOff _ _ _) (by decide)
    · refine within_ite ?_ ?_
      · exact Within.mono (within_orderlyOff _ _ _ _ (fun e d x => within_occur e d x)) (by decide)
      · exact Within.refl

theorem within_lenChange (a0 : RailId) (a1 : Bool) (s : State) : Within [.tiles, .rails, .ev, .link, .rcd] s (lenChange a0 a1 s) := by
  unfold lenChange
  try dsimp only
  refine within_ite ?_ ?_
  · refine Within.step ?_ (within_lenJudge _ _ _) (by decide)
    exact Within.mono (within_State_modSeq _ _ _) (by decide)
  · exact Within.refl

theorem within_clearRail (a0 : RailId) (s : State) : Within [.settings, .tiles, .rails, .ev, .link, .rcd] s (clearRail a0 s) := by
  unfold clearRail
  try dsimp only
  refine within_ite ?_ ?_
  · refine Within.step ?_ (within_setReq _ _ _) (by decide)
    exact Within.mono (within_railToOut _ _ _ _ _) (by decide)
  · exact Within.refl

theorem within_doReq (a0 : RailId) (a1 : ℕ) (s : State) : Within [.settings, .tiles, .rails, .ev, .link, .rcd] s (doReq a0 a1 s) := by
  unfold doReq
  try dsimp only
  split
  · refine within_ite ?_ ?_
    · refine Within.step ?_ (within_railToOut _ _ _ _ _) (by decide)
      exact Within.mono (within_setReq _ _ _) (by decide)
    · refine Within.step ?_ (within_orderlyOff _ _ _ _ (fun e d x => within_occur e d x)) (by decide)
      exact Within.mono (within_setReq _ _ _) (by decide)
  · refine Within.step ?_ (within_State_modSeq _ _ _) (by decide)
    exact Within.mono (within_setReq _ _ _) (by decide)
  · refine Within.step ?_ (within_immediateOff _ _ _) (by decide)
    exact Within.mono (within_setReq _ _ _) (by decide)

theorem within_writeCmd (a0 : HostId) (a1 : RailId) (a2 : Word) (s : State) : Within [.settings, .tiles, .rails, .ev, .bus, .link, .rcd] s (writeCmd a0 a1 a2 s) := by
  unfold writeCmd
  try dsimp only
  refine within_ite ?_ ?_
  · exact Within.mono (within_refuse _ _) (by decide)
  · refine within_ite ?_ ?_
    · refine within_ite ?_ ?_
      · refine Within.step ?_ (within_clearRail _ _) (by decide)
        refine within_ite ?_ ?_
        · exact Within.mono (within_refuse _ _) (by decide)
        · exact Within.refl
      · refine within_ite ?_ ?_
        · exact Within.mono (within_refuse _ _) (by decide)
        · exact Within.refl
    · refine Within.step ?_ (within_doReq _ _ _) (by decide)
      refine within_ite ?_ ?_
      · refine Within.step ?_ (within_clearRail _ _) (by decide)
        refine within_ite ?_ ?_
        · exact Within.mono (within_refuse _ _) (by decide)
        · exact Within.refl
      · refine within_ite ?_ ?_
        · exact Within.mono (within_refuse _ _) (by decide)
        · exact Within.refl

theorem within_makeRoom (s : State) : Within [.tiles, .rails, .ev, .bus, .link, .jrn, .xm, .rcd] s (makeRoom s) := by
  unfold makeRoom
  try dsimp only
  refine within_ite ?_ ?_
  · exact Within.refl
  · split
    · exact Within.refl
    · refine within_ite ?_ ?_
      · refine Within.step ?_ (within_occur _ _ _) (by decide)
        refine Within.step ?_ (within_State_modHost _ _ _) (by decide)
        refine Within.step ?_ (within_State_modHost _ _ _) (by decide)
        exact Within.mono (within_set_jrn_xm _ _ _) (by decide)
      · refine Within.step ?_ (within_State_modHost _ _ _) (by decide)
        refine Within.step ?_ (within_State_modHost _ _ _) (by decide)
        exact Within.mono (within_set_jrn_xm _ _ _) (by decide)

theorem within_writeEntry (a0 : QueueEntry) (s : State) : Within [.tiles, .rails, .ev, .bus, .link, .jrn, .xm, .rcd, .ka] s (writeEntry a0 s) := by
  unfold writeEntry
  try dsimp only
  refine within_ite ?_ ?_
  · refine Within.step ?_ (within_occur _ _ _) (by decide)
    refine Within.step ?_ (within_set_jrn_ka _ _ _) (by decide)
    exact Within.mono (within_makeRoom _) (by decide)
  · refine Within.step ?_ (within_set_jrn_ka _ _ _) (by decide)
    exact Within.mono (within_makeRoom _) (by decide)

theorem within_journalWrite (s : State) : Within [.tiles, .rails, .ev, .bus, .link, .jrn, .xm, .rcd, .ka] s (journalWrite s) := by
  unfold journalWrite
  try dsimp only
  split
  · exact Within.refl
  · refine within_ite ?_ ?_
    · refine Within.step ?_ (within_writeEntry _ _) (by decide)
      exact Within.mono (within_set_ev _ _) (by decide)
    · exact Within.refl

theorem within_countDbe (s : State) : Within [.test] s (countDbe s) := by
  unfold countDbe
  try dsimp only
  exact Within.mono (within_set_test _ _) (by decide)

theorem within_markRing (a0 : ℕ) (s : State) : Within [.jrn] s (markRing a0 s) := by
  unfold markRing
  try dsimp only
  exact Within.mono (within_set_jrn _ _) (by decide)

theorem within_ringError (a0 : ℕ) (s : State) : Within [.tiles, .rails, .test, .ev, .link, .jrn, .rcd] s (ringError a0 s) := by
  unfold ringError
  try dsimp only
  refine Within.step ?_ (within_occur _ _ _) (by decide)
  refine Within.step ?_ (within_markRing _ _) (by decide)
  exact Within.mono (within_countDbe _) (by decide)

theorem within_ringFixed (s : State) : Within [.test] s (ringFixed s) := by
  unfold ringFixed
  try dsimp only
  exact Within.mono (within_set_test _ _) (by decide)

theorem within_checkRing (a0 : ℕ) (a1 : Ecc) (s : State) : Within [.tiles, .rails, .test, .ev, .link, .jrn, .rcd] s (checkRing a0 a1 s) := by
  unfold checkRing
  try dsimp only
  split
  · exact Within.refl
  · exact Within.mono (within_ringFixed _) (by decide)
  · exact Within.mono (within_ringError _ _) (by decide)

theorem within_loadEntry (a0 : HostId) (s : State) : Within [.bus] s (loadEntry a0 s) := by
  unfold loadEntry
  try dsimp only
  split
  · exact Within.mono (within_State_modHost _ _ _) (by decide)
  · exact Within.mono (within_State_modHost _ _ _) (by decide)

theorem within_popEntry (a0 : HostId) (s : State) : Within [.bus, .jrn] s (popEntry a0 s) := by
  unfold popEntry
  try dsimp only
  split
  · refine within_ite ?_ ?_
    · refine within_ite ?_ ?_
      · refine Within.step ?_ (within_State_modHost _ _ _) (by decide)
        exact Within.mono (within_State_modHost _ _ _) (by decide)
      · refine Within.step ?_ (within_set_jrn _ _) (by decide)
        refine Within.step ?_ (within_State_modHost _ _ _) (by decide)
        exact Within.mono (within_State_modHost _ _ _) (by decide)
    · exact Within.mono (within_State_modHost _ _ _) (by decide)
  · exact Within.mono (within_State_modHost _ _ _) (by decide)

theorem within_moveOldest (a0 : HostId) (s : State) : Within [.bus] s (moveOldest a0 s) := by
  unfold moveOldest
  try dsimp only
  exact Within.mono (within_State_modHost _ _ _) (by decide)

theorem within_moveNewest (a0 : HostId) (s : State) : Within [.bus] s (moveNewest a0 s) := by
  unfold moveNewest
  try dsimp only
  exact Within.mono (within_State_modHost _ _ _) (by decide)

theorem within_pfAssemble (s : State) : Within [.free, .pwr, .ka] s (pfAssemble s) := by
  unfold pfAssemble
  try dsimp only
  refine within_ite ?_ ?_
  · exact Within.mono (within_set_free_pwr_ka _ _ _ _) (by decide)
  · exact Within.refl

theorem within_grantLeave (a0 : DrawRequest) (s : State) : Within [.draw, .ka] s (grantLeave a0 s) := by
  unfold grantLeave
  try dsimp only
  exact Within.mono (within_set_draw_ka _ _ _) (by decide)

theorem within_pauseCharger (s : State) : Within [.draw, .ka] s (pauseCharger s) := by
  unfold pauseCharger
  try dsimp only
  refine Within.step ?_ (within_askLeave _ _) (by decide)
  refine Within.step ?_ (within_set_draw_ka _ _ _) (by decide)
  exact Within.mono (within_releaseLeave _ _) (by decide)

theorem within_grantLoop (a0 : Int) (a1 : List DrawRequest) (a2 : Int) (s : State) : Within [.draw, .ka] s (grantLoop a0 a1 a2 s) := by
  induction a1 generalizing a2 s with
  | nil => exact Within.refl
  | cons r rest ih =>
    unfold grantLoop
    exact within_ite (Within.trans (Within.mono (within_grantLeave _ _) (by decide)) (ih _ _))
      (within_ite (Within.mono (within_grantLeave _ _) (by decide))
        (within_ite (Within.mono (within_pauseCharger _) (by decide)) Within.refl))

theorem within_drawSample (a0 : ℕ) (s : State) : Within [.draw, .ka] s (drawSample a0 s) := by
  unfold drawSample
  try dsimp only
  refine within_ite ?_ ?_
  · refine within_ite ?_ ?_
    · exact Within.mono (within_set_draw _ _) (by decide)
    · refine Within.step ?_ (within_grantLoop _ _ _ _) (by decide)
      exact Within.mono (within_set_draw _ _) (by decide)
  · exact Within.refl

theorem within_leaveWaitLong (a0 : Fin 8) (s : State) : Within [.tiles, .rails, .ev, .link, .rcd, .draw] s (leaveWaitLong a0 s) := by
  unfold leaveWaitLong
  try dsimp only
  refine within_ite ?_ ?_
  · refine Within.step ?_ (within_occur _ _ _) (by decide)
    exact Within.mono (within_set_draw _ _) (by decide)
  · exact Within.refl

theorem within_askBursts (a0 : DrawUser) (a1 : ℕ) (s : State) : Within [.draw] s (askBursts a0 a1 s) := by
  unfold askBursts
  try dsimp only
  exact Within.mono (within_askLeaves _ _ _) (by decide)

theorem within_xmAsk (a0 : Bool) (s : State) : Within [.draw] s (xmAsk a0 s) := by
  unfold xmAsk
  try dsimp only
  refine Within.step ?_ (within_askBursts _ _ _) (by decide)
  refine Within.step ?_ (within_askBursts _ _ _) (by decide)
  refine Within.step ?_ (within_askBursts _ _ _) (by decide)
  exact Within.mono (within_askBursts _ _ _) (by decide)

theorem within_stageBurst (a0 : XBurst) (s : State) : Within [.xm] s (stageBurst a0 s) := by
  unfold stageBurst
  try dsimp only
  exact Within.mono (within_set_xm _ _) (by decide)

theorem within_nextBegins (s : State) : Within [.xm] s (nextBegins s) := by
  unfold nextBegins
  try dsimp only
  exact Within.mono (within_set_xm _ _) (by decide)

theorem within_xmPump (s : State) : Within [.xm] s (xmPump s) := by
  unfold xmPump
  try dsimp only
  split
  · exact Within.refl
  · refine within_ite ?_ ?_
    · refine Within.step ?_ (within_stageBurst _ _) (by decide)
      exact Within.mono (within_set_xm _ _) (by decide)
    · exact Within.refl

theorem within_journalHeadSearch (s : State) : Within [.tiles, .rails, .ev, .link, .xm, .rcd, .draw] s (journalHeadSearch s) := by
  unfold journalHeadSearch
  try dsimp only
  refine within_ite ?_ ?_
  · refine within_ite ?_ ?_
    · split
      · refine Within.step ?_ (within_occur _ _ _) (by decide)
        refine Within.step ?_ (within_set_xm _ _) (by decide)
        exact Within.mono (within_releaseLeave _ _) (by decide)
      · refine Within.step ?_ (within_occur _ _ _) (by decide)
        refine Within.step ?_ (within_set_xm _ _) (by decide)
        exact Within.mono (within_releaseLeave _ _) (by decide)
    · exact Within.mono (within_xmAsk _ _) (by decide)
  · exact Within.refl

theorem within_checkEntries (a0 : List Nat) (a1 : List Ecc) (s : State) : Within [.tiles, .rails, .test, .ev, .link, .jrn, .rcd] s (checkEntries a0 a1 s) := by
  induction a0 generalizing a1 s with
  | nil => exact Within.refl
  | cons no nos ih =>
    cases a1 with
    | nil => exact Within.refl
    | cons e es => exact Within.trans (Within.mono (within_checkRing _ _ _) (by decide)) (ih _ _)

theorem within_journalBurst (a0 : List Ecc) (s : State) : Within [.tiles, .rails, .test, .ev, .link, .jrn, .xm, .rcd, .draw] s (journalBurst a0 s) := by
  unfold journalBurst
  try dsimp only
  refine within_ite ?_ ?_
  · split
    · split
      · refine Within.step ?_ (within_stageBurst _ _) (by decide)
        exact Within.mono (within_checkEntries _ _ _) (by decide)
      · exact Within.mono (within_checkEntries _ _ _) (by decide)
    · refine Within.step ?_ (within_stageBurst _ _) (by decide)
      exact Within.mono (within_set_xm _ _) (by decide)
    · exact Within.mono (within_stageBurst _ _) (by decide)
    · exact Within.refl
  · exact Within.mono (within_xmAsk _ _) (by decide)

theorem within_recFreeze (a0 : ℕ) (a1 : Bool) (s : State) : Within [.tiles, .rails, .ev, .link, .rcd] s (recFreeze a0 a1 s) := by
  unfold recFreeze
  try dsimp only
  refine Within.step ?_ (within_occur _ _ _) (by decide)
  exact Within.mono (within_set_rcd _ _) (by decide)

theorem within_recorderFrame (s : State) : Within [.free, .tiles, .rails, .ev, .link, .rcd] s (recorderFrame s) := by
  unfold recorderFrame
  try dsimp only
  refine within_ite ?_ ?_
  · exact Within.refl
  · split
    · exact Within.mono (within_set_free _ _) (by decide)
    · exact Within.mono (within_set_free_rcd _ _ _) (by decide)
    · refine within_ite ?_ ?_
      · refine within_ite ?_ ?_
        · exact Within.mono (within_set_free _ _) (by decide)
        · refine Within.step ?_ (within_recFreeze _ _ _) (by decide)
          exact Within.mono (within_set_free _ _) (by decide)
      · refine within_ite ?_ ?_
        · exact Within.mono (within_set_free_rcd _ _ _) (by decide)
        · refine Within.step ?_ (within_recFreeze _ _ _) (by decide)
          exact Within.mono (within_set_free_rcd _ _ _) (by decide)
    · refine within_ite ?_ ?_
      · exact Within.mono (within_set_free _ _) (by decide)
      · exact Within.mono (within_set_free_rcd _ _ _) (by decide)

theorem within_recFixed (s : State) : Within [.test] s (recFixed s) := by
  unfold recFixed
  try dsimp only
  exact Within.mono (within_set_test _ _) (by decide)

theorem within_recError (s : State) : Within [.tiles, .rails, .test, .ev, .link, .rcd] s (recError s) := by
  unfold recError
  try dsimp only
  split
  · refine Within.step ?_ (within_recFreeze _ _ _) (by decide)
    refine Within.step ?_ (within_occur _ _ _) (by decide)
    exact Within.mono (within_countDbe _) (by decide)
  · refine Within.step ?_ (within_set_rcd _ _) (by decide)
    refine Within.step ?_ (within_occur _ _ _) (by decide)
    exact Within.mono (within_countDbe _) (by decide)
  · refine Within.step ?_ (within_occur _ _ _) (by decide)
    exact Within.mono (within_countDbe _) (by decide)

theorem within_recClear (s : State) : Within [.xm, .rcd] s (recClear s) := by
  unfold recClear
  try dsimp only
  refine within_ite ?_ ?_
  · refine Within.step ?_ (within_stageBurst _ _) (by decide)
    exact Within.mono (within_set_rcd _ _) (by decide)
  · refine Within.step ?_ (within_stageBurst _ _) (by decide)
    exact Within.mono (within_set_rcd _ _) (by decide)

theorem within_recorderBurst (a0 : Ecc) (s : State) : Within [.tiles, .rails, .test, .ev, .link, .xm, .rcd, .draw] s (recorderBurst a0 s) := by
  unfold recorderBurst
  try dsimp only
  refine within_ite ?_ ?_
  · refine within_ite ?_ ?_
    · exact Within.mono (within_stageBurst _ _) (by decide)
    · refine within_ite ?_ ?_
      · exact Within.mono (within_recClear _) (by decide)
      · split
        · exact Within.mono (within_recError _) (by decide)
        · refine Within.step ?_ (within_stageBurst _ _) (by decide)
          refine Within.step ?_ (within_set_rcd _ _) (by decide)
          refine within_ite ?_ ?_
          · exact Within.mono (within_recFixed _) (by decide)
          · exact Within.refl
  · exact Within.mono (within_xmAsk _ _) (by decide)

theorem within_recDone (s : State) : Within [.tiles, .rails, .ev, .link, .rcd] s (recDone s) := by
  unfold recDone
  try dsimp only
  refine within_ite ?_ ?_
  · refine Within.step ?_ (within_occur _ _ _) (by decide)
    exact Within.mono (within_set_rcd _ _) (by decide)
  · refine Within.step ?_ (within_occur _ _ _) (by decide)
    exact Within.mono (within_set_rcd _ _) (by decide)

theorem within_recCtl (a0 : HostId) (a1 : Word) (s : State) : Within [.tiles, .rails, .ev, .bus, .link, .rcd] s (recCtl a0 a1 s) := by
  unfold recCtl
  try dsimp only
  split
  · refine within_ite ?_ ?_
    · exact Within.mono (within_set_rcd _ _) (by decide)
    · exact Within.refl
  · exact Within.mono (within_hostTrigger _) (by decide)
  · split
    · exact Within.mono (within_set_rcd _ _) (by decide)
    · refine within_ite ?_ ?_
      · exact Within.refl
      · exact Within.mono (within_set_rcd _ _) (by decide)
    · exact Within.refl
  · refine within_ite ?_ ?_
    · exact Within.mono (within_set_rcd _ _) (by decide)
    · exact Within.refl
  · exact Within.mono (within_refuse _ _) (by decide)

theorem within_burstEffect (a0 : XBurst) (s : State) : Within [.tiles, .rails, .ev, .bus, .link, .jrn, .xm, .rcd, .draw] s (burstEffect a0 s) := by
  unfold burstEffect
  try dsimp only
  split
  · refine Within.step ?_ (within_set_jrn_xm _ _ _) (by decide)
    exact Within.mono (within_releaseLeave _ _) (by decide)
  · refine Within.step ?_ (within_set_xm _ _) (by decide)
    exact Within.mono (within_releaseLeave _ _) (by decide)
  · refine within_ite ?_ ?_
    · refine Within.step ?_ (within_set_xm _ _) (by decide)
      exact Within.mono (within_releaseLeave _ _) (by decide)
    · refine Within.step ?_ (within_set_xm _ _) (by decide)
      exact Within.mono (within_releaseLeave _ _) (by decide)
  · refine within_ite ?_ ?_
    · refine Within.step ?_ (within_State_modHost _ _ _) (by decide)
      exact Within.mono (within_releaseLeave _ _) (by decide)
    · exact Within.mono (within_releaseLeave _ _) (by decide)
  · refine within_ite ?_ ?_
    · refine within_ite ?_ ?_
      · refine Within.step ?_ (within_recDone _) (by decide)
        refine Within.step ?_ (within_set_xm _ _) (by decide)
        exact Within.mono (within_releaseLeave _ _) (by decide)
      · refine Within.step ?_ (within_set_xm _ _) (by decide)
        exact Within.mono (within_releaseLeave _ _) (by decide)
    · refine Within.step ?_ (within_set_xm _ _) (by decide)
      exact Within.mono (within_releaseLeave _ _) (by decide)
  · refine Within.step ?_ (within_set_xm _ _) (by decide)
    exact Within.mono (within_releaseLeave _ _) (by decide)
  · refine Within.step ?_ (within_set_xm _ _) (by decide)
    exact Within.mono (within_releaseLeave _ _) (by decide)
  · refine Within.step ?_ (within_set_xm _ _) (by decide)
    exact Within.mono (within_releaseLeave _ _) (by decide)

theorem within_burstCut (s : State) : Within [.free, .xm] s (burstCut s) := by
  unfold burstCut
  try dsimp only
  split
  · exact Within.mono (within_set_free_xm _ _ _) (by decide)
  · refine within_ite ?_ ?_
    · exact Within.mono (within_set_free_xm _ _ _) (by decide)
    · exact Within.mono (within_set_free_xm _ _ _) (by decide)
  · exact Within.mono (within_set_free_xm _ _ _) (by decide)
  · exact Within.mono (within_set_free_xm _ _ _) (by decide)
  · exact Within.mono (within_set_free_xm _ _ _) (by decide)
  · exact Within.mono (within_set_free_xm _ _ _) (by decide)
  · exact Within.mono (within_set_free_xm _ _ _) (by decide)
  · exact Within.refl
  · exact Within.refl

theorem within_xmNoLeave (s : State) : Within [.draw] s (xmNoLeave s) := by
  unfold xmNoLeave
  try dsimp only
  exact Within.mono (within_set_draw _ _) (by decide)

theorem within_xmemStall (s : State) : Within [.free, .tiles, .rails, .ev, .link, .ldr, .xm, .rcd, .draw] s (xmemStall s) := by
  unfold xmemStall
  try dsimp only
  refine within_ite ?_ ?_
  · refine within_ite ?_ ?_
    · refine Within.step ?_ (within_recFreeze _ _ _) (by decide)
      refine Within.step ?_ (within_occur _ _ _) (by decide)
      refine Within.step ?_ (within_set_ldr_xm _ _ _) (by decide)
      refine Within.step ?_ (within_xmNoLeave _) (by decide)
      exact Within.mono (within_burstCut _) (by decide)
    · refine Within.step ?_ (within_occur _ _ _) (by decide)
      refine Within.step ?_ (within_set_ldr_xm _ _ _) (by decide)
      refine Within.step ?_ (within_xmNoLeave _) (by decide)
      exact Within.mono (within_burstCut _) (by decide)
  · exact Within.refl

theorem within_xmemRecovery (s : State) : Within [.tiles, .rails, .ev, .link, .xm, .rcd, .draw] s (xmemRecovery s) := by
  unfold xmemRecovery
  try dsimp only
  refine within_ite ?_ ?_
  · refine Within.step ?_ (within_xmAsk _ _) (by decide)
    refine Within.step ?_ (within_occur _ _ _) (by decide)
    exact Within.mono (within_set_xm _ _) (by decide)
  · exact Within.refl

theorem within_nextCycle (s : State) : Within [.now] s (nextCycle s) := by
  unfold nextCycle
  try dsimp only
  exact Within.mono (within_set_now _ _) (by decide)

theorem within_bootEvent (a0 : ℕ) (a1 : ℕ) (s : State) : Within [.now, .tiles, .rails, .ev, .link, .rcd] s (bootEvent a0 a1 s) := by
  unfold bootEvent
  try dsimp only
  refine Within.step ?_ (within_nextCycle _) (by decide)
  exact Within.mono (within_occur _ _ _) (by decide)

theorem within_lossEvents (a0 : ℕ) (s : State) : Within [.now, .tiles, .rails, .ev, .link, .rcd] s (lossEvents a0 s) := by
  unfold lossEvents
  try dsimp only
  refine Within.trans ?_ (within_foldl (fun _ _ => ?_) _ _)
  · exact Within.refl
  · exact Within.mono (within_bootEvent _ _ _) (by decide)

theorem within_discover (a0 : Sfdp) (s : State) : Within [.now, .tiles, .rails, .ev, .link, .xm, .rcd] s (discover a0 s) := by
  unfold discover
  try dsimp only
  split
  · refine Within.step ?_ (within_occur _ _ _) (by decide)
    exact Within.mono (within_set_xm _ _) (by decide)
  · refine Within.step ?_ (within_occur _ _ _) (by decide)
    exact Within.mono (within_set_xm _ _) (by decide)
  · refine within_ite ?_ ?_
    · refine Within.step ?_ (within_occur _ _ _) (by decide)
      exact Within.mono (within_set_xm _ _) (by decide)
    · refine within_ite ?_ ?_
      · refine Within.step ?_ (within_nextCycle _) (by decide)
        refine Within.step ?_ (within_occur _ _ _) (by decide)
        refine within_ite ?_ ?_
        · refine Within.step ?_ (within_nextCycle _) (by decide)
          refine Within.step ?_ (within_occur _ _ _) (by decide)
          exact Within.mono (within_set_xm _ _) (by decide)
        · exact Within.mono (within_set_xm _ _) (by decide)
      · refine within_ite ?_ ?_
        · refine Within.step ?_ (within_nextCycle _) (by decide)
          refine Within.step ?_ (within_occur _ _ _) (by decide)
          exact Within.mono (within_set_xm _ _) (by decide)
        · exact Within.mono (within_set_xm _ _) (by decide)

theorem within_xmemDiscovery (a0 : Sfdp) (s : State) : Within [.now, .tiles, .rails, .ev, .link, .xm, .rcd, .draw] s (xmemDiscovery a0 s) := by
  unfold xmemDiscovery
  try dsimp only
  refine within_ite ?_ ?_
  · refine Within.step ?_ (within_xmAsk _ _) (by decide)
    exact Within.mono (within_discover _ _) (by decide)
  · exact Within.refl

theorem within_startPrefetch (a0 : HostId) (a1 : ℕ) (s : State) : Within [.bus, .xm, .draw] s (startPrefetch a0 a1 s) := by
  unfold startPrefetch
  try dsimp only
  refine Within.step ?_ (within_xmPump _) (by decide)
  refine Within.step ?_ (within_xmAsk _ _) (by decide)
  refine Within.step ?_ (within_set_xm _ _) (by decide)
  exact Within.mono (within_State_modHost _ _ _) (by decide)

theorem within_xmIdxWrite (a0 : HostId) (a1 : Word) (s : State) : Within [.bus, .xm, .draw] s (xmIdxWrite a0 a1 s) := by
  unfold xmIdxWrite
  try dsimp only
  refine within_ite ?_ ?_
  · exact Within.mono (within_refuse _ _) (by decide)
  · exact Within.mono (within_startPrefetch _ _ _) (by decide)

theorem within_xmAdvance (a0 : HostId) (s : State) : Within [.bus, .xm, .draw] s (xmAdvance a0 s) := by
  unfold xmAdvance
  try dsimp only
  exact Within.mono (within_startPrefetch _ _ _) (by decide)

theorem within_readRecord (a0 : ℕ) (s : State) : Within [.now, .tiles, .rails, .ev, .link, .nvm, .rcd] s (readRecord a0 s) := by
  unfold readRecord
  try dsimp only
  refine within_ite ?_ ?_
  · refine Within.step ?_ (within_nextCycle _) (by decide)
    refine Within.step ?_ (within_occur _ _ _) (by decide)
    refine Within.step ?_ (within_set_nvm _ _) (by decide)
    refine within_ite ?_ ?_
    · refine Within.step ?_ (within_nextCycle _) (by decide)
      refine Within.step ?_ (within_occur _ _ _) (by decide)
      refine Within.step ?_ (within_set_nvm _ _) (by decide)
      refine within_ite ?_ ?_
      · exact Within.mono (within_set_nvm _ _) (by decide)
      · exact Within.refl
    · refine within_ite ?_ ?_
      · exact Within.mono (within_set_nvm _ _) (by decide)
      · exact Within.refl
  · refine within_ite ?_ ?_
    · refine Within.step ?_ (within_nextCycle _) (by decide)
      refine Within.step ?_ (within_occur _ _ _) (by decide)
      refine Within.step ?_ (within_set_nvm _ _) (by decide)
      refine within_ite ?_ ?_
      · exact Within.mono (within_set_nvm _ _) (by decide)
      · exact Within.refl
    · refine within_ite ?_ ?_
      · exact Within.mono (within_set_nvm _ _) (by decide)
      · exact Within.refl

theorem within_State_modCnt (s : State) (a1 : CntId) (a2 : (SpreadCounter → SpreadCounter)) : Within [.nvm] s (State.modCnt s a1 a2) := by
  unfold State.modCnt
  try dsimp only
  exact Within.mono (within_set_nvm _ _) (by decide)

theorem within_counterCommit (a0 : CntId) (s : State) : Within [.nvm, .draw] s (counterCommit a0 s) := by
  unfold counterCommit
  try dsimp only
  refine within_ite ?_ ?_
  · split
    · exact Within.mono (within_nvmRequest _ _) (by decide)
    · exact Within.refl
  · exact Within.refl

theorem within_opScatter (s : State) : Within [.free, .nvm] s (opScatter s) := by
  unfold opScatter
  try dsimp only
  refine within_ite ?_ ?_
  · exact Within.refl
  · exact Within.mono (within_set_free_nvm _ _ _) (by decide)

theorem within_copyInvalid (a0 : ℕ) (s : State) : Within [.nvm] s (copyInvalid a0 s) := by
  unfold copyInvalid
  try dsimp only
  split
  · refine within_ite ?_ ?_
    · exact Within.mono (within_set_nvm _ _) (by decide)
    · exact Within.refl
  · exact Within.refl

theorem within_opCut (s : State) : Within [.free, .nvm] s (opCut s) := by
  unfold opCut
  try dsimp only
  refine within_ite ?_ ?_
  · refine Within.step ?_ (within_copyInvalid _ _) (by decide)
    exact Within.mono (within_opScatter _) (by decide)
  · exact Within.mono (within_opScatter _) (by decide)

theorem within_hostEnds (a0 : Bool) (s : State) : Within [.bus, .nvm] s (hostEnds a0 s) := by
  unfold hostEnds
  try dsimp only
  exact Within.mono (within_set_bus_nvm _ _ _) (by decide)

theorem within_jobStarts (a0 : NvmJob) (s : State) : Within [.nvm, .ka] s (jobStarts a0 s) := by
  unfold jobStarts
  try dsimp only
  split
  · refine Within.step ?_ (within_set_ka _ _) (by decide)
    exact Within.mono (within_State_modCnt _ _ _) (by decide)
  · exact Within.mono (within_State_modCnt _ _ _) (by decide)
  · exact Within.refl

theorem within_chooseSpare (a0 : NvmJob) (s : State) : Within [.tiles, .rails, .ev, .link, .nvm, .rcd] s (chooseSpare a0 s) := by
  unfold chooseSpare
  try dsimp only
  split
  · refine within_ite ?_ ?_
    · split
      · exact Within.mono (within_State_modCnt _ _ _) (by decide)
      · refine within_ite ?_ ?_
        · exact Within.mono (within_State_modCnt _ _ _) (by decide)
        · refine Within.step ?_ (within_occur _ _ _) (by decide)
          refine Within.step ?_ (within_set_nvm _ _) (by decide)
          exact Within.mono (within_State_modCnt _ _ _) (by decide)
    · exact Within.mono (within_State_modCnt _ _ _) (by decide)
  · exact Within.refl

theorem within_nvmOperationStart (s : State) : Within [.tiles, .rails, .ev, .link, .nvm, .rcd, .draw, .ka] s (nvmOperationStart s) := by
  unfold nvmOperationStart
  try dsimp only
  refine within_ite ?_ ?_
  · exact Within.refl
  · split
    · refine Within.step ?_ (within_nvmAsk _) (by decide)
      refine Within.step ?_ (within_releaseLeave _ _) (by decide)
      exact Within.mono (within_releaseLeave _ _) (by decide)
    · split
      · refine Within.step ?_ (within_nvmAsk _) (by decide)
        refine Within.step ?_ (within_releaseLeave _ _) (by decide)
        refine Within.step ?_ (within_releaseLeave _ _) (by decide)
        refine Within.step ?_ (within_dropLeave _ _) (by decide)
        refine Within.step ?_ (within_dropLeave _ _) (by decide)
        refine Within.step ?_ (within_set_nvm _ _) (by decide)
        exact Within.mono (within_chooseSpare _ _) (by decide)
      · refine Within.step ?_ (within_jobStarts _ _) (by decide)
        refine Within.step ?_ (within_set_nvm _ _) (by decide)
        refine Within.step ?_ (within_dropLeave _ _) (by decide)
        refine Within.step ?_ (within_dropLeave _ _) (by decide)
        refine Within.step ?_ (within_set_nvm _ _) (by decide)
        exact Within.mono (within_chooseSpare _ _) (by decide)

theorem within_residuePump (s : State) : Within [.nvm, .draw] s (residuePump s) := by
  unfold residuePump
  try dsimp only
  split
  · exact Within.refl
  · refine within_ite ?_ ?_
    · exact Within.refl
    · exact Within.mono (within_nvmRequest _ _) (by decide)

theorem within_stalePump (s : State) : Within [.nvm, .draw] s (stalePump s) := by
  unfold stalePump
  try dsimp only
  refine within_ite ?_ ?_
  · exact Within.mono (within_nvmRequest _ _) (by decide)
  · exact Within.refl

theorem within_readCopy (a0 : ℕ) (s : State) : Within [.now, .tiles, .rails, .ev, .link, .nvm, .rcd] s (readCopy a0 s) := by
  unfold readCopy
  try dsimp only
  split
  · exact Within.mono (within_readRecord _ _) (by decide)
  · exact Within.refl

theorem within_dropMerged (a0 : ℕ) (s : State) : Within [.nvm] s (dropMerged a0 s) := by
  unfold dropMerged
  try dsimp only
  exact Within.mono (within_set_nvm _ _) (by decide)

theorem within_refreshed (s : State) (a1 : ℕ) : Within [.tiles, .rails, .ev, .link, .nvm, .rcd] s (refreshed s a1) := by
  unfold refreshed
  try dsimp only
  refine Within.step ?_ (within_occur _ _ _) (by decide)
  exact Within.mono (within_set_nvm _ _) (by decide)

theorem within_recordDone (a0 : ℕ) (s : State) : Within [.now, .tiles, .rails, .ev, .link, .nvm, .rcd] s (recordDone a0 s) := by
  unfold recordDone
  try dsimp only
  refine Within.trans ?_ (within_foldl (fun _ _ => ?_) _ _)
  · refine Within.step ?_ (within_dropMerged _ _) (by decide)
    exact Within.mono (within_readRecord _ _) (by decide)
  · exact Within.mono (within_refreshed _ _) (by decide)

theorem within_jobDone (a0 : NvmJob) (s : State) : Within [.now, .tiles, .rails, .ev, .link, .nvm, .rcd, .draw] s (jobDone a0 s) := by
  unfold jobDone
  try dsimp only
  split
  · exact Within.mono (within_recordDone _ _) (by decide)
  · exact Within.mono (within_State_modCnt _ _ _) (by decide)
  · refine Within.step ?_ (within_nvmRequest _ _) (by decide)
    refine Within.step ?_ (within_State_modCnt _ _ _) (by decide)
    exact Within.mono (within_recordDone _ _) (by decide)
  · refine Within.step ?_ (within_nvmRequest _ _) (by decide)
    exact Within.mono (within_State_modCnt _ _ _) (by decide)
  · exact Within.mono (within_State_modCnt _ _ _) (by decide)
  · refine Within.step ?_ (within_nvmRequest _ _) (by decide)
    exact Within.mono (within_State_modCnt _ _ _) (by decide)
  · exact Within.mono (within_State_modCnt _ _ _) (by decide)
  · exact Within.refl
  · refine Within.step ?_ (within_refreshed _ _) (by decide)
    split
    · exact Within.mono (within_recordDone _ _) (by decide)
    · exact Within.mono (within_readCopy _ _) (by decide)
  · exact Within.mono (within_set_nvm _ _) (by decide)
  · exact Within.mono (within_set_nvm _ _) (by decide)
  · exact Within.mono (within_set_nvm _ _) (by decide)
  · exact Within.mono (within_set_nvm _ _) (by decide)
  · exact Within.mono (within_readRecord _ _) (by decide)
  · exact Within.mono (within_readRecord _ _) (by decide)

theorem within_jobFailed (a0 : NvmJob) (s : State) : Within [.now, .tiles, .rails, .ev, .link, .nvm, .rcd] s (jobFailed a0 s) := by
  unfold jobFailed
  try dsimp only
  split
  · refine Within.step ?_ (within_readRecord _ _) (by decide)
    exact Within.mono (within_dropMerged _ _) (by decide)
  · exact Within.mono (within_State_modCnt _ _ _) (by decide)
  · refine Within.step ?_ (within_readRecord _ _) (by decide)
    refine Within.step ?_ (within_State_modCnt _ _ _) (by decide)
    exact Within.mono (within_dropMerged _ _) (by decide)
  · exact Within.mono (within_readRecord _ _) (by decide)
  · exact Within.mono (within_readRecord _ _) (by decide)
  · exact Within.mono (within_set_nvm _ _) (by decide)
  · refine Within.step ?_ (within_readCopy _ _) (by decide)
    split
    · exact Within.mono (within_dropMerged _ _) (by decide)
    · exact Within.refl
  · exact Within.refl

theorem within_nvmOperationDone (a0 : Bool) (s : State) : Within [.now, .free, .tiles, .rails, .pwr, .ev, .bus, .link, .nvm, .rcd, .draw, .ka] s (nvmOperationDone a0 s) := by
  unfold nvmOperationDone
  try dsimp only
  split
  · exact Within.refl
  · refine within_ite ?_ ?_
    · exact Within.mono (within_set_nvm _ _) (by decide)
    · refine Within.step ?_ (within_pfAssemble _) (by decide)
      refine Within.step ?_ (within_nvmAsk _) (by decide)
      refine Within.step ?_ (within_stalePump _) (by decide)
      refine Within.step ?_ (within_residuePump _) (by decide)
      refine within_ite ?_ ?_
      · refine Within.step ?_ (within_jobDone _ _) (by decide)
        refine within_ite ?_ ?_
        · refine Within.step ?_ (within_hostEnds _ _) (by decide)
          refine Within.step ?_ (within_set_nvm _ _) (by decide)
          refine Within.step ?_ (within_releaseLeave _ _) (by decide)
          exact Within.mono (within_releaseLeave _ _) (by decide)
        · refine Within.step ?_ (within_set_nvm _ _) (by decide)
          refine Within.step ?_ (within_releaseLeave _ _) (by decide)
          exact Within.mono (within_releaseLeave _ _) (by decide)
      · refine Within.step ?_ (within_jobFailed _ _) (by decide)
        refine Within.step ?_ (within_occur _ _ _) (by decide)
        refine Within.step ?_ (within_set_nvm _ _) (by decide)
        refine within_ite ?_ ?_
        · refine Within.step ?_ (within_hostEnds _ _) (by decide)
          refine Within.step ?_ (within_set_nvm _ _) (by decide)
          refine Within.step ?_ (within_opScatter _) (by decide)
          refine Within.step ?_ (within_releaseLeave _ _) (by decide)
          exact Within.mono (within_releaseLeave _ _) (by decide)
        · refine Within.step ?_ (within_set_nvm _ _) (by decide)
          refine Within.step ?_ (within_opScatter _) (by decide)
          refine Within.step ?_ (within_releaseLeave _ _) (by decide)
          exact Within.mono (within_releaseLeave _ _) (by decide)

theorem within_recordRetry (a0 : Fin 81) (s : State) : Within [.nvm, .draw] s (recordRetry a0 s) := by
  unfold recordRetry
  try dsimp only
  split
  · exact Within.refl
  · refine Within.step ?_ (within_nvmRequest _ _) (by decide)
    exact Within.mono (within_set_nvm _ _) (by decide)

theorem within_marginRead (a0 : Bool) (s : State) : Within [.tiles, .rails, .ev, .link, .nvm, .rcd, .draw] s (marginRead a0 s) := by
  unfold marginRead
  try dsimp only
  refine within_ite ?_ ?_
  · refine within_ite ?_ ?_
    · exact Within.mono (within_set_nvm _ _) (by decide)
    · refine within_ite ?_ ?_
      · refine Within.step ?_ (within_nvmRequest _ _) (by decide)
        exact Within.mono (within_set_nvm _ _) (by decide)
      · refine within_ite ?_ ?_
        · refine Within.step ?_ (within_occur _ _ _) (by decide)
          exact Within.mono (within_set_nvm _ _) (by decide)
        · exact Within.mono (within_set_nvm _ _) (by decide)
  · exact Within.refl

theorem within_nvmFull (s : State) : Within [.nvm] s (nvmFull s) := by
  unfold nvmFull
  try dsimp only
  exact Within.mono (within_set_nvm _ _) (by decide)

theorem within_nvmRefuse (a0 : HostId) (a1 : ℕ) (s : State) : Within [.bus, .nvm] s (nvmRefuse a0 a1 s) := by
  unfold nvmRefuse
  try dsimp only
  refine Within.step ?_ (within_refuse _ _) (by decide)
  exact Within.mono (within_set_nvm _ _) (by decide)

theorem within_flushCounters (s : State) : Within [.nvm, .draw] s (flushCounters s) := by
  unfold flushCounters
  try dsimp only
  refine Within.trans ?_ (within_foldl (fun _ _ => ?_) _ _)
  · exact Within.refl
  · refine within_ite ?_ ?_
    · refine Within.step ?_ (within_counterCommit _ _) (by decide)
      exact Within.mono (within_State_modCnt _ _ _) (by decide)
    · exact Within.refl

theorem within_nvmCmd (a0 : HostId) (a1 : ℕ) (a2 : ℕ) (s : State) : Within [.ev, .bus, .nvm, .draw] s (nvmCmd a0 a1 a2 s) := by
  unfold nvmCmd
  try dsimp only
  refine within_ite ?_ ?_
  · exact Within.mono (within_refuse _ _) (by decide)
  · refine within_ite ?_ ?_
    · exact Within.mono (within_nvmRefuse _ _ _) (by decide)
    · refine within_ite ?_ ?_
      · refine Within.step ?_ (within_nvmFull _) (by decide)
        exact Within.mono (within_nvmRefuse _ _ _) (by decide)
      · refine within_ite ?_ ?_
        · exact Within.mono (within_nvmRefuse _ _ _) (by decide)
        · refine within_ite ?_ ?_
          · exact Within.mono (within_nvmRefuse _ _ _) (by decide)
          · refine within_ite ?_ ?_
            · exact Within.mono (within_nvmRefuse _ _ _) (by decide)
            · split
              · refine within_ite ?_ ?_
                · refine Within.step ?_ (within_nvmAsk _) (by decide)
                  refine Within.step ?_ (within_set_bus_nvm _ _ _) (by decide)
                  exact Within.mono (within_recordEntry _ _ _ _) (by decide)
                · exact Within.mono (within_nvmRefuse _ _ _) (by decide)
              · refine Within.step ?_ (within_nvmAsk _) (by decide)
                refine Within.step ?_ (within_set_bus_nvm _ _ _) (by decide)
                exact Within.mono (within_recordEntry _ _ _ _) (by decide)
              · refine Within.step ?_ (within_nvmAsk _) (by decide)
                refine Within.step ?_ (within_set_bus_nvm _ _ _) (by decide)
                exact Within.mono (within_recordEntry _ _ _ _) (by decide)
              · refine Within.step ?_ (within_flushCounters _) (by decide)
                refine Within.step ?_ (within_set_nvm _ _) (by decide)
                exact Within.mono (within_recordEntry _ _ _ _) (by decide)

theorem within_nvmIdxWrite (a0 : HostId) (a1 : Word) (s : State) : Within [.bus] s (nvmIdxWrite a0 a1 s) := by
  unfold nvmIdxWrite
  try dsimp only
  refine within_ite ?_ ?_
  · exact Within.mono (within_refuse _ _) (by decide)
  · exact Within.mono (within_State_modHost _ _ _) (by decide)

theorem within_nvmAdvance (a0 : HostId) (s : State) : Within [.bus] s (nvmAdvance a0 s) := by
  unfold nvmAdvance
  try dsimp only
  exact Within.mono (within_State_modHost _ _ _) (by decide)

theorem within_nvmDataWrite (a0 : HostId) (a1 : Word) (s : State) : Within [.bus, .nvm] s (nvmDataWrite a0 a1 s) := by
  unfold nvmDataWrite
  try dsimp only
  refine within_ite ?_ ?_
  · refine Within.step ?_ (within_State_modHost _ _ _) (by decide)
    exact Within.mono (within_set_nvm _ _) (by decide)
  · exact Within.mono (within_refuse _ _) (by decide)

theorem within_writeResidue (s : State) : Within [.nvm, .draw, .ka] s (writeResidue s) := by
  unfold writeResidue
  try dsimp only
  refine Within.step ?_ (within_residuePump _) (by decide)
  exact Within.mono (within_set_nvm_ka _ _ _) (by decide)

theorem within_recoverCounter (s : State) (a1 : CntId) : Within [.now, .tiles, .rails, .ev, .link, .nvm, .rcd, .draw] s (recoverCounter s a1) := by
  unfold recoverCounter
  try dsimp only
  refine within_ite ?_ ?_
  · refine Within.step ?_ (within_State_modCnt _ _ _) (by decide)
    refine within_ite ?_ ?_
    · refine Within.step ?_ (within_nvmRequest _ _) (by decide)
      refine Within.step ?_ (within_nextCycle _) (by decide)
      refine Within.step ?_ (within_occur _ _ _) (by decide)
      refine Within.step ?_ (within_State_modCnt _ _ _) (by decide)
      exact Within.mono (within_readRecord _ _) (by decide)
    · exact Within.mono (within_readRecord _ _) (by decide)
  · refine within_ite ?_ ?_
    · split
      · refine Within.step ?_ (within_nvmRequest _ _) (by decide)
        refine Within.step ?_ (within_nextCycle _) (by decide)
        refine Within.step ?_ (within_occur _ _ _) (by decide)
        refine Within.step ?_ (within_State_modCnt _ _ _) (by decide)
        refine within_ite ?_ ?_
        · refine Within.step ?_ (within_nvmRequest _ _) (by decide)
          refine Within.step ?_ (within_nextCycle _) (by decide)
          refine Within.step ?_ (within_occur _ _ _) (by decide)
          refine Within.step ?_ (within_State_modCnt _ _ _) (by decide)
          exact Within.mono (within_readRecord _ _) (by decide)
        · exact Within.mono (within_readRecord _ _) (by decide)
      · refine Within.step ?_ (within_nextCycle _) (by decide)
        refine Within.step ?_ (within_occur _ _ _) (by decide)
        refine Within.step ?_ (within_State_modCnt _ _ _) (by decide)
        refine within_ite ?_ ?_
        · refine Within.step ?_ (within_nvmRequest _ _) (by decide)
          refine Within.step ?_ (within_nextCycle _) (by decide)
          refine Within.step ?_ (within_occur _ _ _) (by decide)
          refine Within.step ?_ (within_State_modCnt _ _ _) (by decide)
          exact Within.mono (within_readRecord _ _) (by decide)
        · exact Within.mono (within_readRecord _ _) (by decide)
    · refine within_ite ?_ ?_
      · split
        · refine Within.step ?_ (within_nvmRequest _ _) (by decide)
          refine Within.step ?_ (within_nextCycle _) (by decide)
          refine Within.step ?_ (within_occur _ _ _) (by decide)
          refine Within.step ?_ (within_State_modCnt _ _ _) (by decide)
          refine within_ite ?_ ?_
          · refine Within.step ?_ (within_nvmRequest _ _) (by decide)
            refine Within.step ?_ (within_nextCycle _) (by decide)
            refine Within.step ?_ (within_occur _ _ _) (by decide)
            refine Within.step ?_ (within_State_modCnt _ _ _) (by decide)
            exact Within.mono (within_readRecord _ _) (by decide)
          · exact Within.mono (within_readRecord _ _) (by decide)
        · refine Within.step ?_ (within_nextCycle _) (by decide)
          refine Within.step ?_ (within_occur _ _ _) (by decide)
          refine Within.step ?_ (within_State_modCnt _ _ _) (by decide)
          refine within_ite ?_ ?_
          · refine Within.step ?_ (within_nvmRequest _ _) (by decide)
            refine Within.step ?_ (within_nextCycle _) (by decide)
            refine Within.step ?_ (within_occur _ _ _) (by decide)
            refine Within.step ?_ (within_State_modCnt _ _ _) (by decide)
            exact Within.mono (within_readRecord _ _) (by decide)
          · exact Within.mono (within_readRecord _ _) (by decide)
      · refine within_ite ?_ ?_
        · refine Within.step ?_ (within_nvmRequest _ _) (by decide)
          refine Within.step ?_ (within_nextCycle _) (by decide)
          refine Within.step ?_ (within_occur _ _ _) (by decide)
          refine Within.step ?_ (within_State_modCnt _ _ _) (by decide)
          refine within_ite ?_ ?_
          · refine Within.step ?_ (within_nvmRequest _ _) (by decide)
            refine Within.step ?_ (within_nextCycle _) (by decide)
            refine Within.step ?_ (within_occur _ _ _) (by decide)
            refine Within.step ?_ (within_State_modCnt _ _ _) (by decide)
            exact Within.mono (within_readRecord _ _) (by decide)
          · exact Within.mono (within_readRecord _ _) (by decide)
        · refine Within.step ?_ (within_nvmRequest _ _) (by decide)
          refine Within.step ?_ (within_nextCycle _) (by decide)
          refine Within.step ?_ (within_occur _ _ _) (by decide)
          refine Within.step ?_ (within_State_modCnt _ _ _) (by decide)
          refine within_ite ?_ ?_
          · refine Within.step ?_ (within_nvmRequest _ _) (by decide)
            refine Within.step ?_ (within_nextCycle _) (by decide)
            refine Within.step ?_ (within_occur _ _ _) (by decide)
            refine Within.step ?_ (within_State_modCnt _ _ _) (by decide)
            exact Within.mono (within_readRecord _ _) (by decide)
          · exact Within.mono (within_readRecord _ _) (by decide)

theorem within_recoverResidue (a0 : Bool) (s : State) : Within [.now, .tiles, .rails, .ev, .link, .nvm, .rcd, .draw, .ka] s (recoverResidue a0 s) := by
  unfold recoverResidue
  try dsimp only
  refine within_ite ?_ ?_
  · refine Within.step ?_ (within_stalePump _) (by decide)
    exact Within.mono (within_set_nvm_ka _ _ _) (by decide)
  · refine within_ite ?_ ?_
    · refine Within.step ?_ (within_stalePump _) (by decide)
      refine Within.step ?_ (within_set_nvm _ _) (by decide)
      refine within_ite ?_ ?_
      · exact Within.refl
      · refine Within.step ?_ (within_nextCycle _) (by decide)
        refine Within.step ?_ (within_occur _ _ _) (by decide)
        exact Within.mono (within_set_nvm_ka _ _ _) (by decide)
    · refine within_ite ?_ ?_
      · exact Within.refl
      · refine Within.step ?_ (within_nextCycle _) (by decide)
        refine Within.step ?_ (within_occur _ _ _) (by decide)
        exact Within.mono (within_set_nvm_ka _ _ _) (by decide)

theorem within_enterFaultPage (s : State) (a1 : ℕ) : Within [.now, .tiles, .rails, .pwr, .ev, .link, .nvm, .rcd, .draw] s (enterFaultPage s a1) := by
  unfold enterFaultPage
  try dsimp only
  refine within_ite ?_ ?_
  · exact Within.refl
  · refine Within.step ?_ (within_nvmRequest _ _) (by decide)
    refine Within.step ?_ (within_nextCycle _) (by decide)
    refine within_ite ?_ ?_
    · refine Within.step ?_ (within_occur _ _ _) (by decide)
      refine Within.step ?_ (within_set_pwr _ _) (by decide)
      refine Within.step ?_ (within_enqueue _ _) (by decide)
      refine Within.step ?_ (within_enqueue _ _) (by decide)
      exact Within.mono (within_enqueue _ _) (by decide)
    · refine Within.step ?_ (within_occur _ _ _) (by decide)
      refine Within.step ?_ (within_enqueue _ _) (by decide)
      refine Within.step ?_ (within_enqueue _ _) (by decide)
      exact Within.mono (within_enqueue _ _) (by decide)

theorem within_recoverFaultPages (s : State) : Within [.now, .tiles, .rails, .pwr, .ev, .link, .nvm, .rcd, .draw, .ka] s (recoverFaultPages s) := by
  unfold recoverFaultPages
  try dsimp only
  refine within_ite ?_ ?_
  · refine Within.step ?_ (within_nextCycle _) (by decide)
    refine Within.step ?_ (within_occur _ _ _) (by decide)
    refine Within.step ?_ (within_set_ka _ _) (by decide)
    refine within_ite ?_ ?_
    · refine Within.step ?_ (within_enterFaultPage _ _) (by decide)
      exact Within.mono (within_enterFaultPage _ _) (by decide)
    · refine Within.step ?_ (within_enterFaultPage _ _) (by decide)
      exact Within.mono (within_enterFaultPage _ _) (by decide)
  · refine within_ite ?_ ?_
    · refine Within.step ?_ (within_enterFaultPage _ _) (by decide)
      exact Within.mono (within_enterFaultPage _ _) (by decide)
    · refine Within.step ?_ (within_enterFaultPage _ _) (by decide)
      exact Within.mono (within_enterFaultPage _ _) (by decide)

theorem within_loadImage (a0 : ImageData) (s : State) : Within [.settings, .coef, .tempTab, .tiles, .map, .ldr] s (loadImage a0 s) := by
  unfold loadImage
  try dsimp only
  exact Within.mono (within_set_settings_coef_tempTab_tiles_map_ldr _ _ _ _ _ _ _) (by decide)

theorem within_replEnds (a0 : ReplState) (a1 : ℕ) (a2 : Bool) (s : State) : Within [.tiles, .rails, .ev, .link, .ldr, .rcd] s (replEnds a0 a1 a2 s) := by
  unfold replEnds
  try dsimp only
  refine Within.step ?_ (within_occur _ _ _) (by decide)
  exact Within.mono (within_set_ldr _ _) (by decide)

theorem within_replAbort (s : State) : Within [.tiles, .rails, .ev, .link, .ldr, .rcd] s (replAbort s) := by
  unfold replAbort
  try dsimp only
  refine within_ite ?_ ?_
  · exact Within.mono (within_replEnds _ _ _ _) (by decide)
  · exact Within.refl

theorem within_endArm (a0 : ℕ) (s : State) : Within [.tiles, .rails, .ev, .link, .ldr, .rcd, .ka] s (endArm a0 s) := by
  unfold endArm
  try dsimp only
  refine within_ite ?_ ?_
  · refine Within.step ?_ (within_replAbort _) (by decide)
    refine Within.step ?_ (within_occur _ _ _) (by decide)
    exact Within.mono (within_set_ka _ _) (by decide)
  · exact Within.refl

theorem within_replBegin (a0 : HostId) (a1 : ℕ) (a2 : Bool) (s : State) : Within [.bus, .ldr] s (replBegin a0 a1 a2 s) := by
  unfold replBegin
  try dsimp only
  refine within_ite ?_ ?_
  · exact Within.mono (within_refuse _ _) (by decide)
  · refine within_ite ?_ ?_
    · refine Within.step ?_ (within_refuse _ _) (by decide)
      exact Within.mono (within_set_ldr _ _) (by decide)
    · refine within_ite ?_ ?_
      · refine Within.step ?_ (within_refuse _ _) (by decide)
        exact Within.mono (within_set_ldr _ _) (by decide)
      · exact Within.mono (within_set_ldr _ _) (by decide)

theorem within_replCommit (a0 : HostId) (s : State) : Within [.bus, .ldr] s (replCommit a0 s) := by
  unfold replCommit
  try dsimp only
  refine within_ite ?_ ?_
  · exact Within.mono (within_refuse _ _) (by decide)
  · refine within_ite ?_ ?_
    · refine Within.step ?_ (within_refuse _ _) (by decide)
      exact Within.mono (within_set_ldr _ _) (by decide)
    · exact Within.mono (within_set_ldr _ _) (by decide)

theorem within_replAbortCmd (a0 : HostId) (s : State) : Within [.tiles, .rails, .ev, .bus, .link, .ldr, .rcd] s (replAbortCmd a0 s) := by
  unfold replAbortCmd
  try dsimp only
  refine within_ite ?_ ?_
  · exact Within.mono (within_replAbort _) (by decide)
  · exact Within.mono (within_refuse _ _) (by decide)

theorem within_imgCtlWrite (a0 : HostId) (a1 : Word) (a2 : Bool) (s : State) : Within [.tiles, .rails, .ev, .bus, .link, .ldr, .rcd] s (imgCtlWrite a0 a1 a2 s) := by
  unfold imgCtlWrite
  try dsimp only
  refine within_ite ?_ ?_
  · exact Within.mono (within_refuse _ _) (by decide)
  · split
    · exact Within.mono (within_replBegin _ _ _ _) (by decide)
    · exact Within.mono (within_replCommit _ _) (by decide)
    · exact Within.mono (within_replAbortCmd _ _) (by decide)
    · exact Within.mono (within_refuse _ _) (by decide)

theorem within_replHeader (s : State) : Within [.tiles, .rails, .ev, .link, .ldr, .rcd] s (replHeader s) := by
  unfold replHeader
  try dsimp only
  refine within_ite ?_ ?_
  · exact Within.refl
  · exact Within.mono (within_replEnds _ _ _ _) (by decide)

theorem within_imgData (a0 : HostId) (a1 : Word) (s : State) : Within [.tiles, .rails, .ev, .bus, .link, .ldr, .rcd] s (imgData a0 a1 s) := by
  unfold imgData
  try dsimp only
  refine within_ite ?_ ?_
  · exact Within.mono (within_refuse _ _) (by decide)
  · refine within_ite ?_ ?_
    · refine Within.step ?_ (within_replHeader _) (by decide)
      exact Within.mono (within_set_ldr _ _) (by decide)
    · exact Within.mono (within_set_ldr _ _) (by decide)

theorem within_imgTaken (a0 : ImgWrite) (s : State) : Within [.ldr] s (imgTaken a0 s) := by
  unfold imgTaken
  try dsimp only
  split
  · exact Within.mono (within_set_ldr _ _) (by decide)
  · exact Within.mono (within_set_ldr _ _) (by decide)
  · exact Within.refl

theorem within_imgDone (a0 : ImgWrite) (s : State) : Within [.ldr] s (imgDone a0 s) := by
  unfold imgDone
  try dsimp only
  split
  · exact Within.mono (within_set_ldr _ _) (by decide)
  · exact Within.mono (within_set_ldr _ _) (by decide)
  · exact Within.refl
  · refine within_ite ?_ ?_
    · exact Within.mono (within_set_ldr _ _) (by decide)
    · exact Within.refl

theorem within_busLosses (a0 : ℕ) (s : State) : Within [.now, .tiles, .rails, .ev, .link, .ldr, .rcd] s (busLosses a0 s) := by
  unfold busLosses
  try dsimp only
  refine Within.step ?_ (within_lossEvents _ _) (by decide)
  exact Within.mono (within_set_ldr _ _) (by decide)

theorem within_busStuck (a0 : EepromAnswer) (s : State) : Within [.now, .tiles, .rails, .ev, .link, .rcd] s (busStuck a0 s) := by
  unfold busStuck
  try dsimp only
  split
  · exact Within.mono (within_bootEvent _ _ _) (by decide)
  · exact Within.refl

theorem within_eepromPageWrite (a0 : EepromAnswer) (a1 : ℕ) (s : State) : Within [.now, .free, .eeprom, .tiles, .rails, .ev, .link, .ldr, .rcd] s (eepromPageWrite a0 a1 s) := by
  unfold eepromPageWrite
  try dsimp only
  refine within_ite ?_ ?_
  · exact Within.refl
  · split
    · exact Within.refl
    · refine within_ite ?_ ?_
      · refine Within.step ?_ (within_imgDone _ _) (by decide)
        refine Within.step ?_ (within_imgTaken _ _) (by decide)
        refine Within.step ?_ (within_set_eeprom _ _) (by decide)
        exact Within.mono (within_busLosses _ _) (by decide)
      · refine within_ite ?_ ?_
        · refine Within.step ?_ (within_replEnds _ _ _ _) (by decide)
          refine Within.step ?_ (within_busStuck _ _) (by decide)
          refine Within.step ?_ (within_set_free_eeprom_ldr _ _ _ _) (by decide)
          exact Within.mono (within_busLosses _ _) (by decide)
        · refine Within.step ?_ (within_busStuck _ _) (by decide)
          refine Within.step ?_ (within_set_free_eeprom_ldr _ _ _ _) (by decide)
          exact Within.mono (within_busLosses _ _) (by decide)

theorem within_imgPump (s : State) : Within [.ldr, .xm] s (imgPump s) := by
  unfold imgPump
  try dsimp only
  refine within_ite ?_ ?_
  · split
    · exact Within.refl
    · refine Within.step ?_ (within_imgTaken _ _) (by decide)
      exact Within.mono (within_stageBurst _ _) (by decide)
  · exact Within.refl

theorem within_imgBurstDone (a0 : XBurst) (s : State) : Within [.ldr] s (imgBurstDone a0 s) := by
  unfold imgBurstDone
  try dsimp only
  split
  · split
    · refine within_ite ?_ ?_
      · exact Within.mono (within_imgDone _ _) (by decide)
      · exact Within.refl
    · exact Within.refl
  · refine within_ite ?_ ?_
    · exact Within.refl
    · refine within_ite ?_ ?_
      · exact Within.mono (within_imgDone _ _) (by decide)
      · refine within_ite ?_ ?_
        · exact Within.mono (within_imgDone _ _) (by decide)
        · exact Within.refl
  · exact Within.refl

theorem within_xmemBurstDone (s : State) : Within [.tiles, .rails, .ev, .bus, .link, .ldr, .jrn, .xm, .rcd, .draw] s (xmemBurstDone s) := by
  unfold xmemBurstDone
  try dsimp only
  refine within_ite ?_ ?_
  · split
    · exact Within.refl
    · refine Within.step ?_ (within_xmAsk _ _) (by decide)
      refine Within.step ?_ (within_imgPump _) (by decide)
      refine Within.step ?_ (within_xmPump _) (by decide)
      refine Within.step ?_ (within_nextBegins _) (by decide)
      refine Within.step ?_ (within_imgBurstDone _ _) (by decide)
      refine Within.step ?_ (within_burstEffect _ _) (by decide)
      exact Within.mono (within_set_xm _ _) (by decide)
  · exact Within.refl

theorem within_drawArbiterSample (a0 : ℕ) (s : State) : Within [.ldr, .xm, .draw, .ka] s (drawArbiterSample a0 s) := by
  unfold drawArbiterSample
  try dsimp only
  refine Within.step ?_ (within_imgPump _) (by decide)
  refine Within.step ?_ (within_xmPump _) (by decide)
  refine Within.step ?_ (within_drawSample _ _) (by decide)
  refine within_ite ?_ ?_
  · exact Within.mono (within_xmAsk _ _) (by decide)
  · exact Within.refl

theorem within_replacementCheckDone (a0 : EepromAnswer) (a1 : ℕ) (s : State) : Within [.now, .tiles, .rails, .ev, .link, .ldr, .rcd] s (replacementCheckDone a0 a1 s) := by
  unfold replacementCheckDone
  try dsimp only
  refine within_ite ?_ ?_
  · split
    · refine Within.step ?_ (within_occur _ _ _) (by decide)
      refine Within.step ?_ (within_set_ldr _ _) (by decide)
      refine within_ite ?_ ?_
      · exact Within.refl
      · refine Within.step ?_ (within_busStuck _ _) (by decide)
        exact Within.mono (within_busLosses _ _) (by decide)
    · refine Within.step ?_ (within_replEnds _ _ _ _) (by decide)
      refine within_ite ?_ ?_
      · exact Within.refl
      · refine Within.step ?_ (within_busStuck _ _) (by decide)
        exact Within.mono (within_busLosses _ _) (by decide)
  · exact Within.refl

theorem within_snapshotCut (s : State) : Within [.free, .nvm] s (snapshotCut s) := by
  unfold snapshotCut
  try dsimp only
  refine within_ite ?_ ?_
  · exact Within.mono (within_set_free_nvm _ _ _) (by decide)
  · exact Within.refl

theorem within_snapshotReset (a0 : ℕ) (s : State) : Within [.free, .pwr, .nvm, .ka] s (snapshotReset a0 s) := by
  unfold snapshotReset
  try dsimp only
  refine within_ite ?_ ?_
  · exact Within.mono (within_opCut _) (by decide)
  · refine within_ite ?_ ?_
    · refine within_ite ?_ ?_
      · exact Within.mono (within_opCut _) (by decide)
      · exact Within.mono (within_snapshotCut _) (by decide)
    · refine Within.step ?_ (within_set_nvm _ _) (by decide)
      refine Within.step ?_ (within_pfAssemble _) (by decide)
      refine within_ite ?_ ?_
      · exact Within.mono (within_set_nvm _ _) (by decide)
      · exact Within.refl

theorem within_clearDevice (a0 : Phase) (s : State) : Within [.settings, .coef, .tempTab, .tiles, .rails, .pwr, .test, .map, .hk, .tel, .ev, .bus, .link, .ldr, .nvm, .jrn, .xm, .rcd, .draw, .sync] s (clearDevice a0 s) := by
  unfold clearDevice
  try dsimp only
  exact Within.mono (within_set_settings_coef_tempTab_tiles_rails_pwr_test_map_hk_tel_ev_bus_link_ldr_nvm_jrn_xm_rcd_draw_sync _ _ _ _ _ _ _ _ _ _ _ _ _ _ _ _ _ _ _ _ _) (by decide)

theorem within_inBrumation (s : State) : Within [.settings, .coef, .tempTab, .tiles, .rails, .pwr, .test, .map, .hk, .tel, .ev, .bus, .link, .ldr, .nvm, .jrn, .xm, .rcd, .draw, .sync] s (inBrumation s) := by
  unfold inBrumation
  try dsimp only
  refine Within.step ?_ (within_clearDevice _ _) (by decide)
  exact Within.mono (within_set_pwr _ _) (by decide)

theorem within_resetDevice (a0 : ℕ) (a1 : ℕ) (s : State) : Within [.free, .settings, .coef, .tempTab, .tiles, .rails, .pwr, .test, .map, .hk, .tel, .ev, .bus, .link, .ldr, .nvm, .jrn, .xm, .rcd, .draw, .ka, .sync] s (resetDevice a0 a1 s) := by
  unfold resetDevice
  try dsimp only
  refine within_ite ?_ ?_
  · refine Within.step ?_ (within_inBrumation _) (by decide)
    refine Within.step ?_ (within_snapshotReset _ _) (by decide)
    refine Within.step ?_ (within_burstCut _) (by decide)
    exact Within.mono (within_runSettle _) (by decide)
  · refine Within.step ?_ (within_set_pwr _ _) (by decide)
    refine Within.step ?_ (within_clearDevice _ _) (by decide)
    refine Within.step ?_ (within_set_ka _ _) (by decide)
    refine Within.step ?_ (within_snapshotReset _ _) (by decide)
    refine Within.step ?_ (within_burstCut _) (by decide)
    exact Within.mono (within_runSettle _) (by decide)

theorem within_monitorReset (a0 : ℕ) (a1 : ℕ) (s : State) : Within [.free, .settings, .coef, .tempTab, .tiles, .rails, .pwr, .test, .map, .hk, .tel, .ev, .bus, .link, .ldr, .nvm, .jrn, .xm, .rcd, .draw, .ka, .sync] s (monitorReset a0 a1 s) := by
  unfold monitorReset
  try dsimp only
  refine within_ite ?_ ?_
  · exact Within.mono (within_resetDevice _ _ _) (by decide)
  · exact Within.refl

theorem within_vsupReset (a0 : ℕ) (s : State) : Within [.free, .settings, .coef, .tempTab, .tiles, .rails, .pwr, .test, .map, .hk, .tel, .ev, .bus, .link, .ldr, .nvm, .jrn, .xm, .rcd, .draw, .ka, .sync] s (vsupReset a0 s) := by
  unfold vsupReset
  try dsimp only
  exact Within.mono (within_monitorReset _ _ _) (by decide)

theorem within_vioReset (a0 : ℕ) (s : State) : Within [.free, .settings, .coef, .tempTab, .tiles, .rails, .pwr, .test, .map, .hk, .tel, .ev, .bus, .link, .ldr, .nvm, .jrn, .xm, .rcd, .draw, .ka, .sync] s (vioReset a0 s) := by
  unfold vioReset
  try dsimp only
  exact Within.mono (within_monitorReset _ _ _) (by decide)

theorem within_coreSupplyReset (a0 : ℕ) (s : State) : Within [.free, .settings, .coef, .tempTab, .tiles, .rails, .pwr, .test, .map, .hk, .tel, .ev, .bus, .link, .ldr, .nvm, .jrn, .xm, .rcd, .draw, .ka, .sync] s (coreSupplyReset a0 s) := by
  unfold coreSupplyReset
  try dsimp only
  refine within_ite ?_ ?_
  · exact Within.refl
  · exact Within.mono (within_monitorReset _ _ _) (by decide)

theorem within_clockFault (a0 : ClockFault) (a1 : ℕ) (s : State) : Within [.free, .settings, .coef, .tempTab, .tiles, .rails, .pwr, .test, .map, .hk, .tel, .ev, .bus, .link, .ldr, .nvm, .jrn, .xm, .rcd, .draw, .ka, .sync] s (clockFault a0 a1 s) := by
  unfold clockFault
  try dsimp only
  refine within_ite ?_ ?_
  · exact Within.refl
  · refine within_ite ?_ ?_
    · refine Within.step ?_ (within_set_ka _ _) (by decide)
      exact Within.mono (within_resetDevice _ _ _) (by decide)
    · exact Within.mono (within_resetDevice _ _ _) (by decide)

theorem within_keepaliveWake (s : State) : Within [.free, .settings, .coef, .tempTab, .tiles, .rails, .pwr, .test, .map, .hk, .tel, .ev, .bus, .link, .ldr, .nvm, .jrn, .xm, .rcd, .draw, .ka, .sync] s (keepaliveWake s) := by
  unfold keepaliveWake
  try dsimp only
  refine within_ite ?_ ?_
  · exact Within.mono (within_resetDevice _ _ _) (by decide)
  · exact Within.refl

theorem within_pinReset (a0 : ℕ) (s : State) : Within [.free, .settings, .coef, .tempTab, .tiles, .rails, .pwr, .test, .map, .hk, .tel, .ev, .bus, .link, .ldr, .nvm, .jrn, .xm, .rcd, .draw, .ka, .sync] s (pinReset a0 s) := by
  unfold pinReset
  try dsimp only
  refine within_ite ?_ ?_
  · exact Within.mono (within_resetDevice _ _ _) (by decide)
  · exact Within.mono (within_monitorReset _ _ _) (by decide)

theorem within_resetNLow (a0 : ℕ) (s : State) : Within [.free, .settings, .coef, .tempTab, .tiles, .rails, .pwr, .test, .map, .hk, .tel, .ev, .bus, .link, .ldr, .nvm, .jrn, .xm, .rcd, .draw, .ka, .sync, .tap] s (resetNLow a0 s) := by
  unfold resetNLow
  try dsimp only
  refine Within.step ?_ (within_set_tap _ _) (by decide)
  refine within_ite ?_ ?_
  · exact Within.mono (within_pinReset _ _) (by decide)
  · exact Within.refl

theorem within_rstCmdWrite (a0 : HostId) (a1 : Word) (s : State) : Within [.free, .settings, .coef, .tempTab, .tiles, .rails, .pwr, .test, .map, .hk, .tel, .ev, .bus, .link, .ldr, .nvm, .jrn, .xm, .rcd, .draw, .ka, .sync] s (rstCmdWrite a0 a1 s) := by
  unfold rstCmdWrite
  try dsimp only
  refine within_ite ?_ ?_
  · exact Within.mono (within_resetDevice _ _ _) (by decide)
  · exact Within.mono (within_refuse _ _) (by decide)

theorem within_stopCharger (s : State) : Within [.draw, .ka] s (stopCharger s) := by
  unfold stopCharger
  try dsimp only
  refine within_ite ?_ ?_
  · refine Within.step ?_ (within_askLeave _ _) (by decide)
    refine Within.step ?_ (within_releaseLeave _ _) (by decide)
    exact Within.mono (within_set_ka _ _) (by decide)
  · refine Within.step ?_ (within_releaseLeave _ _) (by decide)
    exact Within.mono (within_set_ka _ _) (by decide)

theorem within_vsupWarning (s : State) : Within [.pwr, .draw, .ka] s (vsupWarning s) := by
  unfold vsupWarning
  try dsimp only
  refine within_ite ?_ ?_
  · refine within_ite ?_ ?_
    · refine Within.step ?_ (within_stopCharger _) (by decide)
      exact Within.mono (within_set_pwr _ _) (by decide)
    · exact Within.mono (within_set_pwr _ _) (by decide)
  · exact Within.refl

theorem within_vsupWarningClear (s : State) : Within [.tiles, .rails, .pwr, .ev, .link, .xm, .rcd] s (vsupWarningClear s) := by
  unfold vsupWarningClear
  try dsimp only
  refine within_ite ?_ ?_
  · refine within_ite ?_ ?_
    · refine Within.step ?_ (within_occur _ _ _) (by decide)
      refine Within.step ?_ (within_set_pwr _ _) (by decide)
      refine within_ite ?_ ?_
      · refine Within.step ?_ (within_nextBegins _) (by decide)
        exact Within.mono (within_set_pwr _ _) (by decide)
      · exact Within.mono (within_set_pwr _ _) (by decide)
    · exact Within.mono (within_set_pwr _ _) (by decide)
  · exact Within.refl

theorem within_pfCommit (s : State) : Within [.free, .pwr, .nvm, .ka] s (pfCommit s) := by
  unfold pfCommit
  try dsimp only
  refine within_ite ?_ ?_
  · refine Within.step ?_ (within_pfAssemble _) (by decide)
    exact Within.mono (within_set_pwr _ _) (by decide)
  · exact Within.mono (within_set_nvm_ka _ _ _) (by decide)

theorem within_powerFail (s : State) : Within [.free, .pwr, .nvm, .ka] s (powerFail s) := by
  unfold powerFail
  try dsimp only
  refine within_ite ?_ ?_
  · refine within_ite ?_ ?_
    · exact Within.mono (within_set_pwr _ _) (by decide)
    · refine within_ite ?_ ?_
      · exact Within.mono (within_set_pwr _ _) (by decide)
      · refine Within.step ?_ (within_pfCommit _) (by decide)
        exact Within.mono (within_set_pwr _ _) (by decide)
  · exact Within.refl

theorem within_snapshotEnds (s : State) : Within [.free, .pwr, .nvm, .ka] s (snapshotEnds s) := by
  unfold snapshotEnds
  try dsimp only
  refine within_ite ?_ ?_
  · refine Within.step ?_ (within_pfCommit _) (by decide)
    exact Within.mono (within_set_pwr _ _) (by decide)
  · exact Within.mono (within_set_pwr _ _) (by decide)

theorem within_snapshotComplete (a0 : Bool) (s : State) : Within [.free, .tiles, .rails, .pwr, .ev, .link, .nvm, .rcd, .ka] s (snapshotComplete a0 s) := by
  unfold snapshotComplete
  try dsimp only
  refine within_ite ?_ ?_
  · refine within_ite ?_ ?_
    · refine Within.step ?_ (within_occur _ _ _) (by decide)
      refine Within.step ?_ (within_snapshotEnds _) (by decide)
      refine Within.step ?_ (within_set_pwr_nvm _ _ _) (by decide)
      exact Within.mono (within_pfAssemble _) (by decide)
    · refine within_ite ?_ ?_
      · refine Within.step ?_ (within_occur _ _ _) (by decide)
        refine Within.step ?_ (within_set_nvm _ _) (by decide)
        refine Within.step ?_ (within_snapshotEnds _) (by decide)
        refine Within.step ?_ (within_snapshotCut _) (by decide)
        exact Within.mono (within_pfAssemble _) (by decide)
      · refine Within.step ?_ (within_set_pwr _ _) (by decide)
        exact Within.mono (within_pfAssemble _) (by decide)
  · exact Within.refl

theorem within_vioWarning (s : State) : Within [.tiles, .rails, .ev, .link, .rcd] s (vioWarning s) := by
  unfold vioWarning
  try dsimp only
  refine within_ite ?_ ?_
  · exact Within.mono (within_occur _ _ _) (by decide)
  · exact Within.refl

theorem within_preregFault (s : State) : Within [.tiles, .rails, .ev, .link, .rcd] s (preregFault s) := by
  unfold preregFault
  try dsimp only
  refine within_ite ?_ ?_
  · exact Within.mono (within_occur _ _ _) (by decide)
  · exact Within.refl

theorem within_refPpmWindow (a0 : BitVec 16) (s : State) : Within [.pwr] s (refPpmWindow a0 s) := by
  unfold refPpmWindow
  try dsimp only
  refine within_ite ?_ ?_
  · exact Within.mono (within_set_pwr _ _) (by decide)
  · exact Within.refl

theorem within_groupsUp (s : State) : Within [.rails, .pwr] s (groupsUp s) := by
  unfold groupsUp
  try dsimp only
  refine Within.step ?_ (within_set_pwr _ _) (by decide)
  exact Within.mono (within_State_mapRails _ _) (by decide)

theorem within_askNextBank (s : State) : Within [.draw] s (askNextBank s) := by
  unfold askNextBank
  try dsimp only
  refine within_ite ?_ ?_
  · exact Within.refl
  · split
    · exact Within.mono (within_askLeave _ _) (by decide)
    · exact Within.refl

theorem within_bankDown (s : State) (a1 : BankId) : Within [.tiles, .rails, .pwr, .draw] s (bankDown s a1) := by
  unfold bankDown
  try dsimp only
  refine within_ite ?_ ?_
  · refine Within.trans ?_ (within_foldl (fun _ _ => ?_) _ _)
    · refine Within.step ?_ (within_State_mapRails _ _) (by decide)
      refine Within.step ?_ (within_set_pwr _ _) (by decide)
      refine Within.step ?_ (within_releaseLeave _ _) (by decide)
      exact Within.mono (within_dropLeave _ _) (by decide)
    · exact Within.mono (within_State_modTile _ _ _) (by decide)
  · refine Within.step ?_ (within_State_mapRails _ _) (by decide)
    refine Within.step ?_ (within_set_pwr _ _) (by decide)
    refine Within.step ?_ (within_releaseLeave _ _) (by decide)
    exact Within.mono (within_dropLeave _ _) (by decide)

theorem within_bankPowerUp (a0 : BankId) (s : State) : Within [.pwr] s (bankPowerUp a0 s) := by
  unfold bankPowerUp
  try dsimp only
  refine within_ite ?_ ?_
  · exact Within.mono (within_set_pwr _ _) (by decide)
  · exact Within.refl

theorem within_bankPowerUpDone (a0 : BankId) (s : State) : Within [.tiles, .pwr, .hk, .draw] s (bankPowerUpDone a0 s) := by
  unfold bankPowerUpDone
  try dsimp only
  refine within_ite ?_ ?_
  · refine Within.step ?_ (within_askNextBank _) (by decide)
    refine Within.step ?_ (within_set_pwr_hk _ _ _) (by decide)
    refine Within.trans ?_ (within_foldl (fun _ _ => ?_) _ _)
    · exact Within.mono (within_releaseLeave _ _) (by decide)
    · exact Within.mono (within_State_modTile _ _ _) (by decide)
  · exact Within.refl

theorem within_xmiDown (s : State) : Within [.free, .tiles, .rails, .pwr, .ev, .link, .ldr, .xm, .rcd, .draw] s (xmiDown s) := by
  unfold xmiDown
  try dsimp only
  refine within_ite ?_ ?_
  · refine Within.step ?_ (within_recFreeze _ _ _) (by decide)
    refine Within.step ?_ (within_xmNoLeave _) (by decide)
    refine Within.step ?_ (within_set_pwr_ldr_xm _ _ _ _) (by decide)
    exact Within.mono (within_burstCut _) (by decide)
  · refine Within.step ?_ (within_xmNoLeave _) (by decide)
    refine Within.step ?_ (within_set_pwr_ldr_xm _ _ _ _) (by decide)
    exact Within.mono (within_burstCut _) (by decide)

theorem within_xmiUp (s : State) : Within [.pwr, .xm] s (xmiUp s) := by
  unfold xmiUp
  try dsimp only
  exact Within.mono (within_set_pwr_xm _ _ _) (by decide)

theorem within_hkUp (s : State) : Within [.pwr, .hk] s (hkUp s) := by
  unfold hkUp
  try dsimp only
  exact Within.mono (within_set_pwr_hk _ _ _) (by decide)

theorem within_hkDown (s : State) : Within [.pwr] s (hkDown s) := by
  unfold hkDown
  try dsimp only
  exact Within.mono (within_set_pwr _ _) (by decide)

theorem within_banksTo (a0 : BitVec 4) (s : State) : Within [.tiles, .rails, .pwr, .draw] s (banksTo a0 s) := by
  unfold banksTo
  try dsimp only
  refine Within.step ?_ (within_set_pwr _ _) (by decide)
  refine Within.trans ?_ (within_foldl (fun _ _ => ?_) _ _)
  · exact Within.refl
  · refine within_ite ?_ ?_
    · exact Within.mono (within_bankDown _ _) (by decide)
    · exact Within.refl

theorem within_hkTo (a0 : Bool) (s : State) : Within [.pwr, .hk] s (hkTo a0 s) := by
  unfold hkTo
  try dsimp only
  refine within_ite ?_ ?_
  · exact Within.refl
  · refine within_ite ?_ ?_
    · exact Within.mono (within_hkUp _) (by decide)
    · exact Within.mono (within_hkDown _) (by decide)

theorem within_xmiTo (a0 : Bool) (s : State) : Within [.free, .tiles, .rails, .pwr, .ev, .link, .ldr, .xm, .rcd, .draw] s (xmiTo a0 s) := by
  unfold xmiTo
  try dsimp only
  refine within_ite ?_ ?_
  · exact Within.refl
  · refine within_ite ?_ ?_
    · exact Within.mono (within_xmiUp _) (by decide)
    · exact Within.mono (within_xmiDown _) (by decide)

theorem within_unitsTo (a0 : Bool) (a1 : Bool) (s : State) : Within [.free, .tiles, .rails, .pwr, .hk, .ev, .link, .ldr, .xm, .rcd, .draw] s (unitsTo a0 a1 s) := by
  unfold unitsTo
  try dsimp only
  split
  · exact Within.mono (within_set_pwr _ _) (by decide)
  · refine Within.step ?_ (within_xmiTo _ _) (by decide)
    refine Within.step ?_ (within_hkTo _ _) (by decide)
    exact Within.mono (within_set_pwr _ _) (by decide)

theorem within_domCtlWrite (a0 : HostId) (a1 : Word) (s : State) : Within [.free, .tiles, .rails, .pwr, .hk, .ev, .bus, .link, .ldr, .xm, .rcd, .draw] s (domCtlWrite a0 a1 s) := by
  unfold domCtlWrite
  try dsimp only
  refine within_ite ?_ ?_
  · refine Within.step ?_ (within_askNextBank _) (by decide)
    refine Within.step ?_ (within_unitsTo _ _ _) (by decide)
    exact Within.mono (within_banksTo _ _) (by decide)
  · exact Within.mono (within_refuse _ _) (by decide)

theorem within_stopRails (s : State) : Within [.tiles, .rails, .ev, .link, .rcd] s (stopRails s) := by
  unfold stopRails
  try dsimp only
  refine Within.trans ?_ (within_foldl (fun _ _ => ?_) _ _)
  · exact Within.refl
  · split
    · exact Within.refl
    · exact Within.refl
    · exact Within.mono (within_railToOut _ _ _ _ _) (by decide)
    · refine within_ite ?_ ?_
      · exact Within.mono (within_railToOut _ _ _ _ _) (by decide)
      · exact Within.mono (within_orderlyOff _ _ _ _ (fun e d x => within_occur e d x)) (by decide)

theorem within_domainsDown (s : State) : Within [.tiles, .rails, .pwr, .draw] s (domainsDown s) := by
  unfold domainsDown
  try dsimp only
  refine Within.step ?_ (within_set_pwr _ _) (by decide)
  refine Within.trans ?_ (within_foldl (fun _ _ => ?_) _ _)
  · exact Within.refl
  · exact Within.mono (within_bankDown _ _) (by decide)

theorem within_leaveStandby (s : State) : Within [.free, .tiles, .rails, .pwr, .ev, .link, .ldr, .nvm, .xm, .rcd, .draw, .ka] s (leaveStandby s) := by
  unfold leaveStandby
  try dsimp only
  refine Within.step ?_ (within_writeResidue _) (by decide)
  refine Within.step ?_ (within_set_pwr _ _) (by decide)
  refine Within.step ?_ (within_hkDown _) (by decide)
  refine within_ite ?_ ?_
  · refine Within.step ?_ (within_xmiDown _) (by decide)
    exact Within.mono (within_endArm _ _) (by decide)
  · exact Within.mono (within_endArm _ _) (by decide)

theorem within_undoStandby (s : State) : Within [.pwr, .hk, .xm] s (undoStandby s) := by
  unfold undoStandby
  try dsimp only
  split
  · exact Within.refl
  · refine within_ite ?_ ?_
    · refine Within.step ?_ (within_xmiUp _) (by decide)
      refine within_ite ?_ ?_
      · refine Within.step ?_ (within_hkUp _) (by decide)
        exact Within.mono (within_set_pwr _ _) (by decide)
      · exact Within.mono (within_set_pwr _ _) (by decide)
    · refine within_ite ?_ ?_
      · refine Within.step ?_ (within_hkUp _) (by decide)
        exact Within.mono (within_set_pwr _ _) (by decide)
      · exact Within.mono (within_set_pwr _ _) (by decide)

theorem within_cancelResidue (s : State) : Within [.nvm, .draw] s (cancelResidue s) := by
  unfold cancelResidue
  try dsimp only
  refine within_ite ?_ ?_
  · exact Within.refl
  · refine within_ite ?_ ?_
    · refine Within.step ?_ (within_stalePump _) (by decide)
      exact Within.mono (within_set_nvm _ _) (by decide)
    · exact Within.refl

theorem within_powerStart (s : State) : Within [.free, .tiles, .rails, .pwr, .ev, .link, .ldr, .nvm, .xm, .rcd, .draw, .ka] s (powerStart s) := by
  unfold powerStart
  try dsimp only
  split
  · refine Within.step ?_ (within_askNextBank _) (by decide)
    refine Within.step ?_ (within_groupsUp _) (by decide)
    exact Within.mono (within_set_pwr _ _) (by decide)
  · refine Within.step ?_ (within_askNextBank _) (by decide)
    refine Within.step ?_ (within_groupsUp _) (by decide)
    exact Within.mono (within_set_pwr _ _) (by decide)
  · exact Within.mono (within_domainsDown _) (by decide)
  · refine within_ite ?_ ?_
    · exact Within.refl
    · refine Within.step ?_ (within_leaveStandby _) (by decide)
      exact Within.mono (within_domainsDown _) (by decide)
  · exact Within.mono (within_stopRails _) (by decide)
  · exact Within.mono (within_stopRails _) (by decide)
  · exact Within.mono (within_stopRails _) (by decide)
  · exact Within.refl

theorem within_enterKeepalive (s : State) : Within [.settings, .coef, .tempTab, .tiles, .rails, .pwr, .test, .map, .hk, .tel, .ev, .bus, .link, .ldr, .nvm, .jrn, .xm, .rcd, .draw, .ka, .sync] s (enterKeepalive s) := by
  unfold enterKeepalive
  try dsimp only
  refine Within.step ?_ (within_clearDevice _ _) (by decide)
  exact Within.mono (within_set_ka _ _) (by decide)

theorem within_powerHop (s : State) : Within [.free, .tiles, .rails, .pwr, .ev, .link, .ldr, .nvm, .xm, .rcd, .draw, .ka] s (powerHop s) := by
  unfold powerHop
  try dsimp only
  refine within_ite ?_ ?_
  · split
    · refine Within.step ?_ (within_leaveStandby _) (by decide)
      refine Within.step ?_ (within_domainsDown _) (by decide)
      refine Within.step ?_ (within_set_pwr _ _) (by decide)
      exact Within.mono (within_runSettle _) (by decide)
    · refine Within.step ?_ (within_domainsDown _) (by decide)
      refine Within.step ?_ (within_set_pwr _ _) (by decide)
      exact Within.mono (within_runSettle _) (by decide)
    · refine Within.step ?_ (within_set_pwr _ _) (by decide)
      exact Within.mono (within_runSettle _) (by decide)
  · exact Within.refl

theorem within_powerTransitionComplete (s : State) : Within [.free, .settings, .coef, .tempTab, .tiles, .rails, .pwr, .test, .map, .hk, .tel, .ev, .bus, .link, .ldr, .nvm, .jrn, .xm, .rcd, .draw, .ka, .sync] s (powerTransitionComplete s) := by
  unfold powerTransitionComplete
  try dsimp only
  refine within_ite ?_ ?_
  · refine within_ite ?_ ?_
    · refine Within.step ?_ (within_occur _ _ _) (by decide)
      refine Within.step ?_ (within_set_pwr _ _) (by decide)
      refine Within.step ?_ (within_powerHop _) (by decide)
      refine Within.step ?_ (within_powerHop _) (by decide)
      exact Within.mono (within_powerHop _) (by decide)
    · refine within_ite ?_ ?_
      · refine Within.step ?_ (within_enterKeepalive _) (by decide)
        refine Within.step ?_ (within_powerHop _) (by decide)
        refine Within.step ?_ (within_powerHop _) (by decide)
        exact Within.mono (within_powerHop _) (by decide)
      · refine Within.step ?_ (within_powerHop _) (by decide)
        refine Within.step ?_ (within_powerHop _) (by decide)
        exact Within.mono (within_powerHop _) (by decide)
  · exact Within.refl

theorem within_pwrCmd (a0 : HostId) (a1 : Power) (a2 : Bool) (s : State) : Within [.free, .tiles, .rails, .pwr, .hk, .ev, .bus, .link, .ldr, .nvm, .xm, .rcd, .draw, .ka] s (pwrCmd a0 a1 a2 s) := by
  unfold pwrCmd
  try dsimp only
  refine within_ite ?_ ?_
  · exact Within.mono (within_refuse _ _) (by decide)
  · refine Within.step ?_ (within_powerStart _) (by decide)
    refine Within.step ?_ (within_set_pwr _ _) (by decide)
    refine within_ite ?_ ?_
    · refine Within.step ?_ (within_undoStandby _) (by decide)
      exact Within.mono (within_cancelResidue _) (by decide)
    · exact Within.refl

theorem within_bistAsk (a0 : HostId) (s : State) : Within [.test, .bus, .draw] s (bistAsk a0 s) := by
  unfold bistAsk
  try dsimp only
  refine within_ite ?_ ?_
  · exact Within.mono (within_refuse _ _) (by decide)
  · refine Within.step ?_ (within_askLeave _ _) (by decide)
    exact Within.mono (within_set_test _ _) (by decide)

theorem within_sweepChecks (s : State) : Within [.settings, .tiles, .rails, .hk, .ev, .link, .rcd] s (sweepChecks s).1 := by
  have h : ∀ (l : List ChanId) (p : State × Bool), Within [.settings, .tiles, .rails, .hk, .ev, .link, .rcd] p.1
      (l.foldl (fun p c => (crossCheck p.1 c, p.2 || xchkFails p.1 c)) p).1 := by
    intro l
    induction l with
    | nil => exact fun _ => Within.refl
    | cons c l ih => exact fun p => Within.trans (Within.mono (within_crossCheck _ _) (by decide)) (ih _)
  exact h _ (s, false)

theorem within_bistSweep (a0 : Vector (BitVec 12) 14) (s : State) : Within [.settings, .tiles, .rails, .test, .hk, .ev, .link, .rcd] s (bistSweep a0 s) := by
  unfold bistSweep
  dsimp only
  refine within_ite ?_ Within.refl
  refine Within.step ?_ (within_set_test _ _) (by decide)
  refine Within.step ?_ (within_tsdClear _) (by decide)
  refine Within.step ?_ (within_sweepChecks _) (by decide)
  exact Within.trans (Within.mono (within_set_test _ _) (by decide)) (within_ite (Within.mono (within_occur _ _ _) (by decide)) Within.refl)

theorem within_bistSweepEnd (s : State) : Within [.tiles, .rails, .test, .ev, .link, .rcd, .draw] s (bistSweepEnd s) := by
  unfold bistSweepEnd
  try dsimp only
  refine within_ite ?_ ?_
  · refine within_ite ?_ ?_
    · refine Within.step ?_ (within_occur _ _ _) (by decide)
      refine Within.step ?_ (within_releaseLeave _ _) (by decide)
      exact Within.mono (within_set_test _ _) (by decide)
    · refine Within.step ?_ (within_releaseLeave _ _) (by decide)
      exact Within.mono (within_set_test _ _) (by decide)
  · exact Within.refl

theorem within_shadowError (a0 : (RailId → Bool)) (s : State) : Within [.tiles, .rails, .test, .ev, .link, .rcd] s (shadowError a0 s) := by
  unfold shadowError
  try dsimp only
  refine Within.step ?_ (within_occur _ _ _) (by decide)
  refine Within.trans ?_ (within_foldl (fun _ _ => ?_) _ _)
  · exact Within.mono (within_countDbe _) (by decide)
  · refine within_ite ?_ ?_
    · exact Within.mono (within_orderlySafe _ _ _ _ (fun e d x => within_occur e d x)) (by decide)
    · exact Within.refl

theorem within_shadowFixed (s : State) : Within [.test] s (shadowFixed s) := by
  unfold shadowFixed
  try dsimp only
  exact Within.mono (within_set_test _ _) (by decide)

theorem within_readTableWord (a0 : ℕ) (a1 : Ecc) (s : State) : Within [.tiles, .rails, .test, .ev, .link, .rcd] s (readTableWord a0 a1 s) := by
  unfold readTableWord
  try dsimp only
  split
  · exact Within.refl
  · exact Within.mono (within_shadowFixed _) (by decide)
  · exact Within.mono (within_shadowError _ _) (by decide)

theorem within_scrubWord (a0 : EccMemory) (a1 : Ecc) (s : State) : Within [.tiles, .rails, .test, .map, .ev, .link, .jrn, .rcd] s (scrubWord a0 a1 s) := by
  unfold scrubWord
  try dsimp only
  refine within_ite ?_ ?_
  · split
    · refine within_ite ?_ ?_
      · refine Within.step ?_ (within_set_test _ _) (by decide)
        refine Within.step ?_ (within_readMapWord _ _ _) (by decide)
        exact Within.mono (within_set_test _ _) (by decide)
      · refine Within.step ?_ (within_readMapWord _ _ _) (by decide)
        exact Within.mono (within_set_test _ _) (by decide)
    · split
      · exact Within.mono (within_set_test _ _) (by decide)
      · refine Within.step ?_ (within_ringFixed _) (by decide)
        exact Within.mono (within_set_test _ _) (by decide)
      · refine Within.step ?_ (within_ringError _ _) (by decide)
        exact Within.mono (within_set_test _ _) (by decide)
    · split
      · exact Within.mono (within_set_test _ _) (by decide)
      · refine Within.step ?_ (within_recFixed _) (by decide)
        exact Within.mono (within_set_test _ _) (by decide)
      · refine Within.step ?_ (within_recError _) (by decide)
        exact Within.mono (within_set_test _ _) (by decide)
    · split
      · exact Within.mono (within_set_test _ _) (by decide)
      · refine Within.step ?_ (within_shadowFixed _) (by decide)
        exact Within.mono (within_set_test _ _) (by decide)
      · refine Within.step ?_ (within_shadowError _ _) (by decide)
        exact Within.mono (within_set_test _ _) (by decide)
  · exact Within.refl

theorem within_xmemForBoot (a0 : BootInputs) (s : State) : Within [.pwr, .xm] s (xmemForBoot a0 s) := by
  unfold xmemForBoot
  try dsimp only
  refine within_ite ?_ ?_
  · exact Within.refl
  · refine Within.step ?_ (within_set_xm _ _) (by decide)
    exact Within.mono (within_xmiUp _) (by decide)

theorem within_invalidEvent (a0 : ImageSource) (a1 : Bool) (a2 : ℕ) (s : State) : Within [.now, .tiles, .rails, .ev, .link, .rcd] s (invalidEvent a0 a1 a2 s) := by
  unfold invalidEvent
  try dsimp only
  refine within_ite ?_ ?_
  · exact Within.refl
  · exact Within.mono (within_bootEvent _ _ _) (by decide)

theorem within_sourceEvents (a0 : BootInputs) (a1 : ImageSource) (a2 : SourceResult) (s : State) : Within [.now, .tiles, .rails, .ev, .link, .rcd] s (sourceEvents a0 a1 a2 s) := by
  unfold sourceEvents
  try dsimp only
  refine Within.step ?_ (within_invalidEvent _ _ _ _) (by decide)
  refine Within.step ?_ (within_invalidEvent _ _ _ _) (by decide)
  refine within_ite ?_ ?_
  · exact Within.mono (within_bootEvent _ _ _) (by decide)
  · exact Within.refl

theorem within_clearKill (s : State) : Within [.settings] s (clearKill s) := by
  unfold clearKill
  try dsimp only
  refine Within.trans ?_ (within_foldl (fun _ _ => ?_) _ _)
  · exact Within.refl
  · refine within_ite ?_ ?_
    · exact Within.mono (within_putWord _ _ _) (by decide)
    · exact Within.refl

theorem within_bootHeaderKept (a0 : ImageSource) (a1 : Bool) (a2 : Bool) (a3 : List Byte) (s : State) : Within [.ldr] s (bootHeaderKept a0 a1 a2 a3 s) := by
  unfold bootHeaderKept
  try dsimp only
  exact Within.mono (within_set_ldr _ _) (by decide)

theorem within_bootCharger (s : State) : Within [.ka] s (bootCharger s) := by
  unfold bootCharger
  try dsimp only
  exact Within.mono (within_set_ka _ _) (by decide)

theorem within_bootXmi (s : State) : Within [.pwr, .xm] s (bootXmi s) := by
  unfold bootXmi
  try dsimp only
  refine within_ite ?_ ?_
  · refine Within.step ?_ (within_xmiUp _) (by decide)
    exact Within.mono (within_set_pwr _ _) (by decide)
  · exact Within.mono (within_set_pwr _ _) (by decide)

theorem within_bootLoad (a0 : BootInputs) (a1 : ImageSource) (a2 : Bool) (a3 : Bool) (a4 : List Byte) (a5 : ImageData) (s : State) : Within [.settings, .coef, .tempTab, .tiles, .rails, .pwr, .map, .ldr, .xm, .ka] s (bootLoad a0 a1 a2 a3 a4 a5 s) := by
  unfold bootLoad
  try dsimp only
  refine Within.step ?_ (within_State_mapRails _ _) (by decide)
  refine Within.step ?_ (within_State_mapTiles _ _) (by decide)
  refine Within.step ?_ (within_bootXmi _) (by decide)
  refine Within.step ?_ (within_bootCharger _) (by decide)
  refine Within.step ?_ (within_bootHeaderKept _ _ _ _ _) (by decide)
  refine Within.step ?_ (within_clearKill _) (by decide)
  exact Within.mono (within_loadImage _ _) (by decide)

theorem within_restoreFsum (s : State) : Within [.tiles, .rails, .ldr] s (restoreFsum s) := by
  unfold restoreFsum
  try dsimp only
  split
  · exact Within.refl
  · refine Within.step ?_ (within_set_ldr _ _) (by decide)
    refine Within.step ?_ (within_State_mapTiles _ _) (by decide)
    exact Within.mono (within_State_mapRails _ _) (by decide)

theorem within_restoreCal (s : State) : Within [.settings] s (restoreCal s) := by
  unfold restoreCal
  try dsimp only
  refine Within.trans ?_ (within_foldl (fun _ _ => ?_) _ _)
  · split
    · exact Within.refl
    · refine Within.trans ?_ (within_foldl (fun _ _ => ?_) _ _)
      · exact Within.refl
      · refine within_ite ?_ ?_
        · exact Within.mono (within_putWord _ _ _) (by decide)
        · exact Within.refl
  · split
    · exact Within.refl
    · refine Within.trans ?_ (within_foldl (fun _ _ => ?_) _ _)
      · exact Within.refl
      · refine within_ite ?_ ?_
        · exact Within.mono (within_putWord _ _ _) (by decide)
        · exact Within.refl

theorem within_compareBoot (s : State) : Within [.now, .tiles, .rails, .ev, .link, .ldr, .nvm, .rcd, .draw] s (compareBoot s) := by
  unfold compareBoot
  try dsimp only
  refine within_ite ?_ ?_
  · exact Within.refl
  · refine within_ite ?_ ?_
    · refine Within.step ?_ (within_fsumChanged _) (by decide)
      refine Within.step ?_ (within_set_ldr _ _) (by decide)
      refine Within.step ?_ (within_nvmRequest _ _) (by decide)
      refine Within.step ?_ (within_nextCycle _) (by decide)
      refine within_ite ?_ ?_
      · exact Within.mono (within_occurClass _ _ _) (by decide)
      · exact Within.mono (within_occur _ _ _) (by decide)
    · refine Within.step ?_ (within_nvmRequest _ _) (by decide)
      refine Within.step ?_ (within_nextCycle _) (by decide)
      refine within_ite ?_ ?_
      · exact Within.mono (within_occurClass _ _ _) (by decide)
      · exact Within.mono (within_occur _ _ _) (by decide)

theorem within_sealRecord (a0 : SealState) (a1 : Word) (s : State) : Within [.ka] s (sealRecord a0 a1 s) := by
  unfold sealRecord
  try dsimp only
  exact Within.mono (within_set_ka _ _) (by decide)

theorem within_bootSeal (a0 : SealState) (s : State) : Within [.now, .tiles, .rails, .ev, .link, .nvm, .rcd, .draw, .ka] s (bootSeal a0 s) := by
  unfold bootSeal
  try dsimp only
  refine within_ite ?_ ?_
  · refine within_ite ?_ ?_
    · refine Within.step ?_ (within_bootEvent _ _ _) (by decide)
      refine Within.step ?_ (within_nvmRequest _ _) (by decide)
      exact Within.mono (within_set_ka _ _) (by decide)
    · exact Within.refl
  · split
    · refine within_ite ?_ ?_
      · exact Within.mono (within_set_ka _ _) (by decide)
      · refine Within.step ?_ (within_bootEvent _ _ _) (by decide)
        refine Within.step ?_ (within_nvmRequest _ _) (by decide)
        refine Within.step ?_ (within_set_ka _ _) (by decide)
        refine Within.step ?_ (within_sealRecord _ _ _) (by decide)
        exact Within.mono (within_set_ka _ _) (by decide)
    · refine Within.step ?_ (within_nvmRequest _ _) (by decide)
      refine Within.step ?_ (within_set_ka _ _) (by decide)
      exact Within.mono (within_sealRecord _ _ _) (by decide)

theorem within_bootRecover (a0 : BootInputs) (a1 : ℕ) (s : State) : Within [.now, .settings, .tiles, .rails, .pwr, .ev, .link, .ldr, .nvm, .rcd, .draw, .ka] s (bootRecover a0 a1 s) := by
  unfold bootRecover
  try dsimp only
  refine Within.step ?_ (within_set_ka _ _) (by decide)
  refine Within.step ?_ (within_bootSeal _ _) (by decide)
  refine Within.step ?_ (within_recoverFaultPages _) (by decide)
  refine Within.step ?_ (within_recoverResidue _ _) (by decide)
  refine Within.trans ?_ (within_foldl (fun _ _ => ?_) _ _)
  · refine Within.step ?_ (within_compareBoot _) (by decide)
    refine Within.step ?_ (within_restoreCal _) (by decide)
    refine Within.step ?_ (within_restoreFsum _) (by decide)
    refine Within.trans ?_ (within_foldl (fun _ _ => ?_) _ _)
    · exact Within.refl
    · exact Within.mono (within_readRecord _ _) (by decide)
  · exact Within.mono (within_recoverCounter _ _) (by decide)

theorem within_brumEnds (s : State) : Within [.ka] s (brumEnds s) := by
  unfold brumEnds
  try dsimp only
  exact Within.mono (within_set_ka _ _) (by decide)

theorem within_brumEvent (s : State) : Within [.now, .tiles, .rails, .ev, .link, .rcd] s (brumEvent s) := by
  unfold brumEvent
  try dsimp only
  refine within_ite ?_ ?_
  · exact Within.mono (within_bootEvent _ _ _) (by decide)
  · exact Within.refl

theorem within_bootReports (s : State) : Within [.now, .tiles, .rails, .ev, .link, .rcd, .ka] s (bootReports s) := by
  unfold bootReports
  try dsimp only
  refine Within.step ?_ (within_bootEvent _ _ _) (by decide)
  refine Within.step ?_ (within_brumEvent _) (by decide)
  refine within_ite ?_ ?_
  · refine Within.step ?_ (within_bootEvent _ _ _) (by decide)
    refine Within.step ?_ (within_brumEnds _) (by decide)
    refine Within.step ?_ (within_set_ka _ _) (by decide)
    split
    · exact Within.mono (within_bootEvent _ _ _) (by decide)
    · exact Within.mono (within_bootEvent _ _ _) (by decide)
    · exact Within.refl
  · refine Within.step ?_ (within_brumEnds _) (by decide)
    refine Within.step ?_ (within_set_ka _ _) (by decide)
    split
    · exact Within.mono (within_bootEvent _ _ _) (by decide)
    · exact Within.mono (within_bootEvent _ _ _) (by decide)
    · exact Within.refl

theorem within_bootEnd (s : State) : Within [.rails, .pwr, .hk, .bus, .link] s (bootEnd s) := by
  unfold bootEnd
  try dsimp only
  refine Within.step ?_ (within_set_pwr_hk_bus_link _ _ _ _ _) (by decide)
  exact Within.mono (within_State_mapRails _ _) (by decide)

theorem within_enterSafeIdle (a0 : BootInputs) (a1 : SourceResult) (a2 : ℕ × ℕ) (a3 : ℕ × ℕ) (s : State) : Within [.now, .tiles, .rails, .pwr, .ev, .bus, .link, .ldr, .nvm, .xm, .rcd, .ka] s (enterSafeIdle a0 a1 a2 a3 s) := by
  unfold enterSafeIdle
  try dsimp only
  refine Within.step ?_ (within_bootEvent _ _ _) (by decide)
  refine within_ite ?_ ?_
  · refine Within.step ?_ (within_set_pwr_bus_ldr _ _ _ _) (by decide)
    refine Within.step ?_ (within_brumEvent _) (by decide)
    refine Within.step ?_ (within_brumEnds _) (by decide)
    exact Within.mono (within_readRecord _ _) (by decide)
  · refine Within.step ?_ (within_discover _ _) (by decide)
    refine Within.step ?_ (within_set_pwr_bus_ldr _ _ _ _) (by decide)
    refine Within.step ?_ (within_brumEvent _) (by decide)
    refine Within.step ?_ (within_brumEnds _) (by decide)
    exact Within.mono (within_readRecord _ _) (by decide)

theorem within_bootStart (a0 : BootInputs) (s : State) : Within [.now, .pwr, .bus, .ldr, .xm, .ka] s (bootStart a0 s) := by
  unfold bootStart
  try dsimp only
  refine Within.step ?_ (within_xmemForBoot _ _) (by decide)
  exact Within.mono (within_set_now_pwr_bus_ldr_ka _ _ _ _ _ _) (by decide)

theorem within_bootFrom (a0 : BootInputs) (a1 : ImageSource) (a2 : Bool) (a3 : Option SourceResult) (a4 : SourceResult) (a5 : Bool × ImageData) (s : State) : Within [.now, .settings, .coef, .tempTab, .tiles, .rails, .pwr, .map, .hk, .ev, .bus, .link, .ldr, .nvm, .xm, .rcd, .draw, .ka] s (bootFrom a0 a1 a2 a3 a4 a5 s) := by
  unfold bootFrom
  try dsimp only
  refine Within.step ?_ (within_bootEnd _) (by decide)
  refine Within.step ?_ (within_bootReports _) (by decide)
  refine Within.step ?_ (within_bootRecover _ _ _) (by decide)
  refine within_ite ?_ ?_
  · refine Within.step ?_ (within_bootEvent _ _ _) (by decide)
    refine Within.step ?_ (within_sourceEvents _ _ _ _) (by decide)
    split
    · refine Within.step ?_ (within_sourceEvents _ _ _ _) (by decide)
      refine Within.step ?_ (within_lossEvents _ _) (by decide)
      refine Within.step ?_ (within_set_ldr _ _) (by decide)
      exact Within.mono (within_bootLoad _ _ _ _ _ _ _) (by decide)
    · refine Within.step ?_ (within_lossEvents _ _) (by decide)
      refine Within.step ?_ (within_set_ldr _ _) (by decide)
      exact Within.mono (within_bootLoad _ _ _ _ _ _ _) (by decide)
  · refine Within.step ?_ (within_nextCycle _) (by decide)
    refine Within.step ?_ (within_discover _ _) (by decide)
    refine Within.step ?_ (within_bootEvent _ _ _) (by decide)
    refine Within.step ?_ (within_sourceEvents _ _ _ _) (by decide)
    split
    · refine Within.step ?_ (within_sourceEvents _ _ _ _) (by decide)
      refine Within.step ?_ (within_lossEvents _ _) (by decide)
      refine Within.step ?_ (within_set_ldr _ _) (by decide)
      exact Within.mono (within_bootLoad _ _ _ _ _ _ _) (by decide)
    · refine Within.step ?_ (within_lossEvents _ _) (by decide)
      refine Within.step ?_ (within_set_ldr _ _) (by decide)
      exact Within.mono (within_bootLoad _ _ _ _ _ _ _) (by decide)

theorem within_boot (a0 : BootInputs) (s : State) : Within [.now, .settings, .coef, .tempTab, .tiles, .rails, .pwr, .map, .hk, .ev, .bus, .link, .ldr, .nvm, .xm, .rcd, .draw, .ka] s (boot a0 s) := by
  unfold boot
  try dsimp only
  refine within_ite ?_ ?_
  · split
    · refine Within.step ?_ (within_bootFrom _ _ _ _ _ _ _) (by decide)
      exact Within.mono (within_bootStart _ _) (by decide)
    · split
      · refine Within.step ?_ (within_enterSafeIdle _ _ _ _ _) (by decide)
        refine Within.step ?_ (within_sourceEvents _ _ _ _) (by decide)
        exact Within.mono (within_bootStart _ _) (by decide)
      · split
        · refine Within.step ?_ (within_bootFrom _ _ _ _ _ _ _) (by decide)
          exact Within.mono (within_bootStart _ _) (by decide)
        · refine Within.step ?_ (within_enterSafeIdle _ _ _ _ _) (by decide)
          refine Within.step ?_ (within_sourceEvents _ _ _ _) (by decide)
          refine Within.step ?_ (within_sourceEvents _ _ _ _) (by decide)
          exact Within.mono (within_bootStart _ _) (by decide)
  · exact Within.refl

theorem within_chgLeave (s : State) : Within [.draw] s (chgLeave s) := by
  unfold chgLeave
  try dsimp only
  refine within_ite ?_ ?_
  · exact Within.refl
  · refine within_ite ?_ ?_
    · refine within_ite ?_ ?_
      · exact Within.refl
      · exact Within.mono (within_askLeave _ _) (by decide)
    · refine Within.step ?_ (within_releaseLeave _ _) (by decide)
      exact Within.mono (within_dropLeave _ _) (by decide)

theorem within_kaOccur (a0 : ℕ) (a1 : ℕ) (s : State) : Within [.tiles, .rails, .ev, .link, .rcd] s (kaOccur a0 a1 s) := by
  unfold kaOccur
  try dsimp only
  refine within_ite ?_ ?_
  · exact Within.mono (within_occur _ _ _) (by decide)
  · exact Within.refl

theorem within_chargerRun (a0 : KaReadings) (s : State) : Within [.tiles, .rails, .ev, .link, .rcd, .draw, .ka] s (chargerRun a0 s) := by
  unfold chargerRun
  try dsimp only
  refine Within.step ?_ (within_chgLeave _) (by decide)
  refine within_ite ?_ ?_
  · refine within_ite ?_ ?_
    · refine Within.step ?_ (within_kaOccur _ _ _) (by decide)
      exact Within.mono (within_set_ka _ _) (by decide)
    · exact Within.mono (within_set_ka _ _) (by decide)
  · split
    · refine Within.step ?_ (within_kaOccur _ _ _) (by decide)
      refine within_ite ?_ ?_
      · refine Within.step ?_ (within_kaOccur _ _ _) (by decide)
        exact Within.mono (within_set_ka _ _) (by decide)
      · exact Within.mono (within_set_ka _ _) (by decide)
    · refine Within.step ?_ (within_kaOccur _ _ _) (by decide)
      refine within_ite ?_ ?_
      · refine Within.step ?_ (within_kaOccur _ _ _) (by decide)
        exact Within.mono (within_set_ka _ _) (by decide)
      · exact Within.mono (within_set_ka _ _) (by decide)
    · refine Within.step ?_ (within_kaOccur _ _ _) (by decide)
      refine within_ite ?_ ?_
      · refine Within.step ?_ (within_kaOccur _ _ _) (by decide)
        exact Within.mono (within_set_ka _ _) (by decide)
      · exact Within.mono (within_set_ka _ _) (by decide)
    · refine within_ite ?_ ?_
      · refine Within.step ?_ (within_kaOccur _ _ _) (by decide)
        exact Within.mono (within_set_ka _ _) (by decide)
      · exact Within.mono (within_set_ka _ _) (by decide)

theorem within_chgClear (s : State) : Within [.draw, .ka] s (chgClear s) := by
  unfold chgClear
  try dsimp only
  refine within_ite ?_ ?_
  · refine Within.step ?_ (within_chgLeave _) (by decide)
    exact Within.mono (within_set_ka _ _) (by decide)
  · exact Within.refl

theorem within_sealCheck (a0 : SealState) (s : State) : Within [.tiles, .rails, .ev, .link, .ldr, .nvm, .rcd, .draw, .ka] s (sealCheck a0 s) := by
  unfold sealCheck
  try dsimp only
  refine within_ite ?_ ?_
  · exact Within.mono (within_set_ka _ _) (by decide)
  · refine within_ite ?_ ?_
    · refine Within.step ?_ (within_endArm _ _) (by decide)
      refine within_ite ?_ ?_
      · refine Within.step ?_ (within_nvmRequest _ _) (by decide)
        refine Within.step ?_ (within_kaOccur _ _ _) (by decide)
        refine Within.step ?_ (within_set_ka _ _) (by decide)
        exact Within.mono (within_sealRecord _ _ _) (by decide)
      · refine Within.step ?_ (within_set_ka _ _) (by decide)
        exact Within.mono (within_sealRecord _ _ _) (by decide)
    · refine within_ite ?_ ?_
      · refine Within.step ?_ (within_nvmRequest _ _) (by decide)
        refine Within.step ?_ (within_kaOccur _ _ _) (by decide)
        refine Within.step ?_ (within_set_ka _ _) (by decide)
        exact Within.mono (within_sealRecord _ _ _) (by decide)
      · refine Within.step ?_ (within_set_ka _ _) (by decide)
        exact Within.mono (within_sealRecord _ _ _) (by decide)

theorem within_kaMonitorRun (a0 : KaReadings) (s : State) : Within [.tiles, .rails, .ev, .link, .ldr, .nvm, .rcd, .draw, .ka] s (kaMonitorRun a0 s) := by
  unfold kaMonitorRun
  try dsimp only
  refine within_ite ?_ ?_
  · refine Within.step ?_ (within_chargerRun _ _) (by decide)
    refine Within.step ?_ (within_sealCheck _ _) (by decide)
    exact Within.mono (within_set_ka _ _) (by decide)
  · exact Within.refl

theorem within_allDown (a0 : Phase) (s : State) : Within [.free, .settings, .coef, .tempTab, .tiles, .rails, .pwr, .test, .map, .hk, .tel, .ev, .bus, .link, .ldr, .nvm, .jrn, .xm, .rcd, .draw, .ka, .sync] s (allDown a0 s) := by
  unfold allDown
  try dsimp only
  refine Within.step ?_ (within_clearDevice _ _) (by decide)
  refine Within.step ?_ (within_set_pwr_ka _ _ _) (by decide)
  refine Within.step ?_ (within_snapshotReset _ _) (by decide)
  exact Within.mono (within_burstCut _) (by decide)

theorem within_kaSourceLoss (s : State) : Within [.free, .settings, .coef, .tempTab, .tiles, .rails, .pwr, .test, .map, .hk, .tel, .ev, .bus, .link, .ldr, .nvm, .jrn, .xm, .rcd, .draw, .ka, .sync] s (kaSourceLoss s) := by
  unfold kaSourceLoss
  try dsimp only
  refine within_ite ?_ ?_
  · refine within_ite ?_ ?_
    · refine within_ite ?_ ?_
      · exact Within.mono (within_set_ka _ _) (by decide)
      · refine Within.step ?_ (within_inBrumation _) (by decide)
        refine Within.step ?_ (within_snapshotReset _ _) (by decide)
        refine Within.step ?_ (within_burstCut _) (by decide)
        exact Within.mono (within_set_ka _ _) (by decide)
    · exact Within.mono (within_set_ka _ _) (by decide)
  · exact Within.refl

theorem within_kaSourceReturn (s : State) : Within [.ka] s (kaSourceReturn s) := by
  unfold kaSourceReturn
  try dsimp only
  refine within_ite ?_ ?_
  · exact Within.mono (within_set_ka _ _) (by decide)
  · exact Within.refl

theorem within_kaSourceQualified (s : State) : Within [.tiles, .rails, .ev, .link, .rcd, .draw, .ka] s (kaSourceQualified s) := by
  unfold kaSourceQualified
  try dsimp only
  refine within_ite ?_ ?_
  · split
    · exact Within.mono (within_set_ka _ _) (by decide)
    · refine Within.step ?_ (within_chgLeave _) (by decide)
      refine within_ite ?_ ?_
      · refine Within.step ?_ (within_kaOccur _ _ _) (by decide)
        exact Within.mono (within_set_ka _ _) (by decide)
      · exact Within.mono (within_set_ka _ _) (by decide)
  · exact Within.refl

theorem within_cellCutoff (s : State) : Within [.free, .settings, .coef, .tempTab, .tiles, .rails, .pwr, .test, .map, .hk, .tel, .ev, .bus, .link, .ldr, .nvm, .jrn, .xm, .rcd, .draw, .ka, .sync] s (cellCutoff s) := by
  unfold cellCutoff
  try dsimp only
  refine within_ite ?_ ?_
  · split
    · refine within_ite ?_ ?_
      · refine Within.step ?_ (within_set_ka _ _) (by decide)
        exact Within.mono (within_allDown _ _) (by decide)
      · exact Within.refl
    · exact Within.refl
  · exact Within.refl

theorem within_kaPowerUp (a0 : Bool) (s : State) : Within [.settings, .coef, .tempTab, .tiles, .rails, .pwr, .test, .map, .hk, .tel, .ev, .bus, .link, .ldr, .nvm, .jrn, .xm, .rcd, .draw, .ka, .sync] s (kaPowerUp a0 s) := by
  unfold kaPowerUp
  try dsimp only
  refine within_ite ?_ ?_
  · refine Within.step ?_ (within_clearDevice _ _) (by decide)
    exact Within.mono (within_set_ka _ _) (by decide)
  · exact Within.refl

theorem within_brumationWake (a0 : Bool) (s : State) : Within [.free, .settings, .coef, .tempTab, .tiles, .rails, .pwr, .test, .map, .hk, .tel, .ev, .bus, .link, .ldr, .nvm, .jrn, .xm, .rcd, .draw, .ka, .sync] s (brumationWake a0 s) := by
  unfold brumationWake
  try dsimp only
  refine within_ite ?_ ?_
  · refine Within.step ?_ (within_clearDevice _ _) (by decide)
    refine Within.step ?_ (within_set_ka _ _) (by decide)
    refine Within.step ?_ (within_snapshotReset _ _) (by decide)
    refine Within.step ?_ (within_burstCut _) (by decide)
    exact Within.mono (within_runSettle _) (by decide)
  · refine within_ite ?_ ?_
    · refine Within.step ?_ (within_clearDevice _ _) (by decide)
      exact Within.mono (within_set_ka _ _) (by decide)
    · exact Within.refl

theorem within_rtcSettle (s : State) : Within [.ka] s (rtcSettle s) := by
  unfold rtcSettle
  try dsimp only
  exact Within.mono (within_set_ka _ _) (by decide)

theorem within_rtcRecord (a0 : HostId) (a1 : ℕ) (a2 : Word) (a3 : ℕ) (s : State) : Within [.ev] s (rtcRecord a0 a1 a2 a3 s) := by
  unfold rtcRecord
  try dsimp only
  exact Within.mono (within_enqueue _ _) (by decide)

theorem within_dropRtcRecord (s : State) : Within [.ev] s (dropRtcRecord s) := by
  unfold dropRtcRecord
  try dsimp only
  exact Within.mono (within_set_ev _ _) (by decide)

theorem within_rtcSet1Write (a0 : HostId) (a1 : Word) (s : State) : Within [.ev, .ka] s (rtcSet1Write a0 a1 s) := by
  unfold rtcSet1Write
  try dsimp only
  refine within_ite ?_ ?_
  · refine Within.step ?_ (within_rtcRecord _ _ _ _ _) (by decide)
    refine Within.step ?_ (within_set_ka _ _) (by decide)
    refine Within.step ?_ (within_dropRtcRecord _) (by decide)
    refine Within.step ?_ (within_rtcSettle _) (by decide)
    exact Within.mono (within_set_ka _ _) (by decide)
  · exact Within.mono (within_set_ka _ _) (by decide)

theorem within_rtcTrim (s : State) : Within [.ka] s (rtcTrim s) := by
  unfold rtcTrim
  try dsimp only
  refine within_ite ?_ ?_
  · refine Within.step ?_ (within_set_ka _ _) (by decide)
    exact Within.mono (within_rtcSettle _) (by decide)
  · exact Within.refl

theorem within_keyPress (s : State) : Within [.ka] s (keyPress s) := by
  unfold keyPress
  try dsimp only
  refine within_ite ?_ ?_
  · exact Within.mono (within_set_ka _ _) (by decide)
  · exact Within.refl

theorem within_openArm (s : State) : Within [.tiles, .rails, .ev, .link, .rcd, .ka] s (openArm s) := by
  unfold openArm
  try dsimp only
  refine Within.step ?_ (within_kaOccur _ _ _) (by decide)
  exact Within.mono (within_set_ka _ _) (by decide)

theorem within_keyRelease (s : State) : Within [.tiles, .rails, .ev, .link, .rcd, .ka] s (keyRelease s) := by
  unfold keyRelease
  try dsimp only
  refine within_ite ?_ ?_
  · refine within_ite ?_ ?_
    · exact Within.mono (within_set_ka _ _) (by decide)
    · refine within_ite ?_ ?_
      · refine Within.step ?_ (within_kaOccur _ _ _) (by decide)
        exact Within.mono (within_set_ka _ _) (by decide)
      · refine within_ite ?_ ?_
        · refine Within.step ?_ (within_kaOccur _ _ _) (by decide)
          exact Within.mono (within_set_ka _ _) (by decide)
        · refine within_ite ?_ ?_
          · refine Within.step ?_ (within_kaOccur _ _ _) (by decide)
            exact Within.mono (within_set_ka _ _) (by decide)
          · refine Within.step ?_ (within_openArm _) (by decide)
            exact Within.mono (within_set_ka _ _) (by decide)
  · exact Within.refl

theorem within_armExpiry (s : State) : Within [.tiles, .rails, .ev, .link, .ldr, .rcd, .ka] s (armExpiry s) := by
  unfold armExpiry
  try dsimp only
  split
  · refine within_ite ?_ ?_
    · exact Within.mono (within_endArm _ _) (by decide)
    · exact Within.refl
  · exact Within.refl

theorem within_svcCtlWrite (a0 : Word) (s : State) : Within [.tiles, .rails, .ev, .link, .ldr, .rcd, .ka] s (svcCtlWrite a0 s) := by
  unfold svcCtlWrite
  try dsimp only
  refine within_ite ?_ ?_
  · exact Within.mono (within_endArm _ _) (by decide)
  · exact Within.refl

theorem within_brumArm (a0 : HostId) (s : State) : Within [.tiles, .rails, .ev, .bus, .link, .nvm, .rcd, .draw, .ka] s (brumArm a0 s) := by
  unfold brumArm
  try dsimp only
  refine within_ite ?_ ?_
  · refine Within.step ?_ (within_writeResidue _) (by decide)
    refine Within.step ?_ (within_occur _ _ _) (by decide)
    exact Within.mono (within_set_ka _ _) (by decide)
  · exact Within.mono (within_refuse _ _) (by decide)

theorem within_disarmBrum (a0 : HostId) (s : State) : Within [.tiles, .rails, .ev, .link, .nvm, .rcd, .draw, .ka] s (disarmBrum a0 s) := by
  unfold disarmBrum
  try dsimp only
  refine Within.step ?_ (within_cancelResidue _) (by decide)
  refine Within.step ?_ (within_occur _ _ _) (by decide)
  exact Within.mono (within_set_ka _ _) (by decide)

theorem within_brumCtlWrite (a0 : HostId) (a1 : Word) (s : State) : Within [.tiles, .rails, .ev, .bus, .link, .nvm, .rcd, .draw, .ka] s (brumCtlWrite a0 a1 s) := by
  unfold brumCtlWrite
  try dsimp only
  refine within_ite ?_ ?_
  · refine Within.step ?_ (within_disarmBrum _ _) (by decide)
    refine within_ite ?_ ?_
    · exact Within.mono (within_brumArm _ _) (by decide)
    · exact Within.refl
  · refine within_ite ?_ ?_
    · exact Within.mono (within_brumArm _ _) (by decide)
    · exact Within.refl

theorem within_residueHourly (s : State) : Within [.nvm, .draw, .ka] s (residueHourly s) := by
  unfold residueHourly
  try dsimp only
  refine within_ite ?_ ?_
  · exact Within.mono (within_writeResidue _) (by decide)
  · exact Within.refl

theorem within_resetLevel (a0 : Bool) (s : State) : Within [.free, .settings, .coef, .tempTab, .tiles, .rails, .pwr, .test, .map, .hk, .tel, .ev, .bus, .link, .ldr, .nvm, .jrn, .xm, .rcd, .draw, .ka, .sync, .tap] s (resetLevel a0 s) := by
  unfold resetLevel
  try dsimp only
  refine Within.step ?_ (within_set_tap _ _) (by decide)
  refine within_ite ?_ ?_
  · exact Within.mono (within_pinReset _ _) (by decide)
  · refine within_ite ?_ ?_
    · exact Within.mono (within_set_pwr _ _) (by decide)
    · exact Within.refl

theorem within_tapLoad (a0 : TapLoad) (a1 : Bool) (s : State) : Within [.free, .settings, .coef, .tempTab, .tiles, .rails, .pwr, .test, .map, .hk, .tel, .ev, .bus, .link, .ldr, .nvm, .jrn, .xm, .rcd, .draw, .ka, .sync, .tap] s (tapLoad a0 a1 s) := by
  unfold tapLoad
  try dsimp only
  refine Within.step ?_ (within_set_tap _ _) (by decide)
  exact Within.mono (within_resetLevel _ _) (by decide)

theorem within_authorityEvents (a0 : Bool → Nat) (a1 s : State) : Within [.tiles, .rails, .ev, .link, .rcd] s (authorityEvents a0 a1 s) := by
  unfold authorityEvents
  dsimp only
  refine Within.trans ?_ (within_foldl (fun _ _ => ?_) _ _)
  · exact Within.refl
  · refine within_ite ?_ ?_
    · exact Within.mono (within_occur _ _ _) (by decide)
    · exact Within.refl

theorem within_setFallback (a0 : Bool) (s : State) : Within [.tiles, .rails, .ev, .link, .rcd] s (setFallback a0 s) := by
  unfold setFallback
  try dsimp only
  refine within_ite ?_ ?_
  · exact Within.refl
  · refine Within.step ?_ (within_authorityEvents _ _ _) (by decide)
    exact Within.mono (within_set_link _ _) (by decide)

theorem within_linkAuthSet (a0 : Word) (s : State) : Within [.settings, .tiles, .rails, .ev, .link, .rcd] s (linkAuthSet a0 s) := by
  unfold linkAuthSet
  try dsimp only
  refine Within.step ?_ (within_authorityEvents _ _ _) (by decide)
  exact Within.mono (within_putWord _ _ _) (by decide)

theorem within_linkCfgSet (a0 : Word) (s : State) : Within [.settings, .tiles, .rails, .ev, .link, .rcd] s (linkCfgSet a0 s) := by
  unfold linkCfgSet
  try dsimp only
  refine Within.step ?_ (within_authorityEvents _ _ _) (by decide)
  exact Within.mono (within_putWord _ _ _) (by decide)

theorem within_takeTarget (a0 : RailId) (a1 : ℕ) (a2 : Bool) (s : State) : Within [.settings, .tiles, .rails, .ev, .link, .rcd] s (takeTarget a0 a1 a2 s) := by
  unfold takeTarget
  try dsimp only
  refine within_ite ?_ ?_
  · refine Within.step ?_ (within_closeWatch _ _ _ _ _ (fun e d x => within_occur e d x)) (by decide)
    refine Within.step ?_ (within_State_modEng _ _ _) (by decide)
    exact Within.mono (within_putWord _ _ _) (by decide)
  · refine Within.step ?_ (within_State_modEng _ _ _) (by decide)
    exact Within.mono (within_putWord _ _ _) (by decide)

theorem within_pushAck (a0 : Byte) (a1 : RailId) (a2 : ℕ) (a3 : BitVec 16) (s : State) : Within [.link] s (pushAck a0 a1 a2 a3 s) := by
  unfold pushAck
  try dsimp only
  exact Within.mono (within_set_link _ _) (by decide)

theorem within_answer (a0 : Byte) (a1 : RailId) (a2 : BitVec 16) (a3 : ℕ) (a4 : BitVec 16) (s : State) : Within [.tiles, .rails, .ev, .link, .rcd] s (answer a0 a1 a2 a3 a4 s) := by
  unfold answer
  try dsimp only
  refine within_ite ?_ ?_
  · exact Within.mono (within_pushAck _ _ _ _ _) (by decide)
  · refine Within.step ?_ (within_occur _ _ _) (by decide)
    refine Within.step ?_ (within_set_link _ _) (by decide)
    exact Within.mono (within_pushAck _ _ _ _ _) (by decide)

theorem within_openWatch (a0 : RailId) (a1 : Byte) (s : State) : Within [.tiles, .rails, .ev, .link, .rcd] s (openWatch a0 a1 s) := by
  unfold openWatch
  try dsimp only
  split
  · exact Within.mono (within_State_modRail _ _ _) (by decide)
  · exact Within.mono (within_State_modRail _ _ _) (by decide)
  · exact Within.mono (within_State_modRail _ _ _) (by decide)
  · exact Within.mono (within_State_modRail _ _ _) (by decide)
  · refine Within.step ?_ (within_abandonWatch _ _ _ (fun e d x => within_occur e d x)) (by decide)
    exact Within.mono (within_State_modRail _ _ _) (by decide)

theorem within_settleTimeout (a0 : RailId) (s : State) : Within [.tiles, .rails, .ev, .link, .rcd] s (settleTimeout a0 s) := by
  unfold settleTimeout
  try dsimp only
  split
  · exact Within.refl
  · refine within_ite ?_ ?_
    · refine Within.step ?_ (within_closeWatch _ _ _ _ _ (fun e d x => within_occur e d x)) (by decide)
      exact Within.mono (within_occur _ _ _) (by decide)
    · exact Within.refl

theorem within_acceptTarget (a0 : Byte) (a1 : RailId) (a2 : Bool) (a3 : BitVec 16) (s : State) : Within [.settings, .tiles, .rails, .ev, .link, .rcd] s (acceptTarget a0 a1 a2 a3 s) := by
  unfold acceptTarget
  try dsimp only
  refine within_ite ?_ ?_
  · refine Within.step ?_ (within_openWatch _ _ _) (by decide)
    refine Within.step ?_ (within_answer _ _ _ _ _ _) (by decide)
    refine Within.step ?_ (within_State_modRail _ _ _) (by decide)
    refine within_ite ?_ ?_
    · refine Within.step ?_ (within_closeWatch _ _ _ _ _ (fun e d x => within_occur e d x)) (by decide)
      exact Within.mono (within_takeTarget _ _ _ _) (by decide)
    · exact Within.mono (within_takeTarget _ _ _ _) (by decide)
  · refine Within.step ?_ (within_answer _ _ _ _ _ _) (by decide)
    refine Within.step ?_ (within_State_modRail _ _ _) (by decide)
    refine within_ite ?_ ?_
    · refine Within.step ?_ (within_closeWatch _ _ _ _ _ (fun e d x => within_occur e d x)) (by decide)
      exact Within.mono (within_takeTarget _ _ _ _) (by decide)
    · exact Within.mono (within_takeTarget _ _ _ _) (by decide)

theorem within_duplicate (a0 : Byte) (a1 : RailId) (a2 : BitVec 16) (s : State) : Within [.tiles, .rails, .ev, .link, .rcd] s (duplicate a0 a1 a2 s) := by
  unfold duplicate
  try dsimp only
  split
  · refine within_ite ?_ ?_
    · refine Within.step ?_ (within_pushSettled _ _ _ (fun e d x => within_occur e d x)) (by decide)
      refine Within.step ?_ (within_answer _ _ _ _ _ _) (by decide)
      exact Within.mono (within_set_link _ _) (by decide)
    · refine Within.step ?_ (within_answer _ _ _ _ _ _) (by decide)
      exact Within.mono (within_set_link _ _) (by decide)
  · refine Within.step ?_ (within_answer _ _ _ _ _ _) (by decide)
    exact Within.mono (within_set_link _ _) (by decide)

theorem within_judgeTarget (a0 : Byte) (a1 : RailId) (a2 : BitVec 5) (a3 : BitVec 16) (s : State) : Within [.settings, .tiles, .rails, .ev, .link, .rcd] s (judgeTarget a0 a1 a2 a3 s) := by
  unfold judgeTarget
  try dsimp only
  refine within_ite ?_ ?_
  · exact Within.mono (within_answer _ _ _ _ _ _) (by decide)
  · refine within_ite ?_ ?_
    · exact Within.mono (within_answer _ _ _ _ _ _) (by decide)
    · refine within_ite ?_ ?_
      · exact Within.mono (within_duplicate _ _ _ _) (by decide)
      · refine within_ite ?_ ?_
        · exact Within.mono (within_answer _ _ _ _ _ _) (by decide)
        · refine within_ite ?_ ?_
          · exact Within.mono (within_answer _ _ _ _ _ _) (by decide)
          · exact Within.mono (within_acceptTarget _ _ _ _ _) (by decide)

theorem within_judgeQuery (a0 : Byte) (a1 : RailId) (a2 : BitVec 5) (a3 : BitVec 16) (s : State) : Within [.tiles, .rails, .ev, .link, .rcd] s (judgeQuery a0 a1 a2 a3 s) := by
  unfold judgeQuery
  try dsimp only
  split
  · exact Within.mono (within_answer _ _ _ _ _ _) (by decide)
  · refine within_ite ?_ ?_
    · exact Within.mono (within_answer _ _ _ _ _ _) (by decide)
    · refine within_ite ?_ ?_
      · exact Within.mono (within_answer _ _ _ _ _ _) (by decide)
      · exact Within.mono (within_answer _ _ _ _ _ _) (by decide)

theorem within_judgePing (a0 : Byte) (a1 : RailId) (a2 : BitVec 5) (a3 : BitVec 16) (s : State) : Within [.tiles, .rails, .ev, .link, .rcd] s (judgePing a0 a1 a2 a3 s) := by
  unfold judgePing
  try dsimp only
  refine within_ite ?_ ?_
  · exact Within.mono (within_answer _ _ _ _ _ _) (by decide)
  · exact Within.mono (within_answer _ _ _ _ _ _) (by decide)

theorem within_clkRuns (s : State) : Within [.link] s (clkRuns s) := by
  unfold clkRuns
  try dsimp only
  refine within_ite ?_ ?_
  · exact Within.mono (within_set_link _ _) (by decide)
  · exact Within.refl

theorem within_frameAccepted (s : State) : Within [.tiles, .rails, .ev, .link, .rcd] s (frameAccepted s) := by
  unfold frameAccepted
  try dsimp only
  refine within_ite ?_ ?_
  · refine Within.step ?_ (within_occur _ _ _) (by decide)
    exact Within.mono (within_set_link _ _) (by decide)
  · exact Within.mono (within_set_link _ _) (by decide)

theorem within_judgeFrame (a0 : Byte) (a1 : Byte) (a2 : RailId) (a3 : BitVec 5) (a4 : BitVec 16) (s : State) : Within [.settings, .tiles, .rails, .ev, .link, .rcd] s (judgeFrame a0 a1 a2 a3 a4 s) := by
  unfold judgeFrame
  try dsimp only
  refine within_ite ?_ ?_
  · refine within_ite ?_ ?_
    · refine Within.step ?_ (within_judgeTarget _ _ _ _ _) (by decide)
      refine Within.step ?_ (within_frameAccepted _) (by decide)
      exact Within.mono (within_clkRuns _) (by decide)
    · refine within_ite ?_ ?_
      · refine Within.step ?_ (within_judgeQuery _ _ _ _ _) (by decide)
        refine Within.step ?_ (within_frameAccepted _) (by decide)
        exact Within.mono (within_clkRuns _) (by decide)
      · refine within_ite ?_ ?_
        · refine Within.step ?_ (within_judgePing _ _ _ _ _) (by decide)
          refine Within.step ?_ (within_frameAccepted _) (by decide)
          exact Within.mono (within_clkRuns _) (by decide)
        · refine Within.step ?_ (within_answer _ _ _ _ _ _) (by decide)
          refine Within.step ?_ (within_frameAccepted _) (by decide)
          exact Within.mono (within_clkRuns _) (by decide)
  · exact Within.mono (within_clkRuns _) (by decide)

theorem within_linkFrameError (a0 : BitVec 48) (a1 : Bool) (s : State) : Within [.settings, .tiles, .rails, .ev, .link, .rcd] s (linkFrameError a0 a1 s) := by
  unfold linkFrameError
  try dsimp only
  refine within_ite ?_ ?_
  · refine within_ite ?_ ?_
    · refine Within.step ?_ (within_occur _ _ _) (by decide)
      refine Within.step ?_ (within_set_link _ _) (by decide)
      exact Within.mono (within_clkRuns _) (by decide)
    · refine within_ite ?_ ?_
      · refine Within.step ?_ (within_occur _ _ _) (by decide)
        refine Within.step ?_ (within_set_link _ _) (by decide)
        exact Within.mono (within_clkRuns _) (by decide)
      · refine Within.step ?_ (within_judgeFrame _ _ _ _ _ _) (by decide)
        exact Within.mono (within_clkRuns _) (by decide)
  · exact Within.mono (within_clkRuns _) (by decide)

theorem within_glClkStop (a0 : Bool) (a1 : Bool) (s : State) : Within [.tiles, .rails, .ev, .link, .rcd] s (glClkStop a0 a1 s) := by
  unfold glClkStop
  try dsimp only
  refine within_ite ?_ ?_
  · refine Within.step ?_ (within_occur _ _ _) (by decide)
    exact Within.mono (within_set_link _ _) (by decide)
  · exact Within.mono (within_set_link _ _) (by decide)

theorem within_sendAck (s : State) : Within [.link] s (sendAck s) := by
  unfold sendAck
  try dsimp only
  split
  · exact Within.refl
  · refine within_ite ?_ ?_
    · exact Within.mono (within_set_link _ _) (by decide)
    · exact Within.refl

theorem within_sendSettled (s : State) : Within [.rails, .link] s (sendSettled s) := by
  unfold sendSettled
  try dsimp only
  split
  · refine within_ite ?_ ?_
    · refine Within.step ?_ (within_State_modRail _ _ _) (by decide)
      exact Within.mono (within_set_link _ _) (by decide)
    · exact Within.refl
  · exact Within.refl

theorem within_loadLapse (s : State) : Within [.tiles, .rails, .ev, .link, .rcd] s (loadLapse s) := by
  unfold loadLapse
  try dsimp only
  split
  · refine within_ite ?_ ?_
    · refine Within.step ?_ (within_occur _ _ _) (by decide)
      exact Within.mono (within_set_link _ _) (by decide)
    · exact Within.refl
  · exact Within.refl

theorem within_claimRefuse (a0 : HostId) (a1 : ℕ) (s : State) : Within [.tiles, .rails, .ev, .bus, .link, .rcd] s (claimRefuse a0 a1 s) := by
  unfold claimRefuse
  try dsimp only
  refine Within.step ?_ (within_occur _ _ _) (by decide)
  refine Within.step ?_ (within_State_modHost _ _ _) (by decide)
  exact Within.mono (within_refuse _ _) (by decide)

theorem within_setOwner (a0 : Option HostId) (a1 : ℕ) (a2 : ℕ) (s : State) : Within [.tiles, .rails, .ev, .bus, .link, .ldr, .rcd] s (setOwner a0 a1 a2 s) := by
  unfold setOwner
  try dsimp only
  refine Within.step ?_ (within_replAbort _) (by decide)
  refine Within.step ?_ (within_occur _ _ _) (by decide)
  exact Within.mono (within_set_bus _ _) (by decide)

theorem within_claimWrite (a0 : HostId) (a1 : Word) (s : State) : Within [.tiles, .rails, .ev, .bus, .link, .ldr, .rcd] s (claimWrite a0 a1 s) := by
  unfold claimWrite
  try dsimp only
  refine within_ite ?_ ?_
  · split
    · exact Within.mono (within_setOwner _ _ _ _) (by decide)
    · refine within_ite ?_ ?_
      · exact Within.refl
      · refine within_ite ?_ ?_
        · exact Within.mono (within_setOwner _ _ _ _) (by decide)
        · refine within_ite ?_ ?_
          · exact Within.mono (within_setOwner _ _ _ _) (by decide)
          · exact Within.mono (within_claimRefuse _ _ _) (by decide)
  · refine within_ite ?_ ?_
    · exact Within.mono (within_setOwner _ _ _ _) (by decide)
    · exact Within.mono (within_refuse _ _) (by decide)

theorem within_hbWrite (a0 : HostId) (a1 : HostId) (a2 : Word) (s : State) : Within [.tiles, .rails, .ev, .bus, .link, .rcd] s (hbWrite a0 a1 a2 s) := by
  unfold hbWrite
  try dsimp only
  refine within_ite ?_ ?_
  · refine Within.step ?_ (within_setFallback _ _) (by decide)
    exact Within.mono (within_State_modHost _ _ _) (by decide)
  · exact Within.mono (within_refuse _ _) (by decide)

theorem within_heartbeatLapse (a0 : HostId) (s : State) : Within [.tiles, .rails, .ev, .bus, .link, .rcd] s (heartbeatLapse a0 s) := by
  unfold heartbeatLapse
  try dsimp only
  split
  · exact Within.refl
  · refine within_ite ?_ ?_
    · refine within_ite ?_ ?_
      · refine Within.step ?_ (within_occur _ _ _) (by decide)
        exact Within.mono (within_State_modHost _ _ _) (by decide)
      · refine Within.step ?_ (within_setFallback _ _) (by decide)
        refine Within.step ?_ (within_occur _ _ _) (by decide)
        exact Within.mono (within_State_modHost _ _ _) (by decide)
    · exact Within.refl

theorem within_seqRewrite (a0 : RailId) (a1 : Word) (s : State) : Within [.rails] s (seqRewrite a0 a1 s) := by
  unfold seqRewrite
  try dsimp only
  exact Within.mono (within_State_modSeq _ _ _) (by decide)

theorem within_seqWrite (a0 : RailId) (a1 : Word) (s : State) : Within [.settings, .tiles, .rails, .ev, .link, .rcd] s (seqWrite a0 a1 s) := by
  unfold seqWrite
  try dsimp only
  refine Within.step ?_ (within_resumeStops _ _ (fun e d x => within_occur e d x)) (by decide)
  refine Within.step ?_ (within_lenJudge _ _ _) (by decide)
  refine Within.step ?_ (within_seqRewrite _ _ _) (by decide)
  exact Within.mono (within_putWord _ _ _) (by decide)

theorem within_regionWrite (a0 : RailId) (a1 : Word) (s : State) : Within [.settings, .rails] s (regionWrite a0 a1 s) := by
  unfold regionWrite
  try dsimp only
  refine within_ite ?_ ?_
  · refine Within.step ?_ (within_takeEntry _ _ _) (by decide)
    refine Within.step ?_ (within_State_modMo _ _ _) (by decide)
    exact Within.mono (within_putWord _ _ _) (by decide)
  · exact Within.mono (within_putWord _ _ _) (by decide)

theorem within_limitWrite (a0 : RailId) (a1 : Word) (s : State) : Within [.settings, .tiles, .rails, .ev, .link, .rcd] s (limitWrite a0 a1 s) := by
  unfold limitWrite
  try dsimp only
  refine Within.step ?_ (within_throttleBegin _ _ _) (by decide)
  refine Within.step ?_ (within_feedforward _ _) (by decide)
  exact Within.mono (within_putWord _ _ _) (by decide)

theorem within_settingWrite (a0 : TileId) (a1 : TileSetting) (a2 : TileReg) (a3 : Word) (s : State) : Within [.settings, .tiles] s (settingWrite a0 a1 a2 a3 s) := by
  unfold settingWrite
  try dsimp only
  refine Within.step ?_ (within_State_modTile _ _ _) (by decide)
  exact Within.mono (within_putWord _ _ _) (by decide)

theorem within_holdAlert (s : State) : Within [.ev] s (holdAlert s) := by
  unfold holdAlert
  try dsimp only
  refine within_ite ?_ ?_
  · exact Within.mono (within_set_ev _ _) (by decide)
  · exact Within.refl

theorem within_storeWord (a0 : Reg) (a1 : Word) (s : State) : Within [.settings, .tiles, .rails, .ev, .link, .ldr, .nvm, .rcd, .draw, .ka, .sync] s (storeWord a0 a1 s) := by
  unfold storeWord
  try dsimp only
  split
  · refine Within.step ?_ (within_feedforward _ _) (by decide)
    exact Within.mono (within_putWord _ _ _) (by decide)
  · exact Within.mono (within_limitWrite _ _ _) (by decide)
  · exact Within.mono (within_seqWrite _ _ _) (by decide)
  · refine Within.step ?_ (within_lockOff _ _) (by decide)
    exact Within.mono (within_putWord _ _ _) (by decide)
  · refine Within.step ?_ (within_syncInOff _) (by decide)
    exact Within.mono (within_putWord _ _ _) (by decide)
  · exact Within.mono (within_regionWrite _ _ _) (by decide)
  · exact Within.mono (within_settingWrite _ _ _ _ _) (by decide)
  · exact Within.mono (within_settingWrite _ _ _ _ _) (by decide)
  · exact Within.mono (within_settingWrite _ _ _ _ _) (by decide)
  · exact Within.mono (within_settingWrite _ _ _ _ _) (by decide)
  · exact Within.mono (within_linkCfgSet _ _) (by decide)
  · refine Within.step ?_ (within_set_ka _ _) (by decide)
    exact Within.mono (within_putWord _ _ _) (by decide)
  · refine Within.step ?_ (within_set_ka _ _) (by decide)
    exact Within.mono (within_putWord _ _ _) (by decide)
  · exact Within.mono (within_set_ka _ _) (by decide)
  · exact Within.mono (within_set_ka _ _) (by decide)
  · refine Within.step ?_ (within_putWord _ _ _) (by decide)
    exact Within.mono (within_holdAlert _) (by decide)
  · refine within_ite ?_ ?_
    · exact Within.refl
    · refine Within.step ?_ (within_fsumChanged _) (by decide)
      exact Within.mono (within_set_ldr _ _) (by decide)
  · exact Within.mono (within_putWord _ _ _) (by decide)

theorem within_clearW1c (a0 : Reg) (a1 : Word) (s : State) : Within [.tiles, .rails, .pwr, .test, .map, .hk, .ev, .bus, .nvm, .jrn, .xm, .ka, .sync] s (clearW1c a0 a1 s) := by
  unfold clearW1c
  try dsimp only
  split
  · exact Within.mono (within_State_modEng _ _ _) (by decide)
  · exact Within.mono (within_State_modProt _ _ _) (by decide)
  · exact Within.mono (within_State_modFe _ _ _) (by decide)
  · exact Within.mono (within_State_modLeap _ _ _) (by decide)
  · exact Within.mono (within_State_modTile _ _ _) (by decide)
  · exact Within.mono (within_State_modTile _ _ _) (by decide)
  · exact Within.mono (within_set_pwr _ _) (by decide)
  · exact Within.mono (within_set_sync _ _) (by decide)
  · refine Within.step ?_ (within_set_ev _ _) (by decide)
    exact Within.mono (within_holdAlert _) (by decide)
  · exact Within.mono (within_set_ev _ _) (by decide)
  · exact Within.mono (within_set_ka _ _) (by decide)
  · exact Within.mono (within_set_bus _ _) (by decide)
  · exact Within.mono (within_set_hk _ _) (by decide)
  · exact Within.mono (within_set_jrn _ _) (by decide)
  · exact Within.mono (within_set_xm _ _) (by decide)
  · exact Within.mono (within_set_nvm _ _) (by decide)
  · refine within_ite ?_ ?_
    · exact Within.mono (within_set_ka _ _) (by decide)
    · exact Within.refl
  · exact Within.mono (within_set_map _ _) (by decide)
  · exact Within.mono (within_set_test _ _) (by decide)
  · exact Within.refl

theorem within_plainWrite (a0 : HostId) (a1 : Reg) (a2 : Word) (s : State) : Within [.settings, .tiles, .rails, .pwr, .test, .map, .hk, .ev, .bus, .link, .ldr, .nvm, .jrn, .xm, .rcd, .draw, .ka, .sync] s (plainWrite a0 a1 a2 s) := by
  unfold plainWrite
  try dsimp only
  refine within_ite ?_ ?_
  · refine within_ite ?_ ?_
    · exact Within.mono (within_clearW1c _ _ _) (by decide)
    · refine Within.step ?_ (within_storeWord _ _ _) (by decide)
      exact Within.mono (within_clearW1c _ _ _) (by decide)
  · refine Within.step ?_ (within_refuse _ _) (by decide)
    refine within_ite ?_ ?_
    · exact Within.mono (within_clearW1c _ _ _) (by decide)
    · refine Within.step ?_ (within_storeWord _ _ _) (by decide)
      exact Within.mono (within_clearW1c _ _ _) (by decide)

theorem within_targetWrite (a0 : HostId) (a1 : RailId) (a2 : Word) (s : State) : Within [.settings, .tiles, .rails, .ev, .bus, .link, .rcd] s (targetWrite a0 a1 a2 s) := by
  unfold targetWrite
  try dsimp only
  refine within_ite ?_ ?_
  · exact Within.mono (within_refuse _ _) (by decide)
  · exact Within.mono (within_takeTarget _ _ _ _) (by decide)

theorem within_coefDataWrite (a0 : HostId) (a1 : RailId) (a2 : Word) (s : State) : Within [.coef, .bus] s (coefDataWrite a0 a1 a2 s) := by
  unfold coefDataWrite
  try dsimp only
  refine within_ite ?_ ?_
  · exact Within.mono (within_set_coef _ _) (by decide)
  · exact Within.mono (within_refuse _ _) (by decide)

theorem within_safeEntryStored (a0 : ℕ) (s : State) : Within [.rails] s (safeEntryStored a0 s) := by
  unfold safeEntryStored
  try dsimp only
  refine within_ite ?_ ?_
  · refine within_ite ?_ ?_
    · exact Within.mono (within_takeEntry _ _ _) (by decide)
    · exact Within.refl
  · exact Within.refl

theorem within_mapDataStore (a0 : HostId) (a1 : Word) (s : State) : Within [.rails, .map, .bus] s (mapDataStore a0 a1 s) := by
  unfold mapDataStore
  try dsimp only
  refine within_ite ?_ ?_
  · refine Within.step ?_ (within_safeEntryStored _ _) (by decide)
    exact Within.mono (within_set_map _ _) (by decide)
  · exact Within.mono (within_refuse _ _) (by decide)

theorem within_tripLatchWrite (a0 : HostId) (a1 : TileId) (a2 : Word) (s : State) : Within [.tiles, .bus] s (tripLatchWrite a0 a1 a2 s) := by
  unfold tripLatchWrite
  try dsimp only
  refine within_ite ?_ ?_
  · refine within_ite ?_ ?_
    · exact Within.mono (within_refuse _ _) (by decide)
    · exact Within.mono (within_State_modTile _ _ _) (by decide)
  · exact Within.refl

theorem within_classClear (a0 : HostId) (a1 : Reg) (a2 : Nat) (a3 : State → State) (a4 : Word) (s : State)
    (hr : ∀ x, Within [.tiles, .rails, .pwr, .test, .map, .hk, .ev, .bus, .nvm, .jrn, .xm, .draw, .ka, .sync] x (a3 x)) : Within [.tiles, .rails, .pwr, .test, .map, .hk, .ev, .bus, .nvm, .jrn, .xm, .draw, .ka, .sync] s (classClear a0 a1 a2 a3 a4 s) := by
  unfold classClear
  dsimp only
  refine within_ite (within_ite ?_ ?_) ?_
  · exact Within.trans (Within.mono (within_clearW1c _ _ _) (by decide)) (hr _)
  · exact Within.trans (Within.mono (within_clearW1c _ _ _) (by decide)) (Within.mono (within_refuse _ _) (by decide))
  · exact Within.mono (within_clearW1c _ _ _) (by decide)

theorem within_snsCalWrite (a0 : HostId) (a1 : RailId) (a2 : Word) (s : State) : Within [.settings, .tiles, .rails, .pwr, .test, .map, .hk, .ev, .bus, .link, .ldr, .nvm, .jrn, .xm, .rcd, .draw, .ka, .sync] s (snsCalWrite a0 a1 a2 s) := by
  unfold snsCalWrite
  try dsimp only
  refine within_ite ?_ ?_
  · exact Within.mono (within_refuse _ _) (by decide)
  · exact Within.mono (within_plainWrite _ _ _ _) (by decide)

theorem within_xchkWrite (a0 : HostId) (a1 : Word) (s : State) : Within [.hk, .bus] s (xchkWrite a0 a1 s) := by
  unfold xchkWrite
  try dsimp only
  refine within_ite ?_ ?_
  · refine within_ite ?_ ?_
    · exact Within.mono (within_set_hk _ _) (by decide)
    · exact Within.mono (within_refuse _ _) (by decide)
  · exact Within.refl

theorem within_jrnMove (a0 : HostId) (a1 : Word) (s : State) : Within [.bus] s (jrnMove a0 a1 s) := by
  unfold jrnMove
  try dsimp only
  split
  · exact Within.mono (within_moveOldest _ _) (by decide)
  · exact Within.mono (within_moveNewest _ _) (by decide)
  · exact Within.mono (within_refuse _ _) (by decide)

theorem within_writeReg (a0 : Bool) (a1 : HostId) (a2 : Reg) (a3 : Word) (s : State) : Within [.free, .settings, .coef, .tempTab, .tiles, .rails, .pwr, .test, .map, .hk, .tel, .ev, .bus, .link, .ldr, .nvm, .jrn, .xm, .rcd, .draw, .ka, .sync] s (writeReg a0 a1 a2 a3 s) := by
  unfold writeReg
  try dsimp only
  split
  · exact Within.mono (within_writeCmd _ _ _ _) (by decide)
  · exact Within.mono (within_targetWrite _ _ _ _) (by decide)
  · refine Within.step ?_ (within_requestSet _ _ _) (by decide)
    exact Within.mono (within_putWord _ _ _) (by decide)
  · exact Within.mono (within_snsCalWrite _ _ _ _) (by decide)
  · exact Within.mono (within_State_modHost _ _ _) (by decide)
  · exact Within.mono (within_coefDataWrite _ _ _ _) (by decide)
  · exact Within.mono (within_classClear _ _ _ _ _ _ (fun x => Within.mono (within_clearRailClass _ _ x) (by decide))) (by decide)
  · refine within_ite ?_ ?_
    · refine Within.step ?_ (within_autozeroAsk _ _ _) (by decide)
      exact Within.mono (within_clearW1c _ _ _) (by decide)
    · exact Within.mono (within_clearW1c _ _ _) (by decide)
  · exact Within.mono (within_classClear _ _ _ _ _ _ (fun x => Within.mono (within_clearTileClass _ _ x) (by decide))) (by decide)
  · exact Within.mono (within_tripLatchWrite _ _ _ _) (by decide)
  · exact Within.mono (within_admitWrite _ _ _ _ _) (by decide)
  · refine within_ite ?_ ?_
    · exact Within.mono (within_plainWrite _ _ _ _) (by decide)
    · exact Within.mono (within_refuse _ _) (by decide)
  · refine within_ite ?_ ?_
    · exact Within.mono (within_plainWrite _ _ _ _) (by decide)
    · exact Within.mono (within_refuse _ _) (by decide)
  · exact Within.mono (within_pwrCmd _ _ _ _) (by decide)
  · exact Within.mono (within_domCtlWrite _ _ _) (by decide)
  · exact Within.mono (within_rstCmdWrite _ _ _) (by decide)
  · exact Within.mono (within_svcCtlWrite _ _) (by decide)
  · exact Within.mono (within_claimWrite _ _ _) (by decide)
  · exact Within.mono (within_hbWrite _ _ _ _) (by decide)
  · exact Within.mono (within_hbWrite _ _ _ _) (by decide)
  · exact Within.mono (within_linkAuthSet _ _) (by decide)
  · exact Within.mono (within_xchkWrite _ _ _) (by decide)
  · refine within_ite ?_ ?_
    · exact Within.mono (within_clearPeaks _) (by decide)
    · exact Within.refl
  · exact Within.mono (within_State_modHost _ _ _) (by decide)
  · exact Within.mono (within_State_modHost _ _ _) (by decide)
  · exact Within.mono (within_State_modHost _ _ _) (by decide)
  · exact Within.mono (within_nvmIdxWrite _ _ _) (by decide)
  · exact Within.mono (within_xmIdxWrite _ _ _) (by decide)
  · exact Within.mono (within_mapDataStore _ _ _) (by decide)
  · exact Within.mono (within_nvmDataWrite _ _ _) (by decide)
  · exact Within.mono (within_nvmCmd _ _ _ _) (by decide)
  · exact Within.mono (within_jrnMove _ _ _) (by decide)
  · exact Within.mono (within_recCtl _ _ _) (by decide)
  · exact Within.mono (within_imgCtlWrite _ _ _ _) (by decide)
  · exact Within.mono (within_imgData _ _ _) (by decide)
  · exact Within.mono (within_rtcSet1Write _ _ _) (by decide)
  · refine within_ite ?_ ?_
    · exact Within.mono (within_chgClear _) (by decide)
    · exact Within.refl
  · exact Within.mono (within_brumCtlWrite _ _ _) (by decide)
  · refine within_ite ?_ ?_
    · exact Within.mono (within_bistAsk _ _) (by decide)
    · exact Within.refl
  · exact Within.mono (within_plainWrite _ _ _ _) (by decide)

theorem within_indexStep (a0 : HostId) (a1 : Reg) (s : State) : Within [.bus] s (indexStep a0 a1 s) := by
  unfold indexStep
  try dsimp only
  split
  · exact Within.mono (within_State_modHost _ _ _) (by decide)
  · exact Within.mono (within_State_modHost _ _ _) (by decide)
  · exact Within.mono (within_nvmAdvance _ _) (by decide)
  · exact Within.refl

theorem within_busWord (a0 : Bool) (a1 : HostId) (a2 : ℕ) (a3 : Word) (s : State) : Within [.free, .settings, .coef, .tempTab, .tiles, .rails, .pwr, .test, .map, .hk, .tel, .ev, .bus, .link, .ldr, .nvm, .jrn, .xm, .rcd, .draw, .ka, .sync] s (busWord a0 a1 a2 a3 s) := by
  unfold busWord
  try dsimp only
  refine within_ite ?_ ?_
  · exact Within.refl
  · split
    · refine within_ite ?_ ?_
      · exact Within.mono (within_refuse _ _) (by decide)
      · exact Within.mono (within_claimRefuse _ _ _) (by decide)
    · refine Within.step ?_ (within_indexStep _ _ _) (by decide)
      refine within_ite ?_ ?_
      · exact Within.mono (within_claimRefuse _ _ _) (by decide)
      · refine within_ite ?_ ?_
        · exact Within.mono (within_writeReg _ _ _ _ _) (by decide)
        · exact Within.mono (within_refuse _ _) (by decide)

theorem within_State_modEvSrc (s : State) (a1 : ℕ) (a2 : (EventSource → EventSource)) : Within [.ev] s (State.modEvSrc s a1 a2) := by
  unfold State.modEvSrc
  try dsimp only
  exact Within.mono (within_set_ev _ _) (by decide)

theorem within_readCommit (a0 : HostId) (a1 : Reg) (s : State) : Within [.tiles, .rails, .pwr, .test, .map, .tel, .ev, .bus, .link, .nvm, .jrn, .xm, .rcd, .draw, .ka, .sync] s (readCommit a0 a1 s) := by
  unfold readCommit
  try dsimp only
  split
  · exact Within.mono (within_State_modEng _ _ _) (by decide)
  · exact Within.mono (within_State_modProt _ _ _) (by decide)
  · exact Within.mono (within_State_modLeap _ _ _) (by decide)
  · exact Within.mono (within_State_modIlv _ _ _) (by decide)
  · exact Within.mono (within_State_modMo _ _ _) (by decide)
  · exact Within.mono (within_State_modTile _ _ _) (by decide)
  · exact Within.mono (within_State_modTile _ _ _) (by decide)
  · exact Within.mono (within_State_modTile _ _ _) (by decide)
  · exact Within.mono (within_State_modTile _ _ _) (by decide)
  · exact Within.mono (within_State_modTile _ _ _) (by decide)
  · exact Within.mono (within_set_pwr _ _) (by decide)
  · exact Within.mono (within_set_sync _ _) (by decide)
  · exact Within.mono (within_set_ev _ _) (by decide)
  · refine Within.step ?_ (within_State_modHost _ _ _) (by decide)
    exact Within.mono (within_State_modEvSrc _ _ _) (by decide)
  · exact Within.mono (within_set_ka _ _) (by decide)
  · exact Within.mono (within_set_draw _ _) (by decide)
  · exact Within.mono (within_set_bus _ _) (by decide)
  · exact Within.mono (within_State_modHost _ _ _) (by decide)
  · exact Within.mono (within_State_modHost _ _ _) (by decide)
  · exact Within.mono (within_set_bus _ _) (by decide)
  · exact Within.mono (within_set_link _ _) (by decide)
  · exact Within.mono (within_set_link _ _) (by decide)
  · exact Within.mono (within_set_tel _ _) (by decide)
  · exact Within.mono (within_State_modRailPeaks _ _ _) (by decide)
  · exact Within.mono (within_State_modRailPeaks _ _ _) (by decide)
  · exact Within.mono (within_State_modRailPeaks _ _ _) (by decide)
  · exact Within.mono (within_State_modRailPeaks _ _ _) (by decide)
  · exact Within.mono (within_State_modTilePeaks _ _ _) (by decide)
  · exact Within.mono (within_State_modTilePeaks _ _ _) (by decide)
  · exact Within.mono (within_set_jrn _ _) (by decide)
  · exact Within.mono (within_State_modHost _ _ _) (by decide)
  · refine within_ite ?_ ?_
    · exact Within.mono (within_popEntry _ _) (by decide)
    · exact Within.refl
  · exact Within.mono (within_set_xm _ _) (by decide)
  · refine within_ite ?_ ?_
    · exact Within.mono (within_xmAdvance _ _) (by decide)
    · exact Within.refl
  · exact Within.mono (within_set_rcd _ _) (by decide)
  · exact Within.mono (within_State_modHost _ _ _) (by decide)
  · exact Within.mono (within_set_nvm _ _) (by decide)
  · exact Within.mono (within_set_nvm _ _) (by decide)
  · exact Within.mono (within_set_ka _ _) (by decide)
  · exact Within.mono (within_set_map _ _) (by decide)
  · exact Within.mono (within_set_test _ _) (by decide)
  · exact Within.mono (within_set_test _ _) (by decide)
  · exact Within.mono (within_indexStep _ _ _) (by decide)

theorem within_checkEntry (a0 : HostId) (a1 : Ecc) (s : State) : Within [.tiles, .rails, .test, .ev, .link, .jrn, .rcd] s (checkEntry a0 a1 s) := by
  unfold checkEntry
  try dsimp only
  split
  · exact Within.refl
  · exact Within.mono (within_checkRing _ _ _) (by decide)

theorem within_checkFrames (a0 : HostId) (a1 : Ecc) (s : State) : Within [.tiles, .rails, .test, .ev, .link, .rcd] s (checkFrames a0 a1 s) := by
  unfold checkFrames
  try dsimp only
  refine within_ite ?_ ?_
  · split
    · exact Within.refl
    · exact Within.mono (within_recFixed _) (by decide)
    · exact Within.mono (within_recError _) (by decide)
  · exact Within.refl

theorem within_readSample (a0 : HostId) (a1 : Ecc) (a2 : Reg) (s : State) : Within [.tiles, .rails, .test, .map, .ev, .bus, .link, .jrn, .rcd] s (readSample a0 a1 a2 s) := by
  unfold readSample
  try dsimp only
  split
  · refine within_ite ?_ ?_
    · exact Within.refl
    · refine within_ite ?_ ?_
      · exact Within.mono (within_readTableWord _ _ _) (by decide)
      · refine within_ite ?_ ?_
        · refine Within.step ?_ (within_set_map _ _) (by decide)
          exact Within.mono (within_readMapWord _ _ _) (by decide)
        · exact Within.mono (within_readMapWord _ _ _) (by decide)
  · split
    · exact Within.refl
    · exact Within.mono (within_shadowFixed _) (by decide)
    · exact Within.mono (within_shadowError _ _) (by decide)
  · refine within_ite ?_ ?_
    · refine Within.step ?_ (within_loadEntry _ _) (by decide)
      exact Within.mono (within_checkEntry _ _ _) (by decide)
    · exact Within.refl
  · exact Within.mono (within_checkFrames _ _ _) (by decide)
  · exact Within.mono (within_set_bus _ _) (by decide)
  · exact Within.refl

theorem within_pointTo (a0 : HostId) (a1 : ℕ) (s : State) : Within [.bus] s (pointTo a0 a1 s) := by
  unfold pointTo
  try dsimp only
  exact Within.mono (within_State_modHost _ _ _) (by decide)

theorem within_addressPhase (a0 : HostId) (a1 : ℕ) (a2 : ℕ) (s : State) : Within [.bus] s (addressPhase a0 a1 a2 s) := by
  unfold addressPhase
  try dsimp only
  refine Within.step ?_ (within_set_bus _ _) (by decide)
  exact Within.mono (within_pointTo _ _ _) (by decide)

theorem within_sendWord (a0 : Word) (s : State) : Within [.bus] s (sendWord a0 s) := by
  unfold sendWord
  try dsimp only
  exact Within.mono (within_set_bus _ _) (by decide)

theorem within_readOne (a0 : HostId) (a1 : ℕ) (a2 : Ecc) (a3 : Bool) (s : State) : Within [.free, .tiles, .rails, .pwr, .test, .map, .tel, .ev, .bus, .link, .nvm, .jrn, .xm, .rcd, .draw, .ka, .sync] s (readOne a0 a1 a2 a3 s) := by
  unfold readOne
  dsimp only [State.drawFree]
  split
  · refine within_ite ?_ ?_
    · refine Within.step ?_ (within_pointTo _ _ _) (by decide)
      exact Within.mono (within_sendWord _ _) (by decide)
    · exact Within.mono (within_sendWord _ _) (by decide)
  · refine within_ite ?_ ?_
    · refine within_ite ?_ ?_
      · refine Within.step ?_ (within_pointTo _ _ _) (by decide)
        refine Within.step ?_ (within_readCommit _ _ _) (by decide)
        refine within_ite ?_ ?_
        · refine Within.step ?_ (within_sendWord _ _) (by decide)
          refine Within.step ?_ (within_set_free _ _) (by decide)
          exact Within.mono (within_readSample _ _ _ _) (by decide)
        · refine Within.step ?_ (within_sendWord _ _) (by decide)
          exact Within.mono (within_readSample _ _ _ _) (by decide)
      · refine within_ite ?_ ?_
        · refine Within.step ?_ (within_sendWord _ _) (by decide)
          refine Within.step ?_ (within_set_free _ _) (by decide)
          exact Within.mono (within_readSample _ _ _ _) (by decide)
        · refine Within.step ?_ (within_sendWord _ _) (by decide)
          exact Within.mono (within_readSample _ _ _ _) (by decide)
    · refine within_ite ?_ ?_
      · refine Within.step ?_ (within_pointTo _ _ _) (by decide)
        refine within_ite ?_ ?_
        · refine Within.step ?_ (within_indexStep _ _ _) (by decide)
          exact Within.mono (within_sendWord _ _) (by decide)
        · exact Within.mono (within_sendWord _ _) (by decide)
      · exact Within.mono (within_sendWord _ _) (by decide)

theorem within_readWords (a0 : HostId) (a1 a2 : Nat) (a3 : Bool) (a4 : List Ecc) (s : State) : Within [.free, .tiles, .rails, .pwr, .test, .map, .tel, .ev, .bus, .link, .nvm, .jrn, .xm, .rcd, .draw, .ka, .sync] s (readWords a0 a1 a2 a3 a4 s) := by
  induction a1 generalizing a2 a4 s with
  | zero => exact Within.refl
  | succ n ih =>
    cases n with
    | zero => exact Within.mono (within_readOne _ _ _ _ _) (by decide)
    | succ n =>
      exact Within.trans (Within.trans (Within.mono (within_readOne _ _ _ _ _) (by decide))
        (Within.mono (within_laterCycle _) (by decide))) (ih _ _ _)

theorem within_protoError (a0 : HostId) (a1 : ℕ) (s : State) : Within [.tiles, .rails, .ev, .bus, .link, .rcd] s (protoError a0 a1 s) := by
  unfold protoError
  try dsimp only
  refine Within.step ?_ (within_occur _ _ _) (by decide)
  exact Within.mono (within_set_bus _ _) (by decide)

theorem within_openRead (a0 : List Byte) (s : State) : Within [.bus] s (openRead a0 s) := by
  unfold openRead
  try dsimp only
  exact Within.mono (within_set_bus _ _) (by decide)

theorem within_surplusError (a0 : HostId) (a1 : ℕ) (s : State) : Within [.tiles, .rails, .ev, .bus, .link, .rcd] s (surplusError a0 a1 s) := by
  unfold surplusError
  try dsimp only
  refine Within.step ?_ (within_protoError _ _ _) (by decide)
  exact Within.mono (within_set_bus _ _) (by decide)

theorem within_showTrips (a0 : ℕ) (a1 : ℕ) (a2 : BitVec 48) (s : State) : Within [.tiles] s (showTrips a0 a1 a2 s) := by
  unfold showTrips
  try dsimp only
  refine within_ite ?_ ?_
  · exact Within.mono (within_State_mapTiles _ _) (by decide)
  · exact Within.refl

theorem within_readData (a0 : HostId) (a1 : ReadAccess) (s : State) : Within [.free, .tiles, .rails, .pwr, .test, .map, .tel, .ev, .bus, .link, .nvm, .jrn, .xm, .rcd, .draw, .ka, .sync] s (readData a0 a1 s) := by
  unfold readData
  try dsimp only
  refine within_ite ?_ ?_
  · refine Within.step ?_ (within_surplusError _ _ _) (by decide)
    refine within_ite ?_ ?_
    · refine Within.step ?_ (within_set_bus _ _) (by decide)
      refine Within.step ?_ (within_readWords _ _ _ _ _ _) (by decide)
      refine Within.step ?_ (within_set_bus _ _) (by decide)
      refine Within.step ?_ (within_openRead _ _) (by decide)
      refine Within.step ?_ (within_addressPhase _ _ _ _) (by decide)
      exact Within.mono (within_showTrips _ _ _ _) (by decide)
    · refine Within.step ?_ (within_set_bus _ _) (by decide)
      refine Within.step ?_ (within_readWords _ _ _ _ _ _) (by decide)
      refine Within.step ?_ (within_set_bus _ _) (by decide)
      refine Within.step ?_ (within_openRead _ _) (by decide)
      refine Within.step ?_ (within_addressPhase _ _ _ _) (by decide)
      exact Within.mono (within_showTrips _ _ _ _) (by decide)
  · refine within_ite ?_ ?_
    · refine Within.step ?_ (within_set_bus _ _) (by decide)
      refine Within.step ?_ (within_readWords _ _ _ _ _ _) (by decide)
      refine Within.step ?_ (within_set_bus _ _) (by decide)
      refine Within.step ?_ (within_openRead _ _) (by decide)
      refine Within.step ?_ (within_addressPhase _ _ _ _) (by decide)
      exact Within.mono (within_showTrips _ _ _ _) (by decide)
    · refine Within.step ?_ (within_set_bus _ _) (by decide)
      refine Within.step ?_ (within_readWords _ _ _ _ _ _) (by decide)
      refine Within.step ?_ (within_set_bus _ _) (by decide)
      refine Within.step ?_ (within_openRead _ _) (by decide)
      refine Within.step ?_ (within_addressPhase _ _ _ _) (by decide)
      exact Within.mono (within_showTrips _ _ _ _) (by decide)

theorem within_busRead (a0 : HostId) (a1 : ReadAccess) (s : State) : Within [.free, .tiles, .rails, .pwr, .test, .map, .tel, .ev, .bus, .link, .nvm, .jrn, .xm, .rcd, .draw, .ka, .sync] s (busRead a0 a1 s) := by
  unfold busRead
  try dsimp only
  refine within_ite ?_ ?_
  · exact Within.refl
  · refine within_ite ?_ ?_
    · refine Within.step ?_ (within_set_bus _ _) (by decide)
      refine Within.step ?_ (within_openRead _ _) (by decide)
      exact Within.mono (within_addressPhase _ _ _ _) (by decide)
    · exact Within.mono (within_readData _ _ _) (by decide)

theorem within_busWrite1 (a0 : Bool) (a1 : HostId) (a2 : ℕ) (a3 : Word) (s : State) : Within [.free, .settings, .coef, .tempTab, .tiles, .rails, .pwr, .test, .map, .hk, .tel, .ev, .bus, .link, .ldr, .nvm, .jrn, .xm, .rcd, .draw, .ka, .sync] s (busWrite1 a0 a1 a2 a3 s) := by
  unfold busWrite1
  try dsimp only
  refine within_ite ?_ ?_
  · exact Within.refl
  · refine Within.step ?_ (within_busWord _ _ _ _ _) (by decide)
    refine Within.step ?_ (within_pointTo _ _ _) (by decide)
    refine Within.step ?_ (within_set_bus _ _) (by decide)
    exact Within.mono (within_addressPhase _ _ _ _) (by decide)

theorem within_plainWords (a0 : HostId) (a1 : List Word) (a2 a3 : Nat) (s : State) : Within [.free, .settings, .coef, .tempTab, .tiles, .rails, .pwr, .test, .map, .hk, .tel, .ev, .bus, .link, .ldr, .nvm, .jrn, .xm, .rcd, .draw, .ka, .sync] s (plainWords a0 a1 a2 a3 s) := by
  induction a1 generalizing a2 a3 s with
  | nil => exact Within.refl
  | cons w ws ih =>
    cases a3 with
    | zero =>
      unfold plainWords
      exact Within.trans (Within.mono (within_set_bus _ _) (by decide)) (Within.mono (within_surplusError _ _ _) (by decide))
    | succ left =>
      unfold plainWords
      dsimp only
      refine Within.trans (Within.trans (Within.mono (within_pointTo a0 (a2 + 4) s) (by decide))
        (Within.mono (within_busWord true a0 a2 w _) (by decide))) ?_
      exact within_ite Within.refl (within_ite (Within.mono (within_set_bus _ _) (by decide))
        (Within.trans (Within.mono (within_laterCycle _) (by decide)) (ih _ _ _)))

theorem within_afterHold (s : State) : Within [.free, .settings, .coef, .tempTab, .tiles, .rails, .pwr, .test, .map, .hk, .tel, .ev, .bus, .link, .ldr, .nvm, .jrn, .xm, .rcd, .draw, .ka, .sync] s (afterHold s) := by
  unfold afterHold
  try dsimp only
  refine within_ite ?_ ?_
  · exact Within.refl
  · split
    · refine Within.step ?_ (within_plainWords _ _ _ _ _) (by decide)
      refine Within.step ?_ (within_laterCycle _) (by decide)
      exact Within.mono (within_set_bus _ _) (by decide)
    · exact Within.refl

theorem within_codedWords (a0 : HostId) (a1 : Nat) (a2 : List Word) (s : State) : Within [.free, .settings, .coef, .tempTab, .tiles, .rails, .pwr, .test, .map, .hk, .tel, .ev, .bus, .link, .ldr, .nvm, .jrn, .xm, .rcd, .draw, .ka, .sync] s (codedWords a0 a1 a2 s) := by
  induction a2 generalizing a1 s with
  | nil => exact Within.refl
  | cons w ws ih =>
    unfold codedWords
    exact within_ite (Within.trans (Within.trans (Within.mono (within_pointTo _ _ _) (by decide))
      (Within.mono (within_busWord _ _ _ _ _) (by decide))) (ih _ _)) Within.refl

theorem within_writePlain (a0 : HostId) (a1 : ℕ) (a2 : List Word) (s : State) : Within [.free, .settings, .coef, .tempTab, .tiles, .rails, .pwr, .test, .map, .hk, .tel, .ev, .bus, .link, .ldr, .nvm, .jrn, .xm, .rcd, .draw, .ka, .sync] s (writePlain a0 a1 a2 s) := by
  unfold writePlain
  try dsimp only
  refine Within.step ?_ (within_plainWords _ _ _ _ _) (by decide)
  refine Within.step ?_ (within_set_bus _ _) (by decide)
  exact Within.mono (within_addressPhase _ _ _ _) (by decide)

theorem within_writeCoded (a0 : HostId) (a1 : ℕ) (a2 : List Word) (a3 : Option Byte) (s : State) : Within [.free, .settings, .coef, .tempTab, .tiles, .rails, .pwr, .test, .map, .hk, .tel, .ev, .bus, .link, .ldr, .nvm, .jrn, .xm, .rcd, .draw, .ka, .sync] s (writeCoded a0 a1 a2 a3 s) := by
  unfold writeCoded
  try dsimp only
  refine within_ite ?_ ?_
  · refine Within.step ?_ (within_set_bus _ _) (by decide)
    exact Within.mono (within_addressPhase _ _ _ _) (by decide)
  · split
    · refine Within.step ?_ (within_set_bus _ _) (by decide)
      exact Within.mono (within_addressPhase _ _ _ _) (by decide)
    · refine within_ite ?_ ?_
      · refine Within.step ?_ (within_codedWords _ _ _ _) (by decide)
        refine Within.step ?_ (within_set_bus _ _) (by decide)
        exact Within.mono (within_addressPhase _ _ _ _) (by decide)
      · refine Within.step ?_ (within_occur _ _ _) (by decide)
        refine Within.step ?_ (within_set_bus _ _) (by decide)
        exact Within.mono (within_addressPhase _ _ _ _) (by decide)

theorem within_registerWrite (a0 : HostId) (a1 : Addr) (a2 : List Word) (a3 : Option Byte) (s : State) : Within [.free, .settings, .coef, .tempTab, .tiles, .rails, .pwr, .test, .map, .hk, .tel, .ev, .bus, .link, .ldr, .nvm, .jrn, .xm, .rcd, .draw, .ka, .sync] s (registerWrite a0 a1 a2 a3 s) := by
  unfold registerWrite
  try dsimp only
  refine within_ite ?_ ?_
  · exact Within.refl
  · refine within_ite ?_ ?_
    · exact Within.mono (within_writeCoded _ _ _ _ _) (by decide)
    · exact Within.mono (within_writePlain _ _ _ _) (by decide)

theorem within_closeTxn (s : State) : Within [.tel, .bus] s (closeTxn s) := by
  unfold closeTxn
  try dsimp only
  refine Within.step ?_ (within_telemetrySwap _) (by decide)
  exact Within.mono (within_set_bus _ _) (by decide)

theorem within_transactionEnd (a0 : HostId) (a1 : Bool) (a2 : Byte) (a3 : ℕ) (s : State) : Within [.tiles, .rails, .tel, .ev, .bus, .link, .rcd] s (transactionEnd a0 a1 a2 a3 s) := by
  unfold transactionEnd
  try dsimp only
  refine within_ite ?_ ?_
  · exact Within.refl
  · refine within_ite ?_ ?_
    · refine Within.step ?_ (within_protoError _ _ _) (by decide)
      refine Within.step ?_ (within_closeTxn _) (by decide)
      exact Within.mono (within_set_bus _ _) (by decide)
    · refine Within.step ?_ (within_closeTxn _) (by decide)
      exact Within.mono (within_set_bus _ _) (by decide)

theorem within_countSurplus (a0 : ℕ) (s : State) : Within [.tiles, .rails, .ev, .bus, .link, .rcd] s (countSurplus a0 s) := by
  unfold countSurplus
  try dsimp only
  split
  · exact Within.refl
  · refine within_ite ?_ ?_
    · refine Within.step ?_ (within_surplusError _ _ _) (by decide)
      exact Within.mono (within_set_bus _ _) (by decide)
    · exact Within.refl

theorem within_busInterrupt (a0 : HostId) (a1 : Byte) (s : State) : Within [.tiles, .rails, .tel, .ev, .bus, .link, .rcd] s (busInterrupt a0 a1 s) := by
  unfold busInterrupt
  try dsimp only
  refine within_ite ?_ ?_
  · refine Within.step ?_ (within_protoError _ _ _) (by decide)
    refine Within.step ?_ (within_closeTxn _) (by decide)
    exact Within.mono (within_countSurplus _ _) (by decide)
  · exact Within.refl

theorem within_interfaceReset (s : State) : Within [.tel, .bus] s (interfaceReset s) := by
  unfold interfaceReset
  try dsimp only
  refine Within.step ?_ (within_closeTxn _) (by decide)
  exact Within.mono (within_set_bus _ _) (by decide)

theorem within_busTimeout (a0 : Byte) (s : State) : Within [.tiles, .rails, .tel, .ev, .bus, .link, .rcd] s (busTimeout a0 s) := by
  unfold busTimeout
  try dsimp only
  refine within_ite ?_ ?_
  · refine Within.step ?_ (within_occur _ _ _) (by decide)
    refine Within.step ?_ (within_interfaceReset _) (by decide)
    refine Within.step ?_ (within_set_bus _ _) (by decide)
    exact Within.mono (within_countSurplus _ _) (by decide)
  · exact Within.refl

theorem within_sdaRelease (a0 : Byte) (s : State) : Within [.tiles, .rails, .tel, .ev, .bus, .link, .rcd] s (sdaRelease a0 s) := by
  unfold sdaRelease
  try dsimp only
  refine within_ite ?_ ?_
  · refine Within.step ?_ (within_occur _ _ _) (by decide)
    refine Within.step ?_ (within_interfaceReset _) (by decide)
    refine Within.step ?_ (within_set_bus _ _) (by decide)
    exact Within.mono (within_countSurplus _ _) (by decide)
  · exact Within.refl

theorem within_commitHoldLimit (s : State) : Within [.free, .settings, .coef, .tempTab, .tiles, .rails, .pwr, .test, .map, .hk, .tel, .ev, .bus, .link, .ldr, .nvm, .jrn, .xm, .rcd, .draw, .ka, .sync] s (commitHoldLimit s) := by
  unfold commitHoldLimit
  try dsimp only
  split
  · refine within_ite ?_ ?_
    · refine Within.step ?_ (within_afterHold _) (by decide)
      exact Within.mono (within_set_bus _ _) (by decide)
    · exact Within.refl
  · exact Within.refl

theorem within_writeAt (a0 : HostId) (a1 : Reg) (a2 : Word) (s : State) : Within [.free, .settings, .coef, .tempTab, .tiles, .rails, .pwr, .test, .map, .hk, .tel, .ev, .bus, .link, .ldr, .nvm, .jrn, .xm, .rcd, .draw, .ka, .sync] s (writeAt a0 a1 a2 s) := by
  unfold writeAt
  try dsimp only
  exact Within.mono (within_busWrite1 _ _ _ _ _) (by decide)

theorem within_readAt (a0 : HostId) (a1 : Reg) (a2 : Ecc) (s : State) : Within [.free, .tiles, .rails, .pwr, .test, .map, .tel, .ev, .bus, .link, .nvm, .jrn, .xm, .rcd, .draw, .ka, .sync] s (readAt a0 a1 a2 s) := by
  unfold readAt
  try dsimp only
  exact Within.mono (within_busRead _ _ _) (by decide)

theorem within_State_withVxio (s : State) (a1 : ℕ) : Within [.pwr] s (State.withVxio s a1) := by
  unfold State.withVxio
  try dsimp only
  exact Within.mono (within_set_pwr _ _) (by decide)

theorem within_tripLatchClear (a0 : HostId) (a1 : TileId) (a2 : Word) (a3 : Bool) (s : State) : Within [.free, .settings, .coef, .tempTab, .tiles, .rails, .pwr, .test, .map, .hk, .tel, .ev, .bus, .link, .ldr, .nvm, .jrn, .xm, .rcd, .draw, .ka, .sync] s (tripLatchClear a0 a1 a2 a3 s) := by
  unfold tripLatchClear
  try dsimp only
  refine Within.step ?_ (within_writeAt _ _ _ _) (by decide)
  refine within_ite ?_ ?_
  · exact Within.mono (within_State_modTile _ _ _) (by decide)
  · exact Within.refl

theorem within_State_addressed (s : State) (a1 : HostId) (a2 : ℕ) : Within [.bus] s (State.addressed s a1 a2) := by
  unfold State.addressed
  try dsimp only
  refine Within.step ?_ (within_set_bus _ _) (by decide)
  exact Within.mono (within_State_modHost _ _ _) (by decide)

theorem within_State_opened (s : State) (a1 : HostId) (a2 : ℕ) : Within [.bus] s (State.opened s a1 a2) := by
  unfold State.opened
  try dsimp only
  refine Within.step ?_ (within_set_bus _ _) (by decide)
  exact Within.mono (within_State_addressed _ _ _) (by decide)

end Sys2Proof.Machine
end

