-- ==== Sys2Proof/Laws/State.lean ====
section
/-! SUPPORT. What one change of a unit leaves: one lemma for each unit and update, so that no proof unfolds a record update. -/

set_option Elab.async false

namespace Sys2Proof.Machine

theorem modVec_get_same {α : Type} {n : Nat} (v : Vector α n) (i : Fin n) (f : α → α) : (modVec v i f).get i = f (v.get i) := by
  simp [modVec, Vector.get_eq_getElem]

theorem modVec_get_other {α : Type} {n : Nat} (v : Vector α n) {i j : Fin n} (f : α → α) (h : j ≠ i) :
    (modVec v i f).get j = v.get j := by
  have : i.val ≠ j.val := fun e => h (Fin.ext e.symm)
  simp [modVec, Vector.get_eq_getElem, Vector.getElem_set_ne, this]

theorem mapList_getElem {α : Type} (f : Nat → α → α) (i : Nat) (l : List α) (j : Nat) (hj : j < l.length) :
    (mapList f i l)[j]'(by rw [mapList_length]; exact hj) = f (i + j) l[j] := by
  induction l generalizing i j with
  | nil => exact absurd hj (Nat.not_lt_zero _)
  | cons a as ih =>
    cases j with
    | zero => rfl
    | succ j =>
      have := ih (i + 1) j (by simpa using hj)
      simpa [mapList, Nat.add_assoc, Nat.add_comm 1 j] using this

theorem mapVec_get {α : Type} {n : Nat} (f : Nat → α → α) (v : Vector α n) (i : Fin n) : (mapVec f v).get i = f i.val (v.get i) := by
  have h := mapList_getElem f 0 v.toList i.val (by simp)
  simpa [mapVec, Vector.get_eq_getElem] using h

@[simp] theorem tileOf_val (t : TileId) : tileOf t.val = t := Fin.ext (Nat.mod_eq_of_lt t.isLt)
@[simp] theorem railOf_val (k : RailId) : railOf k.val = k := Fin.ext (Nat.mod_eq_of_lt k.isLt)

@[simp] theorem modTile_tile (s : State) (t : TileId) (f : Tile → Tile) : (s.modTile t f).tile t = f (s.tile t) := modVec_get_same ..
theorem modTile_other (s : State) (t : TileId) (f : Tile → Tile) : OtherTiles t s (s.modTile t f) := fun _ h => modVec_get_other _ _ h
@[simp] theorem modTile_rail (s : State) (t : TileId) (f : Tile → Tile) (k : RailId) : (s.modTile t f).rail k = s.rail k := rfl
@[simp] theorem modRail_rail (s : State) (k : RailId) (f : Rail → Rail) : (s.modRail k f).rail k = f (s.rail k) := modVec_get_same ..
theorem modRail_other (s : State) (k : RailId) (f : Rail → Rail) : OtherRails k s (s.modRail k f) := fun _ h => modVec_get_other _ _ h
@[simp] theorem modRail_tile (s : State) (k : RailId) (f : Rail → Rail) (t : TileId) : (s.modRail k f).tile t = s.tile t := rfl
@[simp] theorem mapTiles_tile (s : State) (f : TileId → Tile → Tile) (t : TileId) : (s.mapTiles f).tile t = f t (s.tile t) := by
  simp [State.mapTiles, State.tile, mapVec_get]
@[simp] theorem mapRails_rail (s : State) (f : RailId → Rail → Rail) (k : RailId) : (s.mapRails f).rail k = f k (s.rail k) := by
  simp [State.mapRails, State.rail, mapVec_get]
@[simp] theorem modTilesOf_tile (s : State) (k : RailId) (f : Tile → Tile) (t : TileId) :
    (s.modTilesOf k f).tile t = if (s.tile t).rail == some k then f (s.tile t) else s.tile t := by
  simp [State.modTilesOf, State.tile, mapVec_get]
@[simp] theorem modTilesOf_rail (s : State) (k : RailId) (f : Tile → Tile) (j : RailId) : (s.modTilesOf k f).rail j = s.rail j := rfl

theorem modFe_rail (s : State) (k : RailId) (f : FrontEnd → FrontEnd) : (s.modFe k f).rail k = { s.rail k with fe := f (s.rail k).fe } :=
  modRail_rail ..
theorem modEng_rail (s : State) (k : RailId) (f : Engine → Engine) : (s.modEng k f).rail k = { s.rail k with eng := f (s.rail k).eng } :=
  modRail_rail ..
theorem modSeq_rail (s : State) (k : RailId) (f : Sequencer → Sequencer) : (s.modSeq k f).rail k = { s.rail k with seq := f (s.rail k).seq } :=
  modRail_rail ..
theorem modIlv_rail (s : State) (k : RailId) (f : Interleave → Interleave) :
    (s.modIlv k f).rail k = { s.rail k with ilv := f (s.rail k).ilv } := modRail_rail ..
theorem modMo_rail (s : State) (k : RailId) (f : Moult → Moult) : (s.modMo k f).rail k = { s.rail k with mo := f (s.rail k).mo } :=
  modRail_rail ..
theorem modProt_rail (s : State) (k : RailId) (f : RailProt → RailProt) : (s.modProt k f).rail k = { s.rail k with prot := f (s.rail k).prot } :=
  modRail_rail ..
theorem modLeap_rail (s : State) (k : RailId) (f : LeapUnit → LeapUnit) : (s.modLeap k f).rail k = { s.rail k with leap := f (s.rail k).leap } :=
  modRail_rail ..

@[simp] theorem advance_now (s : State) (x : Int) : (s.advance x).now = max s.now x.toNat := rfl
@[simp] theorem advance_tile (s : State) (x : Int) (t : TileId) : (s.advance x).tile t = s.tile t := rfl
@[simp] theorem advance_rail (s : State) (x : Int) (k : RailId) : (s.advance x).rail k = s.rail k := rfl

@[simp] theorem modHost_host (s : State) (h : HostId) (f : HostRegs → HostRegs) : (s.modHost h f).host h = f (s.host h) := by
  cases h <;> rfl
theorem modHost_other (s : State) {h g : HostId} (f : HostRegs → HostRegs) (hg : g ≠ h) : (s.modHost h f).host g = s.host g := by
  cases h <;> cases g <;> first | rfl | exact absurd rfl hg
@[simp] theorem refuse_host (h : HostId) (s : State) : (refuse h s).host h = (s.host h).refuse := modHost_host ..

/-- The last steps of an occurrence that stays inside the event system. -/
theorem quiet_tail {s y : State} {e : Nat} (h : Quiet s e) (hy : Within [.ev] s y) (raise : Raise) (a : State) :
    Within [.ev] s
      (if (evEn s e && decide (64 ≤ e)) = true then
        respAction raise (evResp (if (evEn s e && evRec y e) = true then a else y) e) (if (evEn s e && evRec y e) = true then a else y)
      else if (evEn s e && evRec y e) = true then a else y) := by
  have hs : y.settings = s.settings := hy .settings (by decide)
  have hr : evRec y e = evRec s e := by simp only [evRec, evByte, setWord, hs]
  have hp : evResp y e = evResp s e := by simp only [evResp, evByte, setWord, hs]
  have hz : (evEn s e && evRec y e) = false := by
    rcases h with h | h
    · simp [h]
    · simp [hr, h.1]
  simp only [hz, Bool.false_eq_true, if_false]
  rcases h with h | h
  · simpa [h] using hy
  · refine within_ite ?_ hy
    simp only [hp, respAction, if_neg h.2.1, if_neg h.2.2]
    exact hy

/-- An occurrence that stays inside the event system changes nothing outside it. -/
theorem occur_quiet {s : State} {e : Nat} (d : Word) (h : Quiet s e) : Within [.ev] s (occur e d s) := by
  unfold occur occurF
  dsimp only
  refine within_ite Within.refl (quiet_tail h ?_ _ _)
  refine Within.trans ?_ (within_ite ((within_markJrn _ _).trans (within_enqueue _ _)) Within.refl)
  exact Within.trans (within_markSrc e s) (within_ite (within_latchSrc _ _ _) Within.refl)

end Sys2Proof.Machine
end

