-- ==== Sys2Proof/Laws/Bus.lean ====
section
/-! SUPPORT. One-word writes and reads of the management bus: what the transaction itself changes, and which effect a judged word has. -/

set_option Elab.async false

namespace Sys2Proof.Machine

theorem pastStep1_of_core {s : State} (h : coreOn s = true) : pastStep1 s = true := by simp [pastStep1, h]
theorem busAnswers_of_core {s : State} (h : coreOn s = true) (hh : s.bus.holdFrom = none) : busAnswers s = true := by
  simp [busAnswers, pastStep1_of_core h, hh]

@[simp] theorem pointTo_host (h : HostId) (a : Nat) (s : State) : (pointTo h a s).host h = { s.host h with ptr := BitVec.ofNat 16 a } :=
  modHost_host ..
@[simp] theorem sendWord_sent (w : Word) (s : State) : (sendWord w s).bus.sent = s.bus.sent ++ [w] := rfl
@[simp] theorem sendWord_host (w : Word) (s : State) (h : HostId) : (sendWord w s).host h = s.host h := rfl

theorem addressed_within (s : State) (h : HostId) (a : Nat) : Within [.bus] s (s.addressed h a) := by
  cases h <;> exact within_set_bus s _
theorem opened_within (s : State) (h : HostId) (a : Nat) : Within [.bus] s (s.opened h a) := by
  cases h <;> exact within_set_bus s _
theorem opened_host (s : State) (h : HostId) (a : Nat) :
    (s.opened h a).host h = { s.host h with ptr := BitVec.ofNat 16 (a + 4) } := by cases h <;> rfl
theorem opened_host_other (s : State) {h g : HostId} (a : Nat) (hg : g ≠ h) : (s.opened h a).host g = s.host g := by
  cases h <;> cases g <;> first | rfl | exact absurd rfl hg
@[simp] theorem opened_owner (s : State) (h : HostId) (a : Nat) : (s.opened h a).bus.owner = s.bus.owner := by cases h <;> rfl
@[simp] theorem opened_chgCnt (s : State) (h : HostId) (a : Nat) : (s.opened h a).bus.chgCnt = s.bus.chgCnt := by cases h <;> rfl
@[simp] theorem opened_now (s : State) (h : HostId) (a : Nat) : (s.opened h a).now = s.now := by cases h <;> rfl
@[simp] theorem opened_settings (s : State) (h : HostId) (a : Nat) : (s.opened h a).settings = s.settings := by cases h <;> rfl
@[simp] theorem opened_pwr (s : State) (h : HostId) (a : Nat) : (s.opened h a).pwr = s.pwr := by cases h <;> rfl
@[simp] theorem opened_ka (s : State) (h : HostId) (a : Nat) : (s.opened h a).ka = s.ka := by cases h <;> rfl
@[simp] theorem opened_ldr (s : State) (h : HostId) (a : Nat) : (s.opened h a).ldr = s.ldr := by cases h <;> rfl
@[simp] theorem opened_ev (s : State) (h : HostId) (a : Nat) : (s.opened h a).ev = s.ev := by cases h <;> rfl
@[simp] theorem opened_rail (s : State) (h : HostId) (a : Nat) (k : RailId) : (s.opened h a).rail k = s.rail k := by cases h <;> rfl
@[simp] theorem opened_tile (s : State) (h : HostId) (a : Nat) (t : TileId) : (s.opened h a).tile t = s.tile t := by cases h <;> rfl

/-- Event settings depend on the register settings alone. -/
theorem quiet_congr {s t : State} (h : t.settings = s.settings) (e : Nat) : Quiet t e ↔ Quiet s e := by
  simp only [Quiet, evEn, evRec, evResp, evByte, setWord, h]

/-- The address bytes of a one-word write, with the pointer after the word. -/
theorem addressPhase_one (h : HostId) (a c : Nat) (s : State) :
    pointTo h (a + 4) { addressPhase h a 1 s with bus := { (addressPhase h a 1 s).bus with nak := false, codeAt := c } }
      = { s.addressed h a with bus := { (s.addressed h a).bus with nak := false, codeAt := c } } := by
  have e : (inTelemetry a || (decide (0 < 1) && inTelemetry (a + 4 * (1 - 1)))) = inTelemetry a := by simp
  unfold addressPhase State.addressed
  rw [e]
  cases h <;> rfl

/-- A one-word write by a host commits in the opened transaction. -/
theorem writeAt_eq (h : HostId) (r : Reg) (data : Word) (s : State) (hb : busAnswers s = true) :
    writeAt h r data s = busWord true h r.addr data (s.opened h r.addr) := by
  unfold writeAt busWrite1
  have hp : pecOn (addressPhase h r.addr 1 s) = pecOn s := by cases h <;> rfl
  simp only [hb, Bool.not_true, Bool.false_eq_true, if_false, addressPhase_one, hp]
  rfl

theorem registerWrite_one (h : HostId) (a : Addr) (w : Word) (pec : Option Byte) (s : State) (hb : busAnswers s = true)
    (hp : pecOn s = true → ∃ p, pec = some p ∧ p.toNat = pecOf s h a.toNat [w]) :
    registerWrite h a [w] pec s = busWord true h a.toNat w (s.opened h a.toNat) := by
  have ha : pastStep1 s = true := by simp only [busAnswers, Bool.and_eq_true] at hb; exact hb.1
  unfold registerWrite State.opened
  simp only [hb, Bool.not_true, Bool.false_eq_true, if_false]
  cases hpe : pecOn s with
  | false =>
    simp only [Bool.false_eq_true, if_false, writePlain, plainWords, true_or, if_true]
    exact congrArg (busWord true h a.toNat w) (addressPhase_one h a.toNat 0 s)
  | true =>
    obtain ⟨p, rfl, hq⟩ := hp hpe
    have h1 : pastStep1 { addressPhase h a.toNat 1 s with bus := { (addressPhase h a.toNat 1 s).bus with nak := false, codeAt := 5 } } = true := by
      rw [← ha]; cases h <;> rfl
    have h2 : pecOf (addressPhase h a.toNat 1 s) h a.toNat [w] = pecOf s h a.toNat [w] := by cases h <;> rfl
    have e : min [w].length 16 = 1 := rfl
    have e' : ¬ 16 < [w].length := by simp
    have e'' : 4 * [w].length + 1 = 5 := rfl
    simp only [if_true, writeCoded, e, e', e'', if_false, h2, hq, codedWords, h1]
    exact congrArg (busWord true h a.toNat w) (addressPhase_one h a.toNat 5 s)

/-- A word that passes its judgements has the effect of its register, and the index of a data register steps on. -/
theorem busWord_lands {s : State} {h : HostId} {r : Reg} {data : Word} (b : Bool) (hl : WordLands s h r data)
    (hd : decodeAddr r.addr = some r) :
    busWord b h r.addr data (s.opened h r.addr) = indexStep h r (writeReg b h r data (s.opened h r.addr)) := by
  obtain ⟨hc, _, ho, hr, he⟩ := hl
  have h1 : coreOn (s.opened h r.addr) = true := by simpa [coreOn] using hc
  have h2 : regLive (s.opened h r.addr) r = true := by
    rw [← hr]; unfold regLive domainOn groupOn bankOn; simp only [opened_pwr]
  have h3 : encOk (s.opened h r.addr).settings r (candidate (s.opened h r.addr) r data) = true := by
    rw [← he]; unfold candidate heldWord setWord; simp only [opened_settings, opened_ka, opened_ldr]
  have h4 : (!freeOfClaim h r && (s.opened h r.addr).bus.owner != some h) = false := by
    rcases ho with ho | ho <;> simp [ho]
  unfold busWord
  simp only [h1, hd, h4, h2, h3, Bool.not_true, Bool.false_eq_true, Bool.and_self, if_false, if_true]

theorem writeAt_lands {s : State} {h : HostId} {r : Reg} {data : Word} (hl : WordLands s h r data) (hd : decodeAddr r.addr = some r) :
    writeAt h r data s = indexStep h r (writeReg true h r data (s.opened h r.addr)) := by
  rw [writeAt_eq h r data s (busAnswers_of_core hl.1 hl.2.1), busWord_lands true hl hd]

end Sys2Proof.Machine
end

