-- ==== Sys2Proof/Laws/Image.lean ====
section
/-! SUPPORT. Numbers and checksums in bytes, a store read back, and what judges a copy that carries its own checksum. -/

set_option Elab.async false

namespace Sys2Proof.Machine

@[simp] theorem beBytes_length (n v : Nat) : (beBytes n v).length = n := by simp [beBytes]

theorem beNat_four (v : Nat) (h : v < 2 ^ 32) : beNat (beBytes 4 v) = v := by
  simp only [beBytes, List.range_succ, List.range_zero, List.nil_append, List.cons_append, List.map_cons, List.map_nil, beNat, List.foldl_cons,
    List.foldl_nil, BitVec.toNat_ofNat, Nat.shiftRight_eq_div_pow]
  omega

theorem beNat_two (v : Nat) (h : v < 65536) : beNat (beBytes 2 v) = v := by
  simp only [beBytes, List.range_succ, List.range_zero, List.nil_append, List.cons_append, List.map_cons, List.map_nil, beNat, List.foldl_cons,
    List.foldl_nil, BitVec.toNat_ofNat, Nat.shiftRight_eq_div_pow]
  omega

/-- The number that stands after the bytes `a`. -/
theorem numAt_append (a b r : List Byte) (i : Nat) (hi : a.length = i) : numAt (a ++ (b ++ r)) i b.length = beNat b := by
  subst hi; simp [numAt]

theorem crc32Byte_lt (c : Nat) (b : Byte) (h : c < 2 ^ 32) : crc32Byte c b < 2 ^ 32 := by
  have step : ∀ x < 2 ^ 32, (if x.testBit 0 then (x >>> 1) ^^^ 0xEDB88320 else x >>> 1) < 2 ^ 32 := by
    intro x hx
    have h1 : x >>> 1 < 2 ^ 32 := by rw [Nat.shiftRight_eq_div_pow]; omega
    split
    · exact Nat.xor_lt_two_pow h1 (by decide)
    · exact h1
  have fold : ∀ (l : List Nat) (x : Nat), x < 2 ^ 32 →
      l.foldl (fun c _ => if c.testBit 0 then (c >>> 1) ^^^ 0xEDB88320 else c >>> 1) x < 2 ^ 32 := by
    intro l
    induction l with
    | nil => intro x hx; exact hx
    | cons y ys ih => intro x hx; exact ih _ (step x hx)
  exact fold _ _ (Nat.xor_lt_two_pow h (by have := b.isLt; omega))

theorem crc32_lt (bs : List Byte) : crc32 bs < 2 ^ 32 := by
  have fold : ∀ (l : List Byte) (x : Nat), x < 2 ^ 32 → l.foldl crc32Byte x < 2 ^ 32 := by
    intro l
    induction l with
    | nil => intro x hx; exact hx
    | cons y ys ih => intro x hx; exact ih _ (crc32Byte_lt x y hx)
  exact Nat.xor_lt_two_pow (fold bs _ (by decide)) (by decide)

/-- A copy that carries the checksum of what stands before it is judged by its content alone. -/
theorem judgeCopy_sealed (pre : List Byte) : judgeCopy (pre ++ beBytes 4 (crc32 pre)) =
    match parseImage (pre.drop 64) with
    | none => (10, none)
    | some d => if headerZero (pre ++ beBytes 4 (crc32 pre)) && imageRules d (loadImage d State.reset) then (0, some d) else (11, none) := by
  have hn : (pre ++ beBytes 4 (crc32 pre)).length - 4 = pre.length := by simp
  have ht : (pre ++ beBytes 4 (crc32 pre)).take pre.length = pre := by simp
  have hc : numAt (pre ++ beBytes 4 (crc32 pre)) pre.length 4 = crc32 pre := by
    have h := numAt_append pre (beBytes 4 (crc32 pre)) [] pre.length rfl
    rw [List.append_nil, beBytes_length, beNat_four _ (crc32_lt pre)] at h
    exact h
  simp only [judgeCopy, hn, ht, hc, ne_eq, not_true_eq_false, if_false]
  all_goals rfl

/-- A section whose value is a whole number of words is taken whole from the front of the list. -/
theorem sections_cons (n ty : Nat) (bs rest : List Byte) (hty : ty < 65536) (hl : bs.length < 65536) (h4 : bs.length % 4 = 0) :
    sections (n + 1) (beBytes 2 ty ++ (beBytes 2 bs.length ++ (bs ++ rest))) =
      match sections n rest with
      | none => none
      | some l => some ((ty, bs) :: l) := by
  have hlen : numAt (beBytes 2 ty ++ (beBytes 2 bs.length ++ (bs ++ rest))) 2 2 = bs.length := by
    have h := numAt_append (beBytes 2 ty) (beBytes 2 bs.length) (bs ++ rest) 2 (by simp)
    rwa [beBytes_length, beNat_two _ hl] at h
  have hnum : numAt (beBytes 2 ty ++ (beBytes 2 bs.length ++ (bs ++ rest))) 0 2 = ty := by
    have h := numAt_append [] (beBytes 2 ty) (beBytes 2 bs.length ++ (bs ++ rest)) 0 rfl
    rw [List.nil_append, beBytes_length, beNat_two _ hty] at h
    exact h
  have hd : (beBytes 2 ty ++ (beBytes 2 bs.length ++ (bs ++ rest))).drop 4 = bs ++ rest := by
    rw [← List.append_assoc]; exact List.drop_left' (by simp)
  rw [sections]
  · have h0 : ¬2 + (2 + (bs.length + rest.length)) < 4 := by omega
    simp only [hlen, hnum, hd, h4]
    simp [h0]
    all_goals (cases sections n rest <;> rfl)
  · intro h
    exact absurd (congrArg List.length h) (by simp)

theorem Store.get_ofList {w : Nat} (d : BitVec w) (l : List (BitVec w)) (k j : Nat) :
    Store.get d (Store.ofList d k l) j = if j < k then d else l.getD (j - k) d := by
  induction l generalizing k with
  | nil => simp [Store.ofList, Store.get]
  | cons v vs ih =>
    rw [Store.ofList]
    rcases Nat.lt_trichotomy j k with h | h | h
    · have h1 : j < k + 1 := by omega
      have h2 : k ≠ j := by omega
      split <;> simp [ih, Store.get, h1, h2]
    · subst h
      split
      · next hv => simp [ih, hv]
      · simp [Store.get]
    · have h1 : ¬j < k + 1 := by omega
      have h2 : ¬j < k := by omega
      have h3 : k ≠ j := by omega
      have h4 : j - k = (j - (k + 1)) + 1 := by omega
      split <;> simp [ih, Store.get, h1, h3, h4]

theorem Store.bytes_eq (s : Store 8) (k n : Nat) : Store.bytes s k n = (List.range n).map fun i => Store.get blank s (k + i) := by
  induction n generalizing k with
  | zero => rfl
  | succ n ih =>
    rw [Store.bytes, ih, List.range_succ_eq_map, List.map_cons, List.map_map]
    simp [Function.comp_def, Nat.add_assoc, Nat.add_comm 1]

/-- A memory built from a list reads it back. -/
theorem Store.bytes_ofList (l : List Byte) (k n : Nat) (h : n ≤ l.length) : Store.bytes (Store.ofList blank k l) k n = l.take n := by
  rw [Store.bytes_eq]
  apply List.ext_getElem
  · simp [h]
  · intro i h1 h2
    have hi : i < l.length := by simp at h2; omega
    simp [Store.get_ofList, List.getD_eq_getElem?_getD, hi]

/-- Past the list it is blank. -/
theorem Store.bytes_past (l : List Byte) (k a n : Nat) (h : k + l.length ≤ a) :
    Store.bytes (Store.ofList blank k l) a n = List.replicate n blank := by
  rw [Store.bytes_eq]
  apply List.ext_getElem
  · simp
  · intro i h1 h2
    have hk : ¬a + i < k := by omega
    have hl : l.length ≤ a + i - k := by omega
    simp [Store.get_ofList, hk, hl]

/-- Values that an unlisted key reads as leave no entry in a store built from a list. -/
theorem Store.ofList_defaults {w : Nat} (d : BitVec w) (n k : Nat) (l : List (BitVec w)) :
    Store.ofList d k (List.replicate n d ++ l) = Store.ofList d (k + n) l := by
  induction n generalizing k with
  | zero => rfl
  | succ n ih => rw [List.replicate_succ, List.cons_append, Store.ofList, if_pos rfl, ih, Nat.add_right_comm, Nat.add_assoc]

/-- Within the density the port reads the memory's bytes. -/
theorem xmBytes_eq (s : State) (a n : Nat) (h : a + n ≤ 2 ^ s.xm.dens) : xmBytes s a n = Store.bytes s.xm.mem a n := by
  rw [xmBytes, Store.bytes_eq]
  refine List.map_congr_left fun i hi => ?_
  have := List.mem_range.mp hi
  rw [if_pos (by omega)]

end Sys2Proof.Machine
end

