-- ==== Sys2Proof/WellFormed.lean ====
section
/-! DEFINITION. Well-formed commands: operands that the block's surroundings can deliver. -/

namespace Sys2Proof

/-- Microvolts that the window ADC's input can hold: the sensed output less the window, within the supply of 5 V on either side. -/
def windowRange (uv : Int) : Bool := decide (-5000000 ≤ uv) && decide (uv ≤ 5000000)

/-- A frame type that a row of its own does not take: BAD_FRAME's (R437, R438). -/
def reservedFrame (ty : Byte) : Bool := ty != 0x11 && ty != 0x12 && ty != 0x13

/-- The words of a write that a LEN byte can name (R406). -/
def writeShape (words : List Word) : Bool := decide (words.length < 256)

/-- A read that a host can clock: a LEN that a byte can name, at least one register begun, and one check for each (R402, R406). -/
def readShape (r : ReadAccess) : Bool := decide (r.len < 256) && decide (0 < r.regs) && decide (r.ecc.length ≤ r.regs)

/-- Command `i` is one that the block can be given. -/
def Instr.wf : Instr → Bool
  | .windowSample _ uv => windowRange uv
  | .registerWrite _ _ words _ => writeShape words
  | .peakClearingRead _ r => readShape r
  | .clearingRead _ r => readShape r
  | .badFrame ty _ _ _ _ => reservedFrame ty
  | .resetNLow ns => decide (0 < ns)
  | .journalBurst ecc => decide (ecc.length ≤ 8)
  | _ => true

end Sys2Proof
end

