-- ==== Sys2Proof/Laws/PerInstr.lean ====
section
/-! SUPPORT. What well-formedness says of each command: the bounds its operands meet, constructor by constructor. -/

set_option Elab.async false

namespace Sys2Proof.Laws.Wf

/-- The ranges that the surroundings can deliver; the operands of every other command are bounded by their types alone. -/
def Bounds : Instr → Prop
  | .windowSample _ uv => -5000000 ≤ uv ∧ uv ≤ 5000000
  | .registerWrite _ _ words _ => words.length < 256
  | .peakClearingRead _ r | .clearingRead _ r => r.len < 256 ∧ 0 < r.regs ∧ r.ecc.length ≤ r.regs
  | .badFrame ty _ _ _ _ => ty ≠ 0x11 ∧ ty ≠ 0x12 ∧ ty ≠ 0x13
  | .resetNLow ns => 0 < ns
  | .journalBurst ecc => ecc.length ≤ 8
  | _ => True

/-- The operands of a well-formed command lie in those ranges. -/
def Statement (i : Instr) : Prop := i.wf = true → Bounds i

theorem boot (b : BootInputs) : Statement (.boot b) := fun _ => trivial
theorem resetNLow (ns : Nat) : Statement (.resetNLow ns) :=
  fun h => of_decide_eq_true (p := 0 < ns) h
theorem vsupReset : Statement (.vsupReset) := fun _ => trivial
theorem vioReset : Statement (.vioReset) := fun _ => trivial
theorem coreSupplyReset : Statement (.coreSupplyReset) := fun _ => trivial
theorem clockFault (kind : ClockFault) : Statement (.clockFault kind) := fun _ => trivial
theorem rstCmd (h : HostId) (data : Word) : Statement (.rstCmd h data) := fun _ => trivial
theorem keepaliveWake (byStart : Bool) : Statement (.keepaliveWake byStart) := fun _ => trivial
theorem carrierPeak (t : TileId) : Statement (.carrierPeak t) := fun _ => trivial
theorem carrierValley (t : TileId) : Statement (.carrierValley t) := fun _ => trivial
theorem tripRecognised (t : TileId) (tick : Nat) : Statement (.tripRecognised t tick) := fun _ => trivial
theorem tripLatchClear (h : HostId) (t : TileId) (data : Word) (level : Bool) : Statement (.tripLatchClear h t data level) := fun _ => trivial
theorem tileSettingWrite (h : HostId) (t : TileId) (which : TileSetting) (data : Word) : Statement (.tileSettingWrite h t which data) := fun _ => trivial
theorem lowSideForceEnd (t : TileId) (tick : Nat) : Statement (.lowSideForceEnd t tick) := fun _ => trivial
theorem deLowSideOff (t : TileId) (tick : Nat) : Statement (.deLowSideOff t tick) := fun _ => trivial
theorem windowSample (k : RailId) (microvolts : Int) : Statement (.windowSample k microvolts) := fun h => by
  have h' : windowRange microvolts = true := h
  show -5000000 ≤ microvolts ∧ microvolts ≤ 5000000
  simpa [windowRange, and_assoc] using h'
theorem leapTileRelease (t : TileId) (tick : Nat) : Statement (.leapTileRelease t tick) := fun _ => trivial
theorem leapHoldoffExpiry (k : RailId) : Statement (.leapHoldoffExpiry k) := fun _ => trivial
theorem coarseConversion (k : RailId) (c : BitVec 12) : Statement (.coarseConversion k c) := fun _ => trivial
theorem likConversion (k : RailId) (c : BitVec 12) : Statement (.likConversion k c) := fun _ => trivial
theorem prebiasReading (k : RailId) : Statement (.prebiasReading k) := fun _ => trivial
theorem tileCurrentSample (t : TileId) (which : SampleKind) (r : BitVec 12) : Statement (.tileCurrentSample t which r) := fun _ => trivial
theorem autozeroRequest (h : HostId) (k : RailId) : Statement (.autozeroRequest h k) := fun _ => trivial
theorem autozeroStart (k : RailId) : Statement (.autozeroStart k) := fun _ => trivial
theorem autozeroDone (k : RailId) (tick : Nat) : Statement (.autozeroDone k tick) := fun _ => trivial
theorem autozeroTimeout (k : RailId) : Statement (.autozeroTimeout k) := fun _ => trivial
theorem snsCalWrite (h : HostId) (k : RailId) (data : Word) : Statement (.snsCalWrite h k data) := fun _ => trivial
theorem icalWrite (h : HostId) (t : TileId) (data : Word) : Statement (.icalWrite h t data) := fun _ => trivial
theorem loopUpdate (k : RailId) : Statement (.loopUpdate k) := fun _ => trivial
theorem targetWrite (h : HostId) (k : RailId) (data : Word) : Statement (.targetWrite h k data) := fun _ => trivial
theorem csetWrite (h : HostId) (k : RailId) (data : Word) : Statement (.csetWrite h k data) := fun _ => trivial
theorem coefDataAccess (h : HostId) (k : RailId) (write : Option Word) : Statement (.coefDataAccess h k write) := fun _ => trivial
theorem referenceValley (k : RailId) (ecc : Ecc) : Statement (.referenceValley k ecc) := fun _ => trivial
theorem readyTimeout (t : TileId) : Statement (.readyTimeout t) := fun _ => trivial
theorem moultCtlWrite (h : HostId) (k : RailId) (data : Word) : Statement (.moultCtlWrite h k data) := fun _ => trivial
theorem mapDataRead (h : HostId) (ecc : Ecc) : Statement (.mapDataRead h ecc) := fun _ => trivial
theorem mapDataWrite (h : HostId) (data : Word) : Statement (.mapDataWrite h data) := fun _ => trivial
theorem scrubWord (m : EccMemory) (ecc : Ecc) : Statement (.scrubWord m ecc) := fun _ => trivial
theorem syncInEdge (tick : Nat) : Statement (.syncInEdge tick) := fun _ => trivial
theorem syncInLoss : Statement (.syncInLoss) := fun _ => trivial
theorem syncOutPulse : Statement (.syncOutPulse) := fun _ => trivial
theorem railOn (h : HostId) (k : RailId) (clear : Bool) : Statement (.railOn h k clear) := fun _ => trivial
theorem railOff (h : HostId) (k : RailId) : Statement (.railOff h k) := fun _ => trivial
theorem railKill (h : HostId) (k : RailId) (clear : Bool) : Statement (.railKill h k clear) := fun _ => trivial
theorem railClear (h : HostId) (k : RailId) : Statement (.railClear h k) := fun _ => trivial
theorem railStart (k : RailId) (ecc : Ecc) : Statement (.railStart k ecc) := fun _ => trivial
theorem seqDelayExpiry (k : RailId) : Statement (.seqDelayExpiry k) := fun _ => trivial
theorem softstartEntry (k : RailId) : Statement (.softstartEntry k) := fun _ => trivial
theorem prebiasWaitTimeout (k : RailId) : Statement (.prebiasWaitTimeout k) := fun _ => trivial
theorem trackFailure (k : RailId) : Statement (.trackFailure k) := fun _ => trivial
theorem hiccupRetry (k : RailId) (ecc : Ecc) : Statement (.hiccupRetry k ecc) := fun _ => trivial
theorem retryClear (k : RailId) : Statement (.retryClear k) := fun _ => trivial
theorem stoppingComplete (k : RailId) : Statement (.stoppingComplete k) := fun _ => trivial
theorem pgoodAssert (k : RailId) : Statement (.pgoodAssert k) := fun _ => trivial
theorem lenChange (k : RailId) (level : Bool) : Statement (.lenChange k level) := fun _ => trivial
theorem railClassClear (h : HostId) (k : RailId) (data : Word) : Statement (.railClassClear h k data) := fun _ => trivial
theorem tileClassClear (h : HostId) (t : TileId) (data : Word) : Statement (.tileClassClear h t data) := fun _ => trivial
theorem tileAdmit (h : HostId) (t : TileId) (gen : BitVec 16) : Statement (.tileAdmit h t gen) := fun _ => trivial
theorem tileExclude (h : HostId) (t : TileId) (gen : BitVec 16) : Statement (.tileExclude h t gen) := fun _ => trivial
theorem hkConversion (raw : BitVec 12) : Statement (.hkConversion raw) := fun _ => trivial
theorem hkRoundEnd : Statement (.hkRoundEnd) := fun _ => trivial
theorem fastLaneTimer (raws : Vector (BitVec 12) 64) (vsup : BitVec 12) : Statement (.fastLaneTimer raws vsup) := fun _ => trivial
theorem tsdGraceExpiry : Statement (.tsdGraceExpiry) := fun _ => trivial
theorem xchkReq (h : HostId) : Statement (.xchkReq h) := fun _ => trivial
theorem vsupWarning : Statement (.vsupWarning) := fun _ => trivial
theorem vsupWarningClear : Statement (.vsupWarningClear) := fun _ => trivial
theorem powerFail : Statement (.powerFail) := fun _ => trivial
theorem snapshotComplete (verified : Bool) : Statement (.snapshotComplete verified) := fun _ => trivial
theorem vioWarning : Statement (.vioWarning) := fun _ => trivial
theorem preregFault : Statement (.preregFault) := fun _ => trivial
theorem refPpmWindow (deviation : BitVec 16) : Statement (.refPpmWindow deviation) := fun _ => trivial
theorem pwrStandby (h : HostId) (stopMode : Bool) (vxio : Nat) : Statement (.pwrStandby h stopMode vxio) := fun _ => trivial
theorem pwrReady (h : HostId) (stopMode : Bool) (vxio : Nat) : Statement (.pwrReady h stopMode vxio) := fun _ => trivial
theorem pwrRun (h : HostId) (stopMode : Bool) (vxio : Nat) : Statement (.pwrRun h stopMode vxio) := fun _ => trivial
theorem pwrKeepalive (h : HostId) (stopMode : Bool) : Statement (.pwrKeepalive h stopMode) := fun _ => trivial
theorem powerTransitionComplete : Statement (.powerTransitionComplete) := fun _ => trivial
theorem domCtlWrite (h : HostId) (data : Word) (vxio : Nat) : Statement (.domCtlWrite h data vxio) := fun _ => trivial
theorem bankPowerUp (b : BankId) : Statement (.bankPowerUp b) := fun _ => trivial
theorem bankPowerUpDone (b : BankId) : Statement (.bankPowerUpDone b) := fun _ => trivial
theorem bistStart (h : HostId) : Statement (.bistStart h) := fun _ => trivial
theorem bistSweep (refs : Vector (BitVec 12) 14) : Statement (.bistSweep refs) := fun _ => trivial
theorem bistSweepEnd : Statement (.bistSweepEnd) := fun _ => trivial
theorem telemetrySample : Statement (.telemetrySample) := fun _ => trivial
theorem telemetryWindowEnd : Statement (.telemetryWindowEnd) := fun _ => trivial
theorem telemetrySwap : Statement (.telemetrySwap) := fun _ => trivial
theorem peakClearingRead (h : HostId) (r : ReadAccess) : Statement (.peakClearingRead h r) := fun hw => by
  have h' : readShape r = true := hw
  simp only [readShape, Bool.and_eq_true, decide_eq_true_eq] at h'
  exact ⟨h'.1.1, h'.1.2, h'.2⟩
theorem pkClr (h : HostId) : Statement (.pkClr h) := fun _ => trivial
theorem hourCount : Statement (.hourCount) := fun _ => trivial
theorem journalWrite : Statement (.journalWrite) := fun _ => trivial
theorem evLatchClear (h : HostId) (i : Fin 8) (data : Word) : Statement (.evLatchClear h i data) := fun _ => trivial
theorem evDcntRead (h : HostId) : Statement (.evDcntRead h) := fun _ => trivial
theorem registerWrite (h : HostId) (a : Addr) (words : List Word) (pec : Option Byte) : Statement (.registerWrite h a words pec) :=
  fun h => of_decide_eq_true (p := words.length < 256) h
theorem busInterrupt (h : HostId) (position : Byte) : Statement (.busInterrupt h position) := fun _ => trivial
theorem busTimeout (position : Byte) : Statement (.busTimeout position) := fun _ => trivial
theorem sdaRelease (position : Byte) : Statement (.sdaRelease position) := fun _ => trivial
theorem heartbeatWrite (h : HostId) (whose : HostId) (data : Word) : Statement (.heartbeatWrite h whose data) := fun _ => trivial
theorem heartbeatLapse (whose : HostId) : Statement (.heartbeatLapse whose) := fun _ => trivial
theorem claimTake (h : HostId) : Statement (.claimTake h) := fun _ => trivial
theorem claimRelease (h : HostId) : Statement (.claimRelease h) := fun _ => trivial
theorem setTarget (seq : Byte) (k : RailId) (flags : BitVec 5) (value : BitVec 16) : Statement (.setTarget seq k flags value) := fun _ => trivial
theorem query (seq : Byte) (k : RailId) (flags : BitVec 5) (value : BitVec 16) : Statement (.query seq k flags value) := fun _ => trivial
theorem ping (seq : Byte) (k : RailId) (flags : BitVec 5) (value : BitVec 16) : Statement (.ping seq k flags value) := fun _ => trivial
theorem badFrame (ty : Byte) (seq : Byte) (k : RailId) (flags : BitVec 5) (value : BitVec 16) : Statement (.badFrame ty seq k flags value) := fun h => by
  have h' : reservedFrame ty = true := h
  show ty ≠ 0x11 ∧ ty ≠ 0x12 ∧ ty ≠ 0x13
  simpa [reservedFrame, and_assoc] using h'
theorem linkFrameError (frame : BitVec 48) (stop : Bool) : Statement (.linkFrameError frame stop) := fun _ => trivial
theorem glClkStop (receiving resumes : Bool) : Statement (.glClkStop receiving resumes) := fun _ => trivial
theorem ack : Statement (.ack) := fun _ => trivial
theorem settled : Statement (.settled) := fun _ => trivial
theorem settleTimeout (k : RailId) : Statement (.settleTimeout k) := fun _ => trivial
theorem loadLapse : Statement (.loadLapse) := fun _ => trivial
theorem linkAuthWrite (h : HostId) (data : Word) : Statement (.linkAuthWrite h data) := fun _ => trivial
theorem imgBegin (h : HostId) (len : BitVec 16) (answers : Bool) : Statement (.imgBegin h len answers) := fun _ => trivial
theorem imgDataWrite (h : HostId) (data : Word) : Statement (.imgDataWrite h data) := fun _ => trivial
theorem imgCommit (h : HostId) : Statement (.imgCommit h) := fun _ => trivial
theorem imgAbort (h : HostId) : Statement (.imgAbort h) := fun _ => trivial
theorem eepromPageWrite (answer : EepromAnswer) (losses : Nat) : Statement (.eepromPageWrite answer losses) := fun _ => trivial
theorem replacementCheckDone (answer : EepromAnswer) (losses : Nat) : Statement (.replacementCheckDone answer losses) := fun _ => trivial
theorem nvmOperationStart : Statement (.nvmOperationStart) := fun _ => trivial
theorem nvmOperationDone (verified : Bool) : Statement (.nvmOperationDone verified) := fun _ => trivial
theorem nvmProgram (h : HostId) : Statement (.nvmProgram h) := fun _ => trivial
theorem calSave (h : HostId) (arg : BitVec 3) : Statement (.calSave h arg) := fun _ => trivial
theorem recErase (h : HostId) (arg : BitVec 3) : Statement (.recErase h arg) := fun _ => trivial
theorem flush (h : HostId) : Statement (.flush h) := fun _ => trivial
theorem nvmDataAccess (h : HostId) (write : Option Word) : Statement (.nvmDataAccess h write) := fun _ => trivial
theorem counterCommit (c : Fin 73) : Statement (.counterCommit c) := fun _ => trivial
theorem recordRetry (r : Fin 81) : Statement (.recordRetry r) := fun _ => trivial
theorem marginRead (differs : Bool) : Statement (.marginRead differs) := fun _ => trivial
theorem journalLoad (h : HostId) (ecc : Ecc) : Statement (.journalLoad h ecc) := fun _ => trivial
theorem journalPop (h : HostId) : Statement (.journalPop h) := fun _ => trivial
theorem journalMoveOldest (h : HostId) : Statement (.journalMoveOldest h) := fun _ => trivial
theorem journalMoveNewest (h : HostId) : Statement (.journalMoveNewest h) := fun _ => trivial
theorem xmemDiscovery (sfdp : Sfdp) : Statement (.xmemDiscovery sfdp) := fun _ => trivial
theorem journalHeadSearch : Statement (.journalHeadSearch) := fun _ => trivial
theorem journalBurst (ecc : List Ecc) : Statement (.journalBurst ecc) :=
  fun h => of_decide_eq_true (p := ecc.length ≤ 8) h
theorem xmemBurstDone : Statement (.xmemBurstDone) := fun _ => trivial
theorem xmemStall : Statement (.xmemStall) := fun _ => trivial
theorem xmemRecovery : Statement (.xmemRecovery) := fun _ => trivial
theorem xmemPrefetch (h : HostId) (data : Word) : Statement (.xmemPrefetch h data) := fun _ => trivial
theorem xmemWindowAdvance (h : HostId) : Statement (.xmemWindowAdvance h) := fun _ => trivial
theorem recArm (h : HostId) : Statement (.recArm h) := fun _ => trivial
theorem recTrig (h : HostId) : Statement (.recTrig h) := fun _ => trivial
theorem recStop (h : HostId) : Statement (.recStop h) := fun _ => trivial
theorem recRelease (h : HostId) : Statement (.recRelease h) := fun _ => trivial
theorem recorderFrame : Statement (.recorderFrame) := fun _ => trivial
theorem recorderBurst (ecc : Ecc) : Statement (.recorderBurst ecc) := fun _ => trivial
theorem recBdataRead (h : HostId) (ecc : Ecc) : Statement (.recBdataRead h ecc) := fun _ => trivial
theorem drawArbiterSample (microvolts : Nat) : Statement (.drawArbiterSample microvolts) := fun _ => trivial
theorem leaveWaitLong (r : Fin 8) : Statement (.leaveWaitLong r) := fun _ => trivial
theorem kaMonitorRun (m : KaReadings) : Statement (.kaMonitorRun m) := fun _ => trivial
theorem kaSourceLoss : Statement (.kaSourceLoss) := fun _ => trivial
theorem kaSourceQualified : Statement (.kaSourceQualified) := fun _ => trivial
theorem cellCutoff : Statement (.cellCutoff) := fun _ => trivial
theorem rtcSet (h : HostId) (data : Word) : Statement (.rtcSet h data) := fun _ => trivial
theorem rtcRead (h : HostId) : Statement (.rtcRead h) := fun _ => trivial
theorem rtcTrimInterval : Statement (.rtcTrimInterval) := fun _ => trivial
theorem clrFault (h : HostId) : Statement (.clrFault h) := fun _ => trivial
theorem serviceKeyRelease : Statement (.serviceKeyRelease) := fun _ => trivial
theorem serviceArmExpiry : Statement (.serviceArmExpiry) := fun _ => trivial
theorem svcClose (h : HostId) : Statement (.svcClose h) := fun _ => trivial
theorem brumationArm (h : HostId) : Statement (.brumationArm h) := fun _ => trivial
theorem brumDisarm (h : HostId) : Statement (.brumDisarm h) := fun _ => trivial
theorem residueHourlyWrite : Statement (.residueHourlyWrite) := fun _ => trivial
theorem brumationWake (byKey : Bool) : Statement (.brumationWake byKey) := fun _ => trivial
theorem keepaliveDomainPowerUp (sourcePresent : Bool) : Statement (.keepaliveDomainPowerUp sourcePresent) := fun _ => trivial
theorem kaSourceReturn : Statement (.kaSourceReturn) := fun _ => trivial
theorem clearingRead (h : HostId) (r : ReadAccess) : Statement (.clearingRead h r) := fun hw => by
  have h' : readShape r = true := hw
  simp only [readShape, Bool.and_eq_true, decide_eq_true_eq] at h'
  exact ⟨h'.1.1, h'.1.2, h'.2⟩
theorem transactionEnd (h : HostId) (write : Bool) (position : Byte) (bytes : Nat) : Statement (.transactionEnd h write position bytes) := fun _ => trivial
theorem commitHoldLimit : Statement (.commitHoldLimit) := fun _ => trivial
theorem serviceKeyPress : Statement (.serviceKeyPress) := fun _ => trivial
theorem testAccessPortInstruction (load : TapLoad) (resetNLow : Bool) : Statement (.testAccessPortInstruction load resetNLow) := fun _ => trivial

end Sys2Proof.Laws.Wf
end

