-- ==== Sys2Proof/Laws/Store.lean ====
section
/-! SUPPORT. Sparse stores: every operation keeps the canonical form; a read after a write; what a write leaves alone. -/

set_option Elab.async false

namespace Sys2Proof.Machine

variable {w : Nat} {d : BitVec w}

theorem Store.above_mono {j k : Nat} {s : Store w} (h : Store.above k s = true) (hjk : j ≤ k) : Store.above j s = true := by
  induction s with
  | nil => rfl
  | cons p s ih =>
    simp only [Store.above, Bool.and_eq_true, decide_eq_true_eq] at h ⊢
    exact ⟨Nat.lt_of_le_of_lt hjk h.1, ih h.2⟩

theorem Store.above_erase {j : Nat} {s : Store w} (h : Store.above j s = true) (k : Nat) : Store.above j (Store.erase s k) = true := by
  induction s with
  | nil => rfl
  | cons p s ih =>
    simp only [Store.above, Bool.and_eq_true] at h
    unfold Store.erase
    split
    · exact h.2
    · simp only [Store.above, Bool.and_eq_true]
      exact ⟨h.1, ih h.2⟩

theorem Store.above_put {j k : Nat} {v : BitVec w} {s : Store w} (h : Store.above j s = true) (hk : j < k) :
    Store.above j (Store.put s k v) = true := by
  induction s with
  | nil => simp [Store.put, Store.above, hk]
  | cons p s ih =>
    simp only [Store.above, Bool.and_eq_true] at h
    unfold Store.put
    split
    · simp [Store.above, hk, h.1, h.2]
    · split
      · simp [Store.above, hk, h.2]
      · simp [Store.above, h.1, ih h.2]

theorem Store.wf_erase {s : Store w} (h : Store.wf d s = true) (k : Nat) : Store.wf d (Store.erase s k) = true := by
  induction s with
  | nil => rfl
  | cons p s ih =>
    simp only [Store.wf, Bool.and_eq_true] at h
    unfold Store.erase
    split
    · exact h.2
    · simp only [Store.wf, Bool.and_eq_true]
      exact ⟨⟨h.1.1, Store.above_erase h.1.2 k⟩, ih h.2⟩

theorem Store.wf_put {k : Nat} {v : BitVec w} {s : Store w} (h : Store.wf d s = true) (hv : v ≠ d) :
    Store.wf d (Store.put s k v) = true := by
  induction s with
  | nil => simp [Store.put, Store.wf, Store.above, hv]
  | cons p s ih =>
    obtain ⟨a, u⟩ := p
    simp only [Store.wf, Bool.and_eq_true, decide_eq_true_eq] at h
    obtain ⟨⟨hu, ha⟩, hs⟩ := h
    simp only [Store.put]
    split
    · rename_i hlt
      simp only [Store.wf, Store.above, Bool.and_eq_true, decide_eq_true_eq]
      exact ⟨⟨hv, hlt, Store.above_mono ha (Nat.le_of_lt hlt)⟩, ⟨hu, ha⟩, hs⟩
    · split
      · rename_i heq
        subst heq
        simp only [Store.wf, Bool.and_eq_true, decide_eq_true_eq]
        exact ⟨⟨hv, ha⟩, hs⟩
      · rename_i h1 h2
        simp only [Store.wf, Bool.and_eq_true, decide_eq_true_eq]
        exact ⟨⟨hu, Store.above_put ha (by omega)⟩, ih hs⟩

/-- A write keeps the canonical form. -/
theorem Store.wf_set {s : Store w} (h : Store.wf d s = true) (k : Nat) (v : BitVec w) : Store.wf d (Store.set d s k v) = true := by
  unfold Store.set
  split
  · exact Store.wf_erase h k
  · rename_i hv
    exact Store.wf_put h hv

theorem Store.wf_setMany {s : Store w} (h : Store.wf d s = true) (k : Nat) (vs : List (BitVec w)) :
    Store.wf d (Store.setMany d s k vs) = true := by
  induction vs generalizing s k with
  | nil => exact h
  | cons v vs ih => exact ih (Store.wf_set h k v) (k + 1)

theorem Store.above_ofList {j k : Nat} (hjk : j < k) (vs : List (BitVec w)) : Store.above j (Store.ofList d k vs) = true := by
  induction vs generalizing k with
  | nil => rfl
  | cons v vs ih =>
    simp only [Store.ofList]
    split
    · exact ih (by omega)
    · simp [Store.above, hjk, ih (k := k + 1) (by omega)]

theorem Store.wf_ofList (k : Nat) (vs : List (BitVec w)) : Store.wf d (Store.ofList d k vs) = true := by
  induction vs generalizing k with
  | nil => rfl
  | cons v vs ih =>
    simp only [Store.ofList]
    split
    · exact ih (k + 1)
    · rename_i hv
      simp [Store.wf, hv, ih (k + 1), Store.above_ofList (d := d) (Nat.lt_succ_self k) vs]

theorem Store.get_above {j k : Nat} {s : Store w} (h : Store.above j s = true) (hk : k ≤ j) : Store.get d s k = d := by
  induction s with
  | nil => rfl
  | cons p s ih =>
    simp only [Store.above, Bool.and_eq_true, decide_eq_true_eq] at h
    have hp := h.1
    simp only [Store.get]
    rw [if_neg (by omega), ih h.2]

theorem Store.get_erase_same {s : Store w} (h : Store.wf d s = true) (k : Nat) : Store.get d (Store.erase s k) k = d := by
  induction s with
  | nil => rfl
  | cons p s ih =>
    simp only [Store.wf, Bool.and_eq_true] at h
    simp only [Store.erase]
    split
    · rename_i hk
      subst hk
      exact Store.get_above h.1.2 (Nat.le_refl _)
    · rename_i hk
      simp only [Store.get, if_neg hk]
      exact ih h.2

theorem Store.get_erase_other {s : Store w} {k j : Nat} (hj : j ≠ k) : Store.get d (Store.erase s k) j = Store.get d s j := by
  induction s with
  | nil => rfl
  | cons p s ih =>
    simp only [Store.erase]
    split
    · rename_i hk
      simp only [Store.get]
      rw [if_neg (by omega)]
    · simp only [Store.get, ih]

theorem Store.get_put_same {s : Store w} (k : Nat) (v : BitVec w) : Store.get d (Store.put s k v) k = v := by
  induction s with
  | nil => simp [Store.put, Store.get]
  | cons p s ih =>
    simp only [Store.put]
    split
    · simp [Store.get]
    · split
      · simp [Store.get]
      · rename_i h1 h2
        simp only [Store.get]
        rw [if_neg (by omega), ih]

theorem Store.get_put_other {s : Store w} {k j : Nat} (hj : j ≠ k) (v : BitVec w) : Store.get d (Store.put s k v) j = Store.get d s j := by
  induction s with
  | nil => simp [Store.put, Store.get, Ne.symm hj]
  | cons p s ih =>
    simp only [Store.put]
    split
    · simp [Store.get, Ne.symm hj]
    · split
      · rename_i h1 h2
        subst h2
        simp [Store.get, Ne.symm hj]
      · simp only [Store.get, ih]

/-- A read after a write to the same place gives the value written. -/
theorem Store.get_set_same {s : Store w} (h : Store.wf d s = true) (k : Nat) (v : BitVec w) : Store.get d (Store.set d s k v) k = v := by
  unfold Store.set
  split
  · rename_i hv
    rw [hv]
    exact Store.get_erase_same h k
  · exact Store.get_put_same k v

/-- A write leaves every other place alone. -/
theorem Store.get_set_other {s : Store w} {k j : Nat} (hj : j ≠ k) (v : BitVec w) : Store.get d (Store.set d s k v) j = Store.get d s j := by
  unfold Store.set
  split
  · exact Store.get_erase_other hj
  · exact Store.get_put_other hj v

/-- Consecutive writes leave every place outside them alone. -/
theorem Store.get_setMany_other {s : Store w} {k j : Nat} (vs : List (BitVec w)) (hj : j < k ∨ k + vs.length ≤ j) :
    Store.get d (Store.setMany d s k vs) j = Store.get d s j := by
  induction vs generalizing s k with
  | nil => rfl
  | cons v vs ih =>
    simp only [Store.setMany, List.length_cons] at hj ⊢
    rw [ih (by omega), Store.get_set_other (by omega)]

/-- Consecutive writes: place k + i holds the i-th value. -/
theorem Store.get_setMany_at {s : Store w} (h : Store.wf d s = true) (k i : Nat) (vs : List (BitVec w)) (hi : i < vs.length) :
    Store.get d (Store.setMany d s k vs) (k + i) = vs[i] := by
  induction vs generalizing s k i with
  | nil => exact absurd hi (Nat.not_lt_zero _)
  | cons v vs ih =>
    cases i with
    | zero =>
      simp only [Store.setMany, Nat.add_zero, List.getElem_cons_zero]
      rw [Store.get_setMany_other _ (by omega), Store.get_set_same h]
    | succ i =>
      have := ih (Store.wf_set h k v) (k + 1) i (by simpa using hi)
      simpa [Store.setMany, Nat.add_assoc, Nat.add_comm 1 i] using this

theorem Store.above_filter {j : Nat} {s : Store w} (h : Store.above j s = true) (p : Nat × BitVec w → Bool) :
    Store.above j (s.filter p) = true := by
  induction s with
  | nil => rfl
  | cons q s ih =>
    simp only [Store.above, Bool.and_eq_true] at h
    rw [List.filter_cons]
    split
    · simp only [Store.above, Bool.and_eq_true]
      exact ⟨h.1, ih h.2⟩
    · exact ih h.2

theorem Store.wf_filter {s : Store w} (h : Store.wf d s = true) (p : Nat × BitVec w → Bool) : Store.wf d (s.filter p) = true := by
  induction s with
  | nil => rfl
  | cons q s ih =>
    simp only [Store.wf, Bool.and_eq_true] at h
    rw [List.filter_cons]
    split
    · simp only [Store.wf, Bool.and_eq_true]
      exact ⟨⟨h.1.1, Store.above_filter h.1.2 p⟩, ih h.2⟩
    · exact ih h.2

theorem eraseSector_wf {s : Store 8} (h : Store.wf blank s = true) (a : Nat) : Store.wf blank (eraseSector s a) = true :=
  Store.wf_filter h _

theorem progBytes_wf {s : Store 8} (h : Store.wf blank s = true) (ram : Bool) (a : Nat) (bs : List Byte) :
    Store.wf blank (progBytes ram s a bs) = true := by
  induction bs generalizing s a with
  | nil => exact h
  | cons b bs ih => exact ih (Store.wf_set h a _) (a + 1)

/-- Programming leaves every place outside the bytes alone. -/
theorem progBytes_other {s : Store 8} {ram : Bool} {a j : Nat} (bs : List Byte) (hj : j < a ∨ a + bs.length ≤ j) :
    Store.get blank (progBytes ram s a bs) j = Store.get blank s j := by
  induction bs generalizing s a with
  | nil => rfl
  | cons b bs ih =>
    simp only [progBytes, List.length_cons] at hj ⊢
    rw [ih (by omega), Store.get_set_other (by omega)]

theorem opEffect_wf {n : Nvm} (h : Store.wf blank n.mem = true) : Store.wf blank (opEffect n) = true := by
  unfold opEffect
  split
  · exact Store.wf_setMany h _ _
  · exact progBytes_wf h _ _ _
  · exact Store.wf_setMany h _ _

end Sys2Proof.Machine
end

