-- ==== Sys2Proof/Laws/Sound.lean ====
section
/-! SUPPORT. Every operation on the state keeps every sparse store in its canonical form and every queue within its bound. -/

set_option Elab.async false

namespace Sys2Proof.Machine

/-- `t` is canonical where `s` is, and its queues keep their bounds where those of `s` do. -/
def KeepsSound (s t : State) : Prop := (s.Canonical → t.Canonical) ∧ (s.Bounded → t.Bounded)

theorem KeepsSound.refl {s : State} : KeepsSound s s := ⟨fun h => h, fun h => h⟩
theorem KeepsSound.trans {s t u : State} (h : KeepsSound s t) (h' : KeepsSound t u) : KeepsSound s u :=
  ⟨fun x => h'.1 (h.1 x), fun x => h'.2 (h.2 x)⟩
theorem keepsSound_ite {s a b : State} {c : Prop} [Decidable c] (ha : KeepsSound s a) (hb : KeepsSound s b) :
    KeepsSound s (if c then a else b) := by split <;> assumption
theorem keepsSound_foldl {α : Type} {f : State → α → State} (hf : ∀ x a, KeepsSound x (f x a)) (l : List α) (s : State) :
    KeepsSound s (l.foldl f s) := by
  induction l generalizing s with
  | nil => exact KeepsSound.refl
  | cons a l ih => exact (hf s a).trans (ih (f s a))
/-- What leaves the parts alone that hold a store or a queue keeps all of them sound. -/
theorem keepsSound_of_within {ps : List Part} {s t : State} (h : Within ps s t)
    (hp : ∀ p ∈ ps, p ≠ .settings ∧ p ≠ .coef ∧ p ≠ .tempTab ∧ p ≠ .map ∧ p ≠ .eeprom ∧ p ≠ .nvm ∧ p ≠ .xm ∧ p ≠ .ev ∧ p ≠ .jrn ∧ p ≠ .link) : KeepsSound s t := by
  have h0 : t.settings = s.settings := h .settings fun x => (hp _ x).1 rfl
  have h1 : t.coef = s.coef := h .coef fun x => (hp _ x).2.1 rfl
  have h2 : t.tempTab = s.tempTab := h .tempTab fun x => (hp _ x).2.2.1 rfl
  have h3 : t.map = s.map := h .map fun x => (hp _ x).2.2.2.1 rfl
  have h4 : t.eeprom = s.eeprom := h .eeprom fun x => (hp _ x).2.2.2.2.1 rfl
  have h5 : t.nvm = s.nvm := h .nvm fun x => (hp _ x).2.2.2.2.2.1 rfl
  have h6 : t.xm = s.xm := h .xm fun x => (hp _ x).2.2.2.2.2.2.1 rfl
  have h7 : t.ev = s.ev := h .ev fun x => (hp _ x).2.2.2.2.2.2.2.1 rfl
  have h8 : t.jrn = s.jrn := h .jrn fun x => (hp _ x).2.2.2.2.2.2.2.2.1 rfl
  have h9 : t.link = s.link := h .link fun x => (hp _ x).2.2.2.2.2.2.2.2.2 rfl
  constructor
  · intro hc
    simpa only [State.Canonical, h0, h1, h2, h3, h4, h5, h6] using hc
  · intro hc
    simpa only [State.Bounded, h5, h6, h7, h8, h9] using hc

/-! Queues: what their updates do to a bound. -/

theorem nvmBounded_of {n m : Nvm} (h : Nvm.Bounded n) (hq : m.queue.Sublist n.queue) (hh : m.hostJob.isSome = true → n.hostJob.isSome = true) :
    Nvm.Bounded m := by
  refine ⟨?_, h.2.sublist hq⟩
  have a := hq.length_le
  have b := h.1
  unfold nvmFill at *
  cases hm : m.hostJob <;> cases hn : n.hostJob <;> simp [hm, hn] at * <;> omega

theorem eraseFirst_sublist {α : Type} (p : α → Bool) (l : List α) : (eraseFirst p l).Sublist l := by
  induction l with
  | nil => exact List.Sublist.refl _
  | cons a l ih =>
    unfold eraseFirst
    split
    · exact List.sublist_cons_self _ _
    · exact ih.cons_cons _

theorem journalBounded_of {j k : Journal} (h : Journal.Bounded j) (hk : k.ring.Sublist j.ring) : Journal.Bounded k :=
  ⟨Nat.le_trans hk.length_le h.1, Nat.le_trans (hk.filter _).length_le h.2⟩

theorem journalBounded_map {j k : Journal} (h : Journal.Bounded j) (f : JournalEntry → JournalEntry)
    (hk : k.ring = j.ring.map f) (hf : ∀ e, (f e).pinned = true → e.pinned = true) : Journal.Bounded k := by
  refine ⟨by rw [hk, List.length_map]; exact h.1, Nat.le_trans ?_ h.2⟩
  rw [hk, List.filter_map, List.length_map]
  exact (List.monotone_filter_right _ (fun e he => hf e he)).length_le
theorem keepsSound_set_xm_rcd (s : State) x0 x1
    (c0 : Store.wf blank s.xm.mem = true → Store.wf blank x0.mem = true)
    (b0 : s.xm.bursts.length ≤ 4 → x0.bursts.length ≤ 4) :
    KeepsSound s { s with xm := x0, rcd := x1 } :=
  ⟨fun h => ⟨h.1, h.2.1, h.2.2.1, h.2.2.2.1, h.2.2.2.2.1, h.2.2.2.2.2.1, c0 h.2.2.2.2.2.2⟩, fun h => ⟨h.1, h.2.1, b0 h.2.2.1, h.2.2.2.1, h.2.2.2.2⟩⟩
theorem keepsSound_set_pwr_nvm_ka (s : State) x0 x1 x2
    (c1 : Store.wf blank s.nvm.mem = true → Store.wf blank x1.mem = true)
    (b1 : Nvm.Bounded s.nvm → Nvm.Bounded x1) :
    KeepsSound s { s with pwr := x0, nvm := x1, ka := x2 } :=
  ⟨fun h => ⟨h.1, h.2.1, h.2.2.1, h.2.2.2.1, h.2.2.2.2.1, c1 h.2.2.2.2.2.1, h.2.2.2.2.2.2⟩, fun h => ⟨h.1, h.2.1, h.2.2.1, h.2.2.2.1, b1 h.2.2.2.2⟩⟩
theorem keepsSound_set_link (s : State) x0
    (b0 : s.link.settled.length ≤ 16 → x0.settled.length ≤ 16) :
    KeepsSound s { s with link := x0 } :=
  ⟨fun h => h, fun h => ⟨h.1, h.2.1, h.2.2.1, b0 h.2.2.2.1, h.2.2.2.2⟩⟩
theorem keepsSound_set_xm (s : State) x0
    (c0 : Store.wf blank s.xm.mem = true → Store.wf blank x0.mem = true)
    (b0 : s.xm.bursts.length ≤ 4 → x0.bursts.length ≤ 4) :
    KeepsSound s { s with xm := x0 } :=
  ⟨fun h => ⟨h.1, h.2.1, h.2.2.1, h.2.2.2.1, h.2.2.2.2.1, h.2.2.2.2.2.1, c0 h.2.2.2.2.2.2⟩, fun h => ⟨h.1, h.2.1, b0 h.2.2.1, h.2.2.2.1, h.2.2.2.2⟩⟩
theorem keepsSound_set_jrn_xm (s : State) x0 x1
    (b0 : Journal.Bounded s.jrn → Journal.Bounded x0)
    (c1 : Store.wf blank s.xm.mem = true → Store.wf blank x1.mem = true)
    (b1 : s.xm.bursts.length ≤ 4 → x1.bursts.length ≤ 4) :
    KeepsSound s { s with jrn := x0, xm := x1 } :=
  ⟨fun h => ⟨h.1, h.2.1, h.2.2.1, h.2.2.2.1, h.2.2.2.2.1, h.2.2.2.2.2.1, c1 h.2.2.2.2.2.2⟩, fun h => ⟨h.1, b0 h.2.1, b1 h.2.2.1, h.2.2.2.1, h.2.2.2.2⟩⟩
theorem keepsSound_set_nvm_ka (s : State) x0 x1
    (c0 : Store.wf blank s.nvm.mem = true → Store.wf blank x0.mem = true)
    (b0 : Nvm.Bounded s.nvm → Nvm.Bounded x0) :
    KeepsSound s { s with nvm := x0, ka := x1 } :=
  ⟨fun h => ⟨h.1, h.2.1, h.2.2.1, h.2.2.2.1, h.2.2.2.2.1, c0 h.2.2.2.2.2.1, h.2.2.2.2.2.2⟩, fun h => ⟨h.1, h.2.1, h.2.2.1, h.2.2.2.1, b0 h.2.2.2.2⟩⟩
theorem keepsSound_set_free_nvm (s : State) x0 x1
    (c1 : Store.wf blank s.nvm.mem = true → Store.wf blank x1.mem = true)
    (b1 : Nvm.Bounded s.nvm → Nvm.Bounded x1) :
    KeepsSound s { s with free := x0, nvm := x1 } :=
  ⟨fun h => ⟨h.1, h.2.1, h.2.2.1, h.2.2.2.1, h.2.2.2.2.1, c1 h.2.2.2.2.2.1, h.2.2.2.2.2.2⟩, fun h => ⟨h.1, h.2.1, h.2.2.1, h.2.2.2.1, b1 h.2.2.2.2⟩⟩
theorem keepsSound_set_settings_coef_tempTab_tiles_map_ldr (s : State) x0 x1 x2 x3 x4 x5
    (c0 : Store.wf 0 s.settings = true → Store.wf 0 x0 = true)
    (c1 : Store.wf 0 s.coef = true → Store.wf 0 x1 = true)
    (c2 : Store.wf 0 s.tempTab = true → Store.wf 0 x2 = true)
    (c4 : Store.wf 0 s.map.mem = true → Store.wf 0 x4.mem = true) :
    KeepsSound s { s with settings := x0, coef := x1, tempTab := x2, tiles := x3, map := x4, ldr := x5 } :=
  ⟨fun h => ⟨c0 h.1, c1 h.2.1, c2 h.2.2.1, c4 h.2.2.2.1, h.2.2.2.2.1, h.2.2.2.2.2.1, h.2.2.2.2.2.2⟩, fun h => h⟩
theorem keepsSound_set_ev (s : State) x0
    (b0 : s.ev.queue.length ≤ 512 → x0.queue.length ≤ 512) :
    KeepsSound s { s with ev := x0 } :=
  ⟨fun h => h, fun h => ⟨b0 h.1, h.2.1, h.2.2.1, h.2.2.2.1, h.2.2.2.2⟩⟩
theorem keepsSound_set_coef (s : State) x0
    (c0 : Store.wf 0 s.coef = true → Store.wf 0 x0 = true) :
    KeepsSound s { s with coef := x0 } :=
  ⟨fun h => ⟨h.1, c0 h.2.1, h.2.2.1, h.2.2.2.1, h.2.2.2.2.1, h.2.2.2.2.2.1, h.2.2.2.2.2.2⟩, fun h => h⟩
theorem keepsSound_set_free_xm (s : State) x0 x1
    (c1 : Store.wf blank s.xm.mem = true → Store.wf blank x1.mem = true)
    (b1 : s.xm.bursts.length ≤ 4 → x1.bursts.length ≤ 4) :
    KeepsSound s { s with free := x0, xm := x1 } :=
  ⟨fun h => ⟨h.1, h.2.1, h.2.2.1, h.2.2.2.1, h.2.2.2.2.1, h.2.2.2.2.2.1, c1 h.2.2.2.2.2.2⟩, fun h => ⟨h.1, h.2.1, b1 h.2.2.1, h.2.2.2.1, h.2.2.2.2⟩⟩
theorem keepsSound_set_xm_draw (s : State) x0 x1
    (c0 : Store.wf blank s.xm.mem = true → Store.wf blank x0.mem = true)
    (b0 : s.xm.bursts.length ≤ 4 → x0.bursts.length ≤ 4) :
    KeepsSound s { s with xm := x0, draw := x1 } :=
  ⟨fun h => ⟨h.1, h.2.1, h.2.2.1, h.2.2.2.1, h.2.2.2.2.1, h.2.2.2.2.2.1, c0 h.2.2.2.2.2.2⟩, fun h => ⟨h.1, h.2.1, b0 h.2.2.1, h.2.2.2.1, h.2.2.2.2⟩⟩
theorem keepsSound_set_nvm (s : State) x0
    (c0 : Store.wf blank s.nvm.mem = true → Store.wf blank x0.mem = true)
    (b0 : Nvm.Bounded s.nvm → Nvm.Bounded x0) :
    KeepsSound s { s with nvm := x0 } :=
  ⟨fun h => ⟨h.1, h.2.1, h.2.2.1, h.2.2.2.1, h.2.2.2.2.1, c0 h.2.2.2.2.2.1, h.2.2.2.2.2.2⟩, fun h => ⟨h.1, h.2.1, h.2.2.1, h.2.2.2.1, b0 h.2.2.2.2⟩⟩
theorem keepsSound_set_eeprom (s : State) x0
    (c0 : Store.wf blank s.eeprom = true → Store.wf blank x0 = true) :
    KeepsSound s { s with eeprom := x0 } :=
  ⟨fun h => ⟨h.1, h.2.1, h.2.2.1, h.2.2.2.1, c0 h.2.2.2.2.1, h.2.2.2.2.2.1, h.2.2.2.2.2.2⟩, fun h => h⟩
theorem keepsSound_set_free_eeprom_ldr (s : State) x0 x1 x2
    (c1 : Store.wf blank s.eeprom = true → Store.wf blank x1 = true) :
    KeepsSound s { s with free := x0, eeprom := x1, ldr := x2 } :=
  ⟨fun h => ⟨h.1, h.2.1, h.2.2.1, h.2.2.2.1, c1 h.2.2.2.2.1, h.2.2.2.2.2.1, h.2.2.2.2.2.2⟩, fun h => h⟩
theorem keepsSound_set_jrn_ka (s : State) x0 x1
    (b0 : Journal.Bounded s.jrn → Journal.Bounded x0) :
    KeepsSound s { s with jrn := x0, ka := x1 } :=
  ⟨fun h => h, fun h => ⟨h.1, b0 h.2.1, h.2.2.1, h.2.2.2.1, h.2.2.2.2⟩⟩
theorem keepsSound_set_test_map (s : State) x0 x1
    (c1 : Store.wf 0 s.map.mem = true → Store.wf 0 x1.mem = true) :
    KeepsSound s { s with test := x0, map := x1 } :=
  ⟨fun h => ⟨h.1, h.2.1, h.2.2.1, c1 h.2.2.2.1, h.2.2.2.2.1, h.2.2.2.2.2.1, h.2.2.2.2.2.2⟩, fun h => h⟩
theorem keepsSound_set_jrn (s : State) x0
    (b0 : Journal.Bounded s.jrn → Journal.Bounded x0) :
    KeepsSound s { s with jrn := x0 } :=
  ⟨fun h => h, fun h => ⟨h.1, b0 h.2.1, h.2.2.1, h.2.2.2.1, h.2.2.2.2⟩⟩
theorem keepsSound_set_pwr_hk_bus_link (s : State) x0 x1 x2 x3
    (b3 : s.link.settled.length ≤ 16 → x3.settled.length ≤ 16) :
    KeepsSound s { s with pwr := x0, hk := x1, bus := x2, link := x3 } :=
  ⟨fun h => h, fun h => ⟨h.1, h.2.1, h.2.2.1, b3 h.2.2.2.1, h.2.2.2.2⟩⟩
theorem keepsSound_set_bus_nvm (s : State) x0 x1
    (c1 : Store.wf blank s.nvm.mem = true → Store.wf blank x1.mem = true)
    (b1 : Nvm.Bounded s.nvm → Nvm.Bounded x1) :
    KeepsSound s { s with bus := x0, nvm := x1 } :=
  ⟨fun h => ⟨h.1, h.2.1, h.2.2.1, h.2.2.2.1, h.2.2.2.2.1, c1 h.2.2.2.2.2.1, h.2.2.2.2.2.2⟩, fun h => ⟨h.1, h.2.1, h.2.2.1, h.2.2.2.1, b1 h.2.2.2.2⟩⟩
theorem keepsSound_set_map (s : State) x0
    (c0 : Store.wf 0 s.map.mem = true → Store.wf 0 x0.mem = true) :
    KeepsSound s { s with map := x0 } :=
  ⟨fun h => ⟨h.1, h.2.1, h.2.2.1, c0 h.2.2.2.1, h.2.2.2.2.1, h.2.2.2.2.2.1, h.2.2.2.2.2.2⟩, fun h => h⟩
theorem keepsSound_set_pwr_nvm (s : State) x0 x1
    (c1 : Store.wf blank s.nvm.mem = true → Store.wf blank x1.mem = true)
    (b1 : Nvm.Bounded s.nvm → Nvm.Bounded x1) :
    KeepsSound s { s with pwr := x0, nvm := x1 } :=
  ⟨fun h => ⟨h.1, h.2.1, h.2.2.1, h.2.2.2.1, h.2.2.2.2.1, c1 h.2.2.2.2.2.1, h.2.2.2.2.2.2⟩, fun h => ⟨h.1, h.2.1, h.2.2.1, h.2.2.2.1, b1 h.2.2.2.2⟩⟩
theorem keepsSound_set_pwr_xm (s : State) x0 x1
    (c1 : Store.wf blank s.xm.mem = true → Store.wf blank x1.mem = true)
    (b1 : s.xm.bursts.length ≤ 4 → x1.bursts.length ≤ 4) :
    KeepsSound s { s with pwr := x0, xm := x1 } :=
  ⟨fun h => ⟨h.1, h.2.1, h.2.2.1, h.2.2.2.1, h.2.2.2.2.1, h.2.2.2.2.2.1, c1 h.2.2.2.2.2.2⟩, fun h => ⟨h.1, h.2.1, b1 h.2.2.1, h.2.2.2.1, h.2.2.2.2⟩⟩
theorem keepsSound_set_settings (s : State) x0
    (c0 : Store.wf 0 s.settings = true → Store.wf 0 x0 = true) :
    KeepsSound s { s with settings := x0 } :=
  ⟨fun h => ⟨c0 h.1, h.2.1, h.2.2.1, h.2.2.2.1, h.2.2.2.2.1, h.2.2.2.2.2.1, h.2.2.2.2.2.2⟩, fun h => h⟩
theorem keepsSound_set_pwr_xm_draw (s : State) x0 x1 x2
    (c1 : Store.wf blank s.xm.mem = true → Store.wf blank x1.mem = true)
    (b1 : s.xm.bursts.length ≤ 4 → x1.bursts.length ≤ 4) :
    KeepsSound s { s with pwr := x0, xm := x1, draw := x2 } :=
  ⟨fun h => ⟨h.1, h.2.1, h.2.2.1, h.2.2.2.1, h.2.2.2.2.1, h.2.2.2.2.2.1, c1 h.2.2.2.2.2.2⟩, fun h => ⟨h.1, h.2.1, b1 h.2.2.1, h.2.2.2.1, h.2.2.2.2⟩⟩
theorem keepsSound_set_settings_coef_tempTab_tiles_rails_pwr_test_map_hk_tel_ev_bus_link_ldr_nvm_jrn_xm_rcd_draw_sync (s : State) x0 x1 x2 x3 x4 x5 x6 x7 x8 x9 x10 x11 x12 x13 x14 x15 x16 x17 x18 x19
    (c0 : Store.wf 0 s.settings = true → Store.wf 0 x0 = true)
    (c1 : Store.wf 0 s.coef = true → Store.wf 0 x1 = true)
    (c2 : Store.wf 0 s.tempTab = true → Store.wf 0 x2 = true)
    (c7 : Store.wf 0 s.map.mem = true → Store.wf 0 x7.mem = true)
    (b10 : s.ev.queue.length ≤ 512 → x10.queue.length ≤ 512)
    (b12 : s.link.settled.length ≤ 16 → x12.settled.length ≤ 16)
    (c14 : Store.wf blank s.nvm.mem = true → Store.wf blank x14.mem = true)
    (b14 : Nvm.Bounded s.nvm → Nvm.Bounded x14)
    (b15 : Journal.Bounded s.jrn → Journal.Bounded x15)
    (c16 : Store.wf blank s.xm.mem = true → Store.wf blank x16.mem = true)
    (b16 : s.xm.bursts.length ≤ 4 → x16.bursts.length ≤ 4) :
    KeepsSound s { s with settings := x0, coef := x1, tempTab := x2, tiles := x3, rails := x4, pwr := x5, test := x6, map := x7, hk := x8, tel := x9, ev := x10, bus := x11, link := x12, ldr := x13, nvm := x14, jrn := x15, xm := x16, rcd := x17, draw := x18, sync := x19 } :=
  ⟨fun h => ⟨c0 h.1, c1 h.2.1, c2 h.2.2.1, c7 h.2.2.2.1, h.2.2.2.2.1, c14 h.2.2.2.2.2.1, c16 h.2.2.2.2.2.2⟩, fun h => ⟨b10 h.1, b15 h.2.1, b16 h.2.2.1, b12 h.2.2.2.1, b14 h.2.2.2.2⟩⟩
theorem keepsSound_set_tiles_rails_ev (s : State) x0 x1 x2
    (b2 : s.ev.queue.length ≤ 512 → x2.queue.length ≤ 512) :
    KeepsSound s { s with tiles := x0, rails := x1, ev := x2 } :=
  ⟨fun h => h, fun h => ⟨b2 h.1, h.2.1, h.2.2.1, h.2.2.2.1, h.2.2.2.2⟩⟩
theorem keepsSound_set_ldr_xm (s : State) x0 x1
    (c1 : Store.wf blank s.xm.mem = true → Store.wf blank x1.mem = true)
    (b1 : s.xm.bursts.length ≤ 4 → x1.bursts.length ≤ 4) :
    KeepsSound s { s with ldr := x0, xm := x1 } :=
  ⟨fun h => ⟨h.1, h.2.1, h.2.2.1, h.2.2.2.1, h.2.2.2.2.1, h.2.2.2.2.2.1, c1 h.2.2.2.2.2.2⟩, fun h => ⟨h.1, h.2.1, b1 h.2.2.1, h.2.2.2.1, h.2.2.2.2⟩⟩
theorem keepsSound_set_pwr_ldr_xm (s : State) x0 x1 x2
    (c2 : Store.wf blank s.xm.mem = true → Store.wf blank x2.mem = true)
    (b2 : s.xm.bursts.length ≤ 4 → x2.bursts.length ≤ 4) :
    KeepsSound s { s with pwr := x0, ldr := x1, xm := x2 } :=
  ⟨fun h => ⟨h.1, h.2.1, h.2.2.1, h.2.2.2.1, h.2.2.2.2.1, h.2.2.2.2.2.1, c2 h.2.2.2.2.2.2⟩, fun h => ⟨h.1, h.2.1, b2 h.2.2.1, h.2.2.2.1, h.2.2.2.2⟩⟩

theorem keepsSound_putWord (s : State) (a1 : Reg) (a2 : Word) : KeepsSound s (putWord s a1 a2) := by
  unfold putWord
  try dsimp only
  exact keepsSound_set_settings _ _ (fun h => Store.wf_set h _ _)

theorem eraseFirst_length {α : Type} (p : α → Bool) (l : List α) (h : ∃ a ∈ l, p a = true) : (eraseFirst p l).length + 1 = l.length := by
  induction l with
  | nil => simp at h
  | cons a l ih =>
    unfold eraseFirst
    split
    · simp
    · rename_i hp
      have : ∃ a ∈ l, p a = true := by simpa [hp] using h
      simp [ih this]

/-- A queue of 15 requests, none twice, holds one that is not critical: there are two critical requests. -/
theorem exists_notCritical {q : List NvmJob} (h : q.Nodup) (hl : 15 ≤ q.length) : ∃ j ∈ q, (!jobCritical j) = true := by
  by_contra hx
  have hs : q ⊆ [.record 1 false, .record 1 true] := by
    intro j hj
    have hc : jobCritical j = true := by
      cases hb : jobCritical j with
      | true => rfl
      | false => exact absurd ⟨j, hj, by rw [hb]; rfl⟩ hx
    unfold jobCritical at hc
    split at hc
    · rename_i b
      cases b <;> simp
    · exact absurd hc (by decide)
  have := (List.subperm_of_subset h hs).length_le
  simp at this
  omega

theorem nodup_map_replace {q : List NvmJob} {o n : NvmJob} (h : q.Nodup) (hn : n = o ∨ n ∉ q) : (q.map fun x => if x = o then n else x).Nodup := by
  rcases hn with rfl | hn
  · have : (fun x : NvmJob => if x = n then n else x) = id := funext fun x => by
      by_cases hx : x = n <;> simp [hx]
    rw [this, List.map_id]
    exact h
  · refine List.Nodup.map_on (fun x hx y hy e => ?_) h
    split at e <;> split at e
    · simp_all
    · exact absurd (e ▸ hy) hn
    · exact absurd (e ▸ hx) hn
    · exact e

theorem jobMerged_eq (old new : NvmJob) : jobMerged old new = old ∨ jobMerged old new = new := by
  unfold jobMerged
  split <;> simp

theorem keepsSound_nvmRequest (a0 : NvmJob) (s : State) : KeepsSound s (nvmRequest a0 s) := by
  unfold nvmRequest
  split
  · exact KeepsSound.refl
  · rename_i hc
    have hm : a0 ∉ s.nvm.queue := fun h => hc (List.contains_iff_mem.mpr h)
    have hn : ∀ q : List NvmJob, q.Sublist s.nvm.queue → s.nvm.queue.Nodup → (q ++ [a0]).Nodup := fun q hq h =>
      List.nodup_append.mpr ⟨h.sublist hq, List.nodup_singleton _, fun a ha b hb e => hm (List.mem_singleton.mp hb ▸ e ▸ hq.subset ha)⟩
    split
    · refine KeepsSound.trans ?_ (keepsSound_of_within (within_nvmAsk _) (by decide))
      refine keepsSound_set_nvm _ _ (fun h => h) (fun h => ⟨?_, ?_⟩)
      · simpa [nvmFill] using h.1
      · exact nodup_map_replace h.2 ((jobMerged_eq _ _).imp id fun e => by rw [e]; exact hm)
    split
    · rename_i hf
      refine KeepsSound.trans ?_ (keepsSound_of_within (within_nvmAsk _) (by decide))
      refine keepsSound_set_nvm _ _ (fun h => h) (fun h => ⟨?_, hn _ (List.Sublist.refl _) h.2⟩)
      unfold nvmFill at *
      simp only [List.length_append, List.length_cons, List.length_nil]
      omega
    · dsimp only
      rename_i hf
      split
      · refine KeepsSound.trans ?_ (keepsSound_of_within (within_nvmAsk _) (by decide))
        refine keepsSound_set_nvm _ _ (fun h => h) (fun h => ⟨?_, hn _ (eraseFirst_sublist _ _) h.2⟩)
        have h1 := h.1
        have hl : 15 ≤ s.nvm.queue.length := by
          unfold nvmFill at hf
          split at hf <;> omega
        have := eraseFirst_length _ _ (exists_notCritical h.2 hl)
        unfold nvmFill at *
        simp only [List.length_append, List.length_cons, List.length_nil]
        omega
      · split
        · exact keepsSound_set_nvm _ _ (fun h => h) (fun h => nvmBounded_of h (List.Sublist.refl _) (fun x => x))
        · exact keepsSound_set_nvm _ _ (fun h => h) (fun h => nvmBounded_of h (List.Sublist.refl _) (fun x => x))

theorem keepsSound_fsumChanged (s : State) : KeepsSound s (fsumChanged s) := by
  unfold fsumChanged
  try dsimp only
  exact keepsSound_nvmRequest _ _

theorem placeEntry_length (q : QueueEntry) (l : List QueueEntry) : (placeEntry q l).length = l.length + 1 := by
  induction l with
  | nil => rfl
  | cons x l ih =>
    unfold placeEntry
    split
    · rfl
    · simp [ih]

theorem keepsSound_enqueue (a0 : QueueEntry) (s : State) : KeepsSound s (enqueue a0 s) := by
  unfold enqueue
  split
  · exact keepsSound_set_ev _ _ (fun h => h)
  · refine keepsSound_set_ev _ _ (fun h => ?_)
    dsimp only
    rw [placeEntry_length]
    omega

theorem keepsSound_recordEntry (a0 : ℕ) (a1 : Word) (a2 : HostId) (s : State) : KeepsSound s (recordEntry a0 a1 a2 s) := by
  unfold recordEntry
  try dsimp only
  exact keepsSound_enqueue _ _

theorem keepsSound_laterCycle (s : State) : KeepsSound s (laterCycle s) := by
  unfold laterCycle
  try dsimp only
  exact keepsSound_set_tiles_rails_ev _ _ _ _ (fun h => by simpa only [List.length_map] using h)

theorem keepsSound_latchSrc (a0 : ℕ) (a1 : Word) (s : State) : KeepsSound s (latchSrc a0 a1 s) := by
  unfold latchSrc
  try dsimp only
  exact keepsSound_set_ev _ _ (fun h => h)

theorem keepsSound_markSrc (a0 : ℕ) (s : State) : KeepsSound s (markSrc a0 s) := by
  unfold markSrc
  try dsimp only
  exact keepsSound_set_ev _ _ (fun h => h)

theorem keepsSound_markJrn (a0 : ℕ) (s : State) : KeepsSound s (markJrn a0 s) := by
  unfold markJrn
  try dsimp only
  exact keepsSound_set_ev _ _ (fun h => h)

theorem keepsSound_pushSettled (a0 : Raise) (a1 : LinkFrame) (s : State) (hr : ∀ e d x, KeepsSound x (a0 e d x)) :
    KeepsSound s (pushSettled a0 a1 s) := by
  unfold pushSettled
  split
  · rename_i o rest hq
    split
    · refine KeepsSound.trans (keepsSound_set_link _ _ (fun h => ?_)) (hr _ _ _)
      simpa [hq] using h
    · refine keepsSound_set_link _ _ (fun h => ?_)
      simp only [List.length_append, List.length_cons, List.length_nil]
      omega
  · exact keepsSound_set_link _ _ (fun _ => by simp)

theorem keepsSound_recloseWatch (a0 : RailId) (a1 : BitVec 5) (a2 : BitVec 16) (s : State) : KeepsSound s (recloseWatch a0 a1 a2 s) := by
  unfold recloseWatch
  try dsimp only
  split
  · exact KeepsSound.refl
  · refine keepsSound_ite ?_ ?_
    · refine KeepsSound.trans ?_ (keepsSound_set_link _ _ (fun h => by simpa only [List.length_map] using h))
      exact keepsSound_of_within (within_State_modRail _ _ _) (by decide)
    · exact KeepsSound.refl

theorem keepsSound_closeWatch (a0 : Raise) (a1 : RailId) (a2 : BitVec 5) (a3 : BitVec 16) (s : State) (hr : ∀ e d x, KeepsSound x (a0 e d x)) : KeepsSound s (closeWatch a0 a1 a2 a3 s) := by
  unfold closeWatch
  try dsimp only
  split
  · refine KeepsSound.trans ?_ (keepsSound_pushSettled _ _ _ hr)
    exact keepsSound_of_within (within_State_modRail _ _ _) (by decide)
  · exact keepsSound_recloseWatch _ _ _ _

theorem keepsSound_abandonWatch (a0 : Raise) (a1 : RailId) (s : State) (hr : ∀ e d x, KeepsSound x (a0 e d x)) : KeepsSound s (abandonWatch a0 a1 s) := by
  unfold abandonWatch
  try dsimp only
  exact keepsSound_closeWatch _ _ _ _ _ hr

theorem keepsSound_beginStopping (a0 : Raise) (a1 : RailId) (a2 : Bool) (a3 : ℕ) (s : State) (hr : ∀ e d x, KeepsSound x (a0 e d x)) : KeepsSound s (beginStopping a0 a1 a2 a3 s) := by
  unfold beginStopping
  try dsimp only
  refine KeepsSound.trans ?_ (keepsSound_abandonWatch _ _ _ hr)
  refine KeepsSound.trans ?_ (keepsSound_of_within (within_State_modRail _ _ _) (by decide))
  refine KeepsSound.trans ?_ (keepsSound_of_within (within_State_modTilesOf _ _ _) (by decide))
  exact keepsSound_of_within (within_setPgood _ _ _) (by decide)

theorem keepsSound_resumeStop (a0 : Raise) (a1 : RailId) (s : State) (hr : ∀ e d x, KeepsSound x (a0 e d x)) : KeepsSound s (resumeStop a0 a1 s) := by
  unfold resumeStop
  try dsimp only
  split
  · exact KeepsSound.refl
  · refine keepsSound_ite ?_ ?_
    · exact keepsSound_beginStopping _ _ _ _ _ hr
    · exact KeepsSound.refl

theorem keepsSound_resumeStops (a0 : Raise) (s : State) (hr : ∀ e d x, KeepsSound x (a0 e d x)) : KeepsSound s (resumeStops a0 s) := by
  unfold resumeStops
  try dsimp only
  refine KeepsSound.trans ?_ (keepsSound_foldl (fun _ _ => ?_) _ _)
  · exact KeepsSound.refl
  · exact keepsSound_resumeStop _ _ _ hr

theorem keepsSound_enterOut (a0 : Raise) (a1 : RailId) (a2 : RailState) (a3 : ℕ) (a4 : ℕ) (s : State) (hr : ∀ e d x, KeepsSound x (a0 e d x)) : KeepsSound s (enterOut a0 a1 a2 a3 a4 s) := by
  unfold enterOut
  try dsimp only
  refine KeepsSound.trans ?_ (keepsSound_resumeStops _ _ hr)
  refine KeepsSound.trans ?_ (keepsSound_abandonWatch _ _ _ hr)
  refine KeepsSound.trans ?_ (keepsSound_of_within (within_State_modRail _ _ _) (by decide))
  refine KeepsSound.trans ?_ (keepsSound_of_within (within_setPgood _ _ _) (by decide))
  exact keepsSound_of_within (within_State_modTilesOf _ _ _) (by decide)

theorem keepsSound_safeNow (a0 : Raise) (a1 : RailId) (a2 : ℕ) (s : State) (hr : ∀ e d x, KeepsSound x (a0 e d x)) : KeepsSound s (safeNow a0 a1 a2 s) := by
  unfold safeNow
  try dsimp only
  split
  · exact KeepsSound.refl
  · refine keepsSound_ite ?_ ?_
    · exact keepsSound_enterOut _ _ _ _ _ _ hr
    · exact KeepsSound.refl
  · exact keepsSound_enterOut _ _ _ _ _ _ hr

theorem keepsSound_orderlySafe (a0 : Raise) (a1 : RailId) (a2 : ℕ) (s : State) (hr : ∀ e d x, KeepsSound x (a0 e d x)) : KeepsSound s (orderlySafe a0 a1 a2 s) := by
  unfold orderlySafe
  try dsimp only
  split
  · exact keepsSound_enterOut _ _ _ _ _ _ hr
  · refine keepsSound_ite ?_ ?_
    · exact KeepsSound.refl
    · exact keepsSound_enterOut _ _ _ _ _ _ hr
  · refine keepsSound_ite ?_ ?_
    · exact keepsSound_of_within (within_State_modSeq _ _ _) (by decide)
    · exact keepsSound_beginStopping _ _ _ _ _ hr
  · refine keepsSound_ite ?_ ?_
    · exact keepsSound_of_within (within_State_modSeq _ _ _) (by decide)
    · exact keepsSound_beginStopping _ _ _ _ _ hr
  · refine keepsSound_ite ?_ ?_
    · exact keepsSound_of_within (within_State_modSeq _ _ _) (by decide)
    · exact keepsSound_beginStopping _ _ _ _ _ hr
  · exact keepsSound_of_within (within_State_modSeq _ _ _) (by decide)
  · refine keepsSound_ite ?_ ?_
    · exact keepsSound_enterOut _ _ _ _ _ _ hr
    · exact KeepsSound.refl
  · exact KeepsSound.refl

theorem keepsSound_orderlyOff (a0 : Raise) (a1 : RailId) (a2 : ℕ) (s : State) (hr : ∀ e d x, KeepsSound x (a0 e d x)) : KeepsSound s (orderlyOff a0 a1 a2 s) := by
  unfold orderlyOff
  try dsimp only
  split
  · exact keepsSound_enterOut _ _ _ _ _ _ hr
  · refine keepsSound_ite ?_ ?_
    · exact keepsSound_of_within (within_State_modSeq _ _ _) (by decide)
    · exact keepsSound_beginStopping _ _ _ _ _ hr
  · refine keepsSound_ite ?_ ?_
    · exact keepsSound_of_within (within_State_modSeq _ _ _) (by decide)
    · exact keepsSound_beginStopping _ _ _ _ _ hr
  · refine keepsSound_ite ?_ ?_
    · exact keepsSound_of_within (within_State_modSeq _ _ _) (by decide)
    · exact keepsSound_beginStopping _ _ _ _ _ hr
  · exact KeepsSound.refl
  · exact KeepsSound.refl
  · exact KeepsSound.refl
  · exact KeepsSound.refl

theorem keepsSound_respAction (a0 : Raise) (a1 : ℕ) (s : State) (hr : ∀ e d x, KeepsSound x (a0 e d x)) : KeepsSound s (respAction a0 a1 s) := by
  unfold respAction
  try dsimp only
  refine keepsSound_ite ?_ ?_
  · refine KeepsSound.trans ?_ (keepsSound_foldl (fun _ _ => ?_) _ _)
    · exact KeepsSound.refl
    · refine keepsSound_ite ?_ ?_
      · exact KeepsSound.refl
      · exact keepsSound_orderlySafe _ _ _ _ hr
  · refine keepsSound_ite ?_ ?_
    · refine KeepsSound.trans ?_ (keepsSound_foldl (fun _ _ => ?_) _ _)
      · exact KeepsSound.refl
      · exact keepsSound_safeNow _ _ _ _ hr
    · exact KeepsSound.refl

theorem keepsSound_journalClass (a0 : ℕ) (a1 : Word) (s : State) : KeepsSound s (journalClass a0 a1 s) := by
  unfold journalClass
  try dsimp only
  refine keepsSound_ite ?_ ?_
  · exact keepsSound_set_ev _ _ (fun h => by simpa only [List.length_map] using h)
  · refine KeepsSound.trans ?_ (keepsSound_enqueue _ _)
    exact keepsSound_markJrn _ _

theorem keepsSound_occurF (a0 : Nat) (a1 : Bool) (a2 : Nat) (a3 : Word) (s : State) : KeepsSound s (occurF a0 a1 a2 a3 s) := by
  induction a0 generalizing a1 a2 a3 s with
  | zero => exact KeepsSound.refl
  | succ n ih =>
    unfold occurF
    dsimp only
    have hl : ∀ b : Bool, ∀ x, KeepsSound x (if b then latchSrc a2 a3 x else x) :=
      fun b x => keepsSound_ite (keepsSound_latchSrc _ _ _) KeepsSound.refl
    have hq : ∀ b : Bool, ∀ q x, KeepsSound x (if b then enqueue q (markJrn a2 x) else x) :=
      fun b q x => keepsSound_ite ((keepsSound_markJrn _ _).trans (keepsSound_enqueue _ _)) KeepsSound.refl
    refine keepsSound_ite (keepsSound_ite (keepsSound_journalClass _ _ _) KeepsSound.refl) (KeepsSound.trans ?_
      (keepsSound_ite (keepsSound_respAction _ _ _ (fun e d x => ih _ e d x)) KeepsSound.refl))
    refine KeepsSound.trans ?_ (keepsSound_ite (keepsSound_ite
      (KeepsSound.trans (keepsSound_of_within (within_startCapture _ _ _) (by decide)) (ih _ _ _ _))
      (keepsSound_of_within (within_set_rcd _ _) (by decide))) KeepsSound.refl)
    exact ((keepsSound_markSrc _ _).trans (hl _ _)).trans (hq _ _ _)

theorem keepsSound_occur (a0 : ℕ) (a1 : Word) (s : State) : KeepsSound s (occur a0 a1 s) := by
  unfold occur
  try dsimp only
  exact keepsSound_occurF _ _ _ _ _

theorem keepsSound_occurClass (a0 : ℕ) (a1 : Word) (s : State) : KeepsSound s (occurClass a0 a1 s) := by
  unfold occurClass
  try dsimp only
  exact keepsSound_occurF _ _ _ _ _

theorem keepsSound_hostTrigger (s : State) : KeepsSound s (hostTrigger s) := by
  unfold hostTrigger
  try dsimp only
  refine keepsSound_ite ?_ ?_
  · refine KeepsSound.trans ?_ (keepsSound_occur _ _ _)
    exact keepsSound_of_within (within_startCapture _ _ _) (by decide)
  · exact keepsSound_of_within (within_set_rcd _ _) (by decide)

theorem keepsSound_railToOut (a0 : RailId) (a1 : RailState) (a2 : ℕ) (a3 : ℕ) (s : State) : KeepsSound s (railToOut a0 a1 a2 a3 s) := by
  unfold railToOut
  try dsimp only
  exact keepsSound_enterOut _ _ _ _ _ _ (fun e d x => keepsSound_occur e d x)

theorem keepsSound_leapRemove (a0 : TileId) (s : State) : KeepsSound s (leapRemove a0 s) := by
  unfold leapRemove
  try dsimp only
  split
  · exact KeepsSound.refl
  · refine keepsSound_ite ?_ ?_
    · refine KeepsSound.trans ?_ (keepsSound_resumeStop _ _ _ (fun e d x => keepsSound_occur e d x))
      refine KeepsSound.trans ?_ (keepsSound_of_within (within_leapCheck _ _ _) (by decide))
      exact keepsSound_of_within (within_State_modTile _ _ _) (by decide)
    · exact KeepsSound.refl

theorem keepsSound_noTileLeft (a0 : RailId) (a1 : ℕ) (s : State) : KeepsSound s (noTileLeft a0 a1 s) := by
  unfold noTileLeft
  try dsimp only
  refine keepsSound_ite ?_ ?_
  · exact keepsSound_safeNow _ _ _ _ (fun e d x => keepsSound_occur e d x)
  · exact KeepsSound.refl

theorem keepsSound_removeTile (a0 : TileId) (a1 : TileAct) (a2 : ℕ) (s : State) : KeepsSound s (removeTile a0 a1 a2 s) := by
  unfold removeTile
  try dsimp only
  split
  · refine KeepsSound.trans ?_ (keepsSound_of_within (within_State_modTile _ _ _) (by decide))
    exact keepsSound_leapRemove _ _
  · refine KeepsSound.trans ?_ (keepsSound_noTileLeft _ _ _)
    refine KeepsSound.trans ?_ (keepsSound_of_within (within_settleChange _ _) (by decide))
    refine KeepsSound.trans ?_ (keepsSound_of_within (within_State_modIlv _ _ _) (by decide))
    refine KeepsSound.trans ?_ (keepsSound_of_within (within_closeSlot _ _ _) (by decide))
    refine KeepsSound.trans ?_ (keepsSound_of_within (within_State_modTile _ _ _) (by decide))
    exact keepsSound_leapRemove _ _

theorem keepsSound_enterHiccup (a0 : RailId) (a1 : ℕ) (s : State) : KeepsSound s (enterHiccup a0 a1 s) := by
  unfold enterHiccup
  try dsimp only
  refine keepsSound_ite ?_ ?_
  · exact keepsSound_railToOut _ _ _ _ _
  · refine KeepsSound.trans ?_ (keepsSound_railToOut _ _ _ _ _)
    exact keepsSound_railToOut _ _ _ _ _

theorem keepsSound_hiccupFault (a0 : RailId) (a1 : ℕ) (s : State) : KeepsSound s (hiccupFault a0 a1 s) := by
  unfold hiccupFault
  try dsimp only
  refine keepsSound_ite ?_ ?_
  · exact KeepsSound.refl
  · refine keepsSound_ite ?_ ?_
    · refine KeepsSound.trans ?_ (keepsSound_railToOut _ _ _ _ _)
      exact keepsSound_of_within (within_State_modSeq _ _ _) (by decide)
    · refine KeepsSound.trans ?_ (keepsSound_enterHiccup _ _ _)
      exact keepsSound_of_within (within_State_modSeq _ _ _) (by decide)

theorem keepsSound_railResponse (a0 : RailId) (a1 : ℕ) (s : State) : KeepsSound s (railResponse a0 a1 s) := by
  unfold railResponse
  try dsimp only
  split
  · exact keepsSound_orderlySafe _ _ _ _ (fun e d x => keepsSound_occur e d x)
  · exact keepsSound_safeNow _ _ _ _ (fun e d x => keepsSound_occur e d x)
  · refine KeepsSound.trans ?_ (keepsSound_foldl (fun _ _ => ?_) _ _)
    · exact KeepsSound.refl
    · exact keepsSound_safeNow _ _ _ _ (fun e d x => keepsSound_occur e d x)
  · exact keepsSound_hiccupFault _ _ _
  · exact KeepsSound.refl

theorem keepsSound_fireRail (a0 : RailId) (a1 : RailSource) (s : State) : KeepsSound s (fireRail a0 a1 s) := by
  unfold fireRail
  try dsimp only
  refine keepsSound_ite ?_ ?_
  · refine keepsSound_ite ?_ ?_
    · refine KeepsSound.trans ?_ (keepsSound_journalClass _ _ _)
      refine KeepsSound.trans ?_ (keepsSound_railResponse _ _ _)
      refine keepsSound_ite ?_ ?_
      · refine KeepsSound.trans ?_ (keepsSound_fsumChanged _)
        exact keepsSound_of_within (within_State_modProt _ _ _) (by decide)
      · exact keepsSound_of_within (within_State_modProt _ _ _) (by decide)
    · refine KeepsSound.trans ?_ (keepsSound_railResponse _ _ _)
      refine keepsSound_ite ?_ ?_
      · refine KeepsSound.trans ?_ (keepsSound_fsumChanged _)
        exact keepsSound_of_within (within_State_modProt _ _ _) (by decide)
      · exact keepsSound_of_within (within_State_modProt _ _ _) (by decide)
  · refine keepsSound_ite ?_ ?_
    · refine KeepsSound.trans ?_ (keepsSound_occurClass _ _ _)
      refine KeepsSound.trans ?_ (keepsSound_railResponse _ _ _)
      refine keepsSound_ite ?_ ?_
      · refine KeepsSound.trans ?_ (keepsSound_fsumChanged _)
        exact keepsSound_of_within (within_State_modProt _ _ _) (by decide)
      · exact keepsSound_of_within (within_State_modProt _ _ _) (by decide)
    · refine KeepsSound.trans ?_ (keepsSound_occur _ _ _)
      refine KeepsSound.trans ?_ (keepsSound_railResponse _ _ _)
      refine keepsSound_ite ?_ ?_
      · refine KeepsSound.trans ?_ (keepsSound_fsumChanged _)
        exact keepsSound_of_within (within_State_modProt _ _ _) (by decide)
      · exact keepsSound_of_within (within_State_modProt _ _ _) (by decide)

theorem keepsSound_tailDrop (a0 : TileId) (a1 : ℕ) (s : State) : KeepsSound s (tailDrop a0 a1 s) := by
  unfold tailDrop
  try dsimp only
  split
  · exact KeepsSound.refl
  · exact KeepsSound.refl
  · exact KeepsSound.refl
  · refine KeepsSound.trans ?_ (keepsSound_of_within (within_State_modProt _ _ _) (by decide))
    exact keepsSound_removeTile _ _ _ _

theorem keepsSound_fireTile (a0 : TileId) (a1 : TileCause) (a2 : ℕ) (a3 : Bool) (s : State) : KeepsSound s (fireTile a0 a1 a2 a3 s) := by
  unfold fireTile
  try dsimp only
  split
  · exact KeepsSound.refl
  · refine keepsSound_ite ?_ ?_
    · refine keepsSound_ite ?_ ?_
      · refine KeepsSound.trans ?_ (keepsSound_journalClass _ _ _)
        refine keepsSound_ite ?_ ?_
        · refine KeepsSound.trans ?_ (keepsSound_tailDrop _ _ _)
          refine keepsSound_ite ?_ ?_
          · refine KeepsSound.trans ?_ (keepsSound_fsumChanged _)
            exact keepsSound_of_within (within_State_modTile _ _ _) (by decide)
          · exact keepsSound_of_within (within_State_modTile _ _ _) (by decide)
        · refine KeepsSound.trans ?_ (keepsSound_railResponse _ _ _)
          refine keepsSound_ite ?_ ?_
          · refine KeepsSound.trans ?_ (keepsSound_fsumChanged _)
            exact keepsSound_of_within (within_State_modTile _ _ _) (by decide)
          · exact keepsSound_of_within (within_State_modTile _ _ _) (by decide)
      · refine keepsSound_ite ?_ ?_
        · refine KeepsSound.trans ?_ (keepsSound_tailDrop _ _ _)
          refine keepsSound_ite ?_ ?_
          · refine KeepsSound.trans ?_ (keepsSound_fsumChanged _)
            exact keepsSound_of_within (within_State_modTile _ _ _) (by decide)
          · exact keepsSound_of_within (within_State_modTile _ _ _) (by decide)
        · refine KeepsSound.trans ?_ (keepsSound_railResponse _ _ _)
          refine keepsSound_ite ?_ ?_
          · refine KeepsSound.trans ?_ (keepsSound_fsumChanged _)
            exact keepsSound_of_within (within_State_modTile _ _ _) (by decide)
          · exact keepsSound_of_within (within_State_modTile _ _ _) (by decide)
    · refine keepsSound_ite ?_ ?_
      · refine KeepsSound.trans ?_ (keepsSound_occurClass _ _ _)
        refine keepsSound_ite ?_ ?_
        · refine KeepsSound.trans ?_ (keepsSound_tailDrop _ _ _)
          refine keepsSound_ite ?_ ?_
          · refine KeepsSound.trans ?_ (keepsSound_fsumChanged _)
            exact keepsSound_of_within (within_State_modTile _ _ _) (by decide)
          · exact keepsSound_of_within (within_State_modTile _ _ _) (by decide)
        · refine KeepsSound.trans ?_ (keepsSound_railResponse _ _ _)
          refine keepsSound_ite ?_ ?_
          · refine KeepsSound.trans ?_ (keepsSound_fsumChanged _)
            exact keepsSound_of_within (within_State_modTile _ _ _) (by decide)
          · exact keepsSound_of_within (within_State_modTile _ _ _) (by decide)
      · refine KeepsSound.trans ?_ (keepsSound_occur _ _ _)
        refine keepsSound_ite ?_ ?_
        · refine KeepsSound.trans ?_ (keepsSound_tailDrop _ _ _)
          refine keepsSound_ite ?_ ?_
          · refine KeepsSound.trans ?_ (keepsSound_fsumChanged _)
            exact keepsSound_of_within (within_State_modTile _ _ _) (by decide)
          · exact keepsSound_of_within (within_State_modTile _ _ _) (by decide)
        · refine KeepsSound.trans ?_ (keepsSound_railResponse _ _ _)
          refine keepsSound_ite ?_ ?_
          · refine KeepsSound.trans ?_ (keepsSound_fsumChanged _)
            exact keepsSound_of_within (within_State_modTile _ _ _) (by decide)
          · exact keepsSound_of_within (within_State_modTile _ _ _) (by decide)

theorem keepsSound_judgeCoarse (a0 : RailId) (a1 : ℕ) (s : State) : KeepsSound s (judgeCoarse a0 a1 s) := by
  unfold judgeCoarse
  try dsimp only
  refine keepsSound_ite ?_ ?_
  · refine KeepsSound.trans ?_ (keepsSound_fireRail _ _ _)
    refine keepsSound_ite ?_ ?_
    · refine KeepsSound.trans ?_ (keepsSound_fireRail _ _ _)
      exact keepsSound_of_within (within_State_modProt _ _ _) (by decide)
    · exact keepsSound_of_within (within_State_modProt _ _ _) (by decide)
  · refine keepsSound_ite ?_ ?_
    · refine KeepsSound.trans ?_ (keepsSound_fireRail _ _ _)
      exact keepsSound_of_within (within_State_modProt _ _ _) (by decide)
    · exact keepsSound_of_within (within_State_modProt _ _ _) (by decide)

theorem keepsSound_judgeWindow (a0 : RailId) (a1 : ℤ) (s : State) : KeepsSound s (judgeWindow a0 a1 s) := by
  unfold judgeWindow
  try dsimp only
  refine keepsSound_ite ?_ ?_
  · refine KeepsSound.trans ?_ (keepsSound_fireRail _ _ _)
    refine keepsSound_ite ?_ ?_
    · refine KeepsSound.trans ?_ (keepsSound_fireRail _ _ _)
      exact keepsSound_of_within (within_State_modProt _ _ _) (by decide)
    · exact keepsSound_of_within (within_State_modProt _ _ _) (by decide)
  · refine keepsSound_ite ?_ ?_
    · refine KeepsSound.trans ?_ (keepsSound_fireRail _ _ _)
      exact keepsSound_of_within (within_State_modProt _ _ _) (by decide)
    · exact keepsSound_of_within (within_State_modProt _ _ _) (by decide)

theorem keepsSound_judgeOcr (a0 : RailId) (s : State) : KeepsSound s (judgeOcr a0 s) := by
  unfold judgeOcr
  try dsimp only
  refine keepsSound_ite ?_ ?_
  · refine KeepsSound.trans ?_ (keepsSound_fireRail _ _ _)
    refine KeepsSound.trans ?_ (keepsSound_of_within (within_State_modProt _ _ _) (by decide))
    exact keepsSound_of_within (within_State_modProt _ _ _) (by decide)
  · exact keepsSound_of_within (within_State_modProt _ _ _) (by decide)

theorem keepsSound_judgeDrop (a0 : RailId) (s : State) : KeepsSound s (judgeDrop a0 s) := by
  unfold judgeDrop
  try dsimp only
  refine keepsSound_ite ?_ ?_
  · refine KeepsSound.trans ?_ (keepsSound_occur _ _ _)
    exact keepsSound_of_within (within_State_modProt _ _ _) (by decide)
  · exact keepsSound_of_within (within_State_modProt _ _ _) (by decide)

theorem keepsSound_throttleBegin (a0 : RailId) (a1 : Bool) (s : State) : KeepsSound s (throttleBegin a0 a1 s) := by
  unfold throttleBegin
  try dsimp only
  refine keepsSound_ite ?_ ?_
  · refine KeepsSound.trans ?_ (keepsSound_occur _ _ _)
    exact keepsSound_of_within (within_State_modProt _ _ _) (by decide)
  · exact KeepsSound.refl

theorem keepsSound_stepThrottle (a0 : RailId) (s : State) : KeepsSound s (stepThrottle a0 s) := by
  unfold stepThrottle
  try dsimp only
  refine KeepsSound.trans ?_ (keepsSound_throttleBegin _ _ _)
  refine KeepsSound.trans ?_ (keepsSound_of_within (within_antiWindup _ _) (by decide))
  exact keepsSound_of_within (within_State_modProt _ _ _) (by decide)

theorem keepsSound_judgeOct (a0 : TileId) (a1 : ℤ) (s : State) : KeepsSound s (judgeOct a0 a1 s) := by
  unfold judgeOct
  try dsimp only
  split
  · exact KeepsSound.refl
  · refine keepsSound_ite ?_ ?_
    · refine KeepsSound.trans ?_ (keepsSound_fireTile _ _ _ _ _)
      refine keepsSound_ite ?_ ?_
      · refine KeepsSound.trans ?_ (keepsSound_fireTile _ _ _ _ _)
        exact keepsSound_of_within (within_State_modTile _ _ _) (by decide)
      · exact keepsSound_of_within (within_State_modTile _ _ _) (by decide)
    · refine keepsSound_ite ?_ ?_
      · refine KeepsSound.trans ?_ (keepsSound_fireTile _ _ _ _ _)
        exact keepsSound_of_within (within_State_modTile _ _ _) (by decide)
      · exact keepsSound_of_within (within_State_modTile _ _ _) (by decide)

theorem keepsSound_judgeOpenSense (a0 : TileId) (a1 : Bool) (s : State) : KeepsSound s (judgeOpenSense a0 a1 s) := by
  unfold judgeOpenSense
  try dsimp only
  split
  · exact KeepsSound.refl
  · refine keepsSound_ite ?_ ?_
    · refine KeepsSound.trans ?_ (keepsSound_fireTile _ _ _ _ _)
      exact keepsSound_of_within (within_State_modTile _ _ _) (by decide)
    · refine keepsSound_ite ?_ ?_
      · refine KeepsSound.trans ?_ (keepsSound_fireTile _ _ _ _ _)
        exact keepsSound_of_within (within_State_modTile _ _ _) (by decide)
      · refine keepsSound_ite ?_ ?_
        · refine KeepsSound.trans ?_ (keepsSound_fireTile _ _ _ _ _)
          exact keepsSound_of_within (within_State_modTile _ _ _) (by decide)
        · exact keepsSound_of_within (within_State_modTile _ _ _) (by decide)

theorem keepsSound_judgeHealth (a0 : TileId) (s : State) : KeepsSound s (judgeHealth a0 s) := by
  unfold judgeHealth
  try dsimp only
  split
  · exact KeepsSound.refl
  · refine keepsSound_ite ?_ ?_
    · refine KeepsSound.trans ?_ (keepsSound_fireTile _ _ _ _ _)
      refine keepsSound_ite ?_ ?_
      · refine KeepsSound.trans ?_ (keepsSound_fireTile _ _ _ _ _)
        exact keepsSound_of_within (within_State_modTile _ _ _) (by decide)
      · exact keepsSound_of_within (within_State_modTile _ _ _) (by decide)
    · refine keepsSound_ite ?_ ?_
      · refine KeepsSound.trans ?_ (keepsSound_fireTile _ _ _ _ _)
        exact keepsSound_of_within (within_State_modTile _ _ _) (by decide)
      · exact keepsSound_of_within (within_State_modTile _ _ _) (by decide)

theorem keepsSound_updateL (a0 : TileId) (a1 : ℤ) (s : State) : KeepsSound s (updateL a0 a1 s) := by
  unfold updateL
  try dsimp only
  split
  · exact KeepsSound.refl
  · refine KeepsSound.trans ?_ (keepsSound_judgeHealth _ _)
    exact keepsSound_of_within (within_State_modTile _ _ _) (by decide)

theorem keepsSound_trackR (a0 : RailId) (s : State) : KeepsSound s (trackR a0 s) := by
  unfold trackR
  try dsimp only
  refine keepsSound_ite ?_ ?_
  · refine KeepsSound.trans ?_ (keepsSound_foldl (fun _ _ => ?_) _ _)
    · refine KeepsSound.trans ?_ (keepsSound_foldl (fun _ _ => ?_) _ _)
      · exact KeepsSound.refl
      · exact keepsSound_of_within (within_updateR _ _ _ _ _ _) (by decide)
    · exact keepsSound_judgeHealth _ _
  · exact KeepsSound.refl

theorem keepsSound_clearRailClass (a0 : HostId) (a1 : RailId) (s : State) : KeepsSound s (clearRailClass a0 a1 s) := by
  unfold clearRailClass
  try dsimp only
  refine keepsSound_ite ?_ ?_
  · exact KeepsSound.refl
  · refine KeepsSound.trans ?_ (keepsSound_recordEntry _ _ _ _)
    refine KeepsSound.trans ?_ (keepsSound_fsumChanged _)
    exact keepsSound_of_within (within_State_modProt _ _ _) (by decide)

theorem keepsSound_clearTileClass (a0 : HostId) (a1 : TileId) (s : State) : KeepsSound s (clearTileClass a0 a1 s) := by
  unfold clearTileClass
  try dsimp only
  refine keepsSound_ite ?_ ?_
  · exact KeepsSound.refl
  · refine KeepsSound.trans ?_ (keepsSound_recordEntry _ _ _ _)
    refine KeepsSound.trans ?_ (keepsSound_fsumChanged _)
    exact keepsSound_of_within (within_State_modTile _ _ _) (by decide)

theorem keepsSound_excludeTile (a0 : TileId) (s : State) : KeepsSound s (excludeTile a0 s) := by
  unfold excludeTile
  try dsimp only
  split
  · exact keepsSound_of_within (within_State_modTile _ _ _) (by decide)
  · split
    · exact KeepsSound.refl
    · refine KeepsSound.trans ?_ (keepsSound_of_within (within_settleChange _ _) (by decide))
      refine KeepsSound.trans ?_ (keepsSound_of_within (within_State_modIlv _ _ _) (by decide))
      refine KeepsSound.trans ?_ (keepsSound_of_within (within_State_modTile _ _ _) (by decide))
      exact keepsSound_leapRemove _ _
  · split
    · exact KeepsSound.refl
    · refine KeepsSound.trans ?_ (keepsSound_of_within (within_settleChange _ _) (by decide))
      refine KeepsSound.trans ?_ (keepsSound_of_within (within_State_modIlv _ _ _) (by decide))
      refine KeepsSound.trans ?_ (keepsSound_of_within (within_State_modTile _ _ _) (by decide))
      exact keepsSound_leapRemove _ _
  · exact keepsSound_of_within (within_State_modTile _ _ _) (by decide)
  · exact keepsSound_of_within (within_State_modTile _ _ _) (by decide)

theorem keepsSound_admitWrite (a0 : HostId) (a1 : TileId) (a2 : BitVec 16) (a3 : ℕ) (s : State) : KeepsSound s (admitWrite a0 a1 a2 a3 s) := by
  unfold admitWrite
  try dsimp only
  refine keepsSound_ite ?_ ?_
  · exact keepsSound_of_within (within_refuse _ _) (by decide)
  · refine keepsSound_ite ?_ ?_
    · refine KeepsSound.trans ?_ (keepsSound_of_within (within_refuse _ _) (by decide))
      exact keepsSound_of_within (within_State_modTile _ _ _) (by decide)
    · refine keepsSound_ite ?_ ?_
      · refine keepsSound_ite ?_ ?_
        · refine KeepsSound.trans ?_ (keepsSound_recordEntry _ _ _ _)
          exact keepsSound_of_within (within_readmit _ _) (by decide)
        · exact keepsSound_of_within (within_refuse _ _) (by decide)
      · refine keepsSound_ite ?_ ?_
        · refine KeepsSound.trans ?_ (keepsSound_recordEntry _ _ _ _)
          exact keepsSound_excludeTile _ _
        · exact keepsSound_of_within (within_refuse _ _) (by decide)

theorem keepsSound_tripPeriods (a0 : RailId) (a1 : TileId) (a2 : Bool) (s : State) : KeepsSound s (tripPeriods a0 a1 a2 s) := by
  unfold tripPeriods
  try dsimp only
  refine keepsSound_ite ?_ ?_
  · refine KeepsSound.trans ?_ (keepsSound_fireTile _ _ _ _ _)
    exact keepsSound_of_within (within_State_modTile _ _ _) (by decide)
  · exact KeepsSound.refl

theorem keepsSound_lastPeak (a0 : TileId) (s : State) : KeepsSound s (lastPeak a0 s) := by
  unfold lastPeak
  try dsimp only
  split
  · exact KeepsSound.refl
  · refine keepsSound_ite ?_ ?_
    · refine KeepsSound.trans ?_ (keepsSound_tripPeriods _ _ _ _)
      refine KeepsSound.trans ?_ (keepsSound_of_within (within_State_modTile _ _ _) (by decide))
      exact keepsSound_of_within (within_State_advance _ _) (by decide)
    · exact KeepsSound.refl

theorem keepsSound_carrierPeak (a0 : TileId) (s : State) : KeepsSound s (carrierPeak a0 s) := by
  unfold carrierPeak
  try dsimp only
  split
  · exact KeepsSound.refl
  · refine keepsSound_ite ?_ ?_
    · exact keepsSound_lastPeak _ _
    · refine keepsSound_ite ?_ ?_
      · exact KeepsSound.refl
      · refine KeepsSound.trans ?_ (keepsSound_tripPeriods _ _ _ _)
        refine KeepsSound.trans ?_ (keepsSound_of_within (within_State_modTile _ _ _) (by decide))
        exact keepsSound_of_within (within_State_advance _ _) (by decide)

theorem keepsSound_valleyHealth (a0 : RailId) (a1 : TileId) (s : State) : KeepsSound s (valleyHealth a0 a1 s) := by
  unfold valleyHealth
  try dsimp only
  split
  · exact keepsSound_of_within (within_State_modTile _ _ _) (by decide)
  · refine keepsSound_ite ?_ ?_
    · refine KeepsSound.trans ?_ (keepsSound_updateL _ _ _)
      exact keepsSound_of_within (within_State_modTile _ _ _) (by decide)
    · exact keepsSound_of_within (within_State_modTile _ _ _) (by decide)

theorem keepsSound_valleyDetect (a0 : TileId) (s : State) : KeepsSound s (valleyDetect a0 s) := by
  unfold valleyDetect
  try dsimp only
  refine KeepsSound.trans ?_ (keepsSound_judgeOpenSense _ _ _)
  exact keepsSound_of_within (within_peakTile _ _) (by decide)

theorem keepsSound_fadeEnd (a0 : RailId) (a1 : TileId) (a2 : FadeGoal) (s : State) : KeepsSound s (fadeEnd a0 a1 a2 s) := by
  unfold fadeEnd
  try dsimp only
  refine KeepsSound.trans ?_ (keepsSound_noTileLeft _ _ _)
  refine keepsSound_ite ?_ ?_
  · refine KeepsSound.trans ?_ (keepsSound_of_within (within_State_modIlv _ _ _) (by decide))
    refine KeepsSound.trans ?_ (keepsSound_of_within (within_closeSlot _ _ _) (by decide))
    exact keepsSound_of_within (within_State_modTile _ _ _) (by decide)
  · exact keepsSound_of_within (within_State_modTile _ _ _) (by decide)

theorem keepsSound_valleyFade (a0 : RailId) (a1 : TileId) (s : State) : KeepsSound s (valleyFade a0 a1 s) := by
  unfold valleyFade
  try dsimp only
  refine keepsSound_ite ?_ ?_
  · exact KeepsSound.refl
  · split
    · exact KeepsSound.refl
    · exact keepsSound_of_within (within_State_modTile _ _ _) (by decide)
    · exact keepsSound_fadeEnd _ _ _ _
    · exact keepsSound_of_within (within_State_modTile _ _ _) (by decide)

theorem keepsSound_lastValley (a0 : RailId) (a1 : TileId) (s : State) : KeepsSound s (lastValley a0 a1 s) := by
  unfold lastValley
  try dsimp only
  refine keepsSound_ite ?_ ?_
  · refine KeepsSound.trans ?_ (keepsSound_valleyHealth _ _ _)
    refine KeepsSound.trans ?_ (keepsSound_valleyDetect _ _)
    refine KeepsSound.trans ?_ (keepsSound_of_within (within_valleyCurrent _ _) (by decide))
    exact keepsSound_of_within (within_State_advance _ _) (by decide)
  · exact KeepsSound.refl

theorem keepsSound_carrierValley (a0 : TileId) (s : State) : KeepsSound s (carrierValley a0 s) := by
  unfold carrierValley
  try dsimp only
  split
  · exact KeepsSound.refl
  · refine keepsSound_ite ?_ ?_
    · exact keepsSound_lastValley _ _ _
    · refine keepsSound_ite ?_ ?_
      · exact KeepsSound.refl
      · refine KeepsSound.trans ?_ (keepsSound_of_within (within_valleySettle _ _ _ _) (by decide))
        refine keepsSound_ite ?_ ?_
        · refine KeepsSound.trans ?_ (keepsSound_of_within (within_valleyConvert _ _ _ _ _) (by decide))
          refine KeepsSound.trans ?_ (keepsSound_valleyFade _ _ _)
          refine KeepsSound.trans ?_ (keepsSound_of_within (within_valleyEmulation _ _ _) (by decide))
          refine KeepsSound.trans ?_ (keepsSound_valleyHealth _ _ _)
          refine KeepsSound.trans ?_ (keepsSound_valleyDetect _ _)
          refine KeepsSound.trans ?_ (keepsSound_of_within (within_valleyBalance _ _ _) (by decide))
          refine KeepsSound.trans ?_ (keepsSound_of_within (within_valleyMean _ _ _) (by decide))
          refine KeepsSound.trans ?_ (keepsSound_of_within (within_valleyCurrent _ _) (by decide))
          refine KeepsSound.trans ?_ (keepsSound_of_within (within_valleyStop _ _ _ _) (by decide))
          refine KeepsSound.trans ?_ (keepsSound_of_within (within_valleyTake _ _ _) (by decide))
          exact keepsSound_of_within (within_State_advance _ _) (by decide)
        · refine KeepsSound.trans ?_ (keepsSound_valleyFade _ _ _)
          refine KeepsSound.trans ?_ (keepsSound_of_within (within_valleyEmulation _ _ _) (by decide))
          refine KeepsSound.trans ?_ (keepsSound_valleyHealth _ _ _)
          refine KeepsSound.trans ?_ (keepsSound_valleyDetect _ _)
          refine KeepsSound.trans ?_ (keepsSound_of_within (within_valleyBalance _ _ _) (by decide))
          refine KeepsSound.trans ?_ (keepsSound_of_within (within_valleyMean _ _ _) (by decide))
          refine KeepsSound.trans ?_ (keepsSound_of_within (within_valleyCurrent _ _) (by decide))
          refine KeepsSound.trans ?_ (keepsSound_of_within (within_valleyStop _ _ _ _) (by decide))
          refine KeepsSound.trans ?_ (keepsSound_of_within (within_valleyTake _ _ _) (by decide))
          exact keepsSound_of_within (within_State_advance _ _) (by decide)

theorem keepsSound_tripLatch (a0 : TileId) (a1 : ℤ) (s : State) : KeepsSound s (tripLatch a0 a1 s) := by
  unfold tripLatch
  try dsimp only
  refine KeepsSound.trans ?_ (keepsSound_fireTile _ _ _ _ _)
  refine KeepsSound.trans ?_ (keepsSound_of_within (within_State_modTile _ _ _) (by decide))
  exact keepsSound_leapRemove _ _

theorem keepsSound_tripCycle (a0 : TileId) (a1 : ℤ) (s : State) : KeepsSound s (tripCycle a0 a1 s) := by
  unfold tripCycle
  try dsimp only
  refine keepsSound_ite ?_ ?_
  · refine KeepsSound.trans ?_ (keepsSound_occur _ _ _)
    refine KeepsSound.trans ?_ (keepsSound_of_within (within_State_modTile _ _ _) (by decide))
    exact keepsSound_of_within (within_State_modTile _ _ _) (by decide)
  · exact keepsSound_of_within (within_State_modTile _ _ _) (by decide)

theorem keepsSound_tripRecognised (a0 : TileId) (a1 : ℕ) (s : State) : KeepsSound s (tripRecognised a0 a1 s) := by
  unfold tripRecognised
  try dsimp only
  split
  · exact KeepsSound.refl
  · refine keepsSound_ite ?_ ?_
    · refine keepsSound_ite ?_ ?_
      · refine KeepsSound.trans ?_ (keepsSound_tripLatch _ _ _)
        refine KeepsSound.trans ?_ (keepsSound_of_within (within_State_modTile _ _ _) (by decide))
        refine KeepsSound.trans ?_ (keepsSound_of_within (within_lifeInc _ _) (by decide))
        exact keepsSound_of_within (within_State_advance _ _) (by decide)
      · refine KeepsSound.trans ?_ (keepsSound_tripCycle _ _ _)
        refine KeepsSound.trans ?_ (keepsSound_of_within (within_State_modTile _ _ _) (by decide))
        refine KeepsSound.trans ?_ (keepsSound_of_within (within_lifeInc _ _) (by decide))
        exact keepsSound_of_within (within_State_advance _ _) (by decide)
    · exact KeepsSound.refl

theorem keepsSound_tileCurrentSample (a0 : TileId) (a1 : SampleKind) (a2 : BitVec 12) (s : State) : KeepsSound s (tileCurrentSample a0 a1 a2 s) := by
  unfold tileCurrentSample
  try dsimp only
  split
  · exact KeepsSound.refl
  · refine keepsSound_ite ?_ ?_
    · split
      · exact KeepsSound.refl
      · refine KeepsSound.trans ?_ (keepsSound_judgeOct _ _ _)
        refine KeepsSound.trans ?_ (keepsSound_of_within (within_State_modTile _ _ _) (by decide))
        exact keepsSound_of_within (within_State_advance _ _) (by decide)
    · refine keepsSound_ite ?_ ?_
      · exact keepsSound_judgeOct _ _ _
      · exact KeepsSound.refl

theorem keepsSound_leapDetect (a0 : RailId) (a1 : Bool) (s : State) : KeepsSound s (leapDetect a0 a1 s) := by
  unfold leapDetect
  try dsimp only
  refine KeepsSound.trans ?_ (keepsSound_of_within (within_leapCheck _ _ _) (by decide))
  refine KeepsSound.trans ?_ (keepsSound_foldl (fun _ _ => ?_) _ _)
  · refine KeepsSound.trans ?_ (keepsSound_occur _ _ _)
    refine keepsSound_ite ?_ ?_
    · refine KeepsSound.trans ?_ (keepsSound_of_within (within_State_modRail _ _ _) (by decide))
      exact keepsSound_of_within (within_State_mapTiles _ _) (by decide)
    · refine KeepsSound.trans ?_ (keepsSound_of_within (within_lifeInc _ _) (by decide))
      refine KeepsSound.trans ?_ (keepsSound_of_within (within_State_modRail _ _ _) (by decide))
      exact keepsSound_of_within (within_State_mapTiles _ _) (by decide)
  · exact keepsSound_removeTile _ _ _ _

theorem keepsSound_leapSample (a0 : RailId) (s : State) : KeepsSound s (leapSample a0 s) := by
  unfold leapSample
  try dsimp only
  split
  · refine keepsSound_ite ?_ ?_
    · refine KeepsSound.trans ?_ (keepsSound_leapDetect _ _ _)
      refine keepsSound_ite ?_ ?_
      · exact keepsSound_of_within (within_State_modLeap _ _ _) (by decide)
      · exact KeepsSound.refl
    · refine keepsSound_ite ?_ ?_
      · refine KeepsSound.trans ?_ (keepsSound_leapDetect _ _ _)
        refine keepsSound_ite ?_ ?_
        · exact keepsSound_of_within (within_State_modLeap _ _ _) (by decide)
        · exact KeepsSound.refl
      · refine keepsSound_ite ?_ ?_
        · exact keepsSound_of_within (within_State_modLeap _ _ _) (by decide)
        · exact KeepsSound.refl
  · refine keepsSound_ite ?_ ?_
    · refine KeepsSound.trans ?_ (keepsSound_of_within (within_State_modLeap _ _ _) (by decide))
      refine keepsSound_ite ?_ ?_
      · exact keepsSound_of_within (within_State_modLeap _ _ _) (by decide)
      · exact KeepsSound.refl
    · refine keepsSound_ite ?_ ?_
      · exact keepsSound_of_within (within_State_modLeap _ _ _) (by decide)
      · exact KeepsSound.refl
  · split
    · refine keepsSound_ite ?_ ?_
      · refine KeepsSound.trans ?_ (keepsSound_of_within (within_State_modLeap _ _ _) (by decide))
        refine keepsSound_ite ?_ ?_
        · exact keepsSound_of_within (within_State_modLeap _ _ _) (by decide)
        · exact KeepsSound.refl
      · refine keepsSound_ite ?_ ?_
        · exact keepsSound_of_within (within_State_modLeap _ _ _) (by decide)
        · exact KeepsSound.refl
    · refine keepsSound_ite ?_ ?_
      · exact keepsSound_of_within (within_State_modLeap _ _ _) (by decide)
      · exact KeepsSound.refl
  · split
    · refine keepsSound_ite ?_ ?_
      · refine KeepsSound.trans ?_ (keepsSound_of_within (within_State_modLeap _ _ _) (by decide))
        refine keepsSound_ite ?_ ?_
        · exact keepsSound_of_within (within_State_modLeap _ _ _) (by decide)
        · exact KeepsSound.refl
      · refine keepsSound_ite ?_ ?_
        · exact keepsSound_of_within (within_State_modLeap _ _ _) (by decide)
        · exact KeepsSound.refl
    · refine keepsSound_ite ?_ ?_
      · exact keepsSound_of_within (within_State_modLeap _ _ _) (by decide)
      · exact KeepsSound.refl

theorem keepsSound_leapTileRelease (a0 : TileId) (a1 : ℕ) (s : State) : KeepsSound s (leapTileRelease a0 a1 s) := by
  unfold leapTileRelease
  try dsimp only
  split
  · exact KeepsSound.refl
  · refine keepsSound_ite ?_ ?_
    · split
      · exact KeepsSound.refl
      · refine KeepsSound.trans ?_ (keepsSound_resumeStop _ _ _ (fun e d x => keepsSound_occur e d x))
        refine KeepsSound.trans ?_ (keepsSound_of_within (within_leapCheck _ _ _) (by decide))
        refine keepsSound_ite ?_ ?_
        · refine KeepsSound.trans ?_ (keepsSound_of_within (within_State_modLeap _ _ _) (by decide))
          refine KeepsSound.trans ?_ (keepsSound_of_within (within_State_modTile _ _ _) (by decide))
          exact keepsSound_of_within (within_State_advance _ _) (by decide)
        · refine KeepsSound.trans ?_ (keepsSound_of_within (within_State_modTile _ _ _) (by decide))
          exact keepsSound_of_within (within_State_advance _ _) (by decide)
    · exact KeepsSound.refl

theorem keepsSound_windowSample (a0 : RailId) (a1 : ℤ) (s : State) : KeepsSound s (windowSample a0 a1 s) := by
  unfold windowSample
  try dsimp only
  refine keepsSound_ite ?_ ?_
  · refine KeepsSound.trans ?_ (keepsSound_of_within (within_stepRef _ _) (by decide))
    refine KeepsSound.trans ?_ (keepsSound_judgeWindow _ _ _)
    refine KeepsSound.trans ?_ (keepsSound_leapSample _ _)
    refine KeepsSound.trans ?_ (keepsSound_of_within (within_takeLset _ _) (by decide))
    refine KeepsSound.trans ?_ (keepsSound_of_within (within_State_modFe _ _ _) (by decide))
    exact keepsSound_of_within (within_State_advance _ _) (by decide)
  · exact KeepsSound.refl

theorem keepsSound_closedSettles (a0 : RailId) (s : State) : KeepsSound s (closedSettles a0 s) := by
  unfold closedSettles
  try dsimp only
  split
  · exact KeepsSound.refl
  · refine keepsSound_ite ?_ ?_
    · exact keepsSound_recloseWatch _ _ _ _
    · exact KeepsSound.refl

theorem keepsSound_openSettles (a0 : RailId) (s : State) : KeepsSound s (openSettles a0 s) := by
  unfold openSettles
  try dsimp only
  split
  · exact KeepsSound.refl
  · refine keepsSound_ite ?_ ?_
    · refine keepsSound_ite ?_ ?_
      · exact keepsSound_closeWatch _ _ _ _ _ (fun e d x => keepsSound_occur e d x)
      · exact keepsSound_of_within (within_State_modRail _ _ _) (by decide)
    · exact keepsSound_of_within (within_State_modRail _ _ _) (by decide)

theorem keepsSound_settleWatch (a0 : RailId) (s : State) : KeepsSound s (settleWatch a0 s) := by
  unfold settleWatch
  try dsimp only
  refine KeepsSound.trans ?_ (keepsSound_openSettles _ _)
  exact keepsSound_closedSettles _ _

theorem keepsSound_coarseConversion (a0 : RailId) (a1 : BitVec 12) (s : State) : KeepsSound s (coarseConversion a0 a1 s) := by
  unfold coarseConversion
  try dsimp only
  refine keepsSound_ite ?_ ?_
  · refine KeepsSound.trans ?_ (keepsSound_settleWatch _ _)
    refine KeepsSound.trans ?_ (keepsSound_of_within (within_pgoodWatch _ _) (by decide))
    refine KeepsSound.trans ?_ (keepsSound_of_within (within_trackWatch _ _) (by decide))
    refine KeepsSound.trans ?_ (keepsSound_judgeCoarse _ _ _)
    refine KeepsSound.trans ?_ (keepsSound_of_within (within_peakVolt _ _) (by decide))
    refine KeepsSound.trans ?_ (keepsSound_of_within (within_prebiasWatch _ _) (by decide))
    refine keepsSound_ite ?_ ?_
    · refine KeepsSound.trans ?_ (keepsSound_of_within (within_State_modFe _ _ _) (by decide))
      exact keepsSound_of_within (within_State_modFe _ _ _) (by decide)
    · exact keepsSound_of_within (within_State_modFe _ _ _) (by decide)
  · exact KeepsSound.refl

theorem keepsSound_refuseSet (a0 : RailId) (s : State) : KeepsSound s (refuseSet a0 s) := by
  unfold refuseSet
  try dsimp only
  refine KeepsSound.trans ?_ (keepsSound_occur _ _ _)
  exact keepsSound_of_within (within_State_modEng _ _ _) (by decide)

theorem keepsSound_makeUpdate (a0 : RailId) (a1 : ℤ) (a2 : Bool) (s : State) : KeepsSound s (makeUpdate a0 a1 a2 s) := by
  unfold makeUpdate
  try dsimp only
  refine keepsSound_ite ?_ ?_
  · refine KeepsSound.trans ?_ (keepsSound_of_within (within_writeShadows _ _ _ _) (by decide))
    refine KeepsSound.trans ?_ (keepsSound_of_within (within_State_modEng _ _ _) (by decide))
    split
    · refine keepsSound_ite ?_ ?_
      · refine KeepsSound.trans ?_ (keepsSound_of_within (within_State_modMo _ _ _) (by decide))
        refine KeepsSound.trans ?_ (keepsSound_of_within (within_writePeriod _ _ _ _ _) (by decide))
        refine KeepsSound.trans ?_ (keepsSound_of_within (within_State_modEng _ _ _) (by decide))
        refine KeepsSound.trans ?_ (keepsSound_of_within (within_State_modFe _ _ _) (by decide))
        exact keepsSound_of_within (within_State_advance _ _) (by decide)
      · refine KeepsSound.trans ?_ (keepsSound_of_within (within_State_modEng _ _ _) (by decide))
        refine KeepsSound.trans ?_ (keepsSound_of_within (within_State_modFe _ _ _) (by decide))
        exact keepsSound_of_within (within_State_advance _ _) (by decide)
    · refine KeepsSound.trans ?_ (keepsSound_of_within (within_State_modEng _ _ _) (by decide))
      refine KeepsSound.trans ?_ (keepsSound_of_within (within_State_modFe _ _ _) (by decide))
      exact keepsSound_of_within (within_State_advance _ _) (by decide)
  · refine KeepsSound.trans ?_ (keepsSound_of_within (within_writeShadows _ _ _ _) (by decide))
    refine KeepsSound.trans ?_ (keepsSound_of_within (within_State_modEng _ _ _) (by decide))
    refine keepsSound_ite ?_ ?_
    · refine KeepsSound.trans ?_ (keepsSound_refuseSet _ _)
      split
      · refine keepsSound_ite ?_ ?_
        · refine KeepsSound.trans ?_ (keepsSound_of_within (within_State_modMo _ _ _) (by decide))
          refine KeepsSound.trans ?_ (keepsSound_of_within (within_writePeriod _ _ _ _ _) (by decide))
          refine KeepsSound.trans ?_ (keepsSound_of_within (within_State_modEng _ _ _) (by decide))
          refine KeepsSound.trans ?_ (keepsSound_of_within (within_State_modFe _ _ _) (by decide))
          exact keepsSound_of_within (within_State_advance _ _) (by decide)
        · refine KeepsSound.trans ?_ (keepsSound_of_within (within_State_modEng _ _ _) (by decide))
          refine KeepsSound.trans ?_ (keepsSound_of_within (within_State_modFe _ _ _) (by decide))
          exact keepsSound_of_within (within_State_advance _ _) (by decide)
      · refine KeepsSound.trans ?_ (keepsSound_of_within (within_State_modEng _ _ _) (by decide))
        refine KeepsSound.trans ?_ (keepsSound_of_within (within_State_modFe _ _ _) (by decide))
        exact keepsSound_of_within (within_State_advance _ _) (by decide)
    · split
      · refine keepsSound_ite ?_ ?_
        · refine KeepsSound.trans ?_ (keepsSound_of_within (within_State_modMo _ _ _) (by decide))
          refine KeepsSound.trans ?_ (keepsSound_of_within (within_writePeriod _ _ _ _ _) (by decide))
          refine KeepsSound.trans ?_ (keepsSound_of_within (within_State_modEng _ _ _) (by decide))
          refine KeepsSound.trans ?_ (keepsSound_of_within (within_State_modFe _ _ _) (by decide))
          exact keepsSound_of_within (within_State_advance _ _) (by decide)
        · refine KeepsSound.trans ?_ (keepsSound_of_within (within_State_modEng _ _ _) (by decide))
          refine KeepsSound.trans ?_ (keepsSound_of_within (within_State_modFe _ _ _) (by decide))
          exact keepsSound_of_within (within_State_advance _ _) (by decide)
      · refine KeepsSound.trans ?_ (keepsSound_of_within (within_State_modEng _ _ _) (by decide))
        refine KeepsSound.trans ?_ (keepsSound_of_within (within_State_modFe _ _ _) (by decide))
        exact keepsSound_of_within (within_State_advance _ _) (by decide)

theorem keepsSound_loopUpdate (a0 : RailId) (s : State) : KeepsSound s (loopUpdate a0 s) := by
  unfold loopUpdate
  try dsimp only
  refine keepsSound_ite ?_ ?_
  · exact KeepsSound.refl
  · refine keepsSound_ite ?_ ?_
    · split
      · exact KeepsSound.refl
      · refine KeepsSound.trans ?_ (keepsSound_makeUpdate _ _ _ _)
        refine KeepsSound.trans ?_ (keepsSound_of_within (within_State_modEng _ _ _) (by decide))
        refine keepsSound_ite ?_ ?_
        · exact KeepsSound.refl
        · exact keepsSound_of_within (within_refToPeak _ _) (by decide)
    · refine keepsSound_ite ?_ ?_
      · refine keepsSound_ite ?_ ?_
        · refine KeepsSound.trans ?_ (keepsSound_makeUpdate _ _ _ _)
          exact keepsSound_of_within (within_State_modEng _ _ _) (by decide)
        · refine KeepsSound.trans ?_ (keepsSound_of_within (within_refToPeak _ _) (by decide))
          exact keepsSound_makeUpdate _ _ _ _
      · exact KeepsSound.refl

theorem keepsSound_thermalOut (a0 : TileId) (s : State) : KeepsSound s (thermalOut a0 s) := by
  unfold thermalOut
  try dsimp only
  split
  · exact KeepsSound.refl
  · split
    · refine keepsSound_ite ?_ ?_
      · exact KeepsSound.refl
      · refine keepsSound_ite ?_ ?_
        · exact keepsSound_removeTile _ _ _ _
        · exact keepsSound_of_within (within_State_modTile _ _ _) (by decide)
    · exact keepsSound_removeTile _ _ _ _
    · exact keepsSound_removeTile _ _ _ _
    · exact KeepsSound.refl
    · exact KeepsSound.refl

theorem keepsSound_portOut (a0 : ChanId) (s : State) : KeepsSound s (portOut a0 s) := by
  unfold portOut
  try dsimp only
  refine KeepsSound.trans ?_ (keepsSound_foldl (fun _ _ => ?_) _ _)
  · exact KeepsSound.refl
  · exact keepsSound_thermalOut _ _

theorem keepsSound_setReq (a0 : RailId) (a1 : ℕ) (s : State) : KeepsSound s (setReq a0 a1 s) := by
  unfold setReq
  try dsimp only
  exact keepsSound_putWord _ _ _

theorem keepsSound_tsdRail (a0 : Bool) (s : State) (a2 : RailId) : KeepsSound s (tsdRail a0 s a2) := by
  unfold tsdRail
  try dsimp only
  split
  · exact KeepsSound.refl
  · exact KeepsSound.refl
  · exact keepsSound_safeNow _ _ _ _ (fun e d x => keepsSound_occur e d x)
  · exact keepsSound_safeNow _ _ _ _ (fun e d x => keepsSound_occur e d x)
  · refine keepsSound_ite ?_ ?_
    · exact keepsSound_safeNow _ _ _ _ (fun e d x => keepsSound_occur e d x)
    · exact keepsSound_of_within (within_State_modSeq _ _ _) (by decide)
  · refine keepsSound_ite ?_ ?_
    · exact keepsSound_safeNow _ _ _ _ (fun e d x => keepsSound_occur e d x)
    · exact keepsSound_orderlySafe _ _ _ _ (fun e d x => keepsSound_occur e d x)
  · refine keepsSound_ite ?_ ?_
    · exact keepsSound_safeNow _ _ _ _ (fun e d x => keepsSound_occur e d x)
    · exact keepsSound_orderlySafe _ _ _ _ (fun e d x => keepsSound_occur e d x)
  · refine keepsSound_ite ?_ ?_
    · exact keepsSound_safeNow _ _ _ _ (fun e d x => keepsSound_occur e d x)
    · exact keepsSound_orderlySafe _ _ _ _ (fun e d x => keepsSound_occur e d x)

theorem keepsSound_dieRate (s : State) : KeepsSound s (dieRate s) := by
  unfold dieRate
  try dsimp only
  refine keepsSound_ite ?_ ?_
  · refine KeepsSound.trans ?_ (keepsSound_foldl (fun _ _ => ?_) _ _)
    · exact KeepsSound.refl
    · refine keepsSound_ite ?_ ?_
      · exact keepsSound_safeNow _ _ _ _ (fun e d x => keepsSound_occur e d x)
      · exact KeepsSound.refl
  · exact KeepsSound.refl

theorem keepsSound_dieShut (a0 : Bool) (s : State) : KeepsSound s (dieShut a0 s) := by
  unfold dieShut
  try dsimp only
  refine keepsSound_ite ?_ ?_
  · refine KeepsSound.trans ?_ (keepsSound_dieRate _)
    refine keepsSound_ite ?_ ?_
    · exact keepsSound_of_within (within_set_hk _ _) (by decide)
    · exact KeepsSound.refl
  · refine KeepsSound.trans ?_ (keepsSound_foldl (fun _ _ => ?_) _ _)
    · refine KeepsSound.trans ?_ (keepsSound_foldl (fun _ _ => ?_) _ _)
      · exact keepsSound_of_within (within_set_hk _ _) (by decide)
      · exact keepsSound_setReq _ _ _
    · exact keepsSound_tsdRail _ _ _

theorem keepsSound_reactCh (a0 : ChanId) (a1 : Bool) (s : State) : KeepsSound s (reactCh a0 a1 s) := by
  unfold reactCh
  try dsimp only
  refine keepsSound_ite ?_ ?_
  · refine KeepsSound.trans ?_ (keepsSound_portOut _ _)
    refine keepsSound_ite ?_ ?_
    · refine KeepsSound.trans ?_ (keepsSound_occur _ _ _)
      refine keepsSound_ite ?_ ?_
      · refine keepsSound_ite ?_ ?_
        · refine KeepsSound.trans ?_ (keepsSound_dieShut _ _)
          refine KeepsSound.trans ?_ (keepsSound_of_within (within_updateTherm _) (by decide))
          refine KeepsSound.trans ?_ (keepsSound_of_within (within_State_modChan _ _ _) (by decide))
          exact keepsSound_of_within (within_State_modChan _ _ _) (by decide)
        · refine KeepsSound.trans ?_ (keepsSound_dieRate _)
          refine KeepsSound.trans ?_ (keepsSound_of_within (within_updateTherm _) (by decide))
          refine KeepsSound.trans ?_ (keepsSound_of_within (within_State_modChan _ _ _) (by decide))
          exact keepsSound_of_within (within_State_modChan _ _ _) (by decide)
      · refine KeepsSound.trans ?_ (keepsSound_of_within (within_updateTherm _) (by decide))
        refine KeepsSound.trans ?_ (keepsSound_of_within (within_State_modChan _ _ _) (by decide))
        exact keepsSound_of_within (within_State_modChan _ _ _) (by decide)
    · refine keepsSound_ite ?_ ?_
      · refine keepsSound_ite ?_ ?_
        · refine KeepsSound.trans ?_ (keepsSound_dieShut _ _)
          refine KeepsSound.trans ?_ (keepsSound_of_within (within_updateTherm _) (by decide))
          refine KeepsSound.trans ?_ (keepsSound_of_within (within_State_modChan _ _ _) (by decide))
          exact keepsSound_of_within (within_State_modChan _ _ _) (by decide)
        · refine KeepsSound.trans ?_ (keepsSound_dieRate _)
          refine KeepsSound.trans ?_ (keepsSound_of_within (within_updateTherm _) (by decide))
          refine KeepsSound.trans ?_ (keepsSound_of_within (within_State_modChan _ _ _) (by decide))
          exact keepsSound_of_within (within_State_modChan _ _ _) (by decide)
      · refine KeepsSound.trans ?_ (keepsSound_of_within (within_updateTherm _) (by decide))
        refine KeepsSound.trans ?_ (keepsSound_of_within (within_State_modChan _ _ _) (by decide))
        exact keepsSound_of_within (within_State_modChan _ _ _) (by decide)
  · refine keepsSound_ite ?_ ?_
    · refine KeepsSound.trans ?_ (keepsSound_occur _ _ _)
      refine keepsSound_ite ?_ ?_
      · refine keepsSound_ite ?_ ?_
        · refine KeepsSound.trans ?_ (keepsSound_dieShut _ _)
          refine KeepsSound.trans ?_ (keepsSound_of_within (within_updateTherm _) (by decide))
          refine KeepsSound.trans ?_ (keepsSound_of_within (within_State_modChan _ _ _) (by decide))
          exact keepsSound_of_within (within_State_modChan _ _ _) (by decide)
        · refine KeepsSound.trans ?_ (keepsSound_dieRate _)
          refine KeepsSound.trans ?_ (keepsSound_of_within (within_updateTherm _) (by decide))
          refine KeepsSound.trans ?_ (keepsSound_of_within (within_State_modChan _ _ _) (by decide))
          exact keepsSound_of_within (within_State_modChan _ _ _) (by decide)
      · refine KeepsSound.trans ?_ (keepsSound_of_within (within_updateTherm _) (by decide))
        refine KeepsSound.trans ?_ (keepsSound_of_within (within_State_modChan _ _ _) (by decide))
        exact keepsSound_of_within (within_State_modChan _ _ _) (by decide)
    · refine keepsSound_ite ?_ ?_
      · refine keepsSound_ite ?_ ?_
        · refine KeepsSound.trans ?_ (keepsSound_dieShut _ _)
          refine KeepsSound.trans ?_ (keepsSound_of_within (within_updateTherm _) (by decide))
          refine KeepsSound.trans ?_ (keepsSound_of_within (within_State_modChan _ _ _) (by decide))
          exact keepsSound_of_within (within_State_modChan _ _ _) (by decide)
        · refine KeepsSound.trans ?_ (keepsSound_dieRate _)
          refine KeepsSound.trans ?_ (keepsSound_of_within (within_updateTherm _) (by decide))
          refine KeepsSound.trans ?_ (keepsSound_of_within (within_State_modChan _ _ _) (by decide))
          exact keepsSound_of_within (within_State_modChan _ _ _) (by decide)
      · refine KeepsSound.trans ?_ (keepsSound_of_within (within_updateTherm _) (by decide))
        refine KeepsSound.trans ?_ (keepsSound_of_within (within_State_modChan _ _ _) (by decide))
        exact keepsSound_of_within (within_State_modChan _ _ _) (by decide)

theorem keepsSound_markBroken (a0 : ChanId) (a1 : ℕ) (s : State) : KeepsSound s (markBroken a0 a1 s) := by
  unfold markBroken
  try dsimp only
  refine KeepsSound.trans ?_ (keepsSound_occur _ _ _)
  refine keepsSound_ite ?_ ?_
  · exact KeepsSound.refl
  · exact keepsSound_of_within (within_State_modChan _ _ _) (by decide)

theorem keepsSound_judgeReading (a0 : (ChanId → ℕ)) (s : State) (a2 : ChanId) : KeepsSound s (judgeReading a0 s a2) := by
  unfold judgeReading
  try dsimp only
  refine keepsSound_ite ?_ ?_
  · refine KeepsSound.trans ?_ (keepsSound_of_within (within_peakTileTemp _ _) (by decide))
    refine KeepsSound.trans ?_ (keepsSound_reactCh _ _ _)
    split
    · refine keepsSound_ite ?_ ?_
      · exact keepsSound_markBroken _ _ _
      · exact KeepsSound.refl
    · exact KeepsSound.refl
  · exact KeepsSound.refl

theorem keepsSound_fillLane (s : State) : KeepsSound s (fillLane s) := by
  unfold fillLane
  try dsimp only
  refine KeepsSound.trans ?_ (keepsSound_foldl (fun _ _ => ?_) _ _)
  · exact keepsSound_of_within (within_set_hk _ _) (by decide)
  · exact keepsSound_occur _ _ _

theorem keepsSound_crossCheck (s : State) (a1 : ChanId) : KeepsSound s (crossCheck s a1) := by
  unfold crossCheck
  try dsimp only
  split
  · exact KeepsSound.refl
  · refine keepsSound_ite ?_ ?_
    · exact KeepsSound.refl
    · refine keepsSound_ite ?_ ?_
      · refine KeepsSound.trans ?_ (keepsSound_reactCh _ _ _)
        refine KeepsSound.trans ?_ (keepsSound_markBroken _ _ _)
        refine keepsSound_ite ?_ ?_
        · exact keepsSound_of_within (within_set_hk _ _) (by decide)
        · exact KeepsSound.refl
      · refine keepsSound_ite ?_ ?_
        · refine KeepsSound.trans ?_ (keepsSound_reactCh _ _ _)
          refine KeepsSound.trans ?_ (keepsSound_of_within (within_State_modChan _ _ _) (by decide))
          refine keepsSound_ite ?_ ?_
          · exact keepsSound_of_within (within_set_hk _ _) (by decide)
          · exact KeepsSound.refl
        · refine keepsSound_ite ?_ ?_
          · exact keepsSound_of_within (within_set_hk _ _) (by decide)
          · exact KeepsSound.refl

theorem keepsSound_crossChecks (a0 : BitVec 36) (s : State) : KeepsSound s (crossChecks a0 s) := by
  unfold crossChecks
  try dsimp only
  refine KeepsSound.trans ?_ (keepsSound_foldl (fun _ _ => ?_) _ _)
  · exact KeepsSound.refl
  · exact keepsSound_crossCheck _ _

theorem keepsSound_judgeRound (s : State) : KeepsSound s (judgeRound s) := by
  unfold judgeRound
  try dsimp only
  refine KeepsSound.trans ?_ (keepsSound_foldl (fun _ _ => ?_) _ _)
  · refine KeepsSound.trans ?_ (keepsSound_foldl (fun _ _ => ?_) _ _)
    · exact KeepsSound.refl
    · exact keepsSound_of_within (within_publishRound _ _) (by decide)
  · exact keepsSound_judgeReading _ _ _

theorem keepsSound_hkRoundEnd (s : State) : KeepsSound s (hkRoundEnd s) := by
  unfold hkRoundEnd
  try dsimp only
  refine keepsSound_ite ?_ ?_
  · refine KeepsSound.trans ?_ (keepsSound_of_within (within_telRound _) (by decide))
    refine KeepsSound.trans ?_ (keepsSound_fillLane _)
    refine KeepsSound.trans ?_ (keepsSound_of_within (within_tsdClear _) (by decide))
    refine KeepsSound.trans ?_ (keepsSound_crossChecks _ _)
    refine KeepsSound.trans ?_ (keepsSound_of_within (within_set_hk _ _) (by decide))
    refine KeepsSound.trans ?_ (keepsSound_of_within (within_peakRailTemp _ _) (by decide))
    exact keepsSound_judgeRound _
  · exact KeepsSound.refl

theorem keepsSound_fastRound (a0 : Vector (BitVec 12) 64) (s : State) : KeepsSound s (fastRound a0 s) := by
  unfold fastRound
  try dsimp only
  refine KeepsSound.trans ?_ (keepsSound_of_within (within_tsdClear _) (by decide))
  refine KeepsSound.trans ?_ (keepsSound_foldl (fun _ _ => ?_) _ _)
  · refine KeepsSound.trans ?_ (keepsSound_foldl (fun _ _ => ?_) _ _)
    · exact KeepsSound.refl
    · exact keepsSound_of_within (within_fastSample _ _ _) (by decide)
  · refine KeepsSound.trans ?_ (keepsSound_of_within (within_leaveLane _ _) (by decide))
    refine KeepsSound.trans ?_ (keepsSound_of_within (within_peakRailTemp _ _) (by decide))
    exact keepsSound_judgeReading _ _ _

theorem keepsSound_fastLaneTimer (a0 : Vector (BitVec 12) 64) (a1 : BitVec 12) (s : State) : KeepsSound s (fastLaneTimer a0 a1 s) := by
  unfold fastLaneTimer
  try dsimp only
  refine keepsSound_ite ?_ ?_
  · refine keepsSound_ite ?_ ?_
    · refine KeepsSound.trans ?_ (keepsSound_of_within (within_vsupTrack _ _) (by decide))
      refine KeepsSound.trans ?_ (keepsSound_of_within (within_State_modChan _ _ _) (by decide))
      exact keepsSound_fastRound _ _
    · exact keepsSound_fastRound _ _
  · exact KeepsSound.refl

theorem keepsSound_tsdGraceExpiry (s : State) : KeepsSound s (tsdGraceExpiry s) := by
  unfold tsdGraceExpiry
  try dsimp only
  refine keepsSound_ite ?_ ?_
  · refine KeepsSound.trans ?_ (keepsSound_foldl (fun _ _ => ?_) _ _)
    · exact keepsSound_of_within (within_set_hk _ _) (by decide)
    · refine keepsSound_ite ?_ ?_
      · exact keepsSound_safeNow _ _ _ _ (fun e d x => keepsSound_occur e d x)
      · exact KeepsSound.refl
  · exact KeepsSound.refl

theorem keepsSound_syncJudge (a0 : Bool) (s : State) (a2 : RailId) : KeepsSound s (syncJudge a0 s a2) := by
  unfold syncJudge
  try dsimp only
  refine keepsSound_ite ?_ ?_
  · exact keepsSound_of_within (within_syncFree _ _) (by decide)
  · refine keepsSound_ite ?_ ?_
    · exact keepsSound_of_within (within_syncFree _ _) (by decide)
    · refine keepsSound_ite ?_ ?_
      · refine KeepsSound.trans ?_ (keepsSound_of_within (within_syncFree _ _) (by decide))
        refine keepsSound_ite ?_ ?_
        · refine KeepsSound.trans ?_ (keepsSound_occur _ _ _)
          refine keepsSound_ite ?_ ?_
          · exact keepsSound_of_within (within_State_modIlv _ _ _) (by decide)
          · refine KeepsSound.trans ?_ (keepsSound_of_within (within_set_sync _ _) (by decide))
            exact keepsSound_of_within (within_State_modIlv _ _ _) (by decide)
        · refine keepsSound_ite ?_ ?_
          · exact keepsSound_of_within (within_State_modIlv _ _ _) (by decide)
          · refine KeepsSound.trans ?_ (keepsSound_of_within (within_set_sync _ _) (by decide))
            exact keepsSound_of_within (within_State_modIlv _ _ _) (by decide)
      · refine keepsSound_ite ?_ ?_
        · refine keepsSound_ite ?_ ?_
          · refine KeepsSound.trans ?_ (keepsSound_occur _ _ _)
            refine keepsSound_ite ?_ ?_
            · exact keepsSound_of_within (within_State_modIlv _ _ _) (by decide)
            · refine KeepsSound.trans ?_ (keepsSound_of_within (within_set_sync _ _) (by decide))
              exact keepsSound_of_within (within_State_modIlv _ _ _) (by decide)
          · refine keepsSound_ite ?_ ?_
            · exact keepsSound_of_within (within_State_modIlv _ _ _) (by decide)
            · refine KeepsSound.trans ?_ (keepsSound_of_within (within_set_sync _ _) (by decide))
              exact keepsSound_of_within (within_State_modIlv _ _ _) (by decide)
        · split
          · refine keepsSound_ite ?_ ?_
            · refine KeepsSound.trans ?_ (keepsSound_occur _ _ _)
              refine KeepsSound.trans ?_ (keepsSound_of_within (within_placeOrigin _ _) (by decide))
              refine KeepsSound.trans ?_ (keepsSound_of_within (within_State_modIlv _ _ _) (by decide))
              refine keepsSound_ite ?_ ?_
              · refine KeepsSound.trans ?_ (keepsSound_occur _ _ _)
                refine keepsSound_ite ?_ ?_
                · exact keepsSound_of_within (within_State_modIlv _ _ _) (by decide)
                · refine KeepsSound.trans ?_ (keepsSound_of_within (within_set_sync _ _) (by decide))
                  exact keepsSound_of_within (within_State_modIlv _ _ _) (by decide)
              · refine keepsSound_ite ?_ ?_
                · exact keepsSound_of_within (within_State_modIlv _ _ _) (by decide)
                · refine KeepsSound.trans ?_ (keepsSound_of_within (within_set_sync _ _) (by decide))
                  exact keepsSound_of_within (within_State_modIlv _ _ _) (by decide)
            · refine KeepsSound.trans ?_ (keepsSound_of_within (within_State_modIlv _ _ _) (by decide))
              refine keepsSound_ite ?_ ?_
              · refine KeepsSound.trans ?_ (keepsSound_occur _ _ _)
                refine keepsSound_ite ?_ ?_
                · exact keepsSound_of_within (within_State_modIlv _ _ _) (by decide)
                · refine KeepsSound.trans ?_ (keepsSound_of_within (within_set_sync _ _) (by decide))
                  exact keepsSound_of_within (within_State_modIlv _ _ _) (by decide)
              · refine keepsSound_ite ?_ ?_
                · exact keepsSound_of_within (within_State_modIlv _ _ _) (by decide)
                · refine KeepsSound.trans ?_ (keepsSound_of_within (within_set_sync _ _) (by decide))
                  exact keepsSound_of_within (within_State_modIlv _ _ _) (by decide)
          · refine keepsSound_ite ?_ ?_
            · refine KeepsSound.trans ?_ (keepsSound_of_within (within_setOrigin _ _ _) (by decide))
              refine KeepsSound.trans ?_ (keepsSound_of_within (within_State_modIlv _ _ _) (by decide))
              refine keepsSound_ite ?_ ?_
              · refine KeepsSound.trans ?_ (keepsSound_occur _ _ _)
                refine keepsSound_ite ?_ ?_
                · exact keepsSound_of_within (within_State_modIlv _ _ _) (by decide)
                · refine KeepsSound.trans ?_ (keepsSound_of_within (within_set_sync _ _) (by decide))
                  exact keepsSound_of_within (within_State_modIlv _ _ _) (by decide)
              · refine keepsSound_ite ?_ ?_
                · exact keepsSound_of_within (within_State_modIlv _ _ _) (by decide)
                · refine KeepsSound.trans ?_ (keepsSound_of_within (within_set_sync _ _) (by decide))
                  exact keepsSound_of_within (within_State_modIlv _ _ _) (by decide)
            · refine KeepsSound.trans ?_ (keepsSound_of_within (within_State_modIlv _ _ _) (by decide))
              refine keepsSound_ite ?_ ?_
              · refine KeepsSound.trans ?_ (keepsSound_occur _ _ _)
                refine keepsSound_ite ?_ ?_
                · exact keepsSound_of_within (within_State_modIlv _ _ _) (by decide)
                · refine KeepsSound.trans ?_ (keepsSound_of_within (within_set_sync _ _) (by decide))
                  exact keepsSound_of_within (within_State_modIlv _ _ _) (by decide)
              · refine keepsSound_ite ?_ ?_
                · exact keepsSound_of_within (within_State_modIlv _ _ _) (by decide)
                · refine KeepsSound.trans ?_ (keepsSound_of_within (within_set_sync _ _) (by decide))
                  exact keepsSound_of_within (within_State_modIlv _ _ _) (by decide)

theorem keepsSound_syncAbsent (s : State) : KeepsSound s (syncAbsent s) := by
  unfold syncAbsent
  try dsimp only
  refine KeepsSound.trans ?_ (keepsSound_foldl (fun _ _ => ?_) _ _)
  · refine keepsSound_ite ?_ ?_
    · refine KeepsSound.trans ?_ (keepsSound_occur _ _ _)
      exact keepsSound_of_within (within_set_sync _ _) (by decide)
    · exact keepsSound_of_within (within_set_sync _ _) (by decide)
  · exact keepsSound_syncJudge _ _ _

theorem keepsSound_syncInOff (s : State) : KeepsSound s (syncInOff s) := by
  unfold syncInOff
  try dsimp only
  refine keepsSound_ite ?_ ?_
  · exact KeepsSound.refl
  · refine KeepsSound.trans ?_ (keepsSound_of_within (within_set_sync _ _) (by decide))
    refine keepsSound_ite ?_ ?_
    · exact keepsSound_syncAbsent _
    · exact KeepsSound.refl

theorem keepsSound_syncInEdge (a0 : ℕ) (s : State) : KeepsSound s (syncInEdge a0 s) := by
  unfold syncInEdge
  try dsimp only
  refine keepsSound_ite ?_ ?_
  · split
    · refine KeepsSound.trans ?_ (keepsSound_of_within (within_set_sync _ _) (by decide))
      exact keepsSound_of_within (within_State_advance _ _) (by decide)
    · refine keepsSound_ite ?_ ?_
      · refine KeepsSound.trans ?_ (keepsSound_syncAbsent _)
        refine KeepsSound.trans ?_ (keepsSound_of_within (within_set_sync _ _) (by decide))
        exact keepsSound_of_within (within_State_advance _ _) (by decide)
      · refine KeepsSound.trans ?_ (keepsSound_foldl (fun _ _ => ?_) _ _)
        · refine KeepsSound.trans ?_ (keepsSound_of_within (within_set_sync _ _) (by decide))
          exact keepsSound_of_within (within_State_advance _ _) (by decide)
        · exact keepsSound_syncJudge _ _ _
  · exact KeepsSound.refl

theorem keepsSound_syncInLoss (s : State) : KeepsSound s (syncInLoss s) := by
  unfold syncInLoss
  try dsimp only
  split
  · exact KeepsSound.refl
  · refine keepsSound_ite ?_ ?_
    · refine KeepsSound.trans ?_ (keepsSound_syncAbsent _)
      exact keepsSound_of_within (within_State_advance _ _) (by decide)
    · exact KeepsSound.refl

theorem keepsSound_syncValley (a0 : RailId) (s : State) : KeepsSound s (syncValley a0 s) := by
  unfold syncValley
  try dsimp only
  refine keepsSound_ite ?_ ?_
  · exact KeepsSound.refl
  · refine KeepsSound.trans ?_ (keepsSound_of_within (within_writePeriod _ _ _ _ _) (by decide))
    refine keepsSound_ite ?_ ?_
    · refine KeepsSound.trans ?_ (keepsSound_occur _ _ _)
      exact keepsSound_of_within (within_State_modIlv _ _ _) (by decide)
    · exact keepsSound_of_within (within_State_modIlv _ _ _) (by decide)

theorem keepsSound_markMapBad (a0 : ℕ) (s : State) : KeepsSound s (markMapBad a0 s) := by
  unfold markMapBad
  try dsimp only
  refine keepsSound_ite ?_ ?_
  · exact KeepsSound.refl
  · refine KeepsSound.trans ?_ (keepsSound_occur _ _ _)
    exact keepsSound_set_test_map _ _ _ (fun h => h)

theorem keepsSound_readMapWord (a0 : ℕ) (a1 : Ecc) (s : State) : KeepsSound s (readMapWord a0 a1 s) := by
  unfold readMapWord
  try dsimp only
  refine keepsSound_ite ?_ ?_
  · exact KeepsSound.refl
  · split
    · exact KeepsSound.refl
    · exact keepsSound_set_map _ _ (fun h => h)
    · exact keepsSound_markMapBad _ _

theorem keepsSound_judgeBins (a0 : RailId) (a1 : Ecc) (s : State) : KeepsSound s (judgeBins a0 a1 s) := by
  unfold judgeBins
  try dsimp only
  refine keepsSound_ite ?_ ?_
  · exact KeepsSound.refl
  · refine keepsSound_ite ?_ ?_
    · refine keepsSound_ite ?_ ?_
      · refine KeepsSound.trans ?_ (keepsSound_of_within (within_takeEntry _ _ _) (by decide))
        exact keepsSound_of_within (within_State_modMo _ _ _) (by decide)
      · exact KeepsSound.refl
    · refine keepsSound_ite ?_ ?_
      · refine keepsSound_ite ?_ ?_
        · refine KeepsSound.trans ?_ (keepsSound_of_within (within_takeEntry _ _ _) (by decide))
          exact keepsSound_of_within (within_State_modMo _ _ _) (by decide)
        · exact KeepsSound.refl
      · refine keepsSound_ite ?_ ?_
        · refine keepsSound_ite ?_ ?_
          · refine KeepsSound.trans ?_ (keepsSound_of_within (within_takeEntry _ _ _) (by decide))
            refine KeepsSound.trans ?_ (keepsSound_of_within (within_State_modMo _ _ _) (by decide))
            refine KeepsSound.trans ?_ (keepsSound_readMapWord _ _ _)
            refine KeepsSound.trans ?_ (keepsSound_of_within (within_State_modMo _ _ _) (by decide))
            exact keepsSound_of_within (within_State_modMo _ _ _) (by decide)
          · refine KeepsSound.trans ?_ (keepsSound_readMapWord _ _ _)
            refine KeepsSound.trans ?_ (keepsSound_of_within (within_State_modMo _ _ _) (by decide))
            exact keepsSound_of_within (within_State_modMo _ _ _) (by decide)
        · refine KeepsSound.trans ?_ (keepsSound_of_within (within_takeEntry _ _ _) (by decide))
          refine KeepsSound.trans ?_ (keepsSound_of_within (within_State_modMo _ _ _) (by decide))
          refine KeepsSound.trans ?_ (keepsSound_readMapWord _ _ _)
          refine KeepsSound.trans ?_ (keepsSound_of_within (within_State_modMo _ _ _) (by decide))
          exact keepsSound_of_within (within_State_modMo _ _ _) (by decide)

theorem keepsSound_startEntry (a0 : RailId) (a1 : Ecc) (s : State) : KeepsSound s (startEntry a0 a1 s) := by
  unfold startEntry
  try dsimp only
  refine KeepsSound.trans ?_ (keepsSound_of_within (within_State_modEng _ _ _) (by decide))
  refine KeepsSound.trans ?_ (keepsSound_of_within (within_State_modMo _ _ _) (by decide))
  refine keepsSound_ite ?_ ?_
  · refine keepsSound_ite ?_ ?_
    · refine KeepsSound.trans ?_ (keepsSound_of_within (within_State_modMo _ _ _) (by decide))
      refine KeepsSound.trans ?_ (keepsSound_readMapWord _ _ _)
      refine KeepsSound.trans ?_ (keepsSound_of_within (within_State_modMo _ _ _) (by decide))
      exact keepsSound_of_within (within_State_modMo _ _ _) (by decide)
    · refine KeepsSound.trans ?_ (keepsSound_of_within (within_State_modMo _ _ _) (by decide))
      refine KeepsSound.trans ?_ (keepsSound_readMapWord _ _ _)
      refine KeepsSound.trans ?_ (keepsSound_of_within (within_State_modMo _ _ _) (by decide))
      exact keepsSound_of_within (within_State_modMo _ _ _) (by decide)
  · exact keepsSound_of_within (within_State_modMo _ _ _) (by decide)

theorem keepsSound_judgeLimits (a0 : RailId) (s : State) : KeepsSound s (judgeLimits a0 s) := by
  unfold judgeLimits
  try dsimp only
  refine KeepsSound.trans ?_ (keepsSound_trackR _ _)
  refine keepsSound_ite ?_ ?_
  · refine KeepsSound.trans ?_ (keepsSound_judgeOcr _ _)
    exact keepsSound_of_within (within_State_modProt _ _ _) (by decide)
  · refine KeepsSound.trans ?_ (keepsSound_stepThrottle _ _)
    refine KeepsSound.trans ?_ (keepsSound_judgeDrop _ _)
    refine KeepsSound.trans ?_ (keepsSound_judgeOcr _ _)
    exact keepsSound_of_within (within_State_modProt _ _ _) (by decide)

theorem keepsSound_lastRefValley (a0 : RailId) (s : State) : KeepsSound s (lastRefValley a0 s) := by
  unfold lastRefValley
  try dsimp only
  refine keepsSound_ite ?_ ?_
  · refine KeepsSound.trans ?_ (keepsSound_trackR _ _)
    refine KeepsSound.trans ?_ (keepsSound_judgeOcr _ _)
    refine KeepsSound.trans ?_ (keepsSound_of_within (within_State_modMo _ _ _) (by decide))
    exact keepsSound_of_within (within_State_advance _ _) (by decide)
  · exact KeepsSound.refl

theorem keepsSound_referenceValley (a0 : RailId) (a1 : Ecc) (s : State) : KeepsSound s (referenceValley a0 a1 s) := by
  unfold referenceValley
  try dsimp only
  refine keepsSound_ite ?_ ?_
  · exact keepsSound_lastRefValley _ _
  · refine keepsSound_ite ?_ ?_
    · refine KeepsSound.trans ?_ (keepsSound_judgeLimits _ _)
      refine KeepsSound.trans ?_ (keepsSound_judgeBins _ _ _)
      refine KeepsSound.trans ?_ (keepsSound_of_within (within_peakCurr _ _) (by decide))
      refine KeepsSound.trans ?_ (keepsSound_of_within (within_formIr _ _) (by decide))
      refine KeepsSound.trans ?_ (keepsSound_of_within (within_State_modEng _ _ _) (by decide))
      exact keepsSound_of_within (within_refToValley _ _) (by decide)
    · refine KeepsSound.trans ?_ (keepsSound_of_within (within_settleChange _ _) (by decide))
      refine KeepsSound.trans ?_ (keepsSound_syncValley _ _)
      refine KeepsSound.trans ?_ (keepsSound_of_within (within_judgeFreq _ _) (by decide))
      refine KeepsSound.trans ?_ (keepsSound_of_within (within_judgeRotation _ _ _) (by decide))
      refine KeepsSound.trans ?_ (keepsSound_of_within (within_judgeMoult _ _) (by decide))
      refine KeepsSound.trans ?_ (keepsSound_of_within (within_judgeExclusion _ _) (by decide))
      refine KeepsSound.trans ?_ (keepsSound_of_within (within_judgeGlide _ _ _) (by decide))
      refine KeepsSound.trans ?_ (keepsSound_judgeLimits _ _)
      refine KeepsSound.trans ?_ (keepsSound_judgeBins _ _ _)
      refine KeepsSound.trans ?_ (keepsSound_of_within (within_peakCurr _ _) (by decide))
      refine KeepsSound.trans ?_ (keepsSound_of_within (within_formIr _ _) (by decide))
      refine KeepsSound.trans ?_ (keepsSound_of_within (within_State_modEng _ _ _) (by decide))
      exact keepsSound_of_within (within_refToValley _ _) (by decide)

theorem keepsSound_readyTimeout (a0 : TileId) (s : State) : KeepsSound s (readyTimeout a0 s) := by
  unfold readyTimeout
  try dsimp only
  split
  · exact KeepsSound.refl
  · refine keepsSound_ite ?_ ?_
    · refine KeepsSound.trans ?_ (keepsSound_of_within (within_State_modTile _ _ _) (by decide))
      exact keepsSound_leapRemove _ _
    · exact KeepsSound.refl

theorem keepsSound_enterPrepare (a0 : RailId) (a1 : Ecc) (s : State) : KeepsSound s (enterPrepare a0 a1 s) := by
  unfold enterPrepare
  try dsimp only
  refine keepsSound_ite ?_ ?_
  · refine KeepsSound.trans ?_ (keepsSound_foldl (fun _ _ => ?_) _ _)
    · exact keepsSound_of_within (within_State_modRail _ _ _) (by decide)
    · exact keepsSound_crossCheck _ _
  · refine keepsSound_ite ?_ ?_
    · refine KeepsSound.trans ?_ (keepsSound_railToOut _ _ _ _ _)
      refine KeepsSound.trans ?_ (keepsSound_foldl (fun _ _ => ?_) _ _)
      · exact keepsSound_of_within (within_State_modRail _ _ _) (by decide)
      · exact keepsSound_crossCheck _ _
    · refine keepsSound_ite ?_ ?_
      · refine KeepsSound.trans ?_ (keepsSound_of_within (within_askAutozero _ _ _) (by decide))
        refine KeepsSound.trans ?_ (keepsSound_of_within (within_feedforward _ _) (by decide))
        refine KeepsSound.trans ?_ (keepsSound_of_within (within_startCarriers _ _) (by decide))
        refine KeepsSound.trans ?_ (keepsSound_startEntry _ _ _)
        refine KeepsSound.trans ?_ (keepsSound_foldl (fun _ _ => ?_) _ _)
        · exact keepsSound_of_within (within_State_modRail _ _ _) (by decide)
        · exact keepsSound_crossCheck _ _
      · refine KeepsSound.trans ?_ (keepsSound_of_within (within_feedforward _ _) (by decide))
        refine KeepsSound.trans ?_ (keepsSound_of_within (within_startCarriers _ _) (by decide))
        refine KeepsSound.trans ?_ (keepsSound_startEntry _ _ _)
        refine KeepsSound.trans ?_ (keepsSound_foldl (fun _ _ => ?_) _ _)
        · exact keepsSound_of_within (within_State_modRail _ _ _) (by decide)
        · exact keepsSound_crossCheck _ _

theorem keepsSound_railStart (a0 : RailId) (a1 : Ecc) (s : State) : KeepsSound s (railStart a0 a1 s) := by
  unfold railStart
  try dsimp only
  refine keepsSound_ite ?_ ?_
  · exact keepsSound_enterPrepare _ _ _
  · exact KeepsSound.refl

theorem keepsSound_hiccupRetry (a0 : RailId) (a1 : Ecc) (s : State) : KeepsSound s (hiccupRetry a0 a1 s) := by
  unfold hiccupRetry
  try dsimp only
  refine keepsSound_ite ?_ ?_
  · exact keepsSound_enterPrepare _ _ _
  · exact KeepsSound.refl

theorem keepsSound_prebiasWaitTimeout (a0 : RailId) (s : State) : KeepsSound s (prebiasWaitTimeout a0 s) := by
  unfold prebiasWaitTimeout
  try dsimp only
  refine keepsSound_ite ?_ ?_
  · refine KeepsSound.trans ?_ (keepsSound_occur _ _ _)
    exact keepsSound_of_within (within_State_modSeq _ _ _) (by decide)
  · exact KeepsSound.refl

theorem keepsSound_trackFailure (a0 : RailId) (s : State) : KeepsSound s (trackFailure a0 s) := by
  unfold trackFailure
  try dsimp only
  split
  · exact KeepsSound.refl
  · refine keepsSound_ite ?_ ?_
    · refine KeepsSound.trans ?_ (keepsSound_occur _ _ _)
      exact keepsSound_hiccupFault _ _ _
    · exact KeepsSound.refl

theorem keepsSound_stoppingComplete (a0 : RailId) (s : State) : KeepsSound s (stoppingComplete a0 s) := by
  unfold stoppingComplete
  try dsimp only
  refine keepsSound_ite ?_ ?_
  · exact keepsSound_railToOut _ _ _ _ _
  · exact KeepsSound.refl

theorem keepsSound_immediateOff (a0 : RailId) (a1 : ℕ) (s : State) : KeepsSound s (immediateOff a0 a1 s) := by
  unfold immediateOff
  try dsimp only
  refine keepsSound_ite ?_ ?_
  · exact KeepsSound.refl
  · exact keepsSound_railToOut _ _ _ _ _

theorem keepsSound_lenJudge (a0 : RailId) (a1 : Bool) (s : State) : KeepsSound s (lenJudge a0 a1 s) := by
  unfold lenJudge
  try dsimp only
  refine keepsSound_ite ?_ ?_
  · exact KeepsSound.refl
  · refine keepsSound_ite ?_ ?_
    · exact keepsSound_immediateOff _ _ _
    · refine keepsSound_ite ?_ ?_
      · exact keepsSound_orderlyOff _ _ _ _ (fun e d x => keepsSound_occur e d x)
      · exact KeepsSound.refl

theorem keepsSound_lenChange (a0 : RailId) (a1 : Bool) (s : State) : KeepsSound s (lenChange a0 a1 s) := by
  unfold lenChange
  try dsimp only
  refine keepsSound_ite ?_ ?_
  · refine KeepsSound.trans ?_ (keepsSound_lenJudge _ _ _)
    exact keepsSound_of_within (within_State_modSeq _ _ _) (by decide)
  · exact KeepsSound.refl

theorem keepsSound_clearRail (a0 : RailId) (s : State) : KeepsSound s (clearRail a0 s) := by
  unfold clearRail
  try dsimp only
  refine keepsSound_ite ?_ ?_
  · refine KeepsSound.trans ?_ (keepsSound_setReq _ _ _)
    exact keepsSound_railToOut _ _ _ _ _
  · exact KeepsSound.refl

theorem keepsSound_doReq (a0 : RailId) (a1 : ℕ) (s : State) : KeepsSound s (doReq a0 a1 s) := by
  unfold doReq
  try dsimp only
  split
  · refine keepsSound_ite ?_ ?_
    · refine KeepsSound.trans ?_ (keepsSound_railToOut _ _ _ _ _)
      exact keepsSound_setReq _ _ _
    · refine KeepsSound.trans ?_ (keepsSound_orderlyOff _ _ _ _ (fun e d x => keepsSound_occur e d x))
      exact keepsSound_setReq _ _ _
  · refine KeepsSound.trans ?_ (keepsSound_of_within (within_State_modSeq _ _ _) (by decide))
    exact keepsSound_setReq _ _ _
  · refine KeepsSound.trans ?_ (keepsSound_immediateOff _ _ _)
    exact keepsSound_setReq _ _ _

theorem keepsSound_writeCmd (a0 : HostId) (a1 : RailId) (a2 : Word) (s : State) : KeepsSound s (writeCmd a0 a1 a2 s) := by
  unfold writeCmd
  try dsimp only
  refine keepsSound_ite ?_ ?_
  · exact keepsSound_of_within (within_refuse _ _) (by decide)
  · refine keepsSound_ite ?_ ?_
    · refine keepsSound_ite ?_ ?_
      · refine KeepsSound.trans ?_ (keepsSound_clearRail _ _)
        refine keepsSound_ite ?_ ?_
        · exact keepsSound_of_within (within_refuse _ _) (by decide)
        · exact KeepsSound.refl
      · refine keepsSound_ite ?_ ?_
        · exact keepsSound_of_within (within_refuse _ _) (by decide)
        · exact KeepsSound.refl
    · refine KeepsSound.trans ?_ (keepsSound_doReq _ _ _)
      refine keepsSound_ite ?_ ?_
      · refine KeepsSound.trans ?_ (keepsSound_clearRail _ _)
        refine keepsSound_ite ?_ ?_
        · exact keepsSound_of_within (within_refuse _ _) (by decide)
        · exact KeepsSound.refl
      · refine keepsSound_ite ?_ ?_
        · exact keepsSound_of_within (within_refuse _ _) (by decide)
        · exact KeepsSound.refl

theorem keepsSound_makeRoom (s : State) : KeepsSound s (makeRoom s) := by
  unfold makeRoom
  try dsimp only
  refine keepsSound_ite ?_ ?_
  · exact KeepsSound.refl
  · split
    · exact KeepsSound.refl
    · refine keepsSound_ite ?_ ?_
      · refine KeepsSound.trans ?_ (keepsSound_occur _ _ _)
        refine KeepsSound.trans ?_ (keepsSound_of_within (within_State_modHost _ _ _) (by decide))
        refine KeepsSound.trans ?_ (keepsSound_of_within (within_State_modHost _ _ _) (by decide))
        exact keepsSound_set_jrn_xm _ _ _ (fun h => journalBounded_of h (eraseFirst_sublist _ _)) (fun h => by split <;> exact h) (fun h => by split <;> first | exact h | exact Nat.zero_le _)
      · refine KeepsSound.trans ?_ (keepsSound_of_within (within_State_modHost _ _ _) (by decide))
        refine KeepsSound.trans ?_ (keepsSound_of_within (within_State_modHost _ _ _) (by decide))
        exact keepsSound_set_jrn_xm _ _ _ (fun h => journalBounded_of h (eraseFirst_sublist _ _)) (fun h => by split <;> exact h) (fun h => by split <;> first | exact h | exact Nat.zero_le _)

/-- What room costs: nothing, or the first entry that is not pinned. -/
theorem makeRoom_ring (s : State) : ((makeRoom s).jrn.ring = s.jrn.ring ∧ (s.jrn.ring.length < 1024 ∨ ∀ e ∈ s.jrn.ring, e.pinned = true)) ∨
    ((makeRoom s).jrn.ring = eraseFirst (fun x => !x.pinned) s.jrn.ring ∧ ∃ e ∈ s.jrn.ring, (!e.pinned) = true) := by
  have hm : ∀ (x : HostId) (f : HostRegs → HostRegs) (y : State), (y.modHost x f).jrn = y.jrn := fun x f y =>
    within_State_modHost y x f .jrn (by decide)
  unfold makeRoom
  split
  · exact .inl ⟨rfl, .inl ‹_›⟩
  · split
    · rename_i hn
      exact .inl ⟨rfl, .inr fun e he => by simpa using List.find?_eq_none.mp hn e he⟩
    · rename_i e hf
      refine .inr ⟨?_, e, List.mem_of_find?_eq_some hf, by simpa using List.find?_some hf⟩
      dsimp only
      split
      · rw [show ∀ d x, (occur 176 d x).jrn = x.jrn from fun d x => within_occur 176 d x .jrn (by decide), hm, hm]
      · rw [hm, hm]

/-- In a ring that keeps its bounds, room is a free place: at most 64 entries are pinned, so a full ring holds one that is not. -/
theorem makeRoom_bounded {s : State} (h : Journal.Bounded s.jrn) :
    (makeRoom s).jrn.ring.length < 1024 ∧ ((makeRoom s).jrn.ring.filter JournalEntry.pinned).length ≤ pinnedCount s := by
  rcases makeRoom_ring s with ⟨hr, hl | hp⟩ | ⟨hr, he⟩
  · exact ⟨hr ▸ hl, by rw [hr]; exact Nat.le_refl _⟩
  · have h2 := h.2
    rw [List.filter_eq_self.mpr hp] at h2
    rw [hr]
    exact ⟨by omega, Nat.le_refl _⟩
  · have hx := eraseFirst_length _ _ he
    have := h.1
    rw [hr]
    exact ⟨by omega, ((eraseFirst_sublist _ _).filter _).length_le⟩

theorem flagsOf_pinned (q : QueueEntry) (pin : Bool) : (BitVec.ofNat 8 (flagsOf q + atB pin 2)).getLsbD 2 = pin := by
  unfold flagsOf
  generalize q.loss = a, q.corrupt = b, q.cls = c, q.snap = d, q.record = e, (q.host == some .b) = f, q.host.isSome = g
  cases a <;> cases b <;> cases c <;> cases d <;> cases e <;> cases f <;> cases g <;> cases pin <;> rfl

theorem pinned_append {l : List JournalEntry} {e : JournalEntry} {n : Nat} (hl : (l.filter JournalEntry.pinned).length ≤ n) (hn : n ≤ 64)
    (he : e.pinned = true → n < 64) : ((l ++ [e]).filter JournalEntry.pinned).length ≤ 64 := by
  rw [List.filter_append, List.length_append]
  cases hp : e.pinned with
  | true =>
    have := he hp
    simp [hp]
    omega
  | false =>
    simp [hp]
    omega

theorem keepsSound_writeEntry (a0 : QueueEntry) (s : State) : KeepsSound s (writeEntry a0 s) := by
  have hm := keepsSound_makeRoom s
  unfold writeEntry
  dsimp only
  refine KeepsSound.trans ?_ (keepsSound_ite (keepsSound_occur _ _ _) KeepsSound.refl)
  refine ⟨fun h => hm.1 h, fun h => ?_⟩
  have b := hm.2 h
  have hr := makeRoom_bounded h.2.1
  refine ⟨b.1, ⟨?_, ?_⟩, b.2.2.1, b.2.2.2.1, b.2.2.2.2⟩
  · dsimp only
    rw [List.length_append]
    exact hr.1
  · refine pinned_append hr.2 h.2.1.2 fun hp => ?_
    unfold JournalEntry.pinned at hp
    dsimp only at hp
    rw [flagsOf_pinned] at hp
    simp only [Bool.and_eq_true, decide_eq_true_eq] at hp
    exact hp.2

theorem keepsSound_journalWrite (s : State) : KeepsSound s (journalWrite s) := by
  unfold journalWrite
  split
  · exact KeepsSound.refl
  · rename_i q rest hq
    split
    · refine KeepsSound.trans (keepsSound_set_ev _ _ (fun h => ?_)) (keepsSound_writeEntry _ _)
      rw [hq, List.length_cons] at h
      exact Nat.le_of_succ_le h
    · exact KeepsSound.refl

theorem mapList_pinned (f : Nat → JournalEntry → JournalEntry) (hf : ∀ i e, (f i e).pinned = true → e.pinned = true) (i : Nat) (l : List JournalEntry) :
    ((mapList f i l).filter JournalEntry.pinned).length ≤ (l.filter JournalEntry.pinned).length := by
  induction l generalizing i with
  | nil => exact Nat.le_refl _
  | cons e l ih =>
    have h := ih (i + 1)
    unfold mapList
    rw [List.filter_cons, List.filter_cons]
    split
    · rw [if_pos (hf i e ‹_›), List.length_cons, List.length_cons]
      exact Nat.succ_le_succ h
    · split
      · exact Nat.le_succ_of_le h
      · exact h

theorem keepsSound_markRing (a0 : Nat) (s : State) : KeepsSound s (markRing a0 s) := by
  unfold markRing
  refine keepsSound_set_jrn _ _ (fun h => ⟨by rw [mapList_length]; exact h.1, Nat.le_trans (mapList_pinned _ (fun i e he => ?_) _ _) h.2⟩)
  split at he
  · simpa [JournalEntry.pinned] using he
  · exact he

theorem keepsSound_ringError (a0 : ℕ) (s : State) : KeepsSound s (ringError a0 s) := by
  unfold ringError
  try dsimp only
  refine KeepsSound.trans ?_ (keepsSound_occur _ _ _)
  refine KeepsSound.trans ?_ (keepsSound_markRing _ _)
  exact keepsSound_of_within (within_countDbe _) (by decide)

theorem keepsSound_checkRing (a0 : ℕ) (a1 : Ecc) (s : State) : KeepsSound s (checkRing a0 a1 s) := by
  unfold checkRing
  try dsimp only
  split
  · exact KeepsSound.refl
  · exact keepsSound_of_within (within_ringFixed _) (by decide)
  · exact keepsSound_ringError _ _

theorem unpin_pinned (e : JournalEntry) : e.unpin.pinned = false := by
  simp [JournalEntry.unpin, JournalEntry.pinned]

theorem keepsSound_popEntry (a0 : HostId) (s : State) : KeepsSound s (popEntry a0 s) := by
  unfold popEntry
  have hm : ∀ (x : HostId) (f : HostRegs → HostRegs) (y : State), KeepsSound y (y.modHost x f) := fun x f y =>
    keepsSound_of_within (within_State_modHost y x f) (by decide)
  split
  · dsimp only
    refine keepsSound_ite (keepsSound_ite ((hm _ _ _).trans (hm _ _ _)) ?_) (hm _ _ _)
    refine ((hm _ _ _).trans (hm _ _ _)).trans (keepsSound_set_jrn _ _ (fun h => journalBounded_map h _ rfl fun e he => ?_))
    split at he
    · rw [unpin_pinned] at he
      cases he
    · exact he
  · exact hm _ _ _

theorem keepsSound_leaveWaitLong (a0 : Fin 8) (s : State) : KeepsSound s (leaveWaitLong a0 s) := by
  unfold leaveWaitLong
  try dsimp only
  refine keepsSound_ite ?_ ?_
  · refine KeepsSound.trans ?_ (keepsSound_occur _ _ _)
    exact keepsSound_of_within (within_set_draw _ _) (by decide)
  · exact KeepsSound.refl

/-- A burst is staged while a credit is free. -/
theorem keepsSound_stageBurst (a0 : XBurst) (s : State) (h : s.xm.bursts.length < 4) : KeepsSound s (stageBurst a0 s) := by
  have ha : ∀ l : List XBurst, (l.takeWhile isJournalBurst ++ a0 :: l.dropWhile isJournalBurst).length = l.length + 1 := fun l => by
    have := congrArg List.length (List.takeWhile_append_dropWhile (p := isJournalBurst) (l := l))
    simp only [List.length_append, List.length_cons] at *
    omega
  unfold stageBurst
  refine keepsSound_set_xm _ _ (fun x => x) (fun _ => ?_)
  dsimp only
  split
  · split
    · rw [List.length_append, ha, List.length_take, List.length_drop]
      omega
    · rw [ha]
      omega
  · simp only [List.length_append, List.length_cons, List.length_nil]
    omega

theorem keepsSound_nextBegins (s : State) : KeepsSound s (nextBegins s) := by
  unfold nextBegins
  try dsimp only
  exact keepsSound_set_xm _ _ (fun h => h) (fun h => h)

theorem keepsSound_xmPump (s : State) : KeepsSound s (xmPump s) := by
  unfold xmPump
  split
  · exact KeepsSound.refl
  · split
    · rename_i hd
      refine KeepsSound.trans (keepsSound_set_xm _ _ (fun h => h) (fun h => h)) (keepsSound_stageBurst _ _ ?_)
      simp only [prefetchDue, prefetchCredits, credits, Bool.and_eq_true] at hd
      have := of_decide_eq_true hd.1.2
      dsimp only
      omega
    · exact KeepsSound.refl

theorem keepsSound_journalHeadSearch (s : State) : KeepsSound s (journalHeadSearch s) := by
  unfold journalHeadSearch
  try dsimp only
  refine keepsSound_ite ?_ ?_
  · refine keepsSound_ite ?_ ?_
    · split
      · refine KeepsSound.trans ?_ (keepsSound_occur _ _ _)
        refine KeepsSound.trans ?_ (keepsSound_set_xm _ _ (fun h => h) (fun h => h))
        exact keepsSound_of_within (within_releaseLeave _ _) (by decide)
      · refine KeepsSound.trans ?_ (keepsSound_occur _ _ _)
        refine KeepsSound.trans ?_ (keepsSound_set_xm _ _ (fun h => eraseSector_wf h _) (fun h => h))
        exact keepsSound_of_within (within_releaseLeave _ _) (by decide)
    · exact keepsSound_of_within (within_xmAsk _ _) (by decide)
  · exact KeepsSound.refl

theorem keepsSound_checkEntries (a0 : List Nat) (a1 : List Ecc) (s : State) : KeepsSound s (checkEntries a0 a1 s) := by
  induction a0 generalizing a1 s with
  | nil => exact KeepsSound.refl
  | cons no nos ih =>
    cases a1 with
    | nil => exact KeepsSound.refl
    | cons e es => exact (keepsSound_checkRing _ _ _).trans (ih _ _)

theorem keepsSound_journalBurst (a0 : List Ecc) (s : State) : KeepsSound s (journalBurst a0 s) := by
  unfold journalBurst
  split
  · rename_i hd
    have hc : s.xm.bursts.length < 4 := by
      simp only [credits, Bool.and_eq_true] at hd
      exact of_decide_eq_true hd.1.2
    split
    · rename_i nos _ _ _
      dsimp only
      have hx : (checkEntries nos a0 s).xm = s.xm := within_checkEntries nos a0 s .xm (by decide)
      split
      · exact (keepsSound_checkEntries _ _ _).trans (keepsSound_stageBurst _ _ (by rw [hx]; exact hc))
      · exact keepsSound_checkEntries _ _ _
    · exact KeepsSound.trans (keepsSound_set_xm _ _ (fun h => h) (fun h => h)) (keepsSound_stageBurst _ _ hc)
    · exact keepsSound_stageBurst _ _ hc
    · exact KeepsSound.refl
  · exact keepsSound_of_within (within_xmAsk _ _) (by decide)

theorem keepsSound_recFreeze (a0 : ℕ) (a1 : Bool) (s : State) : KeepsSound s (recFreeze a0 a1 s) := by
  unfold recFreeze
  try dsimp only
  refine KeepsSound.trans ?_ (keepsSound_occur _ _ _)
  exact keepsSound_of_within (within_set_rcd _ _) (by decide)

theorem keepsSound_recorderFrame (s : State) : KeepsSound s (recorderFrame s) := by
  unfold recorderFrame
  try dsimp only
  refine keepsSound_ite ?_ ?_
  · exact KeepsSound.refl
  · split
    · exact keepsSound_of_within (within_set_free _ _) (by decide)
    · exact keepsSound_of_within (within_set_free_rcd _ _ _) (by decide)
    · refine keepsSound_ite ?_ ?_
      · refine keepsSound_ite ?_ ?_
        · exact keepsSound_of_within (within_set_free _ _) (by decide)
        · refine KeepsSound.trans ?_ (keepsSound_recFreeze _ _ _)
          exact keepsSound_of_within (within_set_free _ _) (by decide)
      · refine keepsSound_ite ?_ ?_
        · exact keepsSound_of_within (within_set_free_rcd _ _ _) (by decide)
        · refine KeepsSound.trans ?_ (keepsSound_recFreeze _ _ _)
          exact keepsSound_of_within (within_set_free_rcd _ _ _) (by decide)
    · refine keepsSound_ite ?_ ?_
      · exact keepsSound_of_within (within_set_free _ _) (by decide)
      · exact keepsSound_of_within (within_set_free_rcd _ _ _) (by decide)

theorem keepsSound_recError (s : State) : KeepsSound s (recError s) := by
  unfold recError
  try dsimp only
  split
  · refine KeepsSound.trans ?_ (keepsSound_recFreeze _ _ _)
    refine KeepsSound.trans ?_ (keepsSound_occur _ _ _)
    exact keepsSound_of_within (within_countDbe _) (by decide)
  · refine KeepsSound.trans ?_ (keepsSound_of_within (within_set_rcd _ _) (by decide))
    refine KeepsSound.trans ?_ (keepsSound_occur _ _ _)
    exact keepsSound_of_within (within_countDbe _) (by decide)
  · refine KeepsSound.trans ?_ (keepsSound_occur _ _ _)
    exact keepsSound_of_within (within_countDbe _) (by decide)

theorem keepsSound_recClear (s : State) (h : s.xm.bursts.length < 4) : KeepsSound s (recClear s) := by
  unfold recClear
  dsimp only
  split <;> exact KeepsSound.trans (keepsSound_of_within (within_set_rcd _ _) (by decide)) (keepsSound_stageBurst _ _ h)

theorem keepsSound_recorderBurst (a0 : Ecc) (s : State) : KeepsSound s (recorderBurst a0 s) := by
  unfold recorderBurst
  split
  · rename_i hd
    have hc : s.xm.bursts.length < 4 := by
      simp only [recorderCredits, spareCredits, credits, Bool.and_eq_true] at hd
      have := of_decide_eq_true hd.1.2
      omega
    dsimp only
    split
    · exact keepsSound_stageBurst _ _ hc
    · split
      · exact keepsSound_recClear _ hc
      · split
        · exact keepsSound_recError _
        · refine KeepsSound.trans ?_ (keepsSound_stageBurst _ _ ?_)
          · refine KeepsSound.trans ?_ (keepsSound_of_within (within_set_rcd _ _) (by decide))
            exact keepsSound_ite (keepsSound_of_within (within_recFixed _) (by decide)) KeepsSound.refl
          · dsimp only
            split
            · exact hc
            · exact hc
  · exact keepsSound_of_within (within_xmAsk _ _) (by decide)

theorem keepsSound_recDone (s : State) : KeepsSound s (recDone s) := by
  unfold recDone
  try dsimp only
  refine keepsSound_ite ?_ ?_
  · refine KeepsSound.trans ?_ (keepsSound_occur _ _ _)
    exact keepsSound_of_within (within_set_rcd _ _) (by decide)
  · refine KeepsSound.trans ?_ (keepsSound_occur _ _ _)
    exact keepsSound_of_within (within_set_rcd _ _) (by decide)

theorem keepsSound_recCtl (a0 : HostId) (a1 : Word) (s : State) : KeepsSound s (recCtl a0 a1 s) := by
  unfold recCtl
  try dsimp only
  split
  · refine keepsSound_ite ?_ ?_
    · exact keepsSound_of_within (within_set_rcd _ _) (by decide)
    · exact KeepsSound.refl
  · exact keepsSound_hostTrigger _
  · split
    · exact keepsSound_of_within (within_set_rcd _ _) (by decide)
    · refine keepsSound_ite ?_ ?_
      · exact KeepsSound.refl
      · exact keepsSound_of_within (within_set_rcd _ _) (by decide)
    · exact KeepsSound.refl
  · refine keepsSound_ite ?_ ?_
    · exact keepsSound_of_within (within_set_rcd _ _) (by decide)
    · exact KeepsSound.refl
  · exact keepsSound_of_within (within_refuse _ _) (by decide)

theorem keepsSound_burstEffect (a0 : XBurst) (s : State) : KeepsSound s (burstEffect a0 s) := by
  unfold burstEffect
  dsimp only
  refine KeepsSound.trans (keepsSound_of_within (within_releaseLeave (burstUser a0) s) (by decide)) ?_
  generalize releaseLeave (burstUser a0) s = s
  split
  · refine keepsSound_set_jrn_xm _ _ _ (fun h => journalBounded_map h _ rfl fun e he => ?_) (fun h => progBytes_wf h _ _ _) (fun h => h)
    split at he
    · exact absurd he (by rw [show ({ e.unpin with inXmem := true } : JournalEntry).pinned = e.unpin.pinned from rfl, unpin_pinned]; decide)
    · exact he
  · exact keepsSound_set_xm _ _ (fun h => eraseSector_wf h _) (fun h => h)
  · refine keepsSound_ite ?_ ?_
    · exact keepsSound_set_xm _ _ (fun h => progBytes_wf h _ _ _) (fun h => h)
    · exact keepsSound_set_xm _ _ (fun h => progBytes_wf h _ _ _) (fun h => h)
  · refine keepsSound_ite ?_ ?_
    · exact keepsSound_of_within (within_State_modHost _ _ _) (by decide)
    · exact KeepsSound.refl
  · refine keepsSound_ite ?_ ?_
    · refine keepsSound_ite ?_ ?_
      · refine KeepsSound.trans ?_ (keepsSound_recDone _)
        exact keepsSound_set_xm _ _ (fun h => progBytes_wf (progBytes_wf h _ _ _) _ _ _) (fun h => h)
      · exact keepsSound_set_xm _ _ (fun h => progBytes_wf (progBytes_wf h _ _ _) _ _ _) (fun h => h)
    · exact keepsSound_set_xm _ _ (fun h => progBytes_wf h _ _ _) (fun h => h)
  · exact keepsSound_set_xm _ _ (fun h => eraseSector_wf h _) (fun h => h)
  · exact keepsSound_set_xm _ _ (fun h => progBytes_wf h _ _ _) (fun h => h)
  · exact keepsSound_set_xm _ _ (fun h => eraseSector_wf h _) (fun h => h)

theorem keepsSound_burstCut (s : State) : KeepsSound s (burstCut s) := by
  have hf : ∀ a n : Nat, KeepsSound s { s with
      xm := { s.xm with mem := Store.setMany blank s.xm.mem a ((List.range n).map fun i => BitVec.ofNat 8 (Config.freeNat (s.free + i))) }
      free := s.free + n } := fun a n => keepsSound_set_free_xm s _ _ (fun h => Store.wf_setMany h _ _) (fun h => h)
  unfold burstCut
  dsimp only
  split
  · exact hf _ _
  · split
    · exact hf _ 13
    · exact hf _ _
  · exact hf _ _
  · exact hf _ 4096
  · exact hf _ _
  · exact hf _ 4096
  · exact hf _ 4096
  · exact KeepsSound.refl
  · exact KeepsSound.refl

theorem keepsSound_xmemStall (s : State) : KeepsSound s (xmemStall s) := by
  unfold xmemStall
  try dsimp only
  refine keepsSound_ite ?_ ?_
  · refine keepsSound_ite ?_ ?_
    · refine KeepsSound.trans ?_ (keepsSound_recFreeze _ _ _)
      refine KeepsSound.trans ?_ (keepsSound_occur _ _ _)
      refine KeepsSound.trans ?_ (keepsSound_set_ldr_xm _ _ _ (fun h => h) (fun _ => Nat.zero_le _))
      refine KeepsSound.trans ?_ (keepsSound_of_within (within_xmNoLeave _) (by decide))
      exact keepsSound_burstCut _
    · refine KeepsSound.trans ?_ (keepsSound_occur _ _ _)
      refine KeepsSound.trans ?_ (keepsSound_set_ldr_xm _ _ _ (fun h => h) (fun _ => Nat.zero_le _))
      refine KeepsSound.trans ?_ (keepsSound_of_within (within_xmNoLeave _) (by decide))
      exact keepsSound_burstCut _
  · exact KeepsSound.refl

theorem keepsSound_xmemRecovery (s : State) : KeepsSound s (xmemRecovery s) := by
  unfold xmemRecovery
  try dsimp only
  refine keepsSound_ite ?_ ?_
  · refine KeepsSound.trans ?_ (keepsSound_of_within (within_xmAsk _ _) (by decide))
    refine KeepsSound.trans ?_ (keepsSound_occur _ _ _)
    exact keepsSound_set_xm _ _ (fun h => h) (fun h => h)
  · exact KeepsSound.refl

theorem keepsSound_bootEvent (a0 : ℕ) (a1 : ℕ) (s : State) : KeepsSound s (bootEvent a0 a1 s) := by
  unfold bootEvent
  try dsimp only
  refine KeepsSound.trans ?_ (keepsSound_of_within (within_nextCycle _) (by decide))
  exact keepsSound_occur _ _ _

theorem keepsSound_lossEvents (a0 : ℕ) (s : State) : KeepsSound s (lossEvents a0 s) := by
  unfold lossEvents
  try dsimp only
  refine KeepsSound.trans ?_ (keepsSound_foldl (fun _ _ => ?_) _ _)
  · exact KeepsSound.refl
  · exact keepsSound_bootEvent _ _ _

theorem keepsSound_discover (a0 : Sfdp) (s : State) : KeepsSound s (discover a0 s) := by
  unfold discover
  try dsimp only
  split
  · refine KeepsSound.trans ?_ (keepsSound_occur _ _ _)
    exact keepsSound_set_xm _ _ (fun h => h) (fun h => h)
  · refine KeepsSound.trans ?_ (keepsSound_occur _ _ _)
    exact keepsSound_set_xm _ _ (fun h => h) (fun h => h)
  · refine keepsSound_ite ?_ ?_
    · refine KeepsSound.trans ?_ (keepsSound_occur _ _ _)
      exact keepsSound_set_xm _ _ (fun h => h) (fun h => h)
    · refine keepsSound_ite ?_ ?_
      · refine KeepsSound.trans ?_ (keepsSound_of_within (within_nextCycle _) (by decide))
        refine KeepsSound.trans ?_ (keepsSound_occur _ _ _)
        refine keepsSound_ite ?_ ?_
        · refine KeepsSound.trans ?_ (keepsSound_of_within (within_nextCycle _) (by decide))
          refine KeepsSound.trans ?_ (keepsSound_occur _ _ _)
          exact keepsSound_set_xm _ _ (fun h => h) (fun h => h)
        · exact keepsSound_set_xm _ _ (fun h => h) (fun h => h)
      · refine keepsSound_ite ?_ ?_
        · refine KeepsSound.trans ?_ (keepsSound_of_within (within_nextCycle _) (by decide))
          refine KeepsSound.trans ?_ (keepsSound_occur _ _ _)
          exact keepsSound_set_xm _ _ (fun h => h) (fun h => h)
        · exact keepsSound_set_xm _ _ (fun h => h) (fun h => h)

theorem keepsSound_xmemDiscovery (a0 : Sfdp) (s : State) : KeepsSound s (xmemDiscovery a0 s) := by
  unfold xmemDiscovery
  try dsimp only
  refine keepsSound_ite ?_ ?_
  · refine KeepsSound.trans ?_ (keepsSound_of_within (within_xmAsk _ _) (by decide))
    exact keepsSound_discover _ _
  · exact KeepsSound.refl

theorem keepsSound_startPrefetch (a0 : HostId) (a1 : ℕ) (s : State) : KeepsSound s (startPrefetch a0 a1 s) := by
  unfold startPrefetch
  try dsimp only
  refine KeepsSound.trans ?_ (keepsSound_xmPump _)
  refine KeepsSound.trans ?_ (keepsSound_of_within (within_xmAsk _ _) (by decide))
  refine KeepsSound.trans ?_ (keepsSound_set_xm _ _ (fun h => h) (fun h => h))
  exact keepsSound_of_within (within_State_modHost _ _ _) (by decide)

theorem keepsSound_xmIdxWrite (a0 : HostId) (a1 : Word) (s : State) : KeepsSound s (xmIdxWrite a0 a1 s) := by
  unfold xmIdxWrite
  try dsimp only
  refine keepsSound_ite ?_ ?_
  · exact keepsSound_of_within (within_refuse _ _) (by decide)
  · exact keepsSound_startPrefetch _ _ _

theorem keepsSound_xmAdvance (a0 : HostId) (s : State) : KeepsSound s (xmAdvance a0 s) := by
  unfold xmAdvance
  try dsimp only
  exact keepsSound_startPrefetch _ _ _

theorem keepsSound_readRecord (a0 : ℕ) (s : State) : KeepsSound s (readRecord a0 s) := by
  unfold readRecord
  try dsimp only
  refine keepsSound_ite ?_ ?_
  · refine KeepsSound.trans ?_ (keepsSound_of_within (within_nextCycle _) (by decide))
    refine KeepsSound.trans ?_ (keepsSound_occur _ _ _)
    refine KeepsSound.trans ?_ (keepsSound_set_nvm _ _ (fun h => h) (fun h => h))
    refine keepsSound_ite ?_ ?_
    · refine KeepsSound.trans ?_ (keepsSound_of_within (within_nextCycle _) (by decide))
      refine KeepsSound.trans ?_ (keepsSound_occur _ _ _)
      refine KeepsSound.trans ?_ (keepsSound_set_nvm _ _ (fun h => h) (fun h => h))
      refine keepsSound_ite ?_ ?_
      · exact keepsSound_set_nvm _ _ (fun h => h) (fun h => h)
      · exact KeepsSound.refl
    · refine keepsSound_ite ?_ ?_
      · exact keepsSound_set_nvm _ _ (fun h => h) (fun h => h)
      · exact KeepsSound.refl
  · refine keepsSound_ite ?_ ?_
    · refine KeepsSound.trans ?_ (keepsSound_of_within (within_nextCycle _) (by decide))
      refine KeepsSound.trans ?_ (keepsSound_occur _ _ _)
      refine KeepsSound.trans ?_ (keepsSound_set_nvm _ _ (fun h => h) (fun h => h))
      refine keepsSound_ite ?_ ?_
      · exact keepsSound_set_nvm _ _ (fun h => h) (fun h => h)
      · exact KeepsSound.refl
    · refine keepsSound_ite ?_ ?_
      · exact keepsSound_set_nvm _ _ (fun h => h) (fun h => h)
      · exact KeepsSound.refl

theorem keepsSound_State_modCnt (s : State) (a1 : CntId) (a2 : (SpreadCounter → SpreadCounter)) : KeepsSound s (State.modCnt s a1 a2) := by
  unfold State.modCnt
  try dsimp only
  exact keepsSound_set_nvm _ _ (fun h => h) (fun h => h)

theorem keepsSound_counterCommit (a0 : CntId) (s : State) : KeepsSound s (counterCommit a0 s) := by
  unfold counterCommit
  try dsimp only
  refine keepsSound_ite ?_ ?_
  · split
    · exact keepsSound_nvmRequest _ _
    · exact KeepsSound.refl
  · exact KeepsSound.refl

theorem keepsSound_opScatter (s : State) : KeepsSound s (opScatter s) := by
  unfold opScatter
  try dsimp only
  refine keepsSound_ite ?_ ?_
  · exact KeepsSound.refl
  · exact keepsSound_set_free_nvm _ _ _ (fun h => Store.wf_setMany h _ _) (fun h => h)

theorem keepsSound_copyInvalid (a0 : Nat) (s : State) : KeepsSound s (copyInvalid a0 s) := by
  unfold copyInvalid
  split
  · refine keepsSound_ite ?_ KeepsSound.refl
    exact keepsSound_set_nvm s _ (fun h => Store.wf_set h _ _) (fun h => nvmBounded_of h (List.Sublist.refl _) (fun x => x))
  · exact KeepsSound.refl

theorem keepsSound_opCut (s : State) : KeepsSound s (opCut s) := by
  unfold opCut
  try dsimp only
  refine keepsSound_ite ?_ ?_
  · refine KeepsSound.trans ?_ (keepsSound_copyInvalid _ _)
    exact keepsSound_opScatter _
  · exact keepsSound_opScatter _

theorem keepsSound_hostEnds (a0 : Bool) (s : State) : KeepsSound s (hostEnds a0 s) := by
  unfold hostEnds
  try dsimp only
  exact keepsSound_set_bus_nvm _ _ _ (fun h => h) (fun h => h)

theorem keepsSound_jobStarts (a0 : NvmJob) (s : State) : KeepsSound s (jobStarts a0 s) := by
  unfold jobStarts
  try dsimp only
  split
  · refine KeepsSound.trans ?_ (keepsSound_of_within (within_set_ka _ _) (by decide))
    exact keepsSound_State_modCnt _ _ _
  · exact keepsSound_State_modCnt _ _ _
  · exact KeepsSound.refl

theorem keepsSound_chooseSpare (a0 : NvmJob) (s : State) : KeepsSound s (chooseSpare a0 s) := by
  unfold chooseSpare
  try dsimp only
  split
  · refine keepsSound_ite ?_ ?_
    · split
      · exact keepsSound_State_modCnt _ _ _
      · refine keepsSound_ite ?_ ?_
        · exact keepsSound_State_modCnt _ _ _
        · refine KeepsSound.trans ?_ (keepsSound_occur _ _ _)
          refine KeepsSound.trans ?_ (keepsSound_set_nvm _ _ (fun h => h) (fun h => h))
          exact keepsSound_State_modCnt _ _ _
    · exact keepsSound_State_modCnt _ _ _
  · exact KeepsSound.refl

theorem keepsSound_nvmOperationStart (s : State) : KeepsSound s (nvmOperationStart s) := by
  unfold nvmOperationStart
  try dsimp only
  refine keepsSound_ite ?_ ?_
  · exact KeepsSound.refl
  · split
    · refine KeepsSound.trans ?_ (keepsSound_of_within (within_nvmAsk _) (by decide))
      refine KeepsSound.trans ?_ (keepsSound_of_within (within_releaseLeave _ _) (by decide))
      exact keepsSound_of_within (within_releaseLeave _ _) (by decide)
    · split
      · refine KeepsSound.trans ?_ (keepsSound_of_within (within_nvmAsk _) (by decide))
        refine KeepsSound.trans ?_ (keepsSound_of_within (within_releaseLeave _ _) (by decide))
        refine KeepsSound.trans ?_ (keepsSound_of_within (within_releaseLeave _ _) (by decide))
        refine KeepsSound.trans ?_ (keepsSound_of_within (within_dropLeave _ _) (by decide))
        refine KeepsSound.trans ?_ (keepsSound_of_within (within_dropLeave _ _) (by decide))
        refine KeepsSound.trans ?_ (keepsSound_set_nvm _ _ (fun h => h) (fun h => nvmBounded_of h (by split <;> first | exact List.Sublist.refl _ | exact eraseFirst_sublist _ _) (fun x => by simp at x)))
        exact keepsSound_chooseSpare _ _
      · refine KeepsSound.trans ?_ (keepsSound_jobStarts _ _)
        refine KeepsSound.trans ?_ (keepsSound_set_nvm _ _ (fun h => h) (fun h => h))
        refine KeepsSound.trans ?_ (keepsSound_of_within (within_dropLeave _ _) (by decide))
        refine KeepsSound.trans ?_ (keepsSound_of_within (within_dropLeave _ _) (by decide))
        refine KeepsSound.trans ?_ (keepsSound_set_nvm _ _ (fun h => h) (fun h => nvmBounded_of h (by split <;> first | exact List.Sublist.refl _ | exact eraseFirst_sublist _ _) (fun x => by simp at x)))
        exact keepsSound_chooseSpare _ _

theorem keepsSound_residuePump (s : State) : KeepsSound s (residuePump s) := by
  unfold residuePump
  try dsimp only
  split
  · exact KeepsSound.refl
  · refine keepsSound_ite ?_ ?_
    · exact KeepsSound.refl
    · exact keepsSound_nvmRequest _ _

theorem keepsSound_stalePump (s : State) : KeepsSound s (stalePump s) := by
  unfold stalePump
  try dsimp only
  refine keepsSound_ite ?_ ?_
  · exact keepsSound_nvmRequest _ _
  · exact KeepsSound.refl

theorem keepsSound_readCopy (a0 : ℕ) (s : State) : KeepsSound s (readCopy a0 s) := by
  unfold readCopy
  try dsimp only
  split
  · exact keepsSound_readRecord _ _
  · exact KeepsSound.refl

theorem keepsSound_dropMerged (a0 : ℕ) (s : State) : KeepsSound s (dropMerged a0 s) := by
  unfold dropMerged
  try dsimp only
  exact keepsSound_set_nvm _ _ (fun h => h) (fun h => h)

theorem keepsSound_refreshed (s : State) (a1 : ℕ) : KeepsSound s (refreshed s a1) := by
  unfold refreshed
  try dsimp only
  refine KeepsSound.trans ?_ (keepsSound_occur _ _ _)
  exact keepsSound_set_nvm _ _ (fun h => h) (fun h => h)

theorem keepsSound_recordDone (a0 : ℕ) (s : State) : KeepsSound s (recordDone a0 s) := by
  unfold recordDone
  try dsimp only
  refine KeepsSound.trans ?_ (keepsSound_foldl (fun _ _ => ?_) _ _)
  · refine KeepsSound.trans ?_ (keepsSound_dropMerged _ _)
    exact keepsSound_readRecord _ _
  · exact keepsSound_refreshed _ _

theorem keepsSound_jobDone (a0 : NvmJob) (s : State) : KeepsSound s (jobDone a0 s) := by
  unfold jobDone
  try dsimp only
  split
  · exact keepsSound_recordDone _ _
  · exact keepsSound_State_modCnt _ _ _
  · refine KeepsSound.trans ?_ (keepsSound_nvmRequest _ _)
    refine KeepsSound.trans ?_ (keepsSound_State_modCnt _ _ _)
    exact keepsSound_recordDone _ _
  · refine KeepsSound.trans ?_ (keepsSound_nvmRequest _ _)
    exact keepsSound_State_modCnt _ _ _
  · exact keepsSound_State_modCnt _ _ _
  · refine KeepsSound.trans ?_ (keepsSound_nvmRequest _ _)
    exact keepsSound_State_modCnt _ _ _
  · exact keepsSound_State_modCnt _ _ _
  · exact KeepsSound.refl
  · refine KeepsSound.trans ?_ (keepsSound_refreshed _ _)
    split
    · exact keepsSound_recordDone _ _
    · exact keepsSound_readCopy _ _
  · exact keepsSound_set_nvm _ _ (fun h => h) (fun h => h)
  · exact keepsSound_set_nvm _ _ (fun h => h) (fun h => h)
  · exact keepsSound_set_nvm _ _ (fun h => h) (fun h => h)
  · exact keepsSound_set_nvm _ _ (fun h => h) (fun h => h)
  · exact keepsSound_readRecord _ _
  · exact keepsSound_readRecord _ _

theorem keepsSound_jobFailed (a0 : NvmJob) (s : State) : KeepsSound s (jobFailed a0 s) := by
  unfold jobFailed
  try dsimp only
  split
  · refine KeepsSound.trans ?_ (keepsSound_readRecord _ _)
    exact keepsSound_dropMerged _ _
  · exact keepsSound_State_modCnt _ _ _
  · refine KeepsSound.trans ?_ (keepsSound_readRecord _ _)
    refine KeepsSound.trans ?_ (keepsSound_State_modCnt _ _ _)
    exact keepsSound_dropMerged _ _
  · exact keepsSound_readRecord _ _
  · exact keepsSound_readRecord _ _
  · exact keepsSound_set_nvm _ _ (fun h => h) (fun h => h)
  · refine KeepsSound.trans ?_ (keepsSound_readCopy _ _)
    split
    · exact keepsSound_dropMerged _ _
    · exact KeepsSound.refl
  · exact KeepsSound.refl

theorem keepsSound_nvmOperationDone (a0 : Bool) (s : State) : KeepsSound s (nvmOperationDone a0 s) := by
  unfold nvmOperationDone
  try dsimp only
  split
  · exact KeepsSound.refl
  · refine keepsSound_ite ?_ ?_
    · exact keepsSound_set_nvm _ _ (fun h => h) (fun h => h)
    · refine KeepsSound.trans ?_ (keepsSound_of_within (within_pfAssemble _) (by decide))
      refine KeepsSound.trans ?_ (keepsSound_of_within (within_nvmAsk _) (by decide))
      refine KeepsSound.trans ?_ (keepsSound_stalePump _)
      refine KeepsSound.trans ?_ (keepsSound_residuePump _)
      refine keepsSound_ite ?_ ?_
      · refine KeepsSound.trans ?_ (keepsSound_jobDone _ _)
        refine keepsSound_ite ?_ ?_
        · refine KeepsSound.trans ?_ (keepsSound_hostEnds _ _)
          refine KeepsSound.trans ?_ (keepsSound_set_nvm _ _ (fun h => opEffect_wf h) (fun h => h))
          refine KeepsSound.trans ?_ (keepsSound_of_within (within_releaseLeave _ _) (by decide))
          exact keepsSound_of_within (within_releaseLeave _ _) (by decide)
        · refine KeepsSound.trans ?_ (keepsSound_set_nvm _ _ (fun h => opEffect_wf h) (fun h => h))
          refine KeepsSound.trans ?_ (keepsSound_of_within (within_releaseLeave _ _) (by decide))
          exact keepsSound_of_within (within_releaseLeave _ _) (by decide)
      · refine KeepsSound.trans ?_ (keepsSound_jobFailed _ _)
        refine KeepsSound.trans ?_ (keepsSound_occur _ _ _)
        refine KeepsSound.trans ?_ (keepsSound_set_nvm _ _ (fun h => h) (fun h => h))
        refine keepsSound_ite ?_ ?_
        · refine KeepsSound.trans ?_ (keepsSound_hostEnds _ _)
          refine KeepsSound.trans ?_ (keepsSound_set_nvm _ _ (fun h => h) (fun h => h))
          refine KeepsSound.trans ?_ (keepsSound_opScatter _)
          refine KeepsSound.trans ?_ (keepsSound_of_within (within_releaseLeave _ _) (by decide))
          exact keepsSound_of_within (within_releaseLeave _ _) (by decide)
        · refine KeepsSound.trans ?_ (keepsSound_set_nvm _ _ (fun h => h) (fun h => h))
          refine KeepsSound.trans ?_ (keepsSound_opScatter _)
          refine KeepsSound.trans ?_ (keepsSound_of_within (within_releaseLeave _ _) (by decide))
          exact keepsSound_of_within (within_releaseLeave _ _) (by decide)

theorem keepsSound_recordRetry (a0 : Fin 81) (s : State) : KeepsSound s (recordRetry a0 s) := by
  unfold recordRetry
  try dsimp only
  split
  · exact KeepsSound.refl
  · refine KeepsSound.trans ?_ (keepsSound_nvmRequest _ _)
    exact keepsSound_set_nvm _ _ (fun h => h) (fun h => h)

theorem keepsSound_marginRead (a0 : Bool) (s : State) : KeepsSound s (marginRead a0 s) := by
  unfold marginRead
  try dsimp only
  refine keepsSound_ite ?_ ?_
  · refine keepsSound_ite ?_ ?_
    · exact keepsSound_set_nvm _ _ (fun h => h) (fun h => h)
    · refine keepsSound_ite ?_ ?_
      · refine KeepsSound.trans ?_ (keepsSound_nvmRequest _ _)
        exact keepsSound_set_nvm _ _ (fun h => h) (fun h => h)
      · refine keepsSound_ite ?_ ?_
        · refine KeepsSound.trans ?_ (keepsSound_occur _ _ _)
          exact keepsSound_set_nvm _ _ (fun h => h) (fun h => h)
        · exact keepsSound_set_nvm _ _ (fun h => h) (fun h => h)
  · exact KeepsSound.refl

theorem keepsSound_nvmFull (s : State) : KeepsSound s (nvmFull s) := by
  unfold nvmFull
  try dsimp only
  exact keepsSound_set_nvm _ _ (fun h => h) (fun h => h)

theorem keepsSound_nvmRefuse (a0 : HostId) (a1 : ℕ) (s : State) : KeepsSound s (nvmRefuse a0 a1 s) := by
  unfold nvmRefuse
  try dsimp only
  refine KeepsSound.trans ?_ (keepsSound_of_within (within_refuse _ _) (by decide))
  exact keepsSound_set_nvm _ _ (fun h => h) (fun h => h)

theorem keepsSound_flushCounters (s : State) : KeepsSound s (flushCounters s) := by
  unfold flushCounters
  try dsimp only
  refine KeepsSound.trans ?_ (keepsSound_foldl (fun _ _ => ?_) _ _)
  · exact KeepsSound.refl
  · refine keepsSound_ite ?_ ?_
    · refine KeepsSound.trans ?_ (keepsSound_counterCommit _ _)
      exact keepsSound_State_modCnt _ _ _
    · exact KeepsSound.refl

theorem keepsSound_nvmCmd (a0 : HostId) (a1 a2 : Nat) (s : State) : KeepsSound s (nvmCmd a0 a1 a2 s) := by
  unfold nvmCmd
  dsimp only
  refine keepsSound_ite (keepsSound_of_within (within_refuse _ _) (by decide)) ?_
  split
  · exact keepsSound_nvmRefuse _ _ _
  · rename_i hj
    split
    · exact (keepsSound_nvmRefuse _ _ _).trans (keepsSound_nvmFull _)
    · rename_i hf
      have accept : ∀ j : NvmJob, ∀ b : Bus, KeepsSound s (nvmAsk { recordEntry 3 (word (a1 + 16 * a2)) a0 s with
          nvm := { (recordEntry 3 (word (a1 + 16 * a2)) a0 s).nvm with hostJob := some j, hostState := .waiting, hostResult := 0, hostB := a0 == .b }
          bus := b }) := fun j b => by
        have hn : (recordEntry 3 (word (a1 + 16 * a2)) a0 s).nvm = s.nvm := within_recordEntry _ _ _ _ .nvm (by decide)
        refine KeepsSound.trans ?_ (keepsSound_of_within (within_nvmAsk _) (by decide))
        refine (keepsSound_recordEntry _ _ _ _).trans (keepsSound_set_bus_nvm _ _ _ (fun h => h) (fun h => ⟨?_, h.2⟩))
        have : s.nvm.hostJob = none := by
          cases hh : s.nvm.hostJob with
          | none => rfl
          | some x => simp [hh] at hj
        rw [hn]
        simp only [nvmFill, this, Option.isSome_none, Option.isSome_some, if_true] at hf ⊢
        simp at hf
        omega
      refine keepsSound_ite (keepsSound_nvmRefuse _ _ _) (keepsSound_ite (keepsSound_nvmRefuse _ _ _) (keepsSound_ite (keepsSound_nvmRefuse _ _ _) ?_))
      split
      · exact keepsSound_ite (accept _ _) (keepsSound_nvmRefuse _ _ _)
      · exact accept _ _
      · exact accept _ _
      · refine KeepsSound.trans ?_ (keepsSound_flushCounters _)
        exact (keepsSound_recordEntry _ _ _ _).trans
          (keepsSound_set_nvm _ _ (fun h => h) (fun h => nvmBounded_of h (List.Sublist.refl _) (fun x => x)))

theorem keepsSound_nvmDataWrite (a0 : HostId) (a1 : Word) (s : State) : KeepsSound s (nvmDataWrite a0 a1 s) := by
  unfold nvmDataWrite
  try dsimp only
  refine keepsSound_ite ?_ ?_
  · refine KeepsSound.trans ?_ (keepsSound_of_within (within_State_modHost _ _ _) (by decide))
    exact keepsSound_set_nvm _ _ (fun h => h) (fun h => h)
  · exact keepsSound_of_within (within_refuse _ _) (by decide)

theorem keepsSound_writeResidue (s : State) : KeepsSound s (writeResidue s) := by
  unfold writeResidue
  try dsimp only
  refine KeepsSound.trans ?_ (keepsSound_residuePump _)
  exact keepsSound_set_nvm_ka _ _ _ (fun h => h) (fun h => nvmBounded_of h List.filter_sublist (fun x => x))

theorem keepsSound_recoverCounter (s : State) (a1 : CntId) : KeepsSound s (recoverCounter s a1) := by
  unfold recoverCounter
  try dsimp only
  refine keepsSound_ite ?_ ?_
  · refine KeepsSound.trans ?_ (keepsSound_State_modCnt _ _ _)
    refine keepsSound_ite ?_ ?_
    · refine KeepsSound.trans ?_ (keepsSound_nvmRequest _ _)
      refine KeepsSound.trans ?_ (keepsSound_of_within (within_nextCycle _) (by decide))
      refine KeepsSound.trans ?_ (keepsSound_occur _ _ _)
      refine KeepsSound.trans ?_ (keepsSound_State_modCnt _ _ _)
      exact keepsSound_readRecord _ _
    · exact keepsSound_readRecord _ _
  · refine keepsSound_ite ?_ ?_
    · split
      · refine KeepsSound.trans ?_ (keepsSound_nvmRequest _ _)
        refine KeepsSound.trans ?_ (keepsSound_of_within (within_nextCycle _) (by decide))
        refine KeepsSound.trans ?_ (keepsSound_occur _ _ _)
        refine KeepsSound.trans ?_ (keepsSound_State_modCnt _ _ _)
        refine keepsSound_ite ?_ ?_
        · refine KeepsSound.trans ?_ (keepsSound_nvmRequest _ _)
          refine KeepsSound.trans ?_ (keepsSound_of_within (within_nextCycle _) (by decide))
          refine KeepsSound.trans ?_ (keepsSound_occur _ _ _)
          refine KeepsSound.trans ?_ (keepsSound_State_modCnt _ _ _)
          exact keepsSound_readRecord _ _
        · exact keepsSound_readRecord _ _
      · refine KeepsSound.trans ?_ (keepsSound_of_within (within_nextCycle _) (by decide))
        refine KeepsSound.trans ?_ (keepsSound_occur _ _ _)
        refine KeepsSound.trans ?_ (keepsSound_State_modCnt _ _ _)
        refine keepsSound_ite ?_ ?_
        · refine KeepsSound.trans ?_ (keepsSound_nvmRequest _ _)
          refine KeepsSound.trans ?_ (keepsSound_of_within (within_nextCycle _) (by decide))
          refine KeepsSound.trans ?_ (keepsSound_occur _ _ _)
          refine KeepsSound.trans ?_ (keepsSound_State_modCnt _ _ _)
          exact keepsSound_readRecord _ _
        · exact keepsSound_readRecord _ _
    · refine keepsSound_ite ?_ ?_
      · split
        · refine KeepsSound.trans ?_ (keepsSound_nvmRequest _ _)
          refine KeepsSound.trans ?_ (keepsSound_of_within (within_nextCycle _) (by decide))
          refine KeepsSound.trans ?_ (keepsSound_occur _ _ _)
          refine KeepsSound.trans ?_ (keepsSound_State_modCnt _ _ _)
          refine keepsSound_ite ?_ ?_
          · refine KeepsSound.trans ?_ (keepsSound_nvmRequest _ _)
            refine KeepsSound.trans ?_ (keepsSound_of_within (within_nextCycle _) (by decide))
            refine KeepsSound.trans ?_ (keepsSound_occur _ _ _)
            refine KeepsSound.trans ?_ (keepsSound_State_modCnt _ _ _)
            exact keepsSound_readRecord _ _
          · exact keepsSound_readRecord _ _
        · refine KeepsSound.trans ?_ (keepsSound_of_within (within_nextCycle _) (by decide))
          refine KeepsSound.trans ?_ (keepsSound_occur _ _ _)
          refine KeepsSound.trans ?_ (keepsSound_State_modCnt _ _ _)
          refine keepsSound_ite ?_ ?_
          · refine KeepsSound.trans ?_ (keepsSound_nvmRequest _ _)
            refine KeepsSound.trans ?_ (keepsSound_of_within (within_nextCycle _) (by decide))
            refine KeepsSound.trans ?_ (keepsSound_occur _ _ _)
            refine KeepsSound.trans ?_ (keepsSound_State_modCnt _ _ _)
            exact keepsSound_readRecord _ _
          · exact keepsSound_readRecord _ _
      · refine keepsSound_ite ?_ ?_
        · refine KeepsSound.trans ?_ (keepsSound_nvmRequest _ _)
          refine KeepsSound.trans ?_ (keepsSound_of_within (within_nextCycle _) (by decide))
          refine KeepsSound.trans ?_ (keepsSound_occur _ _ _)
          refine KeepsSound.trans ?_ (keepsSound_State_modCnt _ _ _)
          refine keepsSound_ite ?_ ?_
          · refine KeepsSound.trans ?_ (keepsSound_nvmRequest _ _)
            refine KeepsSound.trans ?_ (keepsSound_of_within (within_nextCycle _) (by decide))
            refine KeepsSound.trans ?_ (keepsSound_occur _ _ _)
            refine KeepsSound.trans ?_ (keepsSound_State_modCnt _ _ _)
            exact keepsSound_readRecord _ _
          · exact keepsSound_readRecord _ _
        · refine KeepsSound.trans ?_ (keepsSound_nvmRequest _ _)
          refine KeepsSound.trans ?_ (keepsSound_of_within (within_nextCycle _) (by decide))
          refine KeepsSound.trans ?_ (keepsSound_occur _ _ _)
          refine KeepsSound.trans ?_ (keepsSound_State_modCnt _ _ _)
          refine keepsSound_ite ?_ ?_
          · refine KeepsSound.trans ?_ (keepsSound_nvmRequest _ _)
            refine KeepsSound.trans ?_ (keepsSound_of_within (within_nextCycle _) (by decide))
            refine KeepsSound.trans ?_ (keepsSound_occur _ _ _)
            refine KeepsSound.trans ?_ (keepsSound_State_modCnt _ _ _)
            exact keepsSound_readRecord _ _
          · exact keepsSound_readRecord _ _

theorem keepsSound_recoverResidue (a0 : Bool) (s : State) : KeepsSound s (recoverResidue a0 s) := by
  unfold recoverResidue
  try dsimp only
  refine keepsSound_ite ?_ ?_
  · refine KeepsSound.trans ?_ (keepsSound_stalePump _)
    exact keepsSound_set_nvm_ka _ _ _ (fun h => h) (fun h => h)
  · refine keepsSound_ite ?_ ?_
    · refine KeepsSound.trans ?_ (keepsSound_stalePump _)
      refine KeepsSound.trans ?_ (keepsSound_set_nvm _ _ (fun h => h) (fun h => h))
      refine keepsSound_ite ?_ ?_
      · exact KeepsSound.refl
      · refine KeepsSound.trans ?_ (keepsSound_of_within (within_nextCycle _) (by decide))
        refine KeepsSound.trans ?_ (keepsSound_occur _ _ _)
        exact keepsSound_set_nvm_ka _ _ _ (fun h => h) (fun h => h)
    · refine keepsSound_ite ?_ ?_
      · exact KeepsSound.refl
      · refine KeepsSound.trans ?_ (keepsSound_of_within (within_nextCycle _) (by decide))
        refine KeepsSound.trans ?_ (keepsSound_occur _ _ _)
        exact keepsSound_set_nvm_ka _ _ _ (fun h => h) (fun h => h)

theorem keepsSound_enterFaultPage (s : State) (a1 : ℕ) : KeepsSound s (enterFaultPage s a1) := by
  unfold enterFaultPage
  try dsimp only
  refine keepsSound_ite ?_ ?_
  · exact KeepsSound.refl
  · refine KeepsSound.trans ?_ (keepsSound_nvmRequest _ _)
    refine KeepsSound.trans ?_ (keepsSound_of_within (within_nextCycle _) (by decide))
    refine keepsSound_ite ?_ ?_
    · refine KeepsSound.trans ?_ (keepsSound_occur _ _ _)
      refine KeepsSound.trans ?_ (keepsSound_of_within (within_set_pwr _ _) (by decide))
      refine KeepsSound.trans ?_ (keepsSound_enqueue _ _)
      refine KeepsSound.trans ?_ (keepsSound_enqueue _ _)
      exact keepsSound_enqueue _ _
    · refine KeepsSound.trans ?_ (keepsSound_occur _ _ _)
      refine KeepsSound.trans ?_ (keepsSound_enqueue _ _)
      refine KeepsSound.trans ?_ (keepsSound_enqueue _ _)
      exact keepsSound_enqueue _ _

theorem keepsSound_recoverFaultPages (s : State) : KeepsSound s (recoverFaultPages s) := by
  unfold recoverFaultPages
  try dsimp only
  refine keepsSound_ite ?_ ?_
  · refine KeepsSound.trans ?_ (keepsSound_of_within (within_nextCycle _) (by decide))
    refine KeepsSound.trans ?_ (keepsSound_occur _ _ _)
    refine KeepsSound.trans ?_ (keepsSound_of_within (within_set_ka _ _) (by decide))
    refine keepsSound_ite ?_ ?_
    · refine KeepsSound.trans ?_ (keepsSound_enterFaultPage _ _)
      exact keepsSound_enterFaultPage _ _
    · refine KeepsSound.trans ?_ (keepsSound_enterFaultPage _ _)
      exact keepsSound_enterFaultPage _ _
  · refine keepsSound_ite ?_ ?_
    · refine KeepsSound.trans ?_ (keepsSound_enterFaultPage _ _)
      exact keepsSound_enterFaultPage _ _
    · refine KeepsSound.trans ?_ (keepsSound_enterFaultPage _ _)
      exact keepsSound_enterFaultPage _ _

theorem wf_foldl_set (l : List (Nat × Nat × Nat)) (c : Store 32) (h : Store.wf 0 c = true) :
    Store.wf 0 (l.foldl (fun c x => Store.set 0 c x.1 (word x.2.2)) c) = true := by
  induction l generalizing c with
  | nil => exact h
  | cons x l ih => exact ih _ (Store.wf_set h _ _)

theorem keepsSound_loadImage (a0 : ImageData) (s : State) : KeepsSound s (loadImage a0 s) := by
  refine ⟨?_, fun h => h⟩
  rintro ⟨_, _, _, _, h4, h5, h6⟩
  exact ⟨wf_foldl_set _ _ rfl, Store.wf_ofList _ _, Store.wf_ofList _ _, Store.wf_ofList _ _, h4, h5, h6⟩

theorem keepsSound_replEnds (a0 : ReplState) (a1 : ℕ) (a2 : Bool) (s : State) : KeepsSound s (replEnds a0 a1 a2 s) := by
  unfold replEnds
  try dsimp only
  refine KeepsSound.trans ?_ (keepsSound_occur _ _ _)
  exact keepsSound_of_within (within_set_ldr _ _) (by decide)

theorem keepsSound_replAbort (s : State) : KeepsSound s (replAbort s) := by
  unfold replAbort
  try dsimp only
  refine keepsSound_ite ?_ ?_
  · exact keepsSound_replEnds _ _ _ _
  · exact KeepsSound.refl

theorem keepsSound_endArm (a0 : ℕ) (s : State) : KeepsSound s (endArm a0 s) := by
  unfold endArm
  try dsimp only
  refine keepsSound_ite ?_ ?_
  · refine KeepsSound.trans ?_ (keepsSound_replAbort _)
    refine KeepsSound.trans ?_ (keepsSound_occur _ _ _)
    exact keepsSound_of_within (within_set_ka _ _) (by decide)
  · exact KeepsSound.refl

theorem keepsSound_replAbortCmd (a0 : HostId) (s : State) : KeepsSound s (replAbortCmd a0 s) := by
  unfold replAbortCmd
  try dsimp only
  refine keepsSound_ite ?_ ?_
  · exact keepsSound_replAbort _
  · exact keepsSound_of_within (within_refuse _ _) (by decide)

theorem keepsSound_imgCtlWrite (a0 : HostId) (a1 : Word) (a2 : Bool) (s : State) : KeepsSound s (imgCtlWrite a0 a1 a2 s) := by
  unfold imgCtlWrite
  try dsimp only
  refine keepsSound_ite ?_ ?_
  · exact keepsSound_of_within (within_refuse _ _) (by decide)
  · split
    · exact keepsSound_of_within (within_replBegin _ _ _ _) (by decide)
    · exact keepsSound_of_within (within_replCommit _ _) (by decide)
    · exact keepsSound_replAbortCmd _ _
    · exact keepsSound_of_within (within_refuse _ _) (by decide)

theorem keepsSound_replHeader (s : State) : KeepsSound s (replHeader s) := by
  unfold replHeader
  try dsimp only
  refine keepsSound_ite ?_ ?_
  · exact KeepsSound.refl
  · exact keepsSound_replEnds _ _ _ _

theorem keepsSound_imgData (a0 : HostId) (a1 : Word) (s : State) : KeepsSound s (imgData a0 a1 s) := by
  unfold imgData
  try dsimp only
  refine keepsSound_ite ?_ ?_
  · exact keepsSound_of_within (within_refuse _ _) (by decide)
  · refine keepsSound_ite ?_ ?_
    · refine KeepsSound.trans ?_ (keepsSound_replHeader _)
      exact keepsSound_of_within (within_set_ldr _ _) (by decide)
    · exact keepsSound_of_within (within_set_ldr _ _) (by decide)

theorem keepsSound_busLosses (a0 : ℕ) (s : State) : KeepsSound s (busLosses a0 s) := by
  unfold busLosses
  try dsimp only
  refine KeepsSound.trans ?_ (keepsSound_lossEvents _ _)
  exact keepsSound_of_within (within_set_ldr _ _) (by decide)

theorem keepsSound_busStuck (a0 : EepromAnswer) (s : State) : KeepsSound s (busStuck a0 s) := by
  unfold busStuck
  try dsimp only
  split
  · exact keepsSound_bootEvent _ _ _
  · exact KeepsSound.refl

theorem keepsSound_eepromPageWrite (a0 : EepromAnswer) (a1 : ℕ) (s : State) : KeepsSound s (eepromPageWrite a0 a1 s) := by
  unfold eepromPageWrite
  try dsimp only
  refine keepsSound_ite ?_ ?_
  · exact KeepsSound.refl
  · split
    · exact KeepsSound.refl
    · refine keepsSound_ite ?_ ?_
      · refine KeepsSound.trans ?_ (keepsSound_of_within (within_imgDone _ _) (by decide))
        refine KeepsSound.trans ?_ (keepsSound_of_within (within_imgTaken _ _) (by decide))
        refine KeepsSound.trans ?_ (keepsSound_set_eeprom _ _ (fun h => Store.wf_setMany h _ _))
        exact keepsSound_busLosses _ _
      · refine keepsSound_ite ?_ ?_
        · refine KeepsSound.trans ?_ (keepsSound_replEnds _ _ _ _)
          refine KeepsSound.trans ?_ (keepsSound_busStuck _ _)
          refine KeepsSound.trans ?_ (keepsSound_set_free_eeprom_ldr _ _ _ _ (fun h => Store.wf_setMany h _ _))
          exact keepsSound_busLosses _ _
        · refine KeepsSound.trans ?_ (keepsSound_busStuck _ _)
          refine KeepsSound.trans ?_ (keepsSound_set_free_eeprom_ldr _ _ _ _ (fun h => Store.wf_setMany h _ _))
          exact keepsSound_busLosses _ _

theorem keepsSound_imgPump (s : State) : KeepsSound s (imgPump s) := by
  unfold imgPump
  split
  · rename_i hd
    have hc : s.xm.bursts.length < 4 := by
      simp only [spareCredits, credits, Bool.and_eq_true] at hd
      have := of_decide_eq_true hd.2
      omega
    split
    · exact KeepsSound.refl
    · exact (keepsSound_stageBurst _ _ hc).trans (keepsSound_of_within (within_imgTaken _ _) (by decide))
  · exact KeepsSound.refl

theorem keepsSound_xmemBurstDone (s : State) : KeepsSound s (xmemBurstDone s) := by
  unfold xmemBurstDone
  split
  · split
    · exact KeepsSound.refl
    · rename_i b rest hq
      refine KeepsSound.trans ?_ (keepsSound_of_within (within_xmAsk _ _) (by decide))
      refine KeepsSound.trans ?_ (keepsSound_imgPump _)
      refine KeepsSound.trans ?_ (keepsSound_xmPump _)
      refine KeepsSound.trans ?_ (keepsSound_nextBegins _)
      refine KeepsSound.trans ?_ (keepsSound_of_within (within_imgBurstDone _ _) (by decide))
      refine KeepsSound.trans ?_ (keepsSound_burstEffect _ _)
      refine keepsSound_set_xm _ _ (fun h => h) (fun h => ?_)
      split at hq
      · cases hq
      · rw [hq, List.length_cons] at h
        exact Nat.le_of_succ_le h
  · exact KeepsSound.refl

theorem keepsSound_drawArbiterSample (a0 : ℕ) (s : State) : KeepsSound s (drawArbiterSample a0 s) := by
  unfold drawArbiterSample
  try dsimp only
  refine KeepsSound.trans ?_ (keepsSound_imgPump _)
  refine KeepsSound.trans ?_ (keepsSound_xmPump _)
  refine KeepsSound.trans ?_ (keepsSound_of_within (within_drawSample _ _) (by decide))
  refine keepsSound_ite ?_ ?_
  · exact keepsSound_of_within (within_xmAsk _ _) (by decide)
  · exact KeepsSound.refl

theorem keepsSound_replacementCheckDone (a0 : EepromAnswer) (a1 : ℕ) (s : State) : KeepsSound s (replacementCheckDone a0 a1 s) := by
  unfold replacementCheckDone
  try dsimp only
  refine keepsSound_ite ?_ ?_
  · split
    · refine KeepsSound.trans ?_ (keepsSound_occur _ _ _)
      refine KeepsSound.trans ?_ (keepsSound_of_within (within_set_ldr _ _) (by decide))
      refine keepsSound_ite ?_ ?_
      · exact KeepsSound.refl
      · refine KeepsSound.trans ?_ (keepsSound_busStuck _ _)
        exact keepsSound_busLosses _ _
    · refine KeepsSound.trans ?_ (keepsSound_replEnds _ _ _ _)
      refine keepsSound_ite ?_ ?_
      · exact KeepsSound.refl
      · refine KeepsSound.trans ?_ (keepsSound_busStuck _ _)
        exact keepsSound_busLosses _ _
  · exact KeepsSound.refl

theorem keepsSound_snapshotCut (s : State) : KeepsSound s (snapshotCut s) := by
  unfold snapshotCut
  try dsimp only
  refine keepsSound_ite ?_ ?_
  · exact keepsSound_set_free_nvm _ _ _ (fun h => Store.wf_setMany h _ _) (fun h => h)
  · exact KeepsSound.refl

theorem keepsSound_snapshotReset (a0 : ℕ) (s : State) : KeepsSound s (snapshotReset a0 s) := by
  unfold snapshotReset
  try dsimp only
  refine keepsSound_ite ?_ ?_
  · exact keepsSound_opCut _
  · refine keepsSound_ite ?_ ?_
    · refine keepsSound_ite ?_ ?_
      · exact keepsSound_opCut _
      · exact keepsSound_snapshotCut _
    · refine KeepsSound.trans ?_ (keepsSound_set_nvm _ _ (fun h => progBytes_wf h _ _ _) (fun h => h))
      refine KeepsSound.trans ?_ (keepsSound_of_within (within_pfAssemble _) (by decide))
      refine keepsSound_ite ?_ ?_
      · exact keepsSound_set_nvm _ _ (fun h => opEffect_wf h) (fun h => h)
      · exact KeepsSound.refl

theorem keepsSound_clearDevice (a0 : Phase) (s : State) : KeepsSound s (clearDevice a0 s) := by
  constructor
  · rintro ⟨_, _, _, _, h4, h5, h6⟩
    exact ⟨rfl, rfl, rfl, rfl, h4, h5, h6⟩
  · intro h
    exact ⟨Nat.zero_le _, ⟨Nat.zero_le _, Nat.zero_le _⟩, Nat.zero_le _, Nat.zero_le _, Nat.zero_le _, List.nodup_nil⟩

theorem keepsSound_inBrumation (s : State) : KeepsSound s (inBrumation s) := by
  unfold inBrumation
  try dsimp only
  refine KeepsSound.trans ?_ (keepsSound_clearDevice _ _)
  exact keepsSound_of_within (within_set_pwr _ _) (by decide)

theorem keepsSound_resetDevice (a0 : ℕ) (a1 : ℕ) (s : State) : KeepsSound s (resetDevice a0 a1 s) := by
  unfold resetDevice
  try dsimp only
  refine keepsSound_ite ?_ ?_
  · refine KeepsSound.trans ?_ (keepsSound_inBrumation _)
    refine KeepsSound.trans ?_ (keepsSound_snapshotReset _ _)
    refine KeepsSound.trans ?_ (keepsSound_burstCut _)
    exact keepsSound_of_within (within_runSettle _) (by decide)
  · refine KeepsSound.trans ?_ (keepsSound_of_within (within_set_pwr _ _) (by decide))
    refine KeepsSound.trans ?_ (keepsSound_clearDevice _ _)
    refine KeepsSound.trans ?_ (keepsSound_of_within (within_set_ka _ _) (by decide))
    refine KeepsSound.trans ?_ (keepsSound_snapshotReset _ _)
    refine KeepsSound.trans ?_ (keepsSound_burstCut _)
    exact keepsSound_of_within (within_runSettle _) (by decide)

theorem keepsSound_monitorReset (a0 : ℕ) (a1 : ℕ) (s : State) : KeepsSound s (monitorReset a0 a1 s) := by
  unfold monitorReset
  try dsimp only
  refine keepsSound_ite ?_ ?_
  · exact keepsSound_resetDevice _ _ _
  · exact KeepsSound.refl

theorem keepsSound_vsupReset (a0 : ℕ) (s : State) : KeepsSound s (vsupReset a0 s) := by
  unfold vsupReset
  try dsimp only
  exact keepsSound_monitorReset _ _ _

theorem keepsSound_vioReset (a0 : ℕ) (s : State) : KeepsSound s (vioReset a0 s) := by
  unfold vioReset
  try dsimp only
  exact keepsSound_monitorReset _ _ _

theorem keepsSound_coreSupplyReset (a0 : ℕ) (s : State) : KeepsSound s (coreSupplyReset a0 s) := by
  unfold coreSupplyReset
  try dsimp only
  refine keepsSound_ite ?_ ?_
  · exact KeepsSound.refl
  · exact keepsSound_monitorReset _ _ _

theorem keepsSound_clockFault (a0 : ClockFault) (a1 : ℕ) (s : State) : KeepsSound s (clockFault a0 a1 s) := by
  unfold clockFault
  try dsimp only
  refine keepsSound_ite ?_ ?_
  · exact KeepsSound.refl
  · refine keepsSound_ite ?_ ?_
    · refine KeepsSound.trans ?_ (keepsSound_of_within (within_set_ka _ _) (by decide))
      exact keepsSound_resetDevice _ _ _
    · exact keepsSound_resetDevice _ _ _

theorem keepsSound_keepaliveWake (s : State) : KeepsSound s (keepaliveWake s) := by
  unfold keepaliveWake
  try dsimp only
  refine keepsSound_ite ?_ ?_
  · exact keepsSound_resetDevice _ _ _
  · exact KeepsSound.refl

theorem keepsSound_pinReset (a0 : ℕ) (s : State) : KeepsSound s (pinReset a0 s) := by
  unfold pinReset
  try dsimp only
  refine keepsSound_ite ?_ ?_
  · exact keepsSound_resetDevice _ _ _
  · exact keepsSound_monitorReset _ _ _

theorem keepsSound_resetNLow (a0 : ℕ) (s : State) : KeepsSound s (resetNLow a0 s) := by
  unfold resetNLow
  try dsimp only
  refine KeepsSound.trans ?_ (keepsSound_of_within (within_set_tap _ _) (by decide))
  refine keepsSound_ite ?_ ?_
  · exact keepsSound_pinReset _ _
  · exact KeepsSound.refl

theorem keepsSound_rstCmdWrite (a0 : HostId) (a1 : Word) (s : State) : KeepsSound s (rstCmdWrite a0 a1 s) := by
  unfold rstCmdWrite
  try dsimp only
  refine keepsSound_ite ?_ ?_
  · exact keepsSound_resetDevice _ _ _
  · exact keepsSound_of_within (within_refuse _ _) (by decide)

theorem keepsSound_vsupWarningClear (s : State) : KeepsSound s (vsupWarningClear s) := by
  unfold vsupWarningClear
  try dsimp only
  refine keepsSound_ite ?_ ?_
  · refine keepsSound_ite ?_ ?_
    · refine KeepsSound.trans ?_ (keepsSound_occur _ _ _)
      refine KeepsSound.trans ?_ (keepsSound_of_within (within_set_pwr _ _) (by decide))
      refine keepsSound_ite ?_ ?_
      · refine KeepsSound.trans ?_ (keepsSound_nextBegins _)
        exact keepsSound_of_within (within_set_pwr _ _) (by decide)
      · exact keepsSound_of_within (within_set_pwr _ _) (by decide)
    · exact keepsSound_of_within (within_set_pwr _ _) (by decide)
  · exact KeepsSound.refl

theorem keepsSound_pfCommit (s : State) : KeepsSound s (pfCommit s) := by
  unfold pfCommit
  try dsimp only
  refine keepsSound_ite ?_ ?_
  · refine KeepsSound.trans ?_ (keepsSound_of_within (within_pfAssemble _) (by decide))
    exact keepsSound_of_within (within_set_pwr _ _) (by decide)
  · exact keepsSound_set_nvm_ka _ _ _ (fun h => h) (fun h => h)

theorem keepsSound_powerFail (s : State) : KeepsSound s (powerFail s) := by
  unfold powerFail
  try dsimp only
  refine keepsSound_ite ?_ ?_
  · refine keepsSound_ite ?_ ?_
    · exact keepsSound_of_within (within_set_pwr _ _) (by decide)
    · refine keepsSound_ite ?_ ?_
      · exact keepsSound_of_within (within_set_pwr _ _) (by decide)
      · refine KeepsSound.trans ?_ (keepsSound_pfCommit _)
        exact keepsSound_of_within (within_set_pwr _ _) (by decide)
  · exact KeepsSound.refl

theorem keepsSound_snapshotEnds (s : State) : KeepsSound s (snapshotEnds s) := by
  unfold snapshotEnds
  try dsimp only
  refine keepsSound_ite ?_ ?_
  · refine KeepsSound.trans ?_ (keepsSound_pfCommit _)
    exact keepsSound_of_within (within_set_pwr _ _) (by decide)
  · exact keepsSound_of_within (within_set_pwr _ _) (by decide)

theorem keepsSound_snapshotComplete (a0 : Bool) (s : State) : KeepsSound s (snapshotComplete a0 s) := by
  unfold snapshotComplete
  try dsimp only
  refine keepsSound_ite ?_ ?_
  · refine keepsSound_ite ?_ ?_
    · refine KeepsSound.trans ?_ (keepsSound_occur _ _ _)
      refine KeepsSound.trans ?_ (keepsSound_snapshotEnds _)
      refine KeepsSound.trans ?_ (keepsSound_set_pwr_nvm _ _ _ (fun h => progBytes_wf h _ _ _) (fun h => h))
      exact keepsSound_of_within (within_pfAssemble _) (by decide)
    · refine keepsSound_ite ?_ ?_
      · refine KeepsSound.trans ?_ (keepsSound_occur _ _ _)
        refine KeepsSound.trans ?_ (keepsSound_set_nvm _ _ (fun h => h) (fun h => h))
        refine KeepsSound.trans ?_ (keepsSound_snapshotEnds _)
        refine KeepsSound.trans ?_ (keepsSound_snapshotCut _)
        exact keepsSound_of_within (within_pfAssemble _) (by decide)
      · refine KeepsSound.trans ?_ (keepsSound_of_within (within_set_pwr _ _) (by decide))
        exact keepsSound_of_within (within_pfAssemble _) (by decide)
  · exact KeepsSound.refl

theorem keepsSound_vioWarning (s : State) : KeepsSound s (vioWarning s) := by
  unfold vioWarning
  try dsimp only
  refine keepsSound_ite ?_ ?_
  · exact keepsSound_occur _ _ _
  · exact KeepsSound.refl

theorem keepsSound_preregFault (s : State) : KeepsSound s (preregFault s) := by
  unfold preregFault
  try dsimp only
  refine keepsSound_ite ?_ ?_
  · exact keepsSound_occur _ _ _
  · exact KeepsSound.refl

theorem keepsSound_xmiDown (s : State) : KeepsSound s (xmiDown s) := by
  unfold xmiDown
  try dsimp only
  refine keepsSound_ite ?_ ?_
  · refine KeepsSound.trans ?_ (keepsSound_recFreeze _ _ _)
    refine KeepsSound.trans ?_ (keepsSound_of_within (within_xmNoLeave _) (by decide))
    refine KeepsSound.trans ?_ (keepsSound_set_pwr_ldr_xm _ _ _ _ (fun h => h) (fun _ => Nat.zero_le _))
    exact keepsSound_burstCut _
  · refine KeepsSound.trans ?_ (keepsSound_of_within (within_xmNoLeave _) (by decide))
    refine KeepsSound.trans ?_ (keepsSound_set_pwr_ldr_xm _ _ _ _ (fun h => h) (fun _ => Nat.zero_le _))
    exact keepsSound_burstCut _

theorem keepsSound_xmiUp (s : State) : KeepsSound s (xmiUp s) := by
  unfold xmiUp
  try dsimp only
  exact keepsSound_set_pwr_xm _ _ _ (fun h => h) (fun h => h)

theorem keepsSound_xmiTo (a0 : Bool) (s : State) : KeepsSound s (xmiTo a0 s) := by
  unfold xmiTo
  try dsimp only
  refine keepsSound_ite ?_ ?_
  · exact KeepsSound.refl
  · refine keepsSound_ite ?_ ?_
    · exact keepsSound_xmiUp _
    · exact keepsSound_xmiDown _

theorem keepsSound_unitsTo (a0 : Bool) (a1 : Bool) (s : State) : KeepsSound s (unitsTo a0 a1 s) := by
  unfold unitsTo
  try dsimp only
  split
  · exact keepsSound_of_within (within_set_pwr _ _) (by decide)
  · refine KeepsSound.trans ?_ (keepsSound_xmiTo _ _)
    refine KeepsSound.trans ?_ (keepsSound_of_within (within_hkTo _ _) (by decide))
    exact keepsSound_of_within (within_set_pwr _ _) (by decide)

theorem keepsSound_domCtlWrite (a0 : HostId) (a1 : Word) (s : State) : KeepsSound s (domCtlWrite a0 a1 s) := by
  unfold domCtlWrite
  try dsimp only
  refine keepsSound_ite ?_ ?_
  · refine KeepsSound.trans ?_ (keepsSound_of_within (within_askNextBank _) (by decide))
    refine KeepsSound.trans ?_ (keepsSound_unitsTo _ _ _)
    exact keepsSound_of_within (within_banksTo _ _) (by decide)
  · exact keepsSound_of_within (within_refuse _ _) (by decide)

theorem keepsSound_stopRails (s : State) : KeepsSound s (stopRails s) := by
  unfold stopRails
  try dsimp only
  refine KeepsSound.trans ?_ (keepsSound_foldl (fun _ _ => ?_) _ _)
  · exact KeepsSound.refl
  · split
    · exact KeepsSound.refl
    · exact KeepsSound.refl
    · exact keepsSound_railToOut _ _ _ _ _
    · refine keepsSound_ite ?_ ?_
      · exact keepsSound_railToOut _ _ _ _ _
      · exact keepsSound_orderlyOff _ _ _ _ (fun e d x => keepsSound_occur e d x)

theorem keepsSound_leaveStandby (s : State) : KeepsSound s (leaveStandby s) := by
  unfold leaveStandby
  try dsimp only
  refine KeepsSound.trans ?_ (keepsSound_writeResidue _)
  refine KeepsSound.trans ?_ (keepsSound_of_within (within_set_pwr _ _) (by decide))
  refine KeepsSound.trans ?_ (keepsSound_of_within (within_hkDown _) (by decide))
  refine keepsSound_ite ?_ ?_
  · refine KeepsSound.trans ?_ (keepsSound_xmiDown _)
    exact keepsSound_endArm _ _
  · exact keepsSound_endArm _ _

theorem keepsSound_undoStandby (s : State) : KeepsSound s (undoStandby s) := by
  unfold undoStandby
  try dsimp only
  split
  · exact KeepsSound.refl
  · refine keepsSound_ite ?_ ?_
    · refine KeepsSound.trans ?_ (keepsSound_xmiUp _)
      refine keepsSound_ite ?_ ?_
      · refine KeepsSound.trans ?_ (keepsSound_of_within (within_hkUp _) (by decide))
        exact keepsSound_of_within (within_set_pwr _ _) (by decide)
      · exact keepsSound_of_within (within_set_pwr _ _) (by decide)
    · refine keepsSound_ite ?_ ?_
      · refine KeepsSound.trans ?_ (keepsSound_of_within (within_hkUp _) (by decide))
        exact keepsSound_of_within (within_set_pwr _ _) (by decide)
      · exact keepsSound_of_within (within_set_pwr _ _) (by decide)

theorem keepsSound_cancelResidue (s : State) : KeepsSound s (cancelResidue s) := by
  unfold cancelResidue
  try dsimp only
  refine keepsSound_ite ?_ ?_
  · exact KeepsSound.refl
  · refine keepsSound_ite ?_ ?_
    · refine KeepsSound.trans ?_ (keepsSound_stalePump _)
      exact keepsSound_set_nvm _ _ (fun h => h) (fun h => nvmBounded_of h List.filter_sublist (fun x => x))
    · exact KeepsSound.refl

theorem keepsSound_powerStart (s : State) : KeepsSound s (powerStart s) := by
  unfold powerStart
  try dsimp only
  split
  · refine KeepsSound.trans ?_ (keepsSound_of_within (within_askNextBank _) (by decide))
    refine KeepsSound.trans ?_ (keepsSound_of_within (within_groupsUp _) (by decide))
    exact keepsSound_of_within (within_set_pwr _ _) (by decide)
  · refine KeepsSound.trans ?_ (keepsSound_of_within (within_askNextBank _) (by decide))
    refine KeepsSound.trans ?_ (keepsSound_of_within (within_groupsUp _) (by decide))
    exact keepsSound_of_within (within_set_pwr _ _) (by decide)
  · exact keepsSound_of_within (within_domainsDown _) (by decide)
  · refine keepsSound_ite ?_ ?_
    · exact KeepsSound.refl
    · refine KeepsSound.trans ?_ (keepsSound_leaveStandby _)
      exact keepsSound_of_within (within_domainsDown _) (by decide)
  · exact keepsSound_stopRails _
  · exact keepsSound_stopRails _
  · exact keepsSound_stopRails _
  · exact KeepsSound.refl

theorem keepsSound_enterKeepalive (s : State) : KeepsSound s (enterKeepalive s) := by
  unfold enterKeepalive
  try dsimp only
  refine KeepsSound.trans ?_ (keepsSound_clearDevice _ _)
  exact keepsSound_of_within (within_set_ka _ _) (by decide)

theorem keepsSound_powerHop (s : State) : KeepsSound s (powerHop s) := by
  unfold powerHop
  try dsimp only
  refine keepsSound_ite ?_ ?_
  · split
    · refine KeepsSound.trans ?_ (keepsSound_leaveStandby _)
      refine KeepsSound.trans ?_ (keepsSound_of_within (within_domainsDown _) (by decide))
      refine KeepsSound.trans ?_ (keepsSound_of_within (within_set_pwr _ _) (by decide))
      exact keepsSound_of_within (within_runSettle _) (by decide)
    · refine KeepsSound.trans ?_ (keepsSound_of_within (within_domainsDown _) (by decide))
      refine KeepsSound.trans ?_ (keepsSound_of_within (within_set_pwr _ _) (by decide))
      exact keepsSound_of_within (within_runSettle _) (by decide)
    · refine KeepsSound.trans ?_ (keepsSound_of_within (within_set_pwr _ _) (by decide))
      exact keepsSound_of_within (within_runSettle _) (by decide)
  · exact KeepsSound.refl

theorem keepsSound_powerTransitionComplete (s : State) : KeepsSound s (powerTransitionComplete s) := by
  unfold powerTransitionComplete
  try dsimp only
  refine keepsSound_ite ?_ ?_
  · refine keepsSound_ite ?_ ?_
    · refine KeepsSound.trans ?_ (keepsSound_occur _ _ _)
      refine KeepsSound.trans ?_ (keepsSound_of_within (within_set_pwr _ _) (by decide))
      refine KeepsSound.trans ?_ (keepsSound_powerHop _)
      refine KeepsSound.trans ?_ (keepsSound_powerHop _)
      exact keepsSound_powerHop _
    · refine keepsSound_ite ?_ ?_
      · refine KeepsSound.trans ?_ (keepsSound_enterKeepalive _)
        refine KeepsSound.trans ?_ (keepsSound_powerHop _)
        refine KeepsSound.trans ?_ (keepsSound_powerHop _)
        exact keepsSound_powerHop _
      · refine KeepsSound.trans ?_ (keepsSound_powerHop _)
        refine KeepsSound.trans ?_ (keepsSound_powerHop _)
        exact keepsSound_powerHop _
  · exact KeepsSound.refl

theorem keepsSound_pwrCmd (a0 : HostId) (a1 : Power) (a2 : Bool) (s : State) : KeepsSound s (pwrCmd a0 a1 a2 s) := by
  unfold pwrCmd
  try dsimp only
  refine keepsSound_ite ?_ ?_
  · exact keepsSound_of_within (within_refuse _ _) (by decide)
  · refine KeepsSound.trans ?_ (keepsSound_powerStart _)
    refine KeepsSound.trans ?_ (keepsSound_of_within (within_set_pwr _ _) (by decide))
    refine keepsSound_ite ?_ ?_
    · refine KeepsSound.trans ?_ (keepsSound_undoStandby _)
      exact keepsSound_cancelResidue _
    · exact KeepsSound.refl

theorem keepsSound_sweepChecks (s : State) : KeepsSound s (sweepChecks s).1 := by
  have h : ∀ (l : List ChanId) (p : State × Bool), KeepsSound p.1
      (l.foldl (fun p c => (crossCheck p.1 c, p.2 || xchkFails p.1 c)) p).1 := by
    intro l
    induction l with
    | nil => exact fun _ => KeepsSound.refl
    | cons c l ih => exact fun p => KeepsSound.trans (keepsSound_crossCheck p.1 c) (ih (crossCheck p.1 c, p.2 || xchkFails p.1 c))
  exact h _ (s, false)

theorem keepsSound_bistSweep (a0 : Vector (BitVec 12) 14) (s : State) : KeepsSound s (bistSweep a0 s) := by
  unfold bistSweep
  dsimp only
  refine keepsSound_ite ?_ KeepsSound.refl
  refine KeepsSound.trans ?_ (keepsSound_of_within (within_set_test _ _) (by decide))
  refine KeepsSound.trans ?_ (keepsSound_of_within (within_tsdClear _) (by decide))
  refine KeepsSound.trans ?_ (keepsSound_sweepChecks _)
  exact (keepsSound_of_within (within_set_test _ _) (by decide)).trans
    (keepsSound_ite (keepsSound_occur _ _ _) KeepsSound.refl)

theorem keepsSound_bistSweepEnd (s : State) : KeepsSound s (bistSweepEnd s) := by
  unfold bistSweepEnd
  try dsimp only
  refine keepsSound_ite ?_ ?_
  · refine keepsSound_ite ?_ ?_
    · refine KeepsSound.trans ?_ (keepsSound_occur _ _ _)
      refine KeepsSound.trans ?_ (keepsSound_of_within (within_releaseLeave _ _) (by decide))
      exact keepsSound_of_within (within_set_test _ _) (by decide)
    · refine KeepsSound.trans ?_ (keepsSound_of_within (within_releaseLeave _ _) (by decide))
      exact keepsSound_of_within (within_set_test _ _) (by decide)
  · exact KeepsSound.refl

theorem keepsSound_shadowError (a0 : (RailId → Bool)) (s : State) : KeepsSound s (shadowError a0 s) := by
  unfold shadowError
  try dsimp only
  refine KeepsSound.trans ?_ (keepsSound_occur _ _ _)
  refine KeepsSound.trans ?_ (keepsSound_foldl (fun _ _ => ?_) _ _)
  · exact keepsSound_of_within (within_countDbe _) (by decide)
  · refine keepsSound_ite ?_ ?_
    · exact keepsSound_orderlySafe _ _ _ _ (fun e d x => keepsSound_occur e d x)
    · exact KeepsSound.refl

theorem keepsSound_readTableWord (a0 : ℕ) (a1 : Ecc) (s : State) : KeepsSound s (readTableWord a0 a1 s) := by
  unfold readTableWord
  try dsimp only
  split
  · exact KeepsSound.refl
  · exact keepsSound_of_within (within_shadowFixed _) (by decide)
  · exact keepsSound_shadowError _ _

theorem keepsSound_scrubWord (a0 : EccMemory) (a1 : Ecc) (s : State) : KeepsSound s (scrubWord a0 a1 s) := by
  unfold scrubWord
  try dsimp only
  refine keepsSound_ite ?_ ?_
  · split
    · refine keepsSound_ite ?_ ?_
      · refine KeepsSound.trans ?_ (keepsSound_of_within (within_set_test _ _) (by decide))
        refine KeepsSound.trans ?_ (keepsSound_readMapWord _ _ _)
        exact keepsSound_of_within (within_set_test _ _) (by decide)
      · refine KeepsSound.trans ?_ (keepsSound_readMapWord _ _ _)
        exact keepsSound_of_within (within_set_test _ _) (by decide)
    · split
      · exact keepsSound_of_within (within_set_test _ _) (by decide)
      · refine KeepsSound.trans ?_ (keepsSound_of_within (within_ringFixed _) (by decide))
        exact keepsSound_of_within (within_set_test _ _) (by decide)
      · refine KeepsSound.trans ?_ (keepsSound_ringError _ _)
        exact keepsSound_of_within (within_set_test _ _) (by decide)
    · split
      · exact keepsSound_of_within (within_set_test _ _) (by decide)
      · refine KeepsSound.trans ?_ (keepsSound_of_within (within_recFixed _) (by decide))
        exact keepsSound_of_within (within_set_test _ _) (by decide)
      · refine KeepsSound.trans ?_ (keepsSound_recError _)
        exact keepsSound_of_within (within_set_test _ _) (by decide)
    · split
      · exact keepsSound_of_within (within_set_test _ _) (by decide)
      · refine KeepsSound.trans ?_ (keepsSound_of_within (within_shadowFixed _) (by decide))
        exact keepsSound_of_within (within_set_test _ _) (by decide)
      · refine KeepsSound.trans ?_ (keepsSound_shadowError _ _)
        exact keepsSound_of_within (within_set_test _ _) (by decide)
  · exact KeepsSound.refl

theorem keepsSound_xmemForBoot (a0 : BootInputs) (s : State) : KeepsSound s (xmemForBoot a0 s) := by
  unfold xmemForBoot
  try dsimp only
  refine keepsSound_ite ?_ ?_
  · exact KeepsSound.refl
  · refine KeepsSound.trans ?_ (keepsSound_set_xm _ _ (fun h => h) (fun h => h))
    exact keepsSound_xmiUp _

theorem keepsSound_invalidEvent (a0 : ImageSource) (a1 : Bool) (a2 : ℕ) (s : State) : KeepsSound s (invalidEvent a0 a1 a2 s) := by
  unfold invalidEvent
  try dsimp only
  refine keepsSound_ite ?_ ?_
  · exact KeepsSound.refl
  · exact keepsSound_bootEvent _ _ _

theorem keepsSound_sourceEvents (a0 : BootInputs) (a1 : ImageSource) (a2 : SourceResult) (s : State) : KeepsSound s (sourceEvents a0 a1 a2 s) := by
  unfold sourceEvents
  try dsimp only
  refine KeepsSound.trans ?_ (keepsSound_invalidEvent _ _ _ _)
  refine KeepsSound.trans ?_ (keepsSound_invalidEvent _ _ _ _)
  refine keepsSound_ite ?_ ?_
  · exact keepsSound_bootEvent _ _ _
  · exact KeepsSound.refl

theorem keepsSound_clearKill (s : State) : KeepsSound s (clearKill s) := by
  unfold clearKill
  try dsimp only
  refine KeepsSound.trans ?_ (keepsSound_foldl (fun _ _ => ?_) _ _)
  · exact KeepsSound.refl
  · refine keepsSound_ite ?_ ?_
    · exact keepsSound_putWord _ _ _
    · exact KeepsSound.refl

theorem keepsSound_bootXmi (s : State) : KeepsSound s (bootXmi s) := by
  unfold bootXmi
  try dsimp only
  refine keepsSound_ite ?_ ?_
  · refine KeepsSound.trans ?_ (keepsSound_xmiUp _)
    exact keepsSound_of_within (within_set_pwr _ _) (by decide)
  · exact keepsSound_of_within (within_set_pwr _ _) (by decide)

theorem keepsSound_bootLoad (a0 : BootInputs) (a1 : ImageSource) (a2 : Bool) (a3 : Bool) (a4 : List Byte) (a5 : ImageData) (s : State) : KeepsSound s (bootLoad a0 a1 a2 a3 a4 a5 s) := by
  unfold bootLoad
  try dsimp only
  refine KeepsSound.trans ?_ (keepsSound_of_within (within_State_mapRails _ _) (by decide))
  refine KeepsSound.trans ?_ (keepsSound_of_within (within_State_mapTiles _ _) (by decide))
  refine KeepsSound.trans ?_ (keepsSound_bootXmi _)
  refine KeepsSound.trans ?_ (keepsSound_of_within (within_bootCharger _) (by decide))
  refine KeepsSound.trans ?_ (keepsSound_of_within (within_bootHeaderKept _ _ _ _ _) (by decide))
  refine KeepsSound.trans ?_ (keepsSound_clearKill _)
  exact keepsSound_loadImage _ _

theorem keepsSound_restoreCal (s : State) : KeepsSound s (restoreCal s) := by
  unfold restoreCal
  try dsimp only
  refine KeepsSound.trans ?_ (keepsSound_foldl (fun _ _ => ?_) _ _)
  · split
    · exact KeepsSound.refl
    · refine KeepsSound.trans ?_ (keepsSound_foldl (fun _ _ => ?_) _ _)
      · exact KeepsSound.refl
      · refine keepsSound_ite ?_ ?_
        · exact keepsSound_putWord _ _ _
        · exact KeepsSound.refl
  · split
    · exact KeepsSound.refl
    · refine KeepsSound.trans ?_ (keepsSound_foldl (fun _ _ => ?_) _ _)
      · exact KeepsSound.refl
      · refine keepsSound_ite ?_ ?_
        · exact keepsSound_putWord _ _ _
        · exact KeepsSound.refl

theorem keepsSound_compareBoot (s : State) : KeepsSound s (compareBoot s) := by
  unfold compareBoot
  try dsimp only
  refine keepsSound_ite ?_ ?_
  · exact KeepsSound.refl
  · refine keepsSound_ite ?_ ?_
    · refine KeepsSound.trans ?_ (keepsSound_fsumChanged _)
      refine KeepsSound.trans ?_ (keepsSound_of_within (within_set_ldr _ _) (by decide))
      refine KeepsSound.trans ?_ (keepsSound_nvmRequest _ _)
      refine KeepsSound.trans ?_ (keepsSound_of_within (within_nextCycle _) (by decide))
      refine keepsSound_ite ?_ ?_
      · exact keepsSound_occurClass _ _ _
      · exact keepsSound_occur _ _ _
    · refine KeepsSound.trans ?_ (keepsSound_nvmRequest _ _)
      refine KeepsSound.trans ?_ (keepsSound_of_within (within_nextCycle _) (by decide))
      refine keepsSound_ite ?_ ?_
      · exact keepsSound_occurClass _ _ _
      · exact keepsSound_occur _ _ _

theorem keepsSound_bootSeal (a0 : SealState) (s : State) : KeepsSound s (bootSeal a0 s) := by
  unfold bootSeal
  try dsimp only
  refine keepsSound_ite ?_ ?_
  · refine keepsSound_ite ?_ ?_
    · refine KeepsSound.trans ?_ (keepsSound_bootEvent _ _ _)
      refine KeepsSound.trans ?_ (keepsSound_nvmRequest _ _)
      exact keepsSound_of_within (within_set_ka _ _) (by decide)
    · exact KeepsSound.refl
  · split
    · refine keepsSound_ite ?_ ?_
      · exact keepsSound_of_within (within_set_ka _ _) (by decide)
      · refine KeepsSound.trans ?_ (keepsSound_bootEvent _ _ _)
        refine KeepsSound.trans ?_ (keepsSound_nvmRequest _ _)
        refine KeepsSound.trans ?_ (keepsSound_of_within (within_set_ka _ _) (by decide))
        refine KeepsSound.trans ?_ (keepsSound_of_within (within_sealRecord _ _ _) (by decide))
        exact keepsSound_of_within (within_set_ka _ _) (by decide)
    · refine KeepsSound.trans ?_ (keepsSound_nvmRequest _ _)
      refine KeepsSound.trans ?_ (keepsSound_of_within (within_set_ka _ _) (by decide))
      exact keepsSound_of_within (within_sealRecord _ _ _) (by decide)

theorem keepsSound_bootRecover (a0 : BootInputs) (a1 : ℕ) (s : State) : KeepsSound s (bootRecover a0 a1 s) := by
  unfold bootRecover
  try dsimp only
  refine KeepsSound.trans ?_ (keepsSound_of_within (within_set_ka _ _) (by decide))
  refine KeepsSound.trans ?_ (keepsSound_bootSeal _ _)
  refine KeepsSound.trans ?_ (keepsSound_recoverFaultPages _)
  refine KeepsSound.trans ?_ (keepsSound_recoverResidue _ _)
  refine KeepsSound.trans ?_ (keepsSound_foldl (fun _ _ => ?_) _ _)
  · refine KeepsSound.trans ?_ (keepsSound_compareBoot _)
    refine KeepsSound.trans ?_ (keepsSound_restoreCal _)
    refine KeepsSound.trans ?_ (keepsSound_of_within (within_restoreFsum _) (by decide))
    refine KeepsSound.trans ?_ (keepsSound_foldl (fun _ _ => ?_) _ _)
    · exact KeepsSound.refl
    · exact keepsSound_readRecord _ _
  · exact keepsSound_recoverCounter _ _

theorem keepsSound_brumEvent (s : State) : KeepsSound s (brumEvent s) := by
  unfold brumEvent
  try dsimp only
  refine keepsSound_ite ?_ ?_
  · exact keepsSound_bootEvent _ _ _
  · exact KeepsSound.refl

theorem keepsSound_bootReports (s : State) : KeepsSound s (bootReports s) := by
  unfold bootReports
  try dsimp only
  refine KeepsSound.trans ?_ (keepsSound_bootEvent _ _ _)
  refine KeepsSound.trans ?_ (keepsSound_brumEvent _)
  refine keepsSound_ite ?_ ?_
  · refine KeepsSound.trans ?_ (keepsSound_bootEvent _ _ _)
    refine KeepsSound.trans ?_ (keepsSound_of_within (within_brumEnds _) (by decide))
    refine KeepsSound.trans ?_ (keepsSound_of_within (within_set_ka _ _) (by decide))
    split
    · exact keepsSound_bootEvent _ _ _
    · exact keepsSound_bootEvent _ _ _
    · exact KeepsSound.refl
  · refine KeepsSound.trans ?_ (keepsSound_of_within (within_brumEnds _) (by decide))
    refine KeepsSound.trans ?_ (keepsSound_of_within (within_set_ka _ _) (by decide))
    split
    · exact keepsSound_bootEvent _ _ _
    · exact keepsSound_bootEvent _ _ _
    · exact KeepsSound.refl

theorem keepsSound_bootEnd (s : State) : KeepsSound s (bootEnd s) := by
  unfold bootEnd
  try dsimp only
  refine KeepsSound.trans ?_ (keepsSound_set_pwr_hk_bus_link _ _ _ _ _ (fun h => h))
  exact keepsSound_of_within (within_State_mapRails _ _) (by decide)

theorem keepsSound_enterSafeIdle (a0 : BootInputs) (a1 : SourceResult) (a2 : ℕ × ℕ) (a3 : ℕ × ℕ) (s : State) : KeepsSound s (enterSafeIdle a0 a1 a2 a3 s) := by
  unfold enterSafeIdle
  try dsimp only
  refine KeepsSound.trans ?_ (keepsSound_bootEvent _ _ _)
  refine keepsSound_ite ?_ ?_
  · refine KeepsSound.trans ?_ (keepsSound_of_within (within_set_pwr_bus_ldr _ _ _ _) (by decide))
    refine KeepsSound.trans ?_ (keepsSound_brumEvent _)
    refine KeepsSound.trans ?_ (keepsSound_of_within (within_brumEnds _) (by decide))
    exact keepsSound_readRecord _ _
  · refine KeepsSound.trans ?_ (keepsSound_discover _ _)
    refine KeepsSound.trans ?_ (keepsSound_of_within (within_set_pwr_bus_ldr _ _ _ _) (by decide))
    refine KeepsSound.trans ?_ (keepsSound_brumEvent _)
    refine KeepsSound.trans ?_ (keepsSound_of_within (within_brumEnds _) (by decide))
    exact keepsSound_readRecord _ _

theorem keepsSound_bootStart (a0 : BootInputs) (s : State) : KeepsSound s (bootStart a0 s) := by
  unfold bootStart
  try dsimp only
  refine KeepsSound.trans ?_ (keepsSound_xmemForBoot _ _)
  exact keepsSound_of_within (within_set_now_pwr_bus_ldr_ka _ _ _ _ _ _) (by decide)

theorem keepsSound_bootFrom (a0 : BootInputs) (a1 : ImageSource) (a2 : Bool) (a3 : Option SourceResult) (a4 : SourceResult) (a5 : Bool × ImageData) (s : State) : KeepsSound s (bootFrom a0 a1 a2 a3 a4 a5 s) := by
  unfold bootFrom
  try dsimp only
  refine KeepsSound.trans ?_ (keepsSound_bootEnd _)
  refine KeepsSound.trans ?_ (keepsSound_bootReports _)
  refine KeepsSound.trans ?_ (keepsSound_bootRecover _ _ _)
  refine keepsSound_ite ?_ ?_
  · refine KeepsSound.trans ?_ (keepsSound_bootEvent _ _ _)
    refine KeepsSound.trans ?_ (keepsSound_sourceEvents _ _ _ _)
    split
    · refine KeepsSound.trans ?_ (keepsSound_sourceEvents _ _ _ _)
      refine KeepsSound.trans ?_ (keepsSound_lossEvents _ _)
      refine KeepsSound.trans ?_ (keepsSound_of_within (within_set_ldr _ _) (by decide))
      exact keepsSound_bootLoad _ _ _ _ _ _ _
    · refine KeepsSound.trans ?_ (keepsSound_lossEvents _ _)
      refine KeepsSound.trans ?_ (keepsSound_of_within (within_set_ldr _ _) (by decide))
      exact keepsSound_bootLoad _ _ _ _ _ _ _
  · refine KeepsSound.trans ?_ (keepsSound_of_within (within_nextCycle _) (by decide))
    refine KeepsSound.trans ?_ (keepsSound_discover _ _)
    refine KeepsSound.trans ?_ (keepsSound_bootEvent _ _ _)
    refine KeepsSound.trans ?_ (keepsSound_sourceEvents _ _ _ _)
    split
    · refine KeepsSound.trans ?_ (keepsSound_sourceEvents _ _ _ _)
      refine KeepsSound.trans ?_ (keepsSound_lossEvents _ _)
      refine KeepsSound.trans ?_ (keepsSound_of_within (within_set_ldr _ _) (by decide))
      exact keepsSound_bootLoad _ _ _ _ _ _ _
    · refine KeepsSound.trans ?_ (keepsSound_lossEvents _ _)
      refine KeepsSound.trans ?_ (keepsSound_of_within (within_set_ldr _ _) (by decide))
      exact keepsSound_bootLoad _ _ _ _ _ _ _

theorem keepsSound_boot (a0 : BootInputs) (s : State) : KeepsSound s (boot a0 s) := by
  unfold boot
  try dsimp only
  refine keepsSound_ite ?_ ?_
  · split
    · refine KeepsSound.trans ?_ (keepsSound_bootFrom _ _ _ _ _ _ _)
      exact keepsSound_bootStart _ _
    · split
      · refine KeepsSound.trans ?_ (keepsSound_enterSafeIdle _ _ _ _ _)
        refine KeepsSound.trans ?_ (keepsSound_sourceEvents _ _ _ _)
        exact keepsSound_bootStart _ _
      · split
        · refine KeepsSound.trans ?_ (keepsSound_bootFrom _ _ _ _ _ _ _)
          exact keepsSound_bootStart _ _
        · refine KeepsSound.trans ?_ (keepsSound_enterSafeIdle _ _ _ _ _)
          refine KeepsSound.trans ?_ (keepsSound_sourceEvents _ _ _ _)
          refine KeepsSound.trans ?_ (keepsSound_sourceEvents _ _ _ _)
          exact keepsSound_bootStart _ _
  · exact KeepsSound.refl

theorem keepsSound_kaOccur (a0 : ℕ) (a1 : ℕ) (s : State) : KeepsSound s (kaOccur a0 a1 s) := by
  unfold kaOccur
  try dsimp only
  refine keepsSound_ite ?_ ?_
  · exact keepsSound_occur _ _ _
  · exact KeepsSound.refl

theorem keepsSound_chargerRun (a0 : KaReadings) (s : State) : KeepsSound s (chargerRun a0 s) := by
  unfold chargerRun
  try dsimp only
  refine KeepsSound.trans ?_ (keepsSound_of_within (within_chgLeave _) (by decide))
  refine keepsSound_ite ?_ ?_
  · refine keepsSound_ite ?_ ?_
    · refine KeepsSound.trans ?_ (keepsSound_kaOccur _ _ _)
      exact keepsSound_of_within (within_set_ka _ _) (by decide)
    · exact keepsSound_of_within (within_set_ka _ _) (by decide)
  · split
    · refine KeepsSound.trans ?_ (keepsSound_kaOccur _ _ _)
      refine keepsSound_ite ?_ ?_
      · refine KeepsSound.trans ?_ (keepsSound_kaOccur _ _ _)
        exact keepsSound_of_within (within_set_ka _ _) (by decide)
      · exact keepsSound_of_within (within_set_ka _ _) (by decide)
    · refine KeepsSound.trans ?_ (keepsSound_kaOccur _ _ _)
      refine keepsSound_ite ?_ ?_
      · refine KeepsSound.trans ?_ (keepsSound_kaOccur _ _ _)
        exact keepsSound_of_within (within_set_ka _ _) (by decide)
      · exact keepsSound_of_within (within_set_ka _ _) (by decide)
    · refine KeepsSound.trans ?_ (keepsSound_kaOccur _ _ _)
      refine keepsSound_ite ?_ ?_
      · refine KeepsSound.trans ?_ (keepsSound_kaOccur _ _ _)
        exact keepsSound_of_within (within_set_ka _ _) (by decide)
      · exact keepsSound_of_within (within_set_ka _ _) (by decide)
    · refine keepsSound_ite ?_ ?_
      · refine KeepsSound.trans ?_ (keepsSound_kaOccur _ _ _)
        exact keepsSound_of_within (within_set_ka _ _) (by decide)
      · exact keepsSound_of_within (within_set_ka _ _) (by decide)

theorem keepsSound_sealCheck (a0 : SealState) (s : State) : KeepsSound s (sealCheck a0 s) := by
  unfold sealCheck
  try dsimp only
  refine keepsSound_ite ?_ ?_
  · exact keepsSound_of_within (within_set_ka _ _) (by decide)
  · refine keepsSound_ite ?_ ?_
    · refine KeepsSound.trans ?_ (keepsSound_endArm _ _)
      refine keepsSound_ite ?_ ?_
      · refine KeepsSound.trans ?_ (keepsSound_nvmRequest _ _)
        refine KeepsSound.trans ?_ (keepsSound_kaOccur _ _ _)
        refine KeepsSound.trans ?_ (keepsSound_of_within (within_set_ka _ _) (by decide))
        exact keepsSound_of_within (within_sealRecord _ _ _) (by decide)
      · refine KeepsSound.trans ?_ (keepsSound_of_within (within_set_ka _ _) (by decide))
        exact keepsSound_of_within (within_sealRecord _ _ _) (by decide)
    · refine keepsSound_ite ?_ ?_
      · refine KeepsSound.trans ?_ (keepsSound_nvmRequest _ _)
        refine KeepsSound.trans ?_ (keepsSound_kaOccur _ _ _)
        refine KeepsSound.trans ?_ (keepsSound_of_within (within_set_ka _ _) (by decide))
        exact keepsSound_of_within (within_sealRecord _ _ _) (by decide)
      · refine KeepsSound.trans ?_ (keepsSound_of_within (within_set_ka _ _) (by decide))
        exact keepsSound_of_within (within_sealRecord _ _ _) (by decide)

theorem keepsSound_kaMonitorRun (a0 : KaReadings) (s : State) : KeepsSound s (kaMonitorRun a0 s) := by
  unfold kaMonitorRun
  try dsimp only
  refine keepsSound_ite ?_ ?_
  · refine KeepsSound.trans ?_ (keepsSound_chargerRun _ _)
    refine KeepsSound.trans ?_ (keepsSound_sealCheck _ _)
    exact keepsSound_of_within (within_set_ka _ _) (by decide)
  · exact KeepsSound.refl

theorem keepsSound_allDown (a0 : Phase) (s : State) : KeepsSound s (allDown a0 s) := by
  unfold allDown
  try dsimp only
  refine KeepsSound.trans ?_ (keepsSound_clearDevice _ _)
  refine KeepsSound.trans ?_ (keepsSound_of_within (within_set_pwr_ka _ _ _) (by decide))
  refine KeepsSound.trans ?_ (keepsSound_snapshotReset _ _)
  exact keepsSound_burstCut _

theorem keepsSound_kaSourceLoss (s : State) : KeepsSound s (kaSourceLoss s) := by
  unfold kaSourceLoss
  try dsimp only
  refine keepsSound_ite ?_ ?_
  · refine keepsSound_ite ?_ ?_
    · refine keepsSound_ite ?_ ?_
      · exact keepsSound_of_within (within_set_ka _ _) (by decide)
      · refine KeepsSound.trans ?_ (keepsSound_inBrumation _)
        refine KeepsSound.trans ?_ (keepsSound_snapshotReset _ _)
        refine KeepsSound.trans ?_ (keepsSound_burstCut _)
        exact keepsSound_of_within (within_set_ka _ _) (by decide)
    · exact keepsSound_of_within (within_set_ka _ _) (by decide)
  · exact KeepsSound.refl

theorem keepsSound_kaSourceQualified (s : State) : KeepsSound s (kaSourceQualified s) := by
  unfold kaSourceQualified
  try dsimp only
  refine keepsSound_ite ?_ ?_
  · split
    · exact keepsSound_of_within (within_set_ka _ _) (by decide)
    · refine KeepsSound.trans ?_ (keepsSound_of_within (within_chgLeave _) (by decide))
      refine keepsSound_ite ?_ ?_
      · refine KeepsSound.trans ?_ (keepsSound_kaOccur _ _ _)
        exact keepsSound_of_within (within_set_ka _ _) (by decide)
      · exact keepsSound_of_within (within_set_ka _ _) (by decide)
  · exact KeepsSound.refl

theorem keepsSound_cellCutoff (s : State) : KeepsSound s (cellCutoff s) := by
  unfold cellCutoff
  try dsimp only
  refine keepsSound_ite ?_ ?_
  · split
    · refine keepsSound_ite ?_ ?_
      · refine KeepsSound.trans ?_ (keepsSound_of_within (within_set_ka _ _) (by decide))
        exact keepsSound_allDown _ _
      · exact KeepsSound.refl
    · exact KeepsSound.refl
  · exact KeepsSound.refl

theorem keepsSound_kaPowerUp (a0 : Bool) (s : State) : KeepsSound s (kaPowerUp a0 s) := by
  unfold kaPowerUp
  try dsimp only
  refine keepsSound_ite ?_ ?_
  · refine KeepsSound.trans ?_ (keepsSound_clearDevice _ _)
    exact keepsSound_of_within (within_set_ka _ _) (by decide)
  · exact KeepsSound.refl

theorem keepsSound_brumationWake (a0 : Bool) (s : State) : KeepsSound s (brumationWake a0 s) := by
  unfold brumationWake
  try dsimp only
  refine keepsSound_ite ?_ ?_
  · refine KeepsSound.trans ?_ (keepsSound_clearDevice _ _)
    refine KeepsSound.trans ?_ (keepsSound_of_within (within_set_ka _ _) (by decide))
    refine KeepsSound.trans ?_ (keepsSound_snapshotReset _ _)
    refine KeepsSound.trans ?_ (keepsSound_burstCut _)
    exact keepsSound_of_within (within_runSettle _) (by decide)
  · refine keepsSound_ite ?_ ?_
    · refine KeepsSound.trans ?_ (keepsSound_clearDevice _ _)
      exact keepsSound_of_within (within_set_ka _ _) (by decide)
    · exact KeepsSound.refl

theorem keepsSound_rtcRecord (a0 : HostId) (a1 : ℕ) (a2 : Word) (a3 : ℕ) (s : State) : KeepsSound s (rtcRecord a0 a1 a2 a3 s) := by
  unfold rtcRecord
  try dsimp only
  exact keepsSound_enqueue _ _

theorem keepsSound_dropRtcRecord (s : State) : KeepsSound s (dropRtcRecord s) :=
  keepsSound_set_ev _ _ (fun h => Nat.le_trans (List.length_filter_le _ _) h)

theorem keepsSound_rtcSet1Write (a0 : HostId) (a1 : Word) (s : State) : KeepsSound s (rtcSet1Write a0 a1 s) := by
  unfold rtcSet1Write
  try dsimp only
  refine keepsSound_ite ?_ ?_
  · refine KeepsSound.trans ?_ (keepsSound_rtcRecord _ _ _ _ _)
    refine KeepsSound.trans ?_ (keepsSound_of_within (within_set_ka _ _) (by decide))
    refine KeepsSound.trans ?_ (keepsSound_dropRtcRecord _)
    refine KeepsSound.trans ?_ (keepsSound_of_within (within_rtcSettle _) (by decide))
    exact keepsSound_of_within (within_set_ka _ _) (by decide)
  · exact keepsSound_of_within (within_set_ka _ _) (by decide)

theorem keepsSound_openArm (s : State) : KeepsSound s (openArm s) := by
  unfold openArm
  try dsimp only
  refine KeepsSound.trans ?_ (keepsSound_kaOccur _ _ _)
  exact keepsSound_of_within (within_set_ka _ _) (by decide)

theorem keepsSound_keyRelease (s : State) : KeepsSound s (keyRelease s) := by
  unfold keyRelease
  try dsimp only
  refine keepsSound_ite ?_ ?_
  · refine keepsSound_ite ?_ ?_
    · exact keepsSound_of_within (within_set_ka _ _) (by decide)
    · refine keepsSound_ite ?_ ?_
      · refine KeepsSound.trans ?_ (keepsSound_kaOccur _ _ _)
        exact keepsSound_of_within (within_set_ka _ _) (by decide)
      · refine keepsSound_ite ?_ ?_
        · refine KeepsSound.trans ?_ (keepsSound_kaOccur _ _ _)
          exact keepsSound_of_within (within_set_ka _ _) (by decide)
        · refine keepsSound_ite ?_ ?_
          · refine KeepsSound.trans ?_ (keepsSound_kaOccur _ _ _)
            exact keepsSound_of_within (within_set_ka _ _) (by decide)
          · refine KeepsSound.trans ?_ (keepsSound_openArm _)
            exact keepsSound_of_within (within_set_ka _ _) (by decide)
  · exact KeepsSound.refl

theorem keepsSound_armExpiry (s : State) : KeepsSound s (armExpiry s) := by
  unfold armExpiry
  try dsimp only
  split
  · refine keepsSound_ite ?_ ?_
    · exact keepsSound_endArm _ _
    · exact KeepsSound.refl
  · exact KeepsSound.refl

theorem keepsSound_svcCtlWrite (a0 : Word) (s : State) : KeepsSound s (svcCtlWrite a0 s) := by
  unfold svcCtlWrite
  try dsimp only
  refine keepsSound_ite ?_ ?_
  · exact keepsSound_endArm _ _
  · exact KeepsSound.refl

theorem keepsSound_brumArm (a0 : HostId) (s : State) : KeepsSound s (brumArm a0 s) := by
  unfold brumArm
  try dsimp only
  refine keepsSound_ite ?_ ?_
  · refine KeepsSound.trans ?_ (keepsSound_writeResidue _)
    refine KeepsSound.trans ?_ (keepsSound_occur _ _ _)
    exact keepsSound_of_within (within_set_ka _ _) (by decide)
  · exact keepsSound_of_within (within_refuse _ _) (by decide)

theorem keepsSound_disarmBrum (a0 : HostId) (s : State) : KeepsSound s (disarmBrum a0 s) := by
  unfold disarmBrum
  try dsimp only
  refine KeepsSound.trans ?_ (keepsSound_cancelResidue _)
  refine KeepsSound.trans ?_ (keepsSound_occur _ _ _)
  exact keepsSound_of_within (within_set_ka _ _) (by decide)

theorem keepsSound_brumCtlWrite (a0 : HostId) (a1 : Word) (s : State) : KeepsSound s (brumCtlWrite a0 a1 s) := by
  unfold brumCtlWrite
  try dsimp only
  refine keepsSound_ite ?_ ?_
  · refine KeepsSound.trans ?_ (keepsSound_disarmBrum _ _)
    refine keepsSound_ite ?_ ?_
    · exact keepsSound_brumArm _ _
    · exact KeepsSound.refl
  · refine keepsSound_ite ?_ ?_
    · exact keepsSound_brumArm _ _
    · exact KeepsSound.refl

theorem keepsSound_residueHourly (s : State) : KeepsSound s (residueHourly s) := by
  unfold residueHourly
  try dsimp only
  refine keepsSound_ite ?_ ?_
  · exact keepsSound_writeResidue _
  · exact KeepsSound.refl

theorem keepsSound_resetLevel (a0 : Bool) (s : State) : KeepsSound s (resetLevel a0 s) := by
  unfold resetLevel
  try dsimp only
  refine KeepsSound.trans ?_ (keepsSound_of_within (within_set_tap _ _) (by decide))
  refine keepsSound_ite ?_ ?_
  · exact keepsSound_pinReset _ _
  · refine keepsSound_ite ?_ ?_
    · exact keepsSound_of_within (within_set_pwr _ _) (by decide)
    · exact KeepsSound.refl

theorem keepsSound_tapLoad (a0 : TapLoad) (a1 : Bool) (s : State) : KeepsSound s (tapLoad a0 a1 s) := by
  unfold tapLoad
  try dsimp only
  refine KeepsSound.trans ?_ (keepsSound_of_within (within_set_tap _ _) (by decide))
  exact keepsSound_resetLevel _ _

theorem keepsSound_authorityEvents (a0 : (Bool → ℕ)) (a1 : State) (s : State) : KeepsSound s (authorityEvents a0 a1 s) := by
  unfold authorityEvents
  try dsimp only
  refine KeepsSound.trans ?_ (keepsSound_foldl (fun _ _ => ?_) _ _)
  · exact KeepsSound.refl
  · refine keepsSound_ite ?_ ?_
    · exact keepsSound_occur _ _ _
    · exact KeepsSound.refl

theorem keepsSound_setFallback (a0 : Bool) (s : State) : KeepsSound s (setFallback a0 s) := by
  unfold setFallback
  try dsimp only
  refine keepsSound_ite ?_ ?_
  · exact KeepsSound.refl
  · refine KeepsSound.trans ?_ (keepsSound_authorityEvents _ _ _)
    exact keepsSound_set_link _ _ (fun h => h)

theorem keepsSound_linkAuthSet (a0 : Word) (s : State) : KeepsSound s (linkAuthSet a0 s) := by
  unfold linkAuthSet
  try dsimp only
  refine KeepsSound.trans ?_ (keepsSound_authorityEvents _ _ _)
  exact keepsSound_putWord _ _ _

theorem keepsSound_linkCfgSet (a0 : Word) (s : State) : KeepsSound s (linkCfgSet a0 s) := by
  unfold linkCfgSet
  try dsimp only
  refine KeepsSound.trans ?_ (keepsSound_authorityEvents _ _ _)
  exact keepsSound_putWord _ _ _

theorem keepsSound_takeTarget (a0 : RailId) (a1 : ℕ) (a2 : Bool) (s : State) : KeepsSound s (takeTarget a0 a1 a2 s) := by
  unfold takeTarget
  try dsimp only
  refine keepsSound_ite ?_ ?_
  · refine KeepsSound.trans ?_ (keepsSound_closeWatch _ _ _ _ _ (fun e d x => keepsSound_occur e d x))
    refine KeepsSound.trans ?_ (keepsSound_of_within (within_State_modEng _ _ _) (by decide))
    exact keepsSound_putWord _ _ _
  · refine KeepsSound.trans ?_ (keepsSound_of_within (within_State_modEng _ _ _) (by decide))
    exact keepsSound_putWord _ _ _

theorem keepsSound_pushAck (a0 : Byte) (a1 : RailId) (a2 : ℕ) (a3 : BitVec 16) (s : State) : KeepsSound s (pushAck a0 a1 a2 a3 s) := by
  unfold pushAck
  try dsimp only
  exact keepsSound_set_link _ _ (fun h => h)

theorem keepsSound_answer (a0 : Byte) (a1 : RailId) (a2 : BitVec 16) (a3 : ℕ) (a4 : BitVec 16) (s : State) : KeepsSound s (answer a0 a1 a2 a3 a4 s) := by
  unfold answer
  try dsimp only
  refine keepsSound_ite ?_ ?_
  · exact keepsSound_pushAck _ _ _ _ _
  · refine KeepsSound.trans ?_ (keepsSound_occur _ _ _)
    refine KeepsSound.trans ?_ (keepsSound_set_link _ _ (fun h => h))
    exact keepsSound_pushAck _ _ _ _ _

theorem keepsSound_openWatch (a0 : RailId) (a1 : Byte) (s : State) : KeepsSound s (openWatch a0 a1 s) := by
  unfold openWatch
  try dsimp only
  split
  · exact keepsSound_of_within (within_State_modRail _ _ _) (by decide)
  · exact keepsSound_of_within (within_State_modRail _ _ _) (by decide)
  · exact keepsSound_of_within (within_State_modRail _ _ _) (by decide)
  · exact keepsSound_of_within (within_State_modRail _ _ _) (by decide)
  · refine KeepsSound.trans ?_ (keepsSound_abandonWatch _ _ _ (fun e d x => keepsSound_occur e d x))
    exact keepsSound_of_within (within_State_modRail _ _ _) (by decide)

theorem keepsSound_settleTimeout (a0 : RailId) (s : State) : KeepsSound s (settleTimeout a0 s) := by
  unfold settleTimeout
  try dsimp only
  split
  · exact KeepsSound.refl
  · refine keepsSound_ite ?_ ?_
    · refine KeepsSound.trans ?_ (keepsSound_closeWatch _ _ _ _ _ (fun e d x => keepsSound_occur e d x))
      exact keepsSound_occur _ _ _
    · exact KeepsSound.refl

theorem keepsSound_acceptTarget (a0 : Byte) (a1 : RailId) (a2 : Bool) (a3 : BitVec 16) (s : State) : KeepsSound s (acceptTarget a0 a1 a2 a3 s) := by
  unfold acceptTarget
  try dsimp only
  refine keepsSound_ite ?_ ?_
  · refine KeepsSound.trans ?_ (keepsSound_openWatch _ _ _)
    refine KeepsSound.trans ?_ (keepsSound_answer _ _ _ _ _ _)
    refine KeepsSound.trans ?_ (keepsSound_of_within (within_State_modRail _ _ _) (by decide))
    refine keepsSound_ite ?_ ?_
    · refine KeepsSound.trans ?_ (keepsSound_closeWatch _ _ _ _ _ (fun e d x => keepsSound_occur e d x))
      exact keepsSound_takeTarget _ _ _ _
    · exact keepsSound_takeTarget _ _ _ _
  · refine KeepsSound.trans ?_ (keepsSound_answer _ _ _ _ _ _)
    refine KeepsSound.trans ?_ (keepsSound_of_within (within_State_modRail _ _ _) (by decide))
    refine keepsSound_ite ?_ ?_
    · refine KeepsSound.trans ?_ (keepsSound_closeWatch _ _ _ _ _ (fun e d x => keepsSound_occur e d x))
      exact keepsSound_takeTarget _ _ _ _
    · exact keepsSound_takeTarget _ _ _ _

theorem keepsSound_duplicate (a0 : Byte) (a1 : RailId) (a2 : BitVec 16) (s : State) : KeepsSound s (duplicate a0 a1 a2 s) := by
  unfold duplicate
  try dsimp only
  split
  · refine keepsSound_ite ?_ ?_
    · refine KeepsSound.trans ?_ (keepsSound_pushSettled _ _ _ (fun e d x => keepsSound_occur e d x))
      refine KeepsSound.trans ?_ (keepsSound_answer _ _ _ _ _ _)
      exact keepsSound_set_link _ _ (fun h => h)
    · refine KeepsSound.trans ?_ (keepsSound_answer _ _ _ _ _ _)
      exact keepsSound_set_link _ _ (fun h => h)
  · refine KeepsSound.trans ?_ (keepsSound_answer _ _ _ _ _ _)
    exact keepsSound_set_link _ _ (fun h => h)

theorem keepsSound_judgeTarget (a0 : Byte) (a1 : RailId) (a2 : BitVec 5) (a3 : BitVec 16) (s : State) : KeepsSound s (judgeTarget a0 a1 a2 a3 s) := by
  unfold judgeTarget
  try dsimp only
  refine keepsSound_ite ?_ ?_
  · exact keepsSound_answer _ _ _ _ _ _
  · refine keepsSound_ite ?_ ?_
    · exact keepsSound_answer _ _ _ _ _ _
    · refine keepsSound_ite ?_ ?_
      · exact keepsSound_duplicate _ _ _ _
      · refine keepsSound_ite ?_ ?_
        · exact keepsSound_answer _ _ _ _ _ _
        · refine keepsSound_ite ?_ ?_
          · exact keepsSound_answer _ _ _ _ _ _
          · exact keepsSound_acceptTarget _ _ _ _ _

theorem keepsSound_judgeQuery (a0 : Byte) (a1 : RailId) (a2 : BitVec 5) (a3 : BitVec 16) (s : State) : KeepsSound s (judgeQuery a0 a1 a2 a3 s) := by
  unfold judgeQuery
  try dsimp only
  split
  · exact keepsSound_answer _ _ _ _ _ _
  · refine keepsSound_ite ?_ ?_
    · exact keepsSound_answer _ _ _ _ _ _
    · refine keepsSound_ite ?_ ?_
      · exact keepsSound_answer _ _ _ _ _ _
      · exact keepsSound_answer _ _ _ _ _ _

theorem keepsSound_judgePing (a0 : Byte) (a1 : RailId) (a2 : BitVec 5) (a3 : BitVec 16) (s : State) : KeepsSound s (judgePing a0 a1 a2 a3 s) := by
  unfold judgePing
  try dsimp only
  refine keepsSound_ite ?_ ?_
  · exact keepsSound_answer _ _ _ _ _ _
  · exact keepsSound_answer _ _ _ _ _ _

theorem keepsSound_clkRuns (s : State) : KeepsSound s (clkRuns s) := by
  unfold clkRuns
  try dsimp only
  refine keepsSound_ite ?_ ?_
  · exact keepsSound_set_link _ _ (fun h => h)
  · exact KeepsSound.refl

theorem keepsSound_frameAccepted (s : State) : KeepsSound s (frameAccepted s) := by
  unfold frameAccepted
  try dsimp only
  refine keepsSound_ite ?_ ?_
  · refine KeepsSound.trans ?_ (keepsSound_occur _ _ _)
    exact keepsSound_set_link _ _ (fun h => h)
  · exact keepsSound_set_link _ _ (fun h => h)

theorem keepsSound_judgeFrame (a0 : Byte) (a1 : Byte) (a2 : RailId) (a3 : BitVec 5) (a4 : BitVec 16) (s : State) : KeepsSound s (judgeFrame a0 a1 a2 a3 a4 s) := by
  unfold judgeFrame
  try dsimp only
  refine keepsSound_ite ?_ ?_
  · refine keepsSound_ite ?_ ?_
    · refine KeepsSound.trans ?_ (keepsSound_judgeTarget _ _ _ _ _)
      refine KeepsSound.trans ?_ (keepsSound_frameAccepted _)
      exact keepsSound_clkRuns _
    · refine keepsSound_ite ?_ ?_
      · refine KeepsSound.trans ?_ (keepsSound_judgeQuery _ _ _ _ _)
        refine KeepsSound.trans ?_ (keepsSound_frameAccepted _)
        exact keepsSound_clkRuns _
      · refine keepsSound_ite ?_ ?_
        · refine KeepsSound.trans ?_ (keepsSound_judgePing _ _ _ _ _)
          refine KeepsSound.trans ?_ (keepsSound_frameAccepted _)
          exact keepsSound_clkRuns _
        · refine KeepsSound.trans ?_ (keepsSound_answer _ _ _ _ _ _)
          refine KeepsSound.trans ?_ (keepsSound_frameAccepted _)
          exact keepsSound_clkRuns _
  · exact keepsSound_clkRuns _

theorem keepsSound_linkFrameError (a0 : BitVec 48) (a1 : Bool) (s : State) : KeepsSound s (linkFrameError a0 a1 s) := by
  unfold linkFrameError
  try dsimp only
  refine keepsSound_ite ?_ ?_
  · refine keepsSound_ite ?_ ?_
    · refine KeepsSound.trans ?_ (keepsSound_occur _ _ _)
      refine KeepsSound.trans ?_ (keepsSound_set_link _ _ (fun h => h))
      exact keepsSound_clkRuns _
    · refine keepsSound_ite ?_ ?_
      · refine KeepsSound.trans ?_ (keepsSound_occur _ _ _)
        refine KeepsSound.trans ?_ (keepsSound_set_link _ _ (fun h => h))
        exact keepsSound_clkRuns _
      · refine KeepsSound.trans ?_ (keepsSound_judgeFrame _ _ _ _ _ _)
        exact keepsSound_clkRuns _
  · exact keepsSound_clkRuns _

theorem keepsSound_glClkStop (a0 : Bool) (a1 : Bool) (s : State) : KeepsSound s (glClkStop a0 a1 s) := by
  unfold glClkStop
  try dsimp only
  refine keepsSound_ite ?_ ?_
  · refine KeepsSound.trans ?_ (keepsSound_occur _ _ _)
    exact keepsSound_set_link _ _ (fun h => h)
  · exact keepsSound_set_link _ _ (fun h => h)

theorem keepsSound_sendAck (s : State) : KeepsSound s (sendAck s) := by
  unfold sendAck
  try dsimp only
  split
  · exact KeepsSound.refl
  · refine keepsSound_ite ?_ ?_
    · exact keepsSound_set_link _ _ (fun h => h)
    · exact KeepsSound.refl

theorem keepsSound_sendSettled (s : State) : KeepsSound s (sendSettled s) := by
  unfold sendSettled
  split
  · rename_i f rest ha hq
    split
    · refine KeepsSound.trans (keepsSound_set_link _ _ (fun h => ?_)) (keepsSound_of_within (within_State_modRail _ _ _) (by decide))
      rw [hq, List.length_cons] at h
      exact Nat.le_of_succ_le h
    · exact KeepsSound.refl
  · exact KeepsSound.refl

theorem keepsSound_loadLapse (s : State) : KeepsSound s (loadLapse s) := by
  unfold loadLapse
  try dsimp only
  split
  · refine keepsSound_ite ?_ ?_
    · refine KeepsSound.trans ?_ (keepsSound_occur _ _ _)
      exact keepsSound_set_link _ _ (fun h => h)
    · exact KeepsSound.refl
  · exact KeepsSound.refl

theorem keepsSound_claimRefuse (a0 : HostId) (a1 : ℕ) (s : State) : KeepsSound s (claimRefuse a0 a1 s) := by
  unfold claimRefuse
  try dsimp only
  refine KeepsSound.trans ?_ (keepsSound_occur _ _ _)
  refine KeepsSound.trans ?_ (keepsSound_of_within (within_State_modHost _ _ _) (by decide))
  exact keepsSound_of_within (within_refuse _ _) (by decide)

theorem keepsSound_setOwner (a0 : Option HostId) (a1 : ℕ) (a2 : ℕ) (s : State) : KeepsSound s (setOwner a0 a1 a2 s) := by
  unfold setOwner
  try dsimp only
  refine KeepsSound.trans ?_ (keepsSound_replAbort _)
  refine KeepsSound.trans ?_ (keepsSound_occur _ _ _)
  exact keepsSound_of_within (within_set_bus _ _) (by decide)

theorem keepsSound_claimWrite (a0 : HostId) (a1 : Word) (s : State) : KeepsSound s (claimWrite a0 a1 s) := by
  unfold claimWrite
  try dsimp only
  refine keepsSound_ite ?_ ?_
  · split
    · exact keepsSound_setOwner _ _ _ _
    · refine keepsSound_ite ?_ ?_
      · exact KeepsSound.refl
      · refine keepsSound_ite ?_ ?_
        · exact keepsSound_setOwner _ _ _ _
        · refine keepsSound_ite ?_ ?_
          · exact keepsSound_setOwner _ _ _ _
          · exact keepsSound_claimRefuse _ _ _
  · refine keepsSound_ite ?_ ?_
    · exact keepsSound_setOwner _ _ _ _
    · exact keepsSound_of_within (within_refuse _ _) (by decide)

theorem keepsSound_hbWrite (a0 : HostId) (a1 : HostId) (a2 : Word) (s : State) : KeepsSound s (hbWrite a0 a1 a2 s) := by
  unfold hbWrite
  try dsimp only
  refine keepsSound_ite ?_ ?_
  · refine KeepsSound.trans ?_ (keepsSound_setFallback _ _)
    exact keepsSound_of_within (within_State_modHost _ _ _) (by decide)
  · exact keepsSound_of_within (within_refuse _ _) (by decide)

theorem keepsSound_heartbeatLapse (a0 : HostId) (s : State) : KeepsSound s (heartbeatLapse a0 s) := by
  unfold heartbeatLapse
  try dsimp only
  split
  · exact KeepsSound.refl
  · refine keepsSound_ite ?_ ?_
    · refine keepsSound_ite ?_ ?_
      · refine KeepsSound.trans ?_ (keepsSound_occur _ _ _)
        exact keepsSound_of_within (within_State_modHost _ _ _) (by decide)
      · refine KeepsSound.trans ?_ (keepsSound_setFallback _ _)
        refine KeepsSound.trans ?_ (keepsSound_occur _ _ _)
        exact keepsSound_of_within (within_State_modHost _ _ _) (by decide)
    · exact KeepsSound.refl

theorem keepsSound_seqWrite (a0 : RailId) (a1 : Word) (s : State) : KeepsSound s (seqWrite a0 a1 s) := by
  unfold seqWrite
  try dsimp only
  refine KeepsSound.trans ?_ (keepsSound_resumeStops _ _ (fun e d x => keepsSound_occur e d x))
  refine KeepsSound.trans ?_ (keepsSound_lenJudge _ _ _)
  refine KeepsSound.trans ?_ (keepsSound_of_within (within_seqRewrite _ _ _) (by decide))
  exact keepsSound_putWord _ _ _

theorem keepsSound_regionWrite (a0 : RailId) (a1 : Word) (s : State) : KeepsSound s (regionWrite a0 a1 s) := by
  unfold regionWrite
  try dsimp only
  refine keepsSound_ite ?_ ?_
  · refine KeepsSound.trans ?_ (keepsSound_of_within (within_takeEntry _ _ _) (by decide))
    refine KeepsSound.trans ?_ (keepsSound_of_within (within_State_modMo _ _ _) (by decide))
    exact keepsSound_putWord _ _ _
  · exact keepsSound_putWord _ _ _

theorem keepsSound_limitWrite (a0 : RailId) (a1 : Word) (s : State) : KeepsSound s (limitWrite a0 a1 s) := by
  unfold limitWrite
  try dsimp only
  refine KeepsSound.trans ?_ (keepsSound_throttleBegin _ _ _)
  refine KeepsSound.trans ?_ (keepsSound_of_within (within_feedforward _ _) (by decide))
  exact keepsSound_putWord _ _ _

theorem keepsSound_settingWrite (a0 : TileId) (a1 : TileSetting) (a2 : TileReg) (a3 : Word) (s : State) : KeepsSound s (settingWrite a0 a1 a2 a3 s) := by
  unfold settingWrite
  try dsimp only
  refine KeepsSound.trans ?_ (keepsSound_of_within (within_State_modTile _ _ _) (by decide))
  exact keepsSound_putWord _ _ _

theorem keepsSound_holdAlert (s : State) : KeepsSound s (holdAlert s) := by
  unfold holdAlert
  try dsimp only
  refine keepsSound_ite ?_ ?_
  · exact keepsSound_set_ev _ _ (fun h => h)
  · exact KeepsSound.refl

theorem keepsSound_storeWord (a0 : Reg) (a1 : Word) (s : State) : KeepsSound s (storeWord a0 a1 s) := by
  unfold storeWord
  try dsimp only
  split
  · refine KeepsSound.trans ?_ (keepsSound_of_within (within_feedforward _ _) (by decide))
    exact keepsSound_putWord _ _ _
  · exact keepsSound_limitWrite _ _ _
  · exact keepsSound_seqWrite _ _ _
  · refine KeepsSound.trans ?_ (keepsSound_of_within (within_lockOff _ _) (by decide))
    exact keepsSound_putWord _ _ _
  · refine KeepsSound.trans ?_ (keepsSound_syncInOff _)
    exact keepsSound_putWord _ _ _
  · exact keepsSound_regionWrite _ _ _
  · exact keepsSound_settingWrite _ _ _ _ _
  · exact keepsSound_settingWrite _ _ _ _ _
  · exact keepsSound_settingWrite _ _ _ _ _
  · exact keepsSound_settingWrite _ _ _ _ _
  · exact keepsSound_linkCfgSet _ _
  · refine KeepsSound.trans ?_ (keepsSound_of_within (within_set_ka _ _) (by decide))
    exact keepsSound_putWord _ _ _
  · refine KeepsSound.trans ?_ (keepsSound_of_within (within_set_ka _ _) (by decide))
    exact keepsSound_putWord _ _ _
  · exact keepsSound_of_within (within_set_ka _ _) (by decide)
  · exact keepsSound_of_within (within_set_ka _ _) (by decide)
  · refine KeepsSound.trans ?_ (keepsSound_putWord _ _ _)
    exact keepsSound_holdAlert _
  · refine keepsSound_ite ?_ ?_
    · exact KeepsSound.refl
    · refine KeepsSound.trans ?_ (keepsSound_fsumChanged _)
      exact keepsSound_of_within (within_set_ldr _ _) (by decide)
  · exact keepsSound_putWord _ _ _

theorem keepsSound_clearW1c (a0 : Reg) (a1 : Word) (s : State) : KeepsSound s (clearW1c a0 a1 s) := by
  unfold clearW1c
  try dsimp only
  split
  · exact keepsSound_of_within (within_State_modEng _ _ _) (by decide)
  · exact keepsSound_of_within (within_State_modProt _ _ _) (by decide)
  · exact keepsSound_of_within (within_State_modFe _ _ _) (by decide)
  · exact keepsSound_of_within (within_State_modLeap _ _ _) (by decide)
  · exact keepsSound_of_within (within_State_modTile _ _ _) (by decide)
  · exact keepsSound_of_within (within_State_modTile _ _ _) (by decide)
  · exact keepsSound_of_within (within_set_pwr _ _) (by decide)
  · exact keepsSound_of_within (within_set_sync _ _) (by decide)
  · refine KeepsSound.trans ?_ (keepsSound_set_ev _ _ (fun h => h))
    exact keepsSound_holdAlert _
  · exact keepsSound_set_ev _ _ (fun h => h)
  · exact keepsSound_of_within (within_set_ka _ _) (by decide)
  · exact keepsSound_of_within (within_set_bus _ _) (by decide)
  · exact keepsSound_of_within (within_set_hk _ _) (by decide)
  · exact keepsSound_set_jrn _ _ (fun h => h)
  · exact keepsSound_set_xm _ _ (fun h => h) (fun h => h)
  · exact keepsSound_set_nvm _ _ (fun h => h) (fun h => h)
  · refine keepsSound_ite ?_ ?_
    · exact keepsSound_of_within (within_set_ka _ _) (by decide)
    · exact KeepsSound.refl
  · exact keepsSound_set_map _ _ (fun h => h)
  · exact keepsSound_of_within (within_set_test _ _) (by decide)
  · exact KeepsSound.refl

theorem keepsSound_plainWrite (a0 : HostId) (a1 : Reg) (a2 : Word) (s : State) : KeepsSound s (plainWrite a0 a1 a2 s) := by
  unfold plainWrite
  try dsimp only
  refine keepsSound_ite ?_ ?_
  · refine keepsSound_ite ?_ ?_
    · exact keepsSound_clearW1c _ _ _
    · refine KeepsSound.trans ?_ (keepsSound_storeWord _ _ _)
      exact keepsSound_clearW1c _ _ _
  · refine KeepsSound.trans ?_ (keepsSound_of_within (within_refuse _ _) (by decide))
    refine keepsSound_ite ?_ ?_
    · exact keepsSound_clearW1c _ _ _
    · refine KeepsSound.trans ?_ (keepsSound_storeWord _ _ _)
      exact keepsSound_clearW1c _ _ _

theorem keepsSound_targetWrite (a0 : HostId) (a1 : RailId) (a2 : Word) (s : State) : KeepsSound s (targetWrite a0 a1 a2 s) := by
  unfold targetWrite
  try dsimp only
  refine keepsSound_ite ?_ ?_
  · exact keepsSound_of_within (within_refuse _ _) (by decide)
  · exact keepsSound_takeTarget _ _ _ _

theorem keepsSound_coefDataWrite (a0 : HostId) (a1 : RailId) (a2 : Word) (s : State) : KeepsSound s (coefDataWrite a0 a1 a2 s) := by
  unfold coefDataWrite
  try dsimp only
  refine keepsSound_ite ?_ ?_
  · exact keepsSound_set_coef _ _ (fun h => Store.wf_set h _ _)
  · exact keepsSound_of_within (within_refuse _ _) (by decide)

theorem keepsSound_mapDataStore (a0 : HostId) (a1 : Word) (s : State) : KeepsSound s (mapDataStore a0 a1 s) := by
  unfold mapDataStore
  try dsimp only
  refine keepsSound_ite ?_ ?_
  · refine KeepsSound.trans ?_ (keepsSound_of_within (within_safeEntryStored _ _) (by decide))
    exact keepsSound_set_map _ _ (fun h => Store.wf_set h _ _)
  · exact keepsSound_of_within (within_refuse _ _) (by decide)

theorem keepsSound_classClear (a0 : HostId) (a1 : Reg) (a2 : Nat) (a3 : State → State) (a4 : Word) (s : State)
    (hr : ∀ x, KeepsSound x (a3 x)) : KeepsSound s (classClear a0 a1 a2 a3 a4 s) := by
  unfold classClear
  dsimp only
  refine keepsSound_ite (keepsSound_ite ?_ ?_) ?_
  · exact (keepsSound_clearW1c _ _ _).trans (hr _)
  · exact (keepsSound_clearW1c _ _ _).trans (keepsSound_of_within (within_refuse _ _) (by decide))
  · exact keepsSound_clearW1c _ _ _

theorem keepsSound_snsCalWrite (a0 : HostId) (a1 : RailId) (a2 : Word) (s : State) : KeepsSound s (snsCalWrite a0 a1 a2 s) := by
  unfold snsCalWrite
  try dsimp only
  refine keepsSound_ite ?_ ?_
  · exact keepsSound_of_within (within_refuse _ _) (by decide)
  · exact keepsSound_plainWrite _ _ _ _

theorem keepsSound_writeReg (a0 : Bool) (a1 : HostId) (a2 : Reg) (a3 : Word) (s : State) : KeepsSound s (writeReg a0 a1 a2 a3 s) := by
  unfold writeReg
  try dsimp only
  split
  · exact keepsSound_writeCmd _ _ _ _
  · exact keepsSound_targetWrite _ _ _ _
  · refine KeepsSound.trans ?_ (keepsSound_of_within (within_requestSet _ _ _) (by decide))
    exact keepsSound_putWord _ _ _
  · exact keepsSound_snsCalWrite _ _ _ _
  · exact keepsSound_of_within (within_State_modHost _ _ _) (by decide)
  · exact keepsSound_coefDataWrite _ _ _ _
  · exact keepsSound_classClear _ _ _ _ _ _ (fun x => keepsSound_clearRailClass _ _ x)
  · refine keepsSound_ite ?_ ?_
    · refine KeepsSound.trans ?_ (keepsSound_of_within (within_autozeroAsk _ _ _) (by decide))
      exact keepsSound_clearW1c _ _ _
    · exact keepsSound_clearW1c _ _ _
  · exact keepsSound_classClear _ _ _ _ _ _ (fun x => keepsSound_clearTileClass _ _ x)
  · exact keepsSound_of_within (within_tripLatchWrite _ _ _ _) (by decide)
  · exact keepsSound_admitWrite _ _ _ _ _
  · refine keepsSound_ite ?_ ?_
    · exact keepsSound_plainWrite _ _ _ _
    · exact keepsSound_of_within (within_refuse _ _) (by decide)
  · refine keepsSound_ite ?_ ?_
    · exact keepsSound_plainWrite _ _ _ _
    · exact keepsSound_of_within (within_refuse _ _) (by decide)
  · exact keepsSound_pwrCmd _ _ _ _
  · exact keepsSound_domCtlWrite _ _ _
  · exact keepsSound_rstCmdWrite _ _ _
  · exact keepsSound_svcCtlWrite _ _
  · exact keepsSound_claimWrite _ _ _
  · exact keepsSound_hbWrite _ _ _ _
  · exact keepsSound_hbWrite _ _ _ _
  · exact keepsSound_linkAuthSet _ _
  · exact keepsSound_of_within (within_xchkWrite _ _ _) (by decide)
  · refine keepsSound_ite ?_ ?_
    · exact keepsSound_of_within (within_clearPeaks _) (by decide)
    · exact KeepsSound.refl
  · exact keepsSound_of_within (within_State_modHost _ _ _) (by decide)
  · exact keepsSound_of_within (within_State_modHost _ _ _) (by decide)
  · exact keepsSound_of_within (within_State_modHost _ _ _) (by decide)
  · exact keepsSound_of_within (within_nvmIdxWrite _ _ _) (by decide)
  · exact keepsSound_xmIdxWrite _ _ _
  · exact keepsSound_mapDataStore _ _ _
  · exact keepsSound_nvmDataWrite _ _ _
  · exact keepsSound_nvmCmd _ _ _ _
  · exact keepsSound_of_within (within_jrnMove _ _ _) (by decide)
  · exact keepsSound_recCtl _ _ _
  · exact keepsSound_imgCtlWrite _ _ _ _
  · exact keepsSound_imgData _ _ _
  · exact keepsSound_rtcSet1Write _ _ _
  · refine keepsSound_ite ?_ ?_
    · exact keepsSound_of_within (within_chgClear _) (by decide)
    · exact KeepsSound.refl
  · exact keepsSound_brumCtlWrite _ _ _
  · refine keepsSound_ite ?_ ?_
    · exact keepsSound_of_within (within_bistAsk _ _) (by decide)
    · exact KeepsSound.refl
  · exact keepsSound_plainWrite _ _ _ _

theorem keepsSound_busWord (a0 : Bool) (a1 : HostId) (a2 : ℕ) (a3 : Word) (s : State) : KeepsSound s (busWord a0 a1 a2 a3 s) := by
  unfold busWord
  try dsimp only
  refine keepsSound_ite ?_ ?_
  · exact KeepsSound.refl
  · split
    · refine keepsSound_ite ?_ ?_
      · exact keepsSound_of_within (within_refuse _ _) (by decide)
      · exact keepsSound_claimRefuse _ _ _
    · refine KeepsSound.trans ?_ (keepsSound_of_within (within_indexStep _ _ _) (by decide))
      refine keepsSound_ite ?_ ?_
      · exact keepsSound_claimRefuse _ _ _
      · refine keepsSound_ite ?_ ?_
        · exact keepsSound_writeReg _ _ _ _ _
        · exact keepsSound_of_within (within_refuse _ _) (by decide)

theorem keepsSound_State_modEvSrc (s : State) (a1 : ℕ) (a2 : (EventSource → EventSource)) : KeepsSound s (State.modEvSrc s a1 a2) := by
  unfold State.modEvSrc
  try dsimp only
  exact keepsSound_set_ev _ _ (fun h => h)

theorem keepsSound_readCommit (a0 : HostId) (a1 : Reg) (s : State) : KeepsSound s (readCommit a0 a1 s) := by
  unfold readCommit
  try dsimp only
  split
  · exact keepsSound_of_within (within_State_modEng _ _ _) (by decide)
  · exact keepsSound_of_within (within_State_modProt _ _ _) (by decide)
  · exact keepsSound_of_within (within_State_modLeap _ _ _) (by decide)
  · exact keepsSound_of_within (within_State_modIlv _ _ _) (by decide)
  · exact keepsSound_of_within (within_State_modMo _ _ _) (by decide)
  · exact keepsSound_of_within (within_State_modTile _ _ _) (by decide)
  · exact keepsSound_of_within (within_State_modTile _ _ _) (by decide)
  · exact keepsSound_of_within (within_State_modTile _ _ _) (by decide)
  · exact keepsSound_of_within (within_State_modTile _ _ _) (by decide)
  · exact keepsSound_of_within (within_State_modTile _ _ _) (by decide)
  · exact keepsSound_of_within (within_set_pwr _ _) (by decide)
  · exact keepsSound_of_within (within_set_sync _ _) (by decide)
  · exact keepsSound_set_ev _ _ (fun h => h)
  · refine KeepsSound.trans ?_ (keepsSound_of_within (within_State_modHost _ _ _) (by decide))
    exact keepsSound_State_modEvSrc _ _ _
  · exact keepsSound_of_within (within_set_ka _ _) (by decide)
  · exact keepsSound_of_within (within_set_draw _ _) (by decide)
  · exact keepsSound_of_within (within_set_bus _ _) (by decide)
  · exact keepsSound_of_within (within_State_modHost _ _ _) (by decide)
  · exact keepsSound_of_within (within_State_modHost _ _ _) (by decide)
  · exact keepsSound_of_within (within_set_bus _ _) (by decide)
  · exact keepsSound_set_link _ _ (fun h => h)
  · exact keepsSound_set_link _ _ (fun h => h)
  · exact keepsSound_of_within (within_set_tel _ _) (by decide)
  · exact keepsSound_of_within (within_State_modRailPeaks _ _ _) (by decide)
  · exact keepsSound_of_within (within_State_modRailPeaks _ _ _) (by decide)
  · exact keepsSound_of_within (within_State_modRailPeaks _ _ _) (by decide)
  · exact keepsSound_of_within (within_State_modRailPeaks _ _ _) (by decide)
  · exact keepsSound_of_within (within_State_modTilePeaks _ _ _) (by decide)
  · exact keepsSound_of_within (within_State_modTilePeaks _ _ _) (by decide)
  · exact keepsSound_set_jrn _ _ (fun h => h)
  · exact keepsSound_of_within (within_State_modHost _ _ _) (by decide)
  · refine keepsSound_ite ?_ ?_
    · exact keepsSound_popEntry _ _
    · exact KeepsSound.refl
  · exact keepsSound_set_xm _ _ (fun h => h) (fun h => h)
  · refine keepsSound_ite ?_ ?_
    · exact keepsSound_xmAdvance _ _
    · exact KeepsSound.refl
  · exact keepsSound_of_within (within_set_rcd _ _) (by decide)
  · exact keepsSound_of_within (within_State_modHost _ _ _) (by decide)
  · exact keepsSound_set_nvm _ _ (fun h => h) (fun h => h)
  · exact keepsSound_set_nvm _ _ (fun h => h) (fun h => h)
  · exact keepsSound_of_within (within_set_ka _ _) (by decide)
  · exact keepsSound_set_map _ _ (fun h => h)
  · exact keepsSound_of_within (within_set_test _ _) (by decide)
  · exact keepsSound_of_within (within_set_test _ _) (by decide)
  · exact keepsSound_of_within (within_indexStep _ _ _) (by decide)

theorem keepsSound_checkEntry (a0 : HostId) (a1 : Ecc) (s : State) : KeepsSound s (checkEntry a0 a1 s) := by
  unfold checkEntry
  try dsimp only
  split
  · exact KeepsSound.refl
  · exact keepsSound_checkRing _ _ _

theorem keepsSound_checkFrames (a0 : HostId) (a1 : Ecc) (s : State) : KeepsSound s (checkFrames a0 a1 s) := by
  unfold checkFrames
  try dsimp only
  refine keepsSound_ite ?_ ?_
  · split
    · exact KeepsSound.refl
    · exact keepsSound_of_within (within_recFixed _) (by decide)
    · exact keepsSound_recError _
  · exact KeepsSound.refl

theorem keepsSound_readSample (a0 : HostId) (a1 : Ecc) (a2 : Reg) (s : State) : KeepsSound s (readSample a0 a1 a2 s) := by
  unfold readSample
  try dsimp only
  split
  · refine keepsSound_ite ?_ ?_
    · exact KeepsSound.refl
    · refine keepsSound_ite ?_ ?_
      · exact keepsSound_readTableWord _ _ _
      · refine keepsSound_ite ?_ ?_
        · refine KeepsSound.trans ?_ (keepsSound_set_map _ _ (fun h => h))
          exact keepsSound_readMapWord _ _ _
        · exact keepsSound_readMapWord _ _ _
  · split
    · exact KeepsSound.refl
    · exact keepsSound_of_within (within_shadowFixed _) (by decide)
    · exact keepsSound_shadowError _ _
  · refine keepsSound_ite ?_ ?_
    · refine KeepsSound.trans ?_ (keepsSound_of_within (within_loadEntry _ _) (by decide))
      exact keepsSound_checkEntry _ _ _
    · exact KeepsSound.refl
  · exact keepsSound_checkFrames _ _ _
  · exact keepsSound_of_within (within_set_bus _ _) (by decide)
  · exact KeepsSound.refl

theorem keepsSound_readOne (a0 : HostId) (a1 : ℕ) (a2 : Ecc) (a3 : Bool) (s : State) : KeepsSound s (readOne a0 a1 a2 a3 s) := by
  unfold readOne
  dsimp only [State.drawFree]
  split
  · refine keepsSound_ite ?_ ?_
    · refine KeepsSound.trans ?_ (keepsSound_of_within (within_pointTo _ _ _) (by decide))
      exact keepsSound_of_within (within_sendWord _ _) (by decide)
    · exact keepsSound_of_within (within_sendWord _ _) (by decide)
  · refine keepsSound_ite ?_ ?_
    · refine keepsSound_ite ?_ ?_
      · refine KeepsSound.trans ?_ (keepsSound_of_within (within_pointTo _ _ _) (by decide))
        refine KeepsSound.trans ?_ (keepsSound_readCommit _ _ _)
        refine keepsSound_ite ?_ ?_
        · refine KeepsSound.trans ?_ (keepsSound_of_within (within_sendWord _ _) (by decide))
          refine KeepsSound.trans ?_ (keepsSound_of_within (within_set_free _ _) (by decide))
          exact keepsSound_readSample _ _ _ _
        · refine KeepsSound.trans ?_ (keepsSound_of_within (within_sendWord _ _) (by decide))
          exact keepsSound_readSample _ _ _ _
      · refine keepsSound_ite ?_ ?_
        · refine KeepsSound.trans ?_ (keepsSound_of_within (within_sendWord _ _) (by decide))
          refine KeepsSound.trans ?_ (keepsSound_of_within (within_set_free _ _) (by decide))
          exact keepsSound_readSample _ _ _ _
        · refine KeepsSound.trans ?_ (keepsSound_of_within (within_sendWord _ _) (by decide))
          exact keepsSound_readSample _ _ _ _
    · refine keepsSound_ite ?_ ?_
      · refine KeepsSound.trans ?_ (keepsSound_of_within (within_pointTo _ _ _) (by decide))
        refine keepsSound_ite ?_ ?_
        · refine KeepsSound.trans ?_ (keepsSound_of_within (within_indexStep _ _ _) (by decide))
          exact keepsSound_of_within (within_sendWord _ _) (by decide)
        · exact keepsSound_of_within (within_sendWord _ _) (by decide)
      · exact keepsSound_of_within (within_sendWord _ _) (by decide)

theorem keepsSound_readWords (a0 : HostId) (a1 a2 : Nat) (a3 : Bool) (a4 : List Ecc) (s : State) :
    KeepsSound s (readWords a0 a1 a2 a3 a4 s) := by
  induction a1 generalizing a2 a4 s with
  | zero => exact KeepsSound.refl
  | succ n ih =>
    cases n with
    | zero => exact keepsSound_readOne _ _ _ _ _
    | succ n =>
      exact ((keepsSound_readOne _ _ _ _ _).trans (keepsSound_laterCycle _)).trans (ih _ _ _)

theorem keepsSound_protoError (a0 : HostId) (a1 : ℕ) (s : State) : KeepsSound s (protoError a0 a1 s) := by
  unfold protoError
  try dsimp only
  refine KeepsSound.trans ?_ (keepsSound_occur _ _ _)
  exact keepsSound_of_within (within_set_bus _ _) (by decide)

theorem keepsSound_surplusError (a0 : HostId) (a1 : ℕ) (s : State) : KeepsSound s (surplusError a0 a1 s) := by
  unfold surplusError
  try dsimp only
  refine KeepsSound.trans ?_ (keepsSound_protoError _ _ _)
  exact keepsSound_of_within (within_set_bus _ _) (by decide)

theorem keepsSound_readData (a0 : HostId) (a1 : ReadAccess) (s : State) : KeepsSound s (readData a0 a1 s) := by
  unfold readData
  try dsimp only
  refine keepsSound_ite ?_ ?_
  · refine KeepsSound.trans ?_ (keepsSound_surplusError _ _ _)
    refine keepsSound_ite ?_ ?_
    · refine KeepsSound.trans ?_ (keepsSound_of_within (within_set_bus _ _) (by decide))
      refine KeepsSound.trans ?_ (keepsSound_readWords _ _ _ _ _ _)
      refine KeepsSound.trans ?_ (keepsSound_of_within (within_set_bus _ _) (by decide))
      refine KeepsSound.trans ?_ (keepsSound_of_within (within_openRead _ _) (by decide))
      refine KeepsSound.trans ?_ (keepsSound_of_within (within_addressPhase _ _ _ _) (by decide))
      exact keepsSound_of_within (within_showTrips _ _ _ _) (by decide)
    · refine KeepsSound.trans ?_ (keepsSound_of_within (within_set_bus _ _) (by decide))
      refine KeepsSound.trans ?_ (keepsSound_readWords _ _ _ _ _ _)
      refine KeepsSound.trans ?_ (keepsSound_of_within (within_set_bus _ _) (by decide))
      refine KeepsSound.trans ?_ (keepsSound_of_within (within_openRead _ _) (by decide))
      refine KeepsSound.trans ?_ (keepsSound_of_within (within_addressPhase _ _ _ _) (by decide))
      exact keepsSound_of_within (within_showTrips _ _ _ _) (by decide)
  · refine keepsSound_ite ?_ ?_
    · refine KeepsSound.trans ?_ (keepsSound_of_within (within_set_bus _ _) (by decide))
      refine KeepsSound.trans ?_ (keepsSound_readWords _ _ _ _ _ _)
      refine KeepsSound.trans ?_ (keepsSound_of_within (within_set_bus _ _) (by decide))
      refine KeepsSound.trans ?_ (keepsSound_of_within (within_openRead _ _) (by decide))
      refine KeepsSound.trans ?_ (keepsSound_of_within (within_addressPhase _ _ _ _) (by decide))
      exact keepsSound_of_within (within_showTrips _ _ _ _) (by decide)
    · refine KeepsSound.trans ?_ (keepsSound_of_within (within_set_bus _ _) (by decide))
      refine KeepsSound.trans ?_ (keepsSound_readWords _ _ _ _ _ _)
      refine KeepsSound.trans ?_ (keepsSound_of_within (within_set_bus _ _) (by decide))
      refine KeepsSound.trans ?_ (keepsSound_of_within (within_openRead _ _) (by decide))
      refine KeepsSound.trans ?_ (keepsSound_of_within (within_addressPhase _ _ _ _) (by decide))
      exact keepsSound_of_within (within_showTrips _ _ _ _) (by decide)

theorem keepsSound_busRead (a0 : HostId) (a1 : ReadAccess) (s : State) : KeepsSound s (busRead a0 a1 s) := by
  unfold busRead
  try dsimp only
  refine keepsSound_ite ?_ ?_
  · exact KeepsSound.refl
  · refine keepsSound_ite ?_ ?_
    · refine KeepsSound.trans ?_ (keepsSound_of_within (within_set_bus _ _) (by decide))
      refine KeepsSound.trans ?_ (keepsSound_of_within (within_openRead _ _) (by decide))
      exact keepsSound_of_within (within_addressPhase _ _ _ _) (by decide)
    · exact keepsSound_readData _ _ _

theorem keepsSound_busWrite1 (a0 : Bool) (a1 : HostId) (a2 : ℕ) (a3 : Word) (s : State) : KeepsSound s (busWrite1 a0 a1 a2 a3 s) := by
  unfold busWrite1
  try dsimp only
  refine keepsSound_ite ?_ ?_
  · exact KeepsSound.refl
  · refine KeepsSound.trans ?_ (keepsSound_busWord _ _ _ _ _)
    refine KeepsSound.trans ?_ (keepsSound_of_within (within_pointTo _ _ _) (by decide))
    refine KeepsSound.trans ?_ (keepsSound_of_within (within_set_bus _ _) (by decide))
    exact keepsSound_of_within (within_addressPhase _ _ _ _) (by decide)

theorem keepsSound_plainWords (a0 : HostId) (a1 : List Word) (a2 a3 : Nat) (s : State) : KeepsSound s (plainWords a0 a1 a2 a3 s) := by
  induction a1 generalizing a2 a3 s with
  | nil => exact KeepsSound.refl
  | cons w ws ih =>
    cases a3 with
    | zero =>
      unfold plainWords
      exact (keepsSound_of_within (within_set_bus _ _) (by decide)).trans (keepsSound_surplusError _ _ _)
    | succ left =>
      unfold plainWords
      dsimp only
      refine ((keepsSound_of_within (within_pointTo a0 (a2 + 4) s) (by decide)).trans (keepsSound_busWord true a0 a2 w _)).trans ?_
      exact keepsSound_ite KeepsSound.refl (keepsSound_ite (keepsSound_of_within (within_set_bus _ _) (by decide))
        ((keepsSound_laterCycle _).trans (ih _ _ _)))

theorem keepsSound_afterHold (s : State) : KeepsSound s (afterHold s) := by
  unfold afterHold
  try dsimp only
  refine keepsSound_ite ?_ ?_
  · exact KeepsSound.refl
  · split
    · refine KeepsSound.trans ?_ (keepsSound_plainWords _ _ _ _ _)
      refine KeepsSound.trans ?_ (keepsSound_laterCycle _)
      exact keepsSound_of_within (within_set_bus _ _) (by decide)
    · exact KeepsSound.refl

theorem keepsSound_codedWords (a0 : HostId) (a1 : Nat) (a2 : List Word) (s : State) : KeepsSound s (codedWords a0 a1 a2 s) := by
  induction a2 generalizing a1 s with
  | nil => exact KeepsSound.refl
  | cons w ws ih =>
    unfold codedWords
    exact keepsSound_ite (((keepsSound_of_within (within_pointTo _ _ _) (by decide)).trans
      (keepsSound_busWord _ _ _ _ _)).trans (ih _ _)) KeepsSound.refl

theorem keepsSound_writePlain (a0 : HostId) (a1 : ℕ) (a2 : List Word) (s : State) : KeepsSound s (writePlain a0 a1 a2 s) := by
  unfold writePlain
  try dsimp only
  refine KeepsSound.trans ?_ (keepsSound_plainWords _ _ _ _ _)
  refine KeepsSound.trans ?_ (keepsSound_of_within (within_set_bus _ _) (by decide))
  exact keepsSound_of_within (within_addressPhase _ _ _ _) (by decide)

theorem keepsSound_writeCoded (a0 : HostId) (a1 : ℕ) (a2 : List Word) (a3 : Option Byte) (s : State) : KeepsSound s (writeCoded a0 a1 a2 a3 s) := by
  unfold writeCoded
  try dsimp only
  refine keepsSound_ite ?_ ?_
  · refine KeepsSound.trans ?_ (keepsSound_of_within (within_set_bus _ _) (by decide))
    exact keepsSound_of_within (within_addressPhase _ _ _ _) (by decide)
  · split
    · refine KeepsSound.trans ?_ (keepsSound_of_within (within_set_bus _ _) (by decide))
      exact keepsSound_of_within (within_addressPhase _ _ _ _) (by decide)
    · refine keepsSound_ite ?_ ?_
      · refine KeepsSound.trans ?_ (keepsSound_codedWords _ _ _ _)
        refine KeepsSound.trans ?_ (keepsSound_of_within (within_set_bus _ _) (by decide))
        exact keepsSound_of_within (within_addressPhase _ _ _ _) (by decide)
      · refine KeepsSound.trans ?_ (keepsSound_occur _ _ _)
        refine KeepsSound.trans ?_ (keepsSound_of_within (within_set_bus _ _) (by decide))
        exact keepsSound_of_within (within_addressPhase _ _ _ _) (by decide)

theorem keepsSound_registerWrite (a0 : HostId) (a1 : Addr) (a2 : List Word) (a3 : Option Byte) (s : State) : KeepsSound s (registerWrite a0 a1 a2 a3 s) := by
  unfold registerWrite
  try dsimp only
  refine keepsSound_ite ?_ ?_
  · exact KeepsSound.refl
  · refine keepsSound_ite ?_ ?_
    · exact keepsSound_writeCoded _ _ _ _ _
    · exact keepsSound_writePlain _ _ _ _

theorem keepsSound_transactionEnd (a0 : HostId) (a1 : Bool) (a2 : Byte) (a3 : ℕ) (s : State) : KeepsSound s (transactionEnd a0 a1 a2 a3 s) := by
  unfold transactionEnd
  try dsimp only
  refine keepsSound_ite ?_ ?_
  · exact KeepsSound.refl
  · refine keepsSound_ite ?_ ?_
    · refine KeepsSound.trans ?_ (keepsSound_protoError _ _ _)
      refine KeepsSound.trans ?_ (keepsSound_of_within (within_closeTxn _) (by decide))
      exact keepsSound_of_within (within_set_bus _ _) (by decide)
    · refine KeepsSound.trans ?_ (keepsSound_of_within (within_closeTxn _) (by decide))
      exact keepsSound_of_within (within_set_bus _ _) (by decide)

theorem keepsSound_countSurplus (a0 : ℕ) (s : State) : KeepsSound s (countSurplus a0 s) := by
  unfold countSurplus
  try dsimp only
  split
  · exact KeepsSound.refl
  · refine keepsSound_ite ?_ ?_
    · refine KeepsSound.trans ?_ (keepsSound_surplusError _ _ _)
      exact keepsSound_of_within (within_set_bus _ _) (by decide)
    · exact KeepsSound.refl

theorem keepsSound_busInterrupt (a0 : HostId) (a1 : Byte) (s : State) : KeepsSound s (busInterrupt a0 a1 s) := by
  unfold busInterrupt
  try dsimp only
  refine keepsSound_ite ?_ ?_
  · refine KeepsSound.trans ?_ (keepsSound_protoError _ _ _)
    refine KeepsSound.trans ?_ (keepsSound_of_within (within_closeTxn _) (by decide))
    exact keepsSound_countSurplus _ _
  · exact KeepsSound.refl

theorem keepsSound_busTimeout (a0 : Byte) (s : State) : KeepsSound s (busTimeout a0 s) := by
  unfold busTimeout
  try dsimp only
  refine keepsSound_ite ?_ ?_
  · refine KeepsSound.trans ?_ (keepsSound_occur _ _ _)
    refine KeepsSound.trans ?_ (keepsSound_of_within (within_interfaceReset _) (by decide))
    refine KeepsSound.trans ?_ (keepsSound_of_within (within_set_bus _ _) (by decide))
    exact keepsSound_countSurplus _ _
  · exact KeepsSound.refl

theorem keepsSound_sdaRelease (a0 : Byte) (s : State) : KeepsSound s (sdaRelease a0 s) := by
  unfold sdaRelease
  try dsimp only
  refine keepsSound_ite ?_ ?_
  · refine KeepsSound.trans ?_ (keepsSound_occur _ _ _)
    refine KeepsSound.trans ?_ (keepsSound_of_within (within_interfaceReset _) (by decide))
    refine KeepsSound.trans ?_ (keepsSound_of_within (within_set_bus _ _) (by decide))
    exact keepsSound_countSurplus _ _
  · exact KeepsSound.refl

theorem keepsSound_commitHoldLimit (s : State) : KeepsSound s (commitHoldLimit s) := by
  unfold commitHoldLimit
  try dsimp only
  split
  · refine keepsSound_ite ?_ ?_
    · refine KeepsSound.trans ?_ (keepsSound_afterHold _)
      exact keepsSound_of_within (within_set_bus _ _) (by decide)
    · exact KeepsSound.refl
  · exact KeepsSound.refl

theorem keepsSound_writeAt (a0 : HostId) (a1 : Reg) (a2 : Word) (s : State) : KeepsSound s (writeAt a0 a1 a2 s) := by
  unfold writeAt
  try dsimp only
  exact keepsSound_busWrite1 _ _ _ _ _

theorem keepsSound_readAt (a0 : HostId) (a1 : Reg) (a2 : Ecc) (s : State) : KeepsSound s (readAt a0 a1 a2 s) := by
  unfold readAt
  try dsimp only
  exact keepsSound_busRead _ _ _

theorem keepsSound_tripLatchClear (a0 : HostId) (a1 : TileId) (a2 : Word) (a3 : Bool) (s : State) : KeepsSound s (tripLatchClear a0 a1 a2 a3 s) := by
  unfold tripLatchClear
  try dsimp only
  refine KeepsSound.trans ?_ (keepsSound_writeAt _ _ _ _)
  refine keepsSound_ite ?_ ?_
  · exact keepsSound_of_within (within_State_modTile _ _ _) (by decide)
  · exact KeepsSound.refl

end Sys2Proof.Machine
end

