-- ==== Sys2Proof/Tests/Slice0.lean ====
section
/-! SUPPORT. The author's own tests: ill-formed commands that the check refuses, a state that meets the hypotheses of each statement
(clause by clause), and single steps whose expected results are computed from the manual's rules by hand. -/

set_option Elab.async false

open Sys2Proof Sys2Proof.Machine

namespace Sys2Proof.Tests

/-! ### Ill-formed commands -/

theorem test_wf_windowSample : (Instr.windowSample 0 5000001).wf = false ∧ (Instr.windowSample 0 5000000).wf = true := by decide
theorem test_wf_registerWrite : (Instr.registerWrite .a 0 (List.replicate 256 0) none).wf = false
    ∧ (Instr.registerWrite .a 0 (List.replicate 255 0) none).wf = true := by decide +kernel
theorem test_wf_peakClearingRead : (Instr.peakClearingRead .a { addr := some 0, len := 256, regs := 1, whole := true, ecc := [] }).wf = false
    ∧ (Instr.peakClearingRead .a (.one 0x2000 .ok)).wf = true := by decide
theorem test_wf_clearingRead : (Instr.clearingRead .b { addr := none, len := 0, regs := 0, whole := true, ecc := [] }).wf = false
    ∧ (Instr.clearingRead .b { addr := none, len := 0, regs := 1, whole := true, ecc := [.double] }).wf = true := by decide
theorem test_wf_badFrame : (Instr.badFrame 0x12 0 0 0 0).wf = false ∧ (Instr.badFrame 0x14 0 0 0 0).wf = true := by decide
theorem test_wf_journalBurst : (Instr.journalBurst (List.replicate 9 .ok)).wf = false ∧ (Instr.journalBurst (List.replicate 8 .double)).wf = true := by decide
theorem test_wf_resetNLow : (Instr.resetNLow 0).wf = false ∧ (Instr.resetNLow 1).wf = true := by decide

/-! ### Small states -/

/-- RUN with every domain powered; host A holds the claim. -/
def up : State := { State.reset with
  pwr := { phase := .up, state := .run, target := .run, lga := true, lgb := true, banks := 15, hk := true, xmi := true }
  bus := { State.reset.bus with owner := some .a } }
/-- `s` with registers set. -/
def regs (s : State) (ws : List (Reg × Word)) : State := ws.foldl (fun s p => putWord s p.1 p.2) s
/-- `s` with event source e configured by the byte b of EV_CFG. -/
def evb (s : State) (e b : Nat) : State := regs s [(.evCfg (finOf 64 (by decide) (e / 4)), word (b * 256 ^ (e % 4)))]
/-- `s` with a service arm open. -/
def arm (s : State) : State := { s with ka := { s.ka with armUntil := some 10000000 } }

/-! ### Witnesses: the machine and the bus -/

theorem witness_StepRunsFrontCommand : ({ up with pending := [.ack, .settled] } : State).pending = .ack :: [.settled] := rfl
theorem witness_IdleStepPassesOneTick : up.pending = [] := rfl
theorem witness_StepKeepsStoresCanonical : up.Canonical ∧ up.Bounded ∧ ∃ t, step up = .next t := ⟨by decide, by decide, _, rfl⟩
theorem witness_CommandLeavesTheQueue : ∃ t, exec .ack up = .next t := ⟨_, rfl⟩
theorem witness_UnmappedAddressReadsZeroAndRefuses : coreOn up = true ∧ up.bus.holdFrom = none
    ∧ busAnswers up = true ∧ decodeAddr (0xFFFC#16).toNat = none ∧ Quiet up 137
    ∧ (pecOn up = true → ∃ p : Byte, some p = some p ∧ p.toNat = pecOf up .a 0xFFFC [0]) := by decide
def pecUp : State := { regs up [(.busCfg, 8)] with ldr := { up.ldr with rtMarks := [Reg.telCfg.addr] } }
theorem witness_RegisterWriteNeedsClaimAndMark :
    (∃ p : Byte, pecOn pecUp = true ∧ p.toNat = pecOf pecUp .b Reg.telCfg.addr [5])
    ∧ (coreOn pecUp = true ∧ pecUp.bus.holdFrom = none ∧ freeOfClaim .b .telCfg = false ∧ pecUp.bus.owner ≠ some .b ∧ Quiet pecUp 137 ∧ occurredNow pecUp 137 = false)
    ∧ (pecUp.Canonical ∧ WordLands pecUp .a .telCfg 5 ∧ pecUp.ldr.rtMarks.contains Reg.telCfg.addr = true)
    ∧ (up.Canonical ∧ WordLands up .a .telCfg 5 ∧ up.ldr.rtMarks.contains Reg.telCfg.addr = false)
    ∧ (∀ b ∈ [true, false], let s := { up with ldr := { up.ldr with rtMarks := [Reg.syncCfg.addr] }, sync := { up.sync with present := b } }
       s.Canonical ∧ WordLands s .a .syncCfg 0x100 ∧ Quiet s 112 ∧ s.ldr.rtMarks.contains Reg.syncCfg.addr = true ∧ s.sync.present = b) :=
  ⟨⟨BitVec.ofNat 8 (pecOf pecUp .b Reg.telCfg.addr [5]), by decide +kernel⟩, by decide +kernel, by decide +kernel, by decide +kernel,
    by decide +kernel⟩
def taken (alive : Bool) : State := { up with bus := { up.bus with hostA := { up.bus.hostA with alive := alive } } }
theorem witness_ClaimTakenAndReleased :
    (∀ s ∈ [up, taken true, taken false, arm (taken true), { up with bus := { up.bus with owner := none } }],
      coreOn s = true ∧ s.bus.holdFrom = none ∧ (∀ e ∈ [132, 133, 134, 137], Quiet s e ∧ occurredNow s e = false) ∧ replBusy s = false ∧ s.ev.queue.length < 512) := by decide
def beating : State := { regs up [(.busCfg, 0x00010000)] with
  now := ms 1 + 1, bus := { up.bus with hostA := { up.bus.hostA with alive := true, hbAt := some 0 } } }
theorem witness_HeartbeatKeptAndLapsed :
    (coreOn beating = true ∧ beating.bus.holdFrom = none ∧ (∀ e ∈ [135, 136, 137, 148], Quiet beating e) ∧ (beating.host .a).hbAt = some 0 ∧ (beating.host .a).alive = true
      ∧ hostWdt beating ≠ 0 ∧ 0 + ms (hostWdt beating) < beating.now ∧ occurredNow beating 135 = false)
    ∧ (evEn (evb beating 135 3) 135 = true ∧ evLatchEn (evb beating 135 3) 135 = true) ∧ hostWdt up = 0 := by decide
theorem witness_WrongCodeCommitsNoWord : pecOn pecUp = true ∧ pecUp.bus.holdFrom = none ∧ Quiet pecUp 129 ∧ ([5] : List Word).length ≤ 16
    ∧ (BitVec.ofNat 8 (pecOf pecUp .a 0x2000 [5] + 1)).toNat ≠ pecOf pecUp .a 0x2000 [5] ∧ 16 < (List.replicate 17 (0 : Word)).length := by decide +kernel
/-- A transaction of host A is open, with a code or without one. -/
def within' (code write : Bool) : State :=
  { up with bus := { up.bus with txn := some (.a, false), shape := { coded := code, write := write, lead := if code then 4 else 3 } } }
theorem witness_BrokenTransactionCountsOneError :
    (busAnswers up = true ∧ Quiet up 128 ∧ coded up = false ∧ (63 ≤ 64 ∧ 63 % 4 ≠ 0) ∧ (64 < 65 ∧ up.bus.surplus = false) ∧ 64 % 4 = 0)
    ∧ (let s := within' true true
       busAnswers s = true ∧ Quiet s 128 ∧ coded s = true ∧ s.bus.txn ≠ none ∧ s.bus.surplus = false ∧ s.bus.codeAt = 0)
    ∧ (let s := { within' true true with bus := { (within' true true).bus with codeAt := 5 } }
       s.bus.txn ≠ none ∧ s.bus.surplus = false
         ∧ pastMost s s.bus.shape.write (255 - 1 - s.bus.shape.lead) = true ∧ pastMost s s.bus.shape.write (9 - 1 - s.bus.shape.lead) = false)
    ∧ (let s := { within' true true with bus := { (within' true true).bus with codeAt := 5 } }
       coded s = true ∧ (s.bus.codeAt < 6 ∧ s.bus.surplus = false) ∧ (s.bus.codeAt ≠ 0 ∧ 5 ≤ s.bus.codeAt))
    ∧ (let s := { within' true true with bus := { (within' true true).bus with codeAt := 5, surplus := true, nak := true } }
       coded s = true ∧ (s.bus.codeAt ≠ 0 ∧ (6 ≤ s.bus.codeAt ∨ (s.bus.surplus = true ∧ s.bus.nak = true))))
    ∧ (let s := { within' false true with bus := { (within' false true).bus with surplus := true, nak := true } }
       coded s = false ∧ 64 < 65 ∧ s.bus.surplus = true ∧ s.bus.nak = true)
    ∧ (coded (within' true false) = true ∧ 65 < 66 ∧ 65 ≤ 65 ∧ (within' true false).bus.surplus = false
       ∧ coded (within' false false) = false ∧ 64 < 65 ∧ 64 ≤ 64) := by decide +kernel
theorem witness_HungBusResetsTheInterface : pastStep1 up = true ∧ Quiet up 128 ∧ Quiet up 130 ∧ Quiet up 131
    ∧ (let s := within' false true
       pastStep1 s = true ∧ s.bus.txn ≠ none ∧ s.bus.surplus = false ∧ pastMost s s.bus.shape.write (255 - 1 - s.bus.shape.lead) = true)
    ∧ (∀ late : Bool, let s := { up with now := ms 13 - (if late then 0 else 1), bus := { up.bus with holdFrom := some 0 } }
       pastStep1 s = true ∧ Quiet s 130 ∧ Quiet s 131 ∧ s.bus.holdFrom = some 0 ∧ s.bus.rest = none ∧ (0 + ms 13 ≤ s.now ↔ late = true))
    ∧ (let s := { up with now := ms 13, bus := { up.bus with holdFrom := some 0, rest := some (.b, 0x20, 15, [1]) } }
       pastStep1 s = true ∧ Quiet s 130 ∧ Quiet s 131 ∧ s.bus.rest = some (.b, 0x20, 15, [1]) ∧ 0 + ms 13 ≤ s.now) := by decide
theorem witness_ClearingReadSendsThenClears : coreOn up = true ∧ up.bus.holdFrom = none
    ∧ regLive up .errCnt = true ∧ regLive up .linkErr = true
    ∧ regLive up (.loop 7 .faultCnt) = true ∧ regLive up (.tile 47 .tripStat) = true ∧ regLive up .evDcnt = true := by decide
theorem witness_LatchesAndPeaksClear : WordLands up .b (.evLatch 7) 0xFFFFFFFF ∧ WordLands up .b .telCtl 1
    ∧ up.pwr.phase = .up ∧ up.bus.holdFrom = none := by decide

/-! ### Witnesses: telemetry and events -/

def telUp : State := { regs up [(.telCfg, 1)] with tel := { up.tel with samples := 100, wait := some { up.tel.cur with seq := 1 } } }
theorem witness_TelemetryWindowsPublishWhole :
    (telUp.pwr.phase = .up ∧ 0 < windowLen telUp ∧ windowLen telUp ≤ telUp.tel.samples ∧ telBusy telUp = false ∧ groupOn telUp 7 = true)
    ∧ telUp.tel.wait = some { up.tel.cur with seq := 1 }
    ∧ telBusy { telUp with bus := { telUp.bus with txn := some (.a, true) } } = true
    ∧ (up.pwr.phase = .up ∧ windowLen up = 0 ∧ up.tel.wait = none)
    ∧ (let s := { telUp with tel := { telUp.tel with samples := 99 } }; s.tel.samples < windowLen s) := by decide
def full : State := { evb up 98 11 with ev := { up.ev with queue := List.replicate 512 (entryNow up 0 0 false false none) } }
theorem witness_OccurrenceSetsDetailCountLatchAndQueue :
    (coreOn up = true ∧ Quiet up 98 ∧ Quiet up 99 ∧ occurredNow up 98 = false ∧ evEn up 98 = false)
    ∧ (Quiet (evb up 99 11) 99 ∧ evEn (evb up 99 11) 99 = true ∧ evJrnl (evb up 99 11) 99 = true ∧ (evb up 99 11).ev.queue.length < 512)
    ∧ (evEn full 98 = true ∧ evJrnl full 98 = true ∧ Quiet full 98 ∧ ¬full.ev.queue.length < 512) := by decide +kernel

/-! ### Witnesses: rails and tiles -/

/-- Rail k in state st. -/
def railIn (k : RailId) (st : RailState) (s : State) : State := s.modSeq k fun q => { q with state := st }
/-- Tile u belongs to rail k in state a. -/
def tileIn (u : TileId) (k : RailId) (a : TileAct) (s : State) : State := s.modTile u fun x => { x with rail := some k, act := a }
theorem witness_OnRequestStandsUnlessDieShutdown :
    (up.Canonical ∧ NoWatch up 7 ∧ WordLands up .a (.loop 7 .cmd) 1 ∧ up.hk.tsd = false)
    ∧ (let s := railIn 7 .safe up
       s.Canonical ∧ WordLands s .a (.loop 7 .cmd) 0x11#32 ∧ railSt s 7 = .safe ∧ clearRefused s 7 = false ∧ s.hk.tsd = false)
    ∧ (let s := { up with hk := { up.hk with tsd := true } }; WordLands s .a (.loop 7 .cmd) 1 ∧ WordLands s .a (.loop 7 .cmd) 0x11#32 ∧ s.hk.tsd = true)
    ∧ (let s := up.modProt 7 fun p => { p with fault := 1, cls := 1 }
       s.Canonical ∧ NoWatch s 7 ∧ WordLands s .a (.loop 7 .cmd) 0x11#32 ∧ clearRefused s 7 = true)
    ∧ (WordLands up .a (.loop 7 .cmd) 0x11#32 ∧ clearRefused up 7 = false ∧ railSt up 7 ≠ .safe) := by decide
theorem witness_OffRequestStopsInOrder : ∀ st ∈ [RailState.off, .safe, .stopping, .hiccup, .prepare, .softstart, .regulate, .slew],
    let s := tileIn 5 2 .active (railIn 2 st up)
    s.Canonical ∧ WordLands s .a (.loop 2 .cmd) 0 ∧ (∀ j, (s.rail j).seq.stopWait = none) ∧ NoWatch s 2
      ∧ railSt s 2 = st ∧ stopDepOk s 2 = true ∧ leapActive s 2 = false := by decide
theorem witness_OffRequestWaitsForItsDependency :
    let s := regs (railIn 3 .regulate (railIn 2 .regulate up)) [(.loop 2 .seq, 0x00000B00)]
    WordLands s .a (.loop 2 .cmd) 0 ∧ stopDepOk s 2 = false ∧ stopDepOk (railIn 2 .prepare s) 2 = false := by decide
theorem witness_KillAndClearLeaveOff :
    (let s := tileIn 5 2 .active (railIn 2 .regulate up)
     s.Canonical ∧ (∀ j, (s.rail j).seq.stopWait = none) ∧ NoWatch s 2 ∧ WordLands s .a (.loop 2 .cmd) 2 ∧ railSt s 2 ≠ .off)
    ∧ (WordLands up .a (.loop 2 .cmd) 2 ∧ railSt up 2 = .off)
    ∧ (WordLands (railIn 2 .safe up) .a (.loop 2 .cmd) 0x10#32 ∧ clearRefused (railIn 2 .safe up) 2 = false)
    ∧ (let s := (railIn 2 .safe up).modProt 2 fun p => { p with fault := 1, cls := 1 }
       railSt s 2 = .safe ∧ WordLands s .a (.loop 2 .cmd) 0x10#32 ∧ WordLands s .a (.loop 2 .cmd) 0x12#32 ∧ clearRefused s 2 = true)
    ∧ (∀ st ∈ [RailState.off, .stopping], let s := railIn 2 st up; WordLands s .a (.loop 2 .cmd) 0x10#32 ∧ railSt s 2 = st)
    ∧ (∀ st ∈ [RailState.safe, .regulate], let s := railIn 2 st up
       WordLands s .a (.loop 2 .cmd) 0x12#32 ∧ railSt s 2 = st ∧ clearRefused s 2 = false ∧ NoWatch s 2) := by decide
/-- Stage sensors 0 to 2 are enabled, with the round readings 400 and 400, and v on channel 0 (1/16 °C). -/
def sensedPorts (v : Int) (s : State) : State :=
  [(0, v), (1, 400), (2, 400)].foldl (fun s x => (regs s [(.chCfg (finOf 36 (by decide) x.1), 0x0087FDFF)]).modChan (finOf 64 (by decide) x.1)
      fun c => { c with lastRound := some x.2 })
    (regs s [(.hkCfg, 0x40)])
/-- Both tiles of port 0 belong to rail 2, which may start. -/
def startable (v : Int) : State := sensedPorts v (regs (tileIn 1 2 .cold (tileIn 0 2 .cold up)) [(.loop 2 .cmd, 1)])
theorem witness_StartAndRetryEnterPrepare :
    (let s := startable 401
     (∀ c ∈ railPorts s 2, ∀ v ∈ roundOf s c, offMedian s c v = false ∧ 2 ≤ (neighbours s c).length ∧ (s.chan c).broken = false)
       ∧ roundOf s 0 = some 401 ∧ startOk s 2 = true ∧ railSt s 2 = .off ∧ Quiet s 224)
    ∧ (let s := railIn 2 .hiccup (startable 401)
       (∀ c ∈ railPorts s 2, ∀ v ∈ roundOf s c, offMedian s c v = false ∧ 2 ≤ (neighbours s c).length ∧ (s.chan c).broken = false)
         ∧ startOk s 2 = true ∧ railSt s 2 = .hiccup ∧ (s.rail 2).seq.hiccupFrom + ms (hiccupT s 2) ≤ s.now)
    ∧ (let s := startable 900
       railPorts s 2 = [0] ∧ (∀ u, (portOf u).val = (0 : ChanId).val → (s.tile u).rail = some 2) ∧ (∀ u, (s.tile u).rail = some 2 → (s.tile u).act = .cold)
         ∧ roundOf s 0 = some 900 ∧ offMedian s 0 900 = true ∧ (s.chan 0).broken = false ∧ Quiet s 95 ∧ Quiet s (chSource 0)
         ∧ (∀ j, (s.rail j).seq.stopWait = none) ∧ NoWatch s 2 ∧ railSt s 2 = .off ∧ startOk s 2 = true)
    ∧ ¬(railSt up 2 = .off ∧ startOk up 2 = true) := by decide +kernel
theorem witness_RailTimersActWhenDue :
    (let s := (regs up [(.loop 2 .seq, 0x00000B00)]).modSeq 2 fun q => { q with depFrom := some 0 }; (s.rail 2).seq.depFrom = some 0)
    ∧ (let s := ({ evb up 50 3 with now := ms 100 }).modSeq 2 fun q => { q with state := .prepare, pbHigh := true }
       Quiet s 50 ∧ (s.rail 2).seq.state = .prepare ∧ (s.rail 2).seq.pbHigh = true ∧ (s.rail 2).seq.pbTold = false
       ∧ (s.rail 2).seq.pbWaitFrom + ms 100 ≤ s.now ∧ evEn s 50 = true ∧ evLatchEn s 50 = true ∧ occurredNow s 50 = false)
    ∧ (let s := up.modSeq 2 fun q => { q with pbTold := true }; (s.rail 2).seq.pbTold = true) ∧ up.now < (up.rail 2).seq.pbWaitFrom + ms 100
    ∧ (let s := up.modSeq 2 fun q => { q with state := .regulate, winFrom := some 0 }
       (s.rail 2).seq.winFrom = some 0 ∧ steady (railSt s 2) = true ∧ (s.rail 2).seq.pgood = false ∧ 0 + us (10 * pgDly s 2) ≤ s.now)
    ∧ (up.rail 2).seq.winFrom = none := by decide
theorem witness_SoftstartBeginsAtThePreloadedValley :
    let s := (tileIn 5 2 .active (railIn 2 .prepare up)).modEng 2 fun e => { e with aimed := true }
    (s.rail 2).seq.state = .prepare ∧ (s.rail 2).eng.aimed = true ∧ (s.tile 5).rail = some 2 ∧ (s.tile 5).act = .active
      ∧ ¬((up.rail 2).seq.state = .prepare) := by decide
theorem witness_FailedAndFinishedRailsTurnOff :
    (let s := ({ regs up [(.loop 2 .track, 0x00010000)] with now := 100000000 }).modSeq 2 fun q => { q with state := .softstart, shortFrom := some 0 }
     (∀ j, (s.rail j).seq.stopWait = none) ∧ NoWatch s 2 ∧ (s.rail 2).seq.shortFrom = some 0 ∧ railSt s 2 = .softstart
       ∧ trackT s 2 ≠ 0 ∧ 0 + us (trackT s 2) < s.now ∧ Quiet s 50)
    ∧ (let s := (tileIn 5 2 .active up).modSeq 2 fun q => { q with state := .stopping, stopReached := true }
       let s := s.modTile 5 fun x => { x with lowed := true }
       railSt s 2 = .stopping ∧ (s.rail 2).seq.stopReached = true
         ∧ (∀ u, (s.tile u).rail = some 2 → (s.tile u).act = .active → (s.tile u).lowed = true))
    ∧ railSt up 2 ≠ .stopping
    ∧ (let s := (railIn 2 .regulate (regs up [(.loop 2 .seq, 0x7)])).modSeq 2 fun q => { q with lenPin := some true }
       coreOn s = true ∧ lenActive s 2 = true ∧ lenEn s 2 = true ∧ false ≠ lenPol s 2 ∧ lenMode s 2 = true ∧ railSt s 2 ≠ .off
         ∧ lenEn up 2 = false) := by decide
theorem witness_AdmitAndExcludeAreConditional :
    (let s := (tileIn 5 2 .excluded up).modTile 5 fun x => { x with reason := 6 }
     WordLands s .a (.tile 5 .admission) (word ((0#16).toNat + 0x10000)) ∧ 0#16 = (s.tile 5).gen ∧ admitAllowed s 5 = true
       ∧ WordLands s .a (.tile 5 .admission) (word ((1#16).toNat + 0x10000)) ∧ 1#16 ≠ (s.tile 5).gen)
    ∧ (let s := tileIn 5 2 .active up
       WordLands s .a (.tile 5 .admission) (word ((0#16).toNat + 0x20000)) ∧ 0#16 = (s.tile 5).gen ∧ admitAllowed s 5 = false)
    ∧ (∀ a ∈ [TileAct.cold, .ready, .dropped], let s := tileIn 5 2 a up
       WordLands s .a (.tile 5 .admission) (word ((0#16).toNat + 0x20000)) ∧ 0#16 = (s.tile 5).gen
         ∧ excludeAllowed s 5 = true ∧ (s.tile 5).act = a ∧ (s.tile 5).leap.under = false ∧ s.ev.queue.length < 512)
    ∧ (let s := tileIn 5 2 .active up
       excludeAllowed s 5 = true ∧ (s.tile 5).act = .active)
    ∧ (let s := tileIn 5 2 .active (railIn 2 .regulate up)
       WordLands s .a (.tile 5 .admission) (word ((0#16).toNat + 0x20000)) ∧ 0#16 = (s.tile 5).gen ∧ excludeAllowed s 5 = false) := by decide
theorem witness_ClassBitsClearOnlyUnderAnArm :
    WordLands up .a (.loop 7 .railFault) (0x7F#32 ||| 0x80000000#32) ∧ WordLands up .a (.tile 47 .fault) (0xFF#32 ||| 0x8000#32)
      ∧ armOpen up = false ∧ WordLands (arm up) .a (.loop 7 .railFault) (0x7F#32 ||| 0x80000000#32)
      ∧ WordLands (arm up) .a (.tile 47 .fault) (0xFF#32 ||| 0x8000#32) ∧ armOpen (arm up) = true
      ∧ (arm up).ev.queue.length < 512 ∧ nvmFill (arm up).nvm < 16 := by decide
/-- One tick before the lapse the heartbeat stands. -/
theorem witness_HeartbeatKeptAndLapsed_before :
    let s := { beating with now := ms (hostWdt beating) }
    coreOn s = true ∧ (∀ e ∈ [135, 136, 137, 148], Quiet s e) ∧ (s.host .a).hbAt = some 0 ∧ s.now ≤ 0 + ms (hostWdt s) := by decide
/-- Tile 5 of rail 2 switches. -/
def runs (a : TileAct) (f : Tile → Tile) : State :=
  (tileIn 5 2 a up).modTile 5 fun x => f { x with car := { x.car with running := true, prd := 100 } }
theorem witness_CarriersTurnAtTheirReloadPoints :
    (let s := runs .active fun x => { x with cfgNow := 3, duty := { x.duty with shdPend := true, shdAt := -1000 } }
     (s.tile 5).rail = some 2 ∧ (s.tile 5).car.running = true ∧ (s.tile 5).car.atPeak = false ∧ (s.tile 5).trip.inPeriod = false
       ∧ (s.tile 5).car.pend = none ∧ (s.tile 5).duty.shdPend = true ∧ (s.tile 5).duty.shdAt ≤ (s.tile 5).car.nextPeak - 32
       ∧ (s.tile 5).car.waits (s.tile 5).car.nextPeak = false ∧ (s.tile 5).duty.coming = none ∧ reloadPeak (s.tile 5) = true)
    ∧ (let s := runs .active fun x => { x with cfgNow := 3, duty := { x.duty with shdPend := true, shdAt := 1600 } }
       (s.tile 5).car.nextPeak - 32 < (s.tile 5).duty.shdAt ∧ reloadPeak ((runs .active id).tile 5) = false)
    ∧ (∀ n ∈ [0, 1], let s := regs (runs .active fun x => { x with trip := { x.trip with inPeriod := true, run := n } }) [(.loop 2 .tdetCfg, 0x10)]
       (s.tile 5).rail = some 2 ∧ (s.tile 5).car.running = true ∧ (s.tile 5).car.atPeak = false ∧ (s.tile 5).trip.inPeriod = true
         ∧ (s.tile 5).trip.fired = false ∧ respCode (loopW s 2 .respTile) 0 = 0 ∧ respClass (loopW s 2 .respTile) 0 = false
         ∧ ((s.tile 5).trip.run + 1 = tripN s 2 ↔ n = 0))
    ∧ (let s := runs .active fun x => { x with
         car := { x.car with atPeak := true, pend := some { prd := 90, frac := 0, writtenAt := -1000 } }, sen := { x.sen with iv := some 3, ip := some 5 } }
       (s.tile 5).car.running = true ∧ (s.tile 5).car.atPeak = true ∧ (s.tile 5).fade = .none ∧ (s.tile 5).sen.evalid = false
         ∧ (s.tile 5).prot.openCnt < 15 ∧ iRange (s.tile 5) = false ∧ (s.tile 5).sen.iv = some 3 ∧ (s.tile 5).sen.ip = some 5
         ∧ (s.tile 5).car.pend = some { prd := 90, frac := 0, writtenAt := -1000 } ∧ -1000 ≤ (s.tile 5).car.nextValley - 32
         ∧ (s.tile 5).car.coming = none)
    ∧ (∀ at' ∈ [(1568 : Int), 1569], let s := runs .active fun x => { x with
         car := { x.car with atPeak := true, pend := some { prd := 90, frac := 0, writtenAt := at' } }, setWait := [(.minp, 480, at')] }
       (s.tile 5).car.nextValley - 32 = 1568 ∧ (s.tile 5).car.coming = none ∧ (s.tile 5).setWait = [(.minp, 480, at')])
    ∧ (up.tile 5).car.running = false ∧ stoppedNow up (up.tile 5) = false := by decide +kernel
theorem witness_FadesAtTheValley : ∀ f ∈ [Fade.fadeIn 0, .fadeIn 7, .fadeOut 1 .ready, .fadeOut 0 .ready],
       let s := regs (runs .active fun x => { x with
         car := { x.car with atPeak := true }, sen := { x.sen with iv := some 3, ip := some 5 }, fade := f }) [(.loop 2 .moultCtl, 1)]
       (s.tile 5).rail = some 2 ∧ (s.tile 5).car.running = true ∧ (s.tile 5).car.atPeak = true ∧ (s.tile 5).leap.under = false ∧ (s.tile 5).sen.evalid = false
         ∧ (s.tile 5).prot.openCnt < 15 ∧ iRange (s.tile 5) = false ∧ (s.tile 5).sen.iv.isSome = true ∧ (s.tile 5).sen.ip.isSome = true
         ∧ (s.tile 5).fade = f ∧ (s.tile 5).reqPend = false ∧ readyT s 2 ≠ 0 ∧ (s.tile 5).act = .active := by decide +kernel
theorem witness_TripsForceTheOutputs :
    (let s := runs .active fun x => { x with cfgNow := 0x90 }
     tripEn (s.tile 5) = true ∧ tripEn (up.tile 5) = false ∧ tripClear (s.tile 5) 1000 = true ∧ tripLatched (s.tile 5) = false
       ∧ tripLs (s.tile 5) = true ∧ Quiet s 5)
    ∧ (let s := runs .ready fun x => { x with cfgNow := 0x50 }
       tripEn (s.tile 5) = true ∧ tripClear (s.tile 5) 1000 = true ∧ tripLatched (s.tile 5) = true ∧ (s.tile 5).leap.under = false
         ∧ respCode (loopW s 2 .respTile) 0 = 0 ∧ respClass (loopW s 2 .respTile) 0 = false)
    ∧ (let s := tileIn 7 2 .active (regs (runs .active fun x => { x with cfgNow := 0x50 }) [(.loop 2 .respTile, 3)])
       (s.tile 5).rail = some 2 ∧ (s.tile 5).act = .active ∧ tripEn (s.tile 5) = true ∧ tripClear (s.tile 5) 1000 = true ∧ Quiet s 5
         ∧ tripLatched (s.tile 5) = true ∧ leapActive s 2 = false ∧ respCode (loopW s 2 .respTile) 0 = 3 ∧ respClass (loopW s 2 .respTile) 0 = false
         ∧ (s.rail 2).seq.stopWait = none ∧ (s.tile 7).rail = some 2 ∧ (s.tile 7).act = .active) := by decide +kernel
theorem witness_LowSideForceEnd :
    let s := runs .ready fun x => { x with leap := { x.leap with lowFrom := some 0, i0 := 1, qDn := 65536 } }
    (s.tile 5).leap.lowFrom = some 0 ∧ (s.tile 5).act = .ready
      ∧ (s.tile 5).leap.i0 * 65536 + (s.tile 5).leap.qUp * (s.tile 5).leap.onTotal - (s.tile 5).leap.qDn * (16 * (1 : Int) - 0).tdiv 16 ≤ 0
      ∧ 0 < (s.tile 5).leap.i0 * 65536 + (s.tile 5).leap.qUp * (s.tile 5).leap.onTotal - (s.tile 5).leap.qDn * (16 * (0 : Int) - 0).tdiv 16 := by
  decide +kernel
/-- Tile 5 under diode emulation, its low side on, the sample in force taken at tick 50. -/
def emulated : State := runs .active fun x => { x with
  emulating := true, edg := { x.edg with lo := [(0, true)], hi := [(900, true)] }, sen := { x.sen with icAt := 800, icPrev := -1, icPrevAt := 800 } }
theorem witness_DeLowSideOff : ((emulated.tile 5).rail = some 2 ∧ (emulated.tile 5).emulating = true ∧ (emulated.tile 5).act = .active
      ∧ lowAt (emulated.tile 5).edg 800 = true ∧ (∀ p ∈ (emulated.tile 5).edg.lo, 800 + 16 ≤ p.1 → p.2 = false)
      ∧ (900, true) ∈ (emulated.tile 5).edg.hi)
    ∧ (emulated.tile 5).sen.inForce 800 * 65536 - qDnOf emulated 2 5 * (((800 : Int)
        - (if (emulated.tile 5).sen.icAt + 384 ≤ 800 then (emulated.tile 5).sen.icAt else (emulated.tile 5).sen.icPrevAt)) / 16) ≤ 0 := by
  refine ⟨by decide +kernel, ?_⟩
  have h : ((800 : Int) - (if (emulated.tile 5).sen.icAt + 384 ≤ 800 then (emulated.tile 5).sen.icAt else (emulated.tile 5).sen.icPrevAt)) / 16 = 0 := by
    decide +kernel
  have h' : (emulated.tile 5).sen.inForce 800 = -1 := by decide +kernel
  rw [h, h', Int.mul_zero]; decide
theorem witness_ReadyTimeout : (let s := { runs .ready id with now := 100000000000 }
     (s.tile 5).act = .ready ∧ readyT s 2 ≠ 65535 ∧ (s.tile 5).readyAt + ms (readyT s 2) ≤ s.now ∧ (s.rail 2).ilv.adding ≠ some 5
       ∧ (s.tile 5).leap.under = false ∧ (s.tile 5).reqPend = false ∧ (s.tile 5).fade = .none) ∧ (up.tile 5).act ≠ .ready := by decide
theorem witness_CurrentSamplesAreCorrected :
    let s := regs (runs .active fun x => { x with
        car := { x.car with atPeak := true, prd := 200 }, edg := { x.edg with settledRise := some 1600, settledFall := some 1600 } })
      [(.tile 5 .ical, 0x80000000), (.tile 5 .oclim, 0x800007D0)]
    let t := s.modTile 5 fun x => { x with car := { x.car with atPeak := false } }
    let ic := sat (ashr ((16 * ((125#12).toNat : Int) - icalOffset s 5) * icalGain s 5) 15) (-32768) 32767
    (s.tile 5).rail = some 2 ∧ (s.tile 5).act = .active ∧ (s.tile 5).car.running = true
      ∧ (sampleAt s 2 (s.tile 5) .valley).isSome = true ∧ (sampleAt s 2 (s.tile 5) .peak).isSome = true
      ∧ sampleAt s 2 (s.tile 5) .rising = some 1600 ∧ sampleAt t 2 (t.tile 5) .falling = some 1600
      ∧ (let z := s.modTile 5 fun x => { x with leap := { x.leap with under := true } }; sampleAt z 2 (z.tile 5) .falling = none ∧ stoppedNow z (z.tile 5) = false)
      ∧ ocLo s 5 ≤ ic ∧ ic ≤ ocHi s 5 ∧ ic = ocHi s 5
      ∧ (let z := tileIn 5 2 .cold up; (z.tile 5).rail = some 2 ∧ (z.tile 5).car.running = false ∧ stoppedNow z (z.tile 5) = false) := by decide +kernel
theorem witness_TimingSettingsNeedTheirMark :
    (let s := { runs .active id with ldr := { up.ldr with rtMarks := [(Reg.tile 5 .deadtime).addr, (Reg.tile 5 .cfg).addr] } }
     s.Canonical ∧ WordLands s .a (.tile 5 .deadtime) 0x00500050 ∧ tileTimingOk s 5 .deadtime 0x00500050 = true
       ∧ openBits s (.tile 5 .deadtime) ≠ 0 ∧ WordLands s .a (.tile 5 .deadtime) 0x0FFF0FFF ∧ tileTimingOk s 5 .deadtime 0x0FFF0FFF = false
       ∧ WordLands s .a (.tile 5 .cfg) 3 ∧ openBits s (.tile 5 .cfg) ≠ 0 ∧ WordLands s .a (.tile 5 .tblank) 0 ∧ openBits s (.tile 5 .tblank) = 0)
    ∧ (WordLands (arm up) .a (.tile 5 .ical) 0x80000000 ∧ armOpen (arm up) = true)
    ∧ (WordLands (arm up) .a (.loop 2 .snsCal) 0x80000000 ∧ railSt (arm up) 2 = .off)
    ∧ (WordLands up .a (.loop 2 .snsCal) 0x80000000 ∧ armOpen up = false)
    ∧ (let s := railIn 2 .regulate (arm up); WordLands s .a (.loop 2 .snsCal) 0x80000000 ∧ railSt s 2 ≠ .off ∧ railSt s 2 ≠ .safe)
    ∧ (let s := runs .active fun x => { x with trip := { x.trip with latch := true } }
       let t := regs s [(.loop 2 .respTile, 8)]
       WordLands s .a (.tile 5 .tripStat) 0x10000 ∧ bitOf (0x10000#32) 16 = true ∧ (s.tile 5).trip.latch = true ∧ tripIsClass s 5 = false
         ∧ tripPol (s.tile 5) = false ∧ WordLands t .a (.tile 5 .tripStat) 0x10000 ∧ tripIsClass t 5 = true ∧ armOpen t = false) := by
  decide +kernel
/-- Rail 2 with its sense front end calibrated, its OV level at full scale. -/
def sensed (st : RailState) : State := railIn 2 st (regs up [(.loop 2 .snsCal, 0x80000000), (.loop 2 .ovCfg, 0xFFFF), (.loop 2 .pgCfg, 0x10), (.loop 2 .uvCfg, 0x10)])
theorem witness_ConversionsTakeEffect :
    (let s := sensed .softstart
     groupOn s 2 = true ∧ (s.rail 2).leap.state = .idle ∧ leapEn s 2 = false ∧ lbEn s 2 = false
       ∧ -512 < windowCode 0 (s.rail 2).fe.dac ∧ windowCode 0 (s.rail 2).fe.dac < 511 ∧ railSt s 2 = .softstart
       ∧ NoWatch s 2 ∧ steady (railSt s 2) = false ∧ voutOf s 2 (4094#12).toNat 1 ≤ ovLvl s 2 ∧ 4094#12 ≠ 4095)
    ∧ (let s := sensed .regulate
       steady (railSt s 2) = true ∧ voutOf s 2 (1#12).toNat 1 ≤ ovLvl s 2
         ∧ |(voutOf s 2 (1#12).toNat 1 : Int) - refAt s 2 (convAt s)| ≤ pgWin s 2
         ∧ (refAt s 2 (convAt s) : Int) - uvWin s 2 ≤ voutOf s 2 (1#12).toNat 1)
    ∧ (ffEn (regs up [(.loop 2 .ff, 0x10100)]) 2 = true ∧ ffEn up 2 = false ∧ NoStopNow up 2)
    ∧ groupOn { up with pwr := { up.pwr with lga := false } } 2 = false := by decide +kernel
/-- Rail 2 with its reference carrier running. -/
def clocked (st : RailState) (atPeak : Bool) : State :=
  (railIn 2 st (runs .active id)).modRail 2 fun r => { r with car := { r.car with running := true, atPeak := atPeak, prd := 100 } }
/-- Rail 2 regulates with its carrier running, tile 5 ACTIVE in slot 0 with the current `i`, tile 7 in state `a` (slot 1 where it is ACTIVE). -/
def moulting (i : Int) (a : TileAct) (w : List (Reg × Word)) : State :=
  let s := regs (tileIn 7 2 a (clocked .regulate true)) ([(.loop 2 .hlthCfg, 0x10000)] ++ w)
  let s := s.modTile 5 fun x => { x with slot := some 0, sen := { x.sen with valid := true, itile := i } }
  if a = .active then s.modTile 7 fun x => { x with slot := some 1 } else s
/-- What the clauses on REGULATE ask (`calm`). -/
def calmAt (s : State) (k : RailId) : Prop :=
  (s.rail k).car.running = true ∧ throttleCause s k = false ∧ (s.rail k).prot.dthr = (dmax s k).toNat ∧ (s.rail k).prot.dropThrottle = false
    ∧ (s.rail k).car.pend = none ∧ (∀ u, (s.tile u).rail = some k → (s.tile u).reqPend = false) ∧ NoStopNow s k
    ∧ steady (railSt s k) = true ∧ leapActive s k = false ∧ imean s k < rmeasI s k ∧ (s.rail k).ilv.lock = .free
    ∧ (s.rail k).car.coming = none ∧ (s.rail k).ilv.glide = .none ∧ (s.rail k).ilv.respaceDue = false ∧ (s.rail k).ilv.adding = none
    ∧ shedFading s k = false ∧ (s.rail k).mo.freqPend = none ∧ (s.rail k).mo.freqGo = none
  deriving Decidable
def aboveLimit (s : State) (k : RailId) : Prop := (ilimEffOf s k : Int) * 256 < irOf s k
  deriving Decidable
theorem witness_DetectorsFire :
    (let s := (regs (moulting 0 .active []) [(.loop 2 .leapCfg, 1), (.loop 2 (.leapSet 0), 0x201)]).modFe 2 fun f => { f with window := List.replicate 4 (0, 0) }
     groupOn s 2 = true ∧ (s.rail 2).fe.autozero = .idle ∧ (s.rail 2).leap.state = .idle ∧ railSt s 2 = .regulate ∧ leapEn s 2 = true ∧ wsN s 2 = 0
       ∧ (s.rail 2).fe.window[3]? = some (0, 0)
       ∧ (let w := windowCode (-1) (s.rail 2).fe.dac
          leapV s 2 (entLset (s.rail 2).mo.entry) < -w
            ∧ 256 * (w - 0) + 75 * ((s.rail 2).fe.dac - 0) < -16 * leapS s 2 (entLset (s.rail 2).mo.entry))
       ∧ (s.tile 5).rail = some 2 ∧ (s.tile 5).act = .active ∧ (s.tile 5).trip = {} ∧ (s.tile 5).fade = .none ∧ (s.rail 2).seq.stopWait = none ∧ Quiet s 58)
    ∧ (let s := regs (sensed .regulate) [(.loop 2 .ovCfg, 0x00010000), (.loop 2 .respRail, 5)]
       groupOn s 2 = true ∧ NoWatch s 2 ∧ (∀ j, (s.rail j).seq.stopWait = none) ∧ switching (railSt s 2) = true ∧ railSt s 2 ≠ .stopping ∧ NoStopNow s 2
         ∧ respCode (loopW s 2 .respRail) 0 = 5 ∧ respClass (loopW s 2 .respRail) 0 = false ∧ Quiet s 50
         ∧ ovLvl s 2 < voutOf s 2 (4094#12).toNat 1 ∧ (s.rail 2).prot.ovCnt + 1 = ovN s 2)
    ∧ (let s := (regs (sensed .regulate) [(.loop 2 .uvCfg, 0x00010000), (.loop 2 .respRail, 0x100)]).modEng 2 fun e => { e with ref := 65536 * 1000 }
       groupOn s 2 = true ∧ NoWatch s 2 ∧ NoStopNow s 2 ∧ steady (railSt s 2) = true ∧ (s.rail 2).leap.state ≠ .leap ∧ throttles s 2 = false
         ∧ respCode (loopW s 2 .respRail) 2 = 1 ∧ respClass (loopW s 2 .respRail) 2 = false ∧ Quiet s 50 ∧ (0#12) ≠ 4095
         ∧ voutOf s 2 (0#12).toNat 1 ≤ ovLvl s 2 ∧ (voutOf s 2 (0#12).toNat 1 : Int) < refAt s 2 (convAt s) - uvWin s 2
         ∧ (s.rail 2).prot.uvCnt + 1 = uvN s 2) := by decide +kernel
theorem witness_PreparationEndsWithPrebiasAndAutozero :
    (let s := (sensed .prepare).modFe 2 fun f => { f with pbN := 64 }
     (s.rail 2).seq.state = .prepare ∧ (s.rail 2).fe.pbN = 64 ∧ (s.rail 2).seq.pbDone = false ∧ (s.rail 2).seq.pbWaitDone = false
       ∧ ¬target s 2 < voutOf s 2 (s.rail 2).fe.pbSum 64 ∧ (s.rail 2).fe.autozero = .idle ∧ (s.rail 2).seq.prepDone = none)
    ∧ (let s := (sensed .prepare).modFe 2 fun f => { f with pbN := 64, pbSum := 64 }
       target s 2 < voutOf s 2 (s.rail 2).fe.pbSum 64 ∧ pbDisch s 2 = false)
    ∧ (up.rail 2).seq.state ≠ .prepare
    ∧ (WordLands up .a (.loop 2 .snsStat) 0x80000000#32 ∧ railSt up 2 = .off ∧ (up.rail 2).fe.autozero = .idle
       ∧ leaveWaits up (.autozero 2) = false)
    ∧ (WordLands (sensed .regulate) .a (.loop 2 .snsStat) 0x80000000#32 ∧ railSt (sensed .regulate) 2 ≠ .off)
    ∧ (let s := ({ up with now := ms 5, draw := { up.draw with active := [{ user := .autozero 2, cost := 0, since := 0 }] } }).modFe 2
         fun f => { f with autozero := .requested true 0 }
       (s.rail 2).fe.autozero = .requested true 0 ∧ leaveHeld s (.autozero 2) = true ∧ 0 + ms 5 ≤ s.now)
    ∧ ((up.modFe 2 fun f => { f with autozero := .requested false 0 }).rail 2).fe.autozero = .requested false 0
    ∧ (let s := (railIn 2 .prepare up).modFe 2 fun f => { f with autozero := .running true 4096 32 }
       let s := s.modSeq 2 fun q => { q with pbDone := true }
       (s.rail 2).fe.autozero = .running true 4096 32 ∧ (s.rail 2).seq.state = .prepare ∧ (s.rail 2).seq.pbDone = true ∧ (s.rail 2).seq.prepDone = none)
    ∧ (let s := up.modFe 2 fun f => { f with autozero := .running false 4095 0 }; (s.rail 2).fe.autozero = .running false 4095 0 ∧ 4095 < 4096)
    ∧ (-127 ≤ quotFree (8 * 65024) 4096 ∧ quotFree (8 * 65024) 4096 ≤ 127 ∧ ¬quotFree (8 * 65536) 4096 ≤ 127) := by decide +kernel
theorem witness_LoopUpdateWritesTheShadows : ∀ b ∈ [true, false], let s := clocked .regulate b
    (s.rail 2).car.running = true ∧ (s.rail 2).eng.aimed = false ∧ switching (railSt s 2) = true ∧ leapActive s 2 = false
      ∧ (s.rail 2).eng.preload = .none ∧ (s.rail 2).eng.setPend = none ∧ (s.rail 2).mo.freqGo = none
      ∧ (s.tile 5).rail = some 2 ∧ (s.tile 5).act = .active ∧ (up.rail 2).car.running = false := by decide +kernel
theorem witness_ReferenceValleyForIrAndLimits : ∀ b ∈ [true, false], let s := clocked .prepare b
    (s.rail 2).car.running = true ∧ railSt s 2 = .prepare ∧ (s.rail 2).car.pend = none ∧ throttleCause s 2 = false
      ∧ (s.rail 2).prot.dthr = (dmax s 2).toNat ∧ (s.rail 2).prot.dropCheck = false ∧ (s.rail 2).prot.dropThrottle = false
      ∧ (∀ u, (s.tile u).rail = some 2 → (s.tile u).reqPend = false) ∧ NoStopNow s 2 ∧ (up.rail 2).car.running = false ∧ NoStopNow up 2 := by decide +kernel
theorem witness_ReferenceValleyMoult :
    (let s := moulting 0 .cold [(.loop 2 .moultCtl, 0x420000)]
     calmAt s 2 ∧ (s.rail 2).prot.dropCheck = false ∧ ¬aboveLimit s 2 ∧ rgEn s 2 = false ∧ mOf s 2 < moultTgt s 2
       ∧ addDwell s 2 ≤ min ((s.rail 2).mo.addCnt + 1) 255 ∧ (admitOrder s 2).head? = some 7)
    ∧ (let s := moulting 0 .active [(.loop 2 .moultCtl, 0x410000)]
       calmAt s 2 ∧ (s.rail 2).prot.dropCheck = false ∧ ¬aboveLimit s 2 ∧ rgEn s 2 = false ∧ moultTgt s 2 < mOf s 2
         ∧ shedDwell s 2 ≤ min ((s.rail 2).mo.shedCnt + 1) 65535 ∧ nMin s 2 < mOf s 2 ∧ shedTile s 2 = some 7)
    ∧ (let s := moulting 0 .active [(.loop 2 .moultCtl, 0x420000), (.loop 2 .rotCfg, 1)]
       calmAt s 2 ∧ (s.rail 2).prot.dropCheck = false ∧ ¬aboveLimit s 2 ∧ rgEn s 2 = false ∧ mOf s 2 = moultTgt s 2 ∧ 0 < rotInt s 2
         ∧ rotInt s 2 ≤ min ((s.rail 2).ilv.rotValleys + 1) 65535 ∧ 2 ≤ nOf s 2
         ∧ ∀ u, (s.tile u).rail = some 2 → (s.tile u).fade = .none ∧ (s.tile u).car.pend = none ∧ (s.tile u).car.coming = none) := by decide +kernel
theorem witness_ReferenceValleyLookup :
    let s := (moulting 0 .active [(.mapRegion 2, 0x08004000), (.mapVbin 2, 0x00001000), (.loop 2 .moultCtl, 0x420000)]).modFe 2 fun f => { f with vinSlow := 1600 }
    calmAt s 2 ∧ (s.rail 2).prot.dropCheck = false ∧ ¬aboveLimit s 2 ∧ rgEn s 2 = true
      ∧ binUpdate (vDim s 2) (s.rail 2).mo.vbin (vinSlowShown s 2) ≠ (s.rail 2).mo.vbin
      ∧ (∀ i < 8, s.map.bad.contains (mapWord i) = false) := by decide +kernel
theorem witness_ReferenceValleyLimit :
    (∀ code ∈ [1, 2], let s := moulting 10 .active [(.loop 2 .ocrCfg, 0x10000), (.loop 2 .respRail, word (code * 65536))]
     calmAt s 2 ∧ aboveLimit s 2 ∧ respClass (loopW s 2 .respRail) 4 = false ∧ Quiet s 50 ∧ Quiet s 224
       ∧ (s.rail 2).prot.ocrCnt + 1 = ocrN s 2 ∧ respCode (loopW s 2 .respRail) 4 = code ∧ (s.rail 2).prot.dropCheck = false)
    ∧ (∀ code ∈ [0, 3], let s := (moulting 10 .active [(.loop 2 .respRail, word (code * 65536))]).modProt 2 fun p => { p with dropCheck := true }
       calmAt s 2 ∧ aboveLimit s 2 ∧ respClass (loopW s 2 .respRail) 4 = false ∧ Quiet s 50 ∧ Quiet s 224
         ∧ respCode (loopW s 2 .respRail) 4 = code ∧ code < 4 ∧ (s.rail 2).prot.dropCheck = true) := by decide +kernel
theorem witness_DirectWritesOfTheLoop :
    (let s := regs up [(.loop 2 .tlim, 0x02000100)]
     s.Canonical ∧ WordLands s .a (.loop 2 .target) 0x100 ∧ linkAuth s 2 = false ∧ tMin s 2 ≤ fld 0x100#32 15 0 ∧ fld 0x100#32 15 0 ≤ tMax s 2
       ∧ fld 0x200#32 15 0 ≤ tMax s 2 ∧ NoWatch s 2 ∧ fld 0xFF#32 15 0 < tMin s 2 ∧ tMax s 2 < fld 0x201#32 15 0
       ∧ linkAuth (regs s [(.linkAuth, 4)]) 2 = true)
    ∧ (WordLands up .a (.loop 2 .cset) 0x1F0000)
    ∧ (WordLands up .a (.loop 2 .moultCtl) 0 ∧ (setWord up (.loop 2 .moultCtl) ^^^ 0) &&& word (lockedBits up (.loop 2 .moultCtl)) = 0)
    ∧ (let s := (up.modHost .a fun x => { x with coefIdx := modVec x.coefIdx 2 fun _ => 0x117 })
       let t := { s with ldr := { s.ldr with coefRt := 4 } }
       WordLands s .a (.loop 2 .coefData) 0xE ∧ s.ldr.coefRt.getLsbD 2 = false ∧ t.ldr.coefRt.getLsbD 2 = true
         ∧ (t.rail 2).eng.setAct ≠ coefIdxSet (coefIdxOf t .a 2) ∧ (t.rail 2).eng.setPend ≠ some (coefIdxSet (coefIdxOf t .a 2))
         ∧ coefOk (coefIdxWord (coefIdxOf t .a 2)) (0xE#32 &&& 0xFFFFFF#32) = true
         ∧ coefOk (coefIdxWord (coefIdxOf t .a 2)) (0xF#32 &&& 0xFFFFFF#32) = false ∧ WordLands t .a (.loop 2 .coefData) 0xE)
    ∧ coreOn up = true ∧ regLive up (.loop 2 .coefData) = true := by decide +kernel
theorem witness_MapIsReadWrittenAndScrubbed :
    (let s := arm { (up.modHost .a fun x => { x with mapIdx := 0x4087 }) with ldr := { up.ldr with mapRt := true } }
     s.Canonical ∧ coreOn s = true ∧ regLive s .mapData = true ∧ mapIdxOf s .a ≤ 0x4087 ∧ s.map.bad.contains (mapWord (mapIdxOf s .a)) = false
       ∧ Quiet s 224 ∧ WordLands s .a .mapData 0x00FF0030 ∧ s.ldr.mapRt = true ∧ armOpen s = true
       ∧ (∀ k, mapOwner s (mapIdxOf s .a) = some k → railSt s k = .off ∨ railSt s k = .safe) ∧ mapValueOk s (mapIdxOf s .a) 0x00FF0030 = true)
    ∧ (let s := up.modHost .a fun x => { x with mapIdx := 0x3FFF }
       s.bus.holdFrom = none ∧ regLive s .mapData = true ∧ mapIdxOf s .a < 0x4000 ∧ s.map.bad.contains (mapWord (mapIdxOf s .a)) = false ∧ Quiet s 224)
    ∧ (let s := up.modHost .a fun x => { x with mapIdx := 0x4000 }
       s.bus.holdFrom = none ∧ regLive s .mapData = true ∧ 0x4000 ≤ mapIdxOf s .a ∧ s.map.bad.contains (mapWord (mapIdxOf s .a)) = false)
    ∧ (WordLands up .a .mapData 0 ∧ up.ldr.mapRt = false) ∧ coreOn State.reset = false := by decide +kernel
theorem witness_SafeEntryIsTakenAtOnce : ∀ b : Bool,
    let s := arm { (up.modHost .a fun x => { x with mapIdx := 0x4082 }) with ldr := { up.ldr with mapRt := true } }
    let s := regs (s.modMo 2 fun m => { m with safe := b }) [(.mapRegion 2, if b then 0x08000000 else 0)]
    WordLands s .a .mapData 0x00FF0030 ∧ mapIdxOf s .a = 0x4080 + (2 : RailId).val ∧ s.ldr.mapRt = true ∧ armOpen s = true
      ∧ (∀ k, mapOwner s (mapIdxOf s .a) = some k → railSt s k = .off ∨ railSt s k = .safe) ∧ mapValueOk s (mapIdxOf s .a) 0x00FF0030 = true
      ∧ s.map.bad.contains (mapWord (mapIdxOf s .a)) = false ∧ (s.rail 2).mo.safe = b ∧ rgEn s 2 = b := by decide +kernel
theorem witness_LeapReleaseAndHoldoff :
    (∀ st ∈ [LeapState.leap, .leapBack], let s := (clocked .regulate false).modLeap 2 fun l => { l with state := st }
     let s := s.modTile 5 fun x => { x with leap := { x.leap with under := true } }
     (s.tile 5).rail = some 2 ∧ (s.tile 5).leap.under = true ∧ leapActive s 2 = true ∧ (s.rail 2).leap.detAt + 112 ≤ 16 * (7 : Int)
       ∧ releaseCause s 2 (s.tile 5) (16 * 7) = some 0 ∧ (s.rail 2).seq.stopWait = none ∧ 16 * (6 : Int) < (s.rail 2).leap.detAt + 112)
    ∧ (up.tile 5).leap.under = false
    ∧ ((up.modLeap 2 fun l => { l with state := .holdoff }).rail 2).leap.state = .holdoff ∧ (up.rail 2).leap.state ≠ .holdoff := by decide +kernel
/-- The synchronisation input is enabled; the latest edge fell at tick 0. -/
def synced (good bad : Nat) (present : Bool) : State :=
  { regs up [(.syncCfg, 0x00000103)] with sync := { up.sync with lastEdge := some 0, good := good, bad := bad, present := present } }
theorem witness_SynchronisationFollowsItsInput :
    (∀ s ∈ [synced 0 0 false, synced 7 0 false, synced 8 3 true],
      (∀ k, lockEn s k = false ∧ (s.rail k).ilv.lock = .free) ∧ siEn s = true ∧ s.pwr.phase = .up ∧ s.sync.lastEdge = some 0)
    ∧ (18 ≤ 18 - 0 ∧ 131070 - 0 ≤ 131070 ∧ ¬131071 - 0 ≤ 131070 ∧ (synced 8 3 true).sync.present = true ∧ 3 ≤ (synced 8 3 true).sync.bad)
    ∧ (let s := regs up [(.syncCfg, 0x00000103)]; siEn s = true ∧ s.sync.lastEdge = none ∧ s.sync.present = false)
    ∧ siEn up = false
    ∧ (let s := (synced 0 0 false).modIlv 0 fun i => { i with p16 := 1000 }
       soEn s = true ∧ coreOn s = true ∧ 0 < originPeriod s (soRail s)) ∧ soEn up = false := by decide +kernel
/-- SYNC_IN is present, its period 2 × 100 ticks; rail 2 is set to lock with two input periods a switching period. -/
def locking (st : RailState) (l : LockState) : State :=
  let s := (regs (railIn 2 st (synced 8 0 true)) [(.loop 2 .syncLoop, 5)]).modIlv 2 fun i => { i with lock := l }
  { s with map := { s.map with mem := [(0x4020, 100)] } }
theorem witness_LocksAndLoses :
    (∀ st ∈ [RailState.off, .regulate], let s := locking st .free
     (∀ j, j ≠ 2 → lockEn s j = false ∧ (s.rail j).ilv.lock = .free) ∧ lockEn s 2 = true ∧ siEn s = true ∧ s.pwr.phase = .up ∧ s.sync.present = true
       ∧ s.sync.lastEdge = some 0 ∧ 18 ≤ 100 - 0 ∧ 100 - 0 ≤ 131070 ∧ Quiet s 113 ∧ (s.rail 2).ilv.lock = .free ∧ railSt s 2 = st
       ∧ (let ints := pushKeep 8 (100 - 0) s.sync.intervals
          starInRange { s with sync := { s.sync with period := (quotFree (16 * (ints.sum : Nat)) ints.length).toNat } } 2 = true))
    ∧ (let s := locking .regulate .locked
       (∀ j, j ≠ 2 → lockEn s j = false ∧ (s.rail j).ilv.lock = .free) ∧ lockEn s 2 = true ∧ s.sync.present = true ∧ s.sync.lastEdge = some 0
         ∧ Quiet s 112) := by decide +kernel
/-- Port 0 has an enabled stage sensor, alone in the fast lane, with a table of one slope. -/
def heated : State :=
  let s := regs up [(.chCfg 0, 0x0087FDFF)]
  s.modChan 0 fun c => { c with inFast := true, fastRaws := [1000, 1000, 1000], raw16 := 16000 }
theorem witness_HousekeepingConvertsAndPublishes :
    (hkRuns up = true ∧ up.hk.pass < 16 ∧ nextChan up up.hk.next = some 0)
    ∧ (let s := { up with hk := { up.hk with next := 63 } }; nextChan s s.hk.next = some 63 ∧ (nextChan s 64).isSome = false)
    ∧ (let s := { up with hk := { up.hk with pass := 16 } }; hkRuns s = true ∧ s.hk.pass = 16 ∧ s.hk.xchkWait = 0 ∧ Quiet s 94)
    ∧ hkRuns State.reset = false
    ∧ (WordLands up .a .hkCtl 1 ∧ (∀ k, railOut (railSt up k) = true))
    ∧ (let s := railIn 2 .prepare up; WordLands s .a .hkCtl 1 ∧ ¬(∀ k, railOut (railSt s k) = true)) := by decide +kernel
theorem witness_FastLane : fastList heated = [0] ∧ isStage 0 = true ∧ chEn heated 0 = true ∧ (heated.chan 0).broken = false ∧ heated.pwr.warn = false
    ∧ (let h := heated.chan 0
       let four := (pushKeep 16 1000 h.fastRaws).take 4
       let raw16 := (quotFree (16 * (four.sum : Nat) + (4 - four.length : Nat) * h.raw16) 4).toNat
       let v := readingOf heated 0 raw16
       let rise : Int := match h.fastReads[15]? <|> h.lastRound with | some b => v - b | none => 0
       brokenCause 0 raw16 v rise = none ∧ v < chWarn heated 0 - 32 ∧ v < chShut heated 0) := by decide +kernel
/-- `heated` with a warning level of 80 and a shutdown level of 160 sixteenths of a degree, its table at `v` throughout. -/
def heatedAt (v : Int) : State :=
  { regs heated [(.chCfg 0, 0x80500A)] with tempTab := (List.range 17).map fun i => (i, BitVec.ofInt 16 v) }
theorem witness_FastLaneWarnsAndShuts :
    (∀ v ∈ [(79 : Int), 80, 159, 160], let s := heatedAt v
     fastList s = [0] ∧ chEn s 0 = true ∧ (s.chan 0).broken = false ∧ (s.chan 0).warn = false ∧ s.pwr.warn = false ∧ Quiet s (chSource 0)
       ∧ chWarn s 0 = 80 ∧ chShut s 0 = 160 ∧ (∀ j, (s.rail j).seq.stopWait = none) ∧ (∀ j, NoWatch s j)
       ∧ (let h := s.chan 0
          let four := (pushKeep 16 1000 h.fastRaws).take 4
          let raw16 := (quotFree (16 * (four.sum : Nat) + (4 - four.length : Nat) * h.raw16) 4).toNat
          readingOf s 0 raw16 = v ∧ brokenCause 0 raw16 v 0 = none ∧ brokenCause 0 raw16 v 321 = some 2)
       ∧ ((s.chan 0).fastReads[15]? <|> (s.chan 0).lastRound) = none ∧ Quiet s 93)
    ∧ (let s := tileIn 1 2 .cold (tileIn 0 2 .ready (heatedAt 160))
       (portOf 0).val = (0 : ChanId).val ∧ (portOf 1).val = (0 : ChanId).val ∧ (s.tile 0).act = .ready ∧ (s.tile 1).act = .cold) := by decide +kernel
theorem witness_GraceEndsAndSupplyWarns :
    (∀ st ∈ [RailState.stopping, .regulate], let s := railIn 2 st { up with now := ms 50, hk := { up.hk with graceOn := true } }
     s.hk.graceOn = true ∧ s.hk.tsdFrom + ms (tsdGrace s) ≤ s.now ∧ (∀ k, (s.rail k).seq.stopWait = none) ∧ (∀ k, NoWatch s k))
    ∧ up.hk.graceOn = false ∧ (coreOn up = true ∧ up.pwr.warn = false ∧ leaveHeld up .charger = false)
    ∧ leaveHeld { up with draw := { up.draw with active := [{ user := .charger, cost := 0, since := 0 }] } } .charger = true
    ∧ (let s := { up with pwr := { up.pwr with warn := true } }; coreOn s = true ∧ s.pwr.warn = true ∧ Quiet s 96)
    ∧ (up.pwr.pfArmed = true ∧ blankPage (nvmPage up 510) = true)
    ∧ (let s := { up with nvm := { up.nvm with mem := [(64 * 510, 0), (64 * 511, 0)] } }
       blankPage (nvmPage s 510) = false ∧ blankPage (nvmPage s 511) = false)
    ∧ (let s := { up with nvm := { up.nvm with op := some .markFresh } }; s.pwr.pfCommitted = false ∧ s.nvm.op ≠ none ∧ blankPage (nvmPage s 511) = true)
    ∧ ({ up with pwr := { up.pwr with pfArmed := false } } : State).pwr.pfArmed = false
    ∧ (∀ b ∈ [true, false], ∀ p ∈ [[], List.replicate 64 (1 : Byte)],
        let s := { up with pwr := { up.pwr with pfCommitted := true, pfAgain := b, pfRetried := b, pfPage := p } }
        coreOn s = true ∧ s.pwr.pfArmed = true ∧ s.pwr.pfCommitted = true ∧ s.nvm.op = none ∧ Quiet s 97 ∧ Quiet s 173 ∧ s.pwr.pfAgain = b ∧ s.pwr.pfRetried = b ∧ s.pwr.pfPage = p)
    ∧ up.pwr.pfCommitted = false
    ∧ (let s := { up with now := secs 1 }; s.pwr.phase = .up ∧ s.pwr.bootEnd + secs 1 ≤ s.now) ∧ up.now < up.pwr.bootEnd + secs 1 := by decide +kernel
theorem witness_ResetsClearAllButWhatIsKept :
    (coreOn up = true ∧ up.ka.brum = false ∧ up.pwr.pfCommitted = false ∧ up.nvm.op = none ∧ up.xm.bursts = [] ∧ WordLands up .a .rstCmd 0x5A ∧ fld 0x5A#32 7 0 = 0x5A)
    ∧ (WordLands up .a .rstCmd 0x5B ∧ fld 0x5B#32 7 0 ≠ 0x5A)
    ∧ (let s := { up with pwr := { up.pwr with phase := .keepAlive } }
       s.pwr.phase = .keepAlive ∧ s.pwr.pfCommitted = false ∧ s.nvm.op = none ∧ s.xm.bursts = [])
    ∧ (let s := { up with ka := { up.ka with brum := true } }
       coreOn s = true ∧ s.ka.brum = true ∧ s.pwr.pfCommitted = false ∧ s.nvm.op = none ∧ s.xm.bursts = [])
    ∧ (State.reset.pwr.phase = .inReset ∧ State.reset.ka.brum = false ∧ State.reset.pwr.pfCommitted = false ∧ State.reset.nvm.op = none ∧ State.reset.xm.bursts = [])
    ∧ up.pwr.phase ≠ .keepAlive := by decide +kernel
theorem witness_PowerStatesFollowTheTarget :
    (∀ m ∈ [true, false], up.pwr.phase = .up ∧ up.pwr.hk = true ∧ up.pwr.target ≠ .keepalive ∧ WordLands up .a .pwrCmd (pwrWord 0 m)
      ∧ WordLands up .a .pwrCmd (pwrWord 1 m) ∧ WordLands up .a .pwrCmd (pwrWord 2 m) ∧ WordLands up .a .pwrCmd (pwrWord 3 m))
    ∧ (let s := tileIn 5 2 .cold { up with pwr := { up.pwr with state := .standby, hk := false, banks := 0 } }
       s.pwr.phase = .up ∧ s.pwr.state = .standby ∧ s.pwr.hk = false ∧ bankNeeded s (bankOf 5) = true
         ∧ WordLands s .a .pwrCmd (pwrWord 1 false) ∧ WordLands s .a .pwrCmd (pwrWord 2 true))
    ∧ (let s := { up with pwr := { up.pwr with state := .ready, target := .run, trans := true } }
       s.pwr.phase = .up ∧ s.pwr.trans = true ∧ Quiet s 103 ∧ s.pwr.state = .ready ∧ s.pwr.target = .run)
    ∧ (let s := { up with pwr := { up.pwr with target := .ready, trans := true } }
       s.pwr.state = .run ∧ s.pwr.target = .ready ∧ railsDown s = true ∧ Quiet s 103 ∧ railsDown (railIn 2 .stopping s) = false)
    ∧ up.pwr.trans = false
    ∧ (WordLands up .a .domCtl 0x3F ∧ domAllowed up 0x3F = true)
    ∧ (let s := tileIn 5 2 .active (railIn 2 .regulate up); WordLands s .a .domCtl 0 ∧ domAllowed s 0 = false)
    ∧ (let s := { up with
         pwr := { up.pwr with banks := 0, bankWant := 8 }, draw := { up.draw with active := [{ user := .bank 3, cost := 0, since := 0 }] } }
       leaveHeld s (.bank 3) = true ∧ s.pwr.ramping = none ∧ s.pwr.bankWant.getLsbD (3 : BankId).val = true
         ∧ s.pwr.banks.getLsbD (3 : BankId).val = false)
    ∧ leaveHeld up (.bank 3) = false
    ∧ (let s := tileIn 47 2 .cold { up with pwr := { up.pwr with banks := 0, ramping := some 3 } }
       s.pwr.ramping = some 3 ∧ bankOf 47 = 3 ∧ (s.tile 47).act = .cold) := by decide +kernel
theorem witness_SelfTestSweepAndRunHours :
    (WordLands up .a .bistCmd 1 ∧ up.test.busy = false)
    ∧ (let s := { up with test := { up.test with busy := true }, draw := { up.draw with active := [{ user := .bist, cost := 0, since := 0 }] } }
       WordLands s .a .bistCmd 1 ∧ s.test.busy = true ∧ s.test.running = false ∧ leaveHeld s .bist = true ∧ Quiet s 229
         ∧ (∀ c, roundOf s c = none) ∧ (∀ k, (s.rail k).seq.stopWait = none))
    ∧ leaveHeld up .bist = false ∧ up.test.running = false
    ∧ (let s := { up with test := { up.test with busy := true, running := true } }; s.test.running = true ∧ passDone s.test = true ∧ Quiet s 228)
    ∧ passDone { up.test with passMap := 1 } = false
    ∧ (∀ n ∈ [3599, 3600], let s := { up with now := secs n }
       s.pwr.phase = .up ∧ s.pwr.state = .run ∧ s.ka.hourSec + (s.now - s.pwr.runFrom) / secs 1 = n) ∧ State.reset.pwr.state ≠ .run := by decide +kernel
theorem witness_SweepWithReadings : ∀ v ∈ [(401 : Int), 900],
    let s := { sensedPorts v up with test := { up.test with busy := true }, draw := { up.draw with active := [{ user := .bist, cost := 0, since := 0 }] } }
    s.test.busy = true ∧ s.test.running = false ∧ leaveHeld s .bist = true ∧ Quiet s 229 ∧ (∀ k, (s.rail k).seq.stopWait = none)
      ∧ (v = 401 → ∀ c, ∀ x ∈ roundOf s c, isTemp s c = true → offMedian s c x = false ∧ 2 ≤ (neighbours s c).length ∧ (s.chan c).broken = false)
      ∧ roundOf s 0 = some v ∧ isTemp s 0 = true ∧ (s.chan 0).broken = false ∧ (v = 900 → offMedian s 0 v = true) := by decide +kernel
/-! ### Witnesses: a whole image -/

/-- Settings without which an image's encodings are reserved (R8): for each rail, for each tile, for each stage sensor. -/
def imgRecords : List (Nat × Nat) :=
  (allRails.map fun k => ((Reg.linkRail k).addr, 1))
  ++ (allRails.flatMap fun k => [(Reg.loop k .ssCfg, 1), (Reg.loop k .hiccup, 1), (Reg.loop k .pgCfg, 0x01000001), (Reg.loop k .ovCfg, 0x00010000),
      (Reg.loop k .uvCfg, 0x00010001), (Reg.loop k .ocrCfg, 0x01010000), (Reg.loop k .tdetCfg, 0x00001011), (Reg.loop k .respTile, 0x3300)
      , (Reg.loop k .leapCfg, 0x10), (Reg.loop k (.leapSet 0), 1), (Reg.loop k (.leapSet 1), 1), (Reg.loop k (.leapSet 2), 1)
      , (Reg.loop k (.leapSet 3), 1), (Reg.loop k .leapImax, 1), (Reg.loop k .syncLoop, 2), (Reg.loop k .moultCfg, 0x01000101)
      , (Reg.loop k .snsCal, 0x80000000), (Reg.loop k .snsRatio, 0x00010001), (Reg.loop k .snsIscale, 1)].map fun x => (x.1.addr, x.2))
  ++ (allTiles.flatMap fun t => [((Reg.tile t .oclim).addr, 1), ((Reg.tile t .ical).addr, 0x40000000)])
  ++ ((finList 24).map fun c => ((Reg.chCfg (finOf 36 (by decide) c.val)).addr, 0x400))
def imgRegs : List Byte := imgRecords.flatMap fun x => beBytes 2 x.1 ++ beBytes 2 0 ++ beBytes 4 x.2
def imgCoef : List Byte :=
  (List.replicate 8 ([0] ++ (List.replicate 16 (List.replicate 12 0 ++ [0xE0] ++ List.replicate 11 0)).flatten)).flatten
def imgTab : List Byte := (List.replicate 128 (beBytes 4 150)).flatten ++ (List.replicate 8 (beBytes 4 0x00010001)).flatten
/-- The sections of a copy (R471), each a whole number of words. -/
def imgSections : List (Nat × List Byte) :=
  [(1, imgRegs), (2, List.replicate 48 0xFF), (3, imgCoef), (4, beBytes 8 0x0000BFFF00000000), (5, imgTab), (6, List.replicate 136 0)]
def imgBody : List Byte := imgSections.foldr (fun x rest => beBytes 2 x.1 ++ (beBytes 2 x.2.length ++ (x.2 ++ rest))) []
def imgHeader : List Byte :=
  beBytes 4 0x5A494D47 ++ beBytes 4 0x01000000 ++ beBytes 4 1 ++ beBytes 4 6148 ++ beBytes 4 0x5A524880 ++ List.replicate 44 0
/-- A whole copy of generation 1 with no assigned tile (R469, R470). -/
def imgCopy : List Byte := imgHeader ++ imgBody ++ beBytes 4 (crc32 (imgHeader ++ imgBody))

theorem imgRegs_length : imgRegs.length = 2240 := by decide +kernel
theorem imgCoef_length : imgCoef.length = 3080 := by decide +kernel
theorem imgTab_length : imgTab.length = 544 := by decide +kernel
theorem imgBody_length : imgBody.length = 6080 := by
  simp [imgBody, imgSections, imgRegs_length, imgCoef_length, imgTab_length]
theorem imgSections_read : sections imgBody.length imgBody = some imgSections := by
  rw [imgBody_length, imgBody]
  simp only [imgSections, List.foldr_cons, List.foldr_nil]
  rw [sections_cons _ _ _ _ (by decide) (by rw [imgRegs_length]; decide) (by rw [imgRegs_length])]
  rw [sections_cons _ _ _ _ (by decide) (by simp) (by simp)]
  rw [sections_cons _ _ _ _ (by decide) (by rw [imgCoef_length]; decide) (by rw [imgCoef_length])]
  rw [sections_cons _ _ _ _ (by decide) (by simp) (by simp)]
  rw [sections_cons _ _ _ _ (by decide) (by rw [imgTab_length]; decide) (by rw [imgTab_length])]
  rw [sections_cons _ _ _ _ (by decide) (by simp) (by simp)]
  rfl
/-- What the copy sets. -/
def imgData : ImageData := {
  records := recordsOf 280 imgRegs, assign := List.replicate 48 0xFF, coef := coefOf 8 imgCoef, mapRt := false
  map := List.replicate 16384 0 ++ (chunks 4 136 imgTab).map word, temp := chunks 2 68 (List.replicate 136 0) }
theorem imgMap_read : mapRuns (beBytes 8 0x0000BFFF00000000).length 16384 ((beBytes 8 0x0000BFFF00000000).drop 2) = some (List.replicate 16384 0) := by
  have h1 : (beBytes 8 0x0000BFFF00000000).length = 7 + 1 := by simp
  have hc : numAt ((beBytes 8 0x0000BFFF00000000).drop 2) 0 2 = 0xBFFF := by decide +kernel
  have hv : numAt ((beBytes 8 0x0000BFFF00000000).drop 2) 2 4 = 0 := by decide +kernel
  have hl : ((beBytes 8 0x0000BFFF00000000).drop 2).length = 6 := by simp
  have hd : ((beBytes 8 0x0000BFFF00000000).drop 2).drop 6 = [] := by decide +kernel
  have hr : mapRuns 7 0 [] = some [] := by simp [mapRuns]
  rw [h1, mapRuns]
  · simp only [hc, hv, hl]
    norm_num [hd, hr, word]
    rfl
  · intro h; exact absurd h (by decide)
theorem imgBody_parses : parseImage imgBody = some imgData := by
  have h0 : (imgSections.any fun x => !(within x.1 1 6 || decide (0x8000 ≤ x.1)) || (x.1 == 0x8001 && decide (256 < x.2.length))) = false := by
    simp [imgSections, within]
  have h1 : oneOf imgSections 1 = some imgRegs := rfl
  have h2 : oneOf imgSections 2 = some (List.replicate 48 0xFF) := rfl
  have h3 : oneOf imgSections 3 = some imgCoef := rfl
  have h4 : oneOf imgSections 4 = some (beBytes 8 0x0000BFFF00000000) := rfl
  have h5 : oneOf imgSections 5 = some imgTab := rfl
  have h6 : oneOf imgSections 6 = some (List.replicate 136 0) := rfl
  have hb : byteAt (beBytes 8 0x0000BFFF00000000) 1 = 0 := by decide +kernel
  have hb' : (byteAt (beBytes 8 0x0000BFFF00000000) 0).getLsbD 0 = false := by decide +kernel
  have ha : ((List.replicate 48 (0xFF : Byte)).any fun b => decide (8 ≤ b.toNat) && b != 0xFF) = false := by decide
  rw [parseImage, imgSections_read]
  simp only [h0, ha, h1, h2, h3, h4, h5, h6, imgRegs_length, imgCoef_length, imgTab_length, hb, hb', List.length_replicate, imgMap_read]
  norm_num [imgData]
/-- The settings that the copy's records give, in the order of their addresses. -/
def imgLit0 : List (Nat × Word) := [
  (0x06A0, 0x00000001), (0x06A4, 0x00000001), (0x06A8, 0x00000001), (0x06AC, 0x00000001), (0x06B0, 0x00000001), (0x06B4, 0x00000001),
  (0x06B8, 0x00000001), (0x06BC, 0x00000001),
  (0x0900, 0x00000400), (0x0904, 0x00000400), (0x0908, 0x00000400), (0x090C, 0x00000400), (0x0910, 0x00000400), (0x0914, 0x00000400),
  (0x0918, 0x00000400), (0x091C, 0x00000400), (0x0920, 0x00000400), (0x0924, 0x00000400), (0x0928, 0x00000400), (0x092C, 0x00000400),
  (0x0930, 0x00000400), (0x0934, 0x00000400), (0x0938, 0x00000400), (0x093C, 0x00000400), (0x0940, 0x00000400), (0x0944, 0x00000400),
  (0x0948, 0x00000400), (0x094C, 0x00000400), (0x0950, 0x00000400), (0x0954, 0x00000400), (0x0958, 0x00000400), (0x095C, 0x00000400),
  (0x1040, 0x00000001), (0x1050, 0x00000001), (0x1054, 0x01000001), (0x1080, 0x00010000), (0x1084, 0x00010001), (0x1088, 0x01010000),
  (0x108C, 0x00001011), (0x109C, 0x00003300), (0x10C0, 0x00000010), (0x10C4, 0x00000001)]
def imgLit1 : List (Nat × Word) := [
  (0x10C8, 0x00000001), (0x10CC, 0x00000001), (0x10D0, 0x00000001), (0x10D4, 0x00000001), (0x10E4, 0x00000002), (0x10F0, 0x01000101),
  (0x1184, 0x80000000), (0x1188, 0x00010001), (0x118C, 0x00000001), (0x1240, 0x00000001), (0x1250, 0x00000001), (0x1254, 0x01000001),
  (0x1280, 0x00010000), (0x1284, 0x00010001), (0x1288, 0x01010000), (0x128C, 0x00001011), (0x129C, 0x00003300), (0x12C0, 0x00000010),
  (0x12C4, 0x00000001), (0x12C8, 0x00000001), (0x12CC, 0x00000001), (0x12D0, 0x00000001), (0x12D4, 0x00000001), (0x12E4, 0x00000002),
  (0x12F0, 0x01000101), (0x1384, 0x80000000), (0x1388, 0x00010001), (0x138C, 0x00000001), (0x1440, 0x00000001), (0x1450, 0x00000001),
  (0x1454, 0x01000001), (0x1480, 0x00010000), (0x1484, 0x00010001), (0x1488, 0x01010000)]
def imgLit2 : List (Nat × Word) := [
  (0x148C, 0x00001011), (0x149C, 0x00003300), (0x14C0, 0x00000010), (0x14C4, 0x00000001), (0x14C8, 0x00000001), (0x14CC, 0x00000001),
  (0x14D0, 0x00000001), (0x14D4, 0x00000001), (0x14E4, 0x00000002), (0x14F0, 0x01000101), (0x1584, 0x80000000), (0x1588, 0x00010001),
  (0x158C, 0x00000001), (0x1640, 0x00000001), (0x1650, 0x00000001), (0x1654, 0x01000001), (0x1680, 0x00010000), (0x1684, 0x00010001),
  (0x1688, 0x01010000), (0x168C, 0x00001011), (0x169C, 0x00003300), (0x16C0, 0x00000010), (0x16C4, 0x00000001), (0x16C8, 0x00000001),
  (0x16CC, 0x00000001), (0x16D0, 0x00000001), (0x16D4, 0x00000001), (0x16E4, 0x00000002), (0x16F0, 0x01000101), (0x1784, 0x80000000),
  (0x1788, 0x00010001), (0x178C, 0x00000001), (0x1840, 0x00000001), (0x1850, 0x00000001)]
def imgLit3 : List (Nat × Word) := [
  (0x1854, 0x01000001), (0x1880, 0x00010000), (0x1884, 0x00010001), (0x1888, 0x01010000), (0x188C, 0x00001011), (0x189C, 0x00003300),
  (0x18C0, 0x00000010), (0x18C4, 0x00000001), (0x18C8, 0x00000001), (0x18CC, 0x00000001), (0x18D0, 0x00000001), (0x18D4, 0x00000001),
  (0x18E4, 0x00000002), (0x18F0, 0x01000101), (0x1984, 0x80000000), (0x1988, 0x00010001), (0x198C, 0x00000001), (0x1A40, 0x00000001),
  (0x1A50, 0x00000001), (0x1A54, 0x01000001), (0x1A80, 0x00010000), (0x1A84, 0x00010001), (0x1A88, 0x01010000), (0x1A8C, 0x00001011),
  (0x1A9C, 0x00003300), (0x1AC0, 0x00000010), (0x1AC4, 0x00000001), (0x1AC8, 0x00000001), (0x1ACC, 0x00000001), (0x1AD0, 0x00000001),
  (0x1AD4, 0x00000001), (0x1AE4, 0x00000002), (0x1AF0, 0x01000101), (0x1B84, 0x80000000)]
def imgLit4 : List (Nat × Word) := [
  (0x1B88, 0x00010001), (0x1B8C, 0x00000001), (0x1C40, 0x00000001), (0x1C50, 0x00000001), (0x1C54, 0x01000001), (0x1C80, 0x00010000),
  (0x1C84, 0x00010001), (0x1C88, 0x01010000), (0x1C8C, 0x00001011), (0x1C9C, 0x00003300), (0x1CC0, 0x00000010), (0x1CC4, 0x00000001),
  (0x1CC8, 0x00000001), (0x1CCC, 0x00000001), (0x1CD0, 0x00000001), (0x1CD4, 0x00000001), (0x1CE4, 0x00000002), (0x1CF0, 0x01000101),
  (0x1D84, 0x80000000), (0x1D88, 0x00010001), (0x1D8C, 0x00000001), (0x1E40, 0x00000001), (0x1E50, 0x00000001), (0x1E54, 0x01000001),
  (0x1E80, 0x00010000), (0x1E84, 0x00010001), (0x1E88, 0x01010000), (0x1E8C, 0x00001011), (0x1E9C, 0x00003300), (0x1EC0, 0x00000010),
  (0x1EC4, 0x00000001), (0x1EC8, 0x00000001), (0x1ECC, 0x00000001), (0x1ED0, 0x00000001)]
def imgLit5 : List (Nat × Word) := [
  (0x1ED4, 0x00000001), (0x1EE4, 0x00000002), (0x1EF0, 0x01000101), (0x1F84, 0x80000000), (0x1F88, 0x00010001), (0x1F8C, 0x00000001),
  (0x2038, 0x40000000), (0x2040, 0x00000001), (0x20B8, 0x40000000), (0x20C0, 0x00000001), (0x2138, 0x40000000), (0x2140, 0x00000001),
  (0x21B8, 0x40000000), (0x21C0, 0x00000001), (0x2238, 0x40000000), (0x2240, 0x00000001), (0x22B8, 0x40000000), (0x22C0, 0x00000001),
  (0x2338, 0x40000000), (0x2340, 0x00000001), (0x23B8, 0x40000000), (0x23C0, 0x00000001), (0x2438, 0x40000000), (0x2440, 0x00000001),
  (0x24B8, 0x40000000), (0x24C0, 0x00000001), (0x2538, 0x40000000), (0x2540, 0x00000001), (0x25B8, 0x40000000), (0x25C0, 0x00000001),
  (0x2638, 0x40000000), (0x2640, 0x00000001), (0x26B8, 0x40000000), (0x26C0, 0x00000001)]
def imgLit6 : List (Nat × Word) := [
  (0x2738, 0x40000000), (0x2740, 0x00000001), (0x27B8, 0x40000000), (0x27C0, 0x00000001), (0x2838, 0x40000000), (0x2840, 0x00000001),
  (0x28B8, 0x40000000), (0x28C0, 0x00000001), (0x2938, 0x40000000), (0x2940, 0x00000001), (0x29B8, 0x40000000), (0x29C0, 0x00000001),
  (0x2A38, 0x40000000), (0x2A40, 0x00000001), (0x2AB8, 0x40000000), (0x2AC0, 0x00000001), (0x2B38, 0x40000000), (0x2B40, 0x00000001),
  (0x2BB8, 0x40000000), (0x2BC0, 0x00000001), (0x2C38, 0x40000000), (0x2C40, 0x00000001), (0x2CB8, 0x40000000), (0x2CC0, 0x00000001),
  (0x2D38, 0x40000000), (0x2D40, 0x00000001), (0x2DB8, 0x40000000), (0x2DC0, 0x00000001), (0x2E38, 0x40000000), (0x2E40, 0x00000001),
  (0x2EB8, 0x40000000), (0x2EC0, 0x00000001), (0x2F38, 0x40000000), (0x2F40, 0x00000001)]
def imgLit7 : List (Nat × Word) := [
  (0x2FB8, 0x40000000), (0x2FC0, 0x00000001), (0x3038, 0x40000000), (0x3040, 0x00000001), (0x30B8, 0x40000000), (0x30C0, 0x00000001),
  (0x3138, 0x40000000), (0x3140, 0x00000001), (0x31B8, 0x40000000), (0x31C0, 0x00000001), (0x3238, 0x40000000), (0x3240, 0x00000001),
  (0x32B8, 0x40000000), (0x32C0, 0x00000001), (0x3338, 0x40000000), (0x3340, 0x00000001), (0x33B8, 0x40000000), (0x33C0, 0x00000001),
  (0x3438, 0x40000000), (0x3440, 0x00000001), (0x34B8, 0x40000000), (0x34C0, 0x00000001), (0x3538, 0x40000000), (0x3540, 0x00000001),
  (0x35B8, 0x40000000), (0x35C0, 0x00000001), (0x3638, 0x40000000), (0x3640, 0x00000001), (0x36B8, 0x40000000), (0x36C0, 0x00000001),
  (0x3738, 0x40000000), (0x3740, 0x00000001), (0x37B8, 0x40000000), (0x37C0, 0x00000001)]
def imgLit : List (Nat × Word) := imgLit0 ++ imgLit1 ++ imgLit2 ++ imgLit3 ++ imgLit4 ++ imgLit5 ++ imgLit6 ++ imgLit7
theorem imgLit_read : imgData.records.foldl (fun c x => Store.set 0 c x.1 (word x.2.2)) [] = imgLit := by decide +kernel
/-- The state that the copy is judged in. -/
def imgState : State :=
  { State.reset with
    settings := imgLit
    coef := Store.ofList 0 0 (imgData.coef.flatMap fun x => x.2.map word)
    tempTab := Store.ofList 0 0 (imgData.temp.map (BitVec.ofNat 16))
    map := { State.reset.map with mem := Store.ofList 0 16384 ((chunks 4 136 imgTab).map word) }
    ldr := { State.reset.ldr with rtMarks := (imgData.records.filter fun x => x.2.1 == 1).map (·.1) } }
theorem imgState_records : imgData.records.all (recordOk imgState.settings imgData.records) = true := by decide +kernel
theorem imgState_rail0 : railRules imgState 0 = true := by decide +kernel
theorem imgState_rail1 : railRules imgState 1 = true := by decide +kernel
theorem imgState_rail2 : railRules imgState 2 = true := by decide +kernel
theorem imgState_rail3 : railRules imgState 3 = true := by decide +kernel
theorem imgState_rail4 : railRules imgState 4 = true := by decide +kernel
theorem imgState_rail5 : railRules imgState 5 = true := by decide +kernel
theorem imgState_rail6 : railRules imgState 6 = true := by decide +kernel
theorem imgState_rail7 : railRules imgState 7 = true := by decide +kernel
theorem imgState_apart : (allRails.all fun j => allRails.all fun k => regionsApart imgState j k) = true := by decide +kernel
theorem imgState_tiles : (allTiles.all fun x => decide (ocLo imgState x < ocHi imgState x) && tileOk .ical (tileW imgState x .ical)) = true := by
  decide +kernel
theorem imgState_channels : (finList 36).all (channelRules imgState) = true := by decide +kernel
theorem imgState_pairs : allTiles.all (fun x => allTiles.all fun y => x.val / 2 != y.val / 2 || (imgState.tile x).rail.isNone
      || (imgState.tile y).rail.isNone || (imgState.tile x).rail == (imgState.tile y).rail) = true := by decide +kernel
theorem imgState_orders : (!depCycle (fun k => if sdepEn imgState k then some (startDep imgState k) else none)
    && !depCycle (fun k => if tdepEn imgState k then some (stopDep imgState k) else none) && xmemRules imgState) = true := by decide +kernel
theorem imgState_rules : imageRules imgData imgState = true := by
  have hp := imgState_pairs
  have ho := imgState_orders
  simp only [Bool.and_eq_true] at ho
  have hr : allRails.all (railRules imgState) = true := by
    rw [List.all_eq_true]
    intro k _
    match k with
    | 0 => exact imgState_rail0
    | 1 => exact imgState_rail1
    | 2 => exact imgState_rail2
    | 3 => exact imgState_rail3
    | 4 => exact imgState_rail4
    | 5 => exact imgState_rail5
    | 6 => exact imgState_rail6
    | 7 => exact imgState_rail7
  rw [imageRules, imgState_records, hp, hr, imgState_apart, imgState_tiles, imgState_channels, ho.1.1, ho.1.2, ho.2]
  rfl
theorem imgData_loads : loadImage imgData State.reset = imgState := by
  have h : imgData.map = List.replicate 16384 0 ++ (chunks 4 136 imgTab).map word := rfl
  have ht : (mapVec (fun i ti => { ti with rail := assigned (imgData.assign.getD i 0xFF) }) State.reset.tiles) = State.reset.tiles := by decide +kernel
  have hc : BitVec.ofNat 8 ((imgData.coef.foldl (fun (a : Nat × Nat) x => (a.1 + x.1 % 2 * 2 ^ a.2, a.2 + 1)) (0, 0)).1) = 0 := by decide +kernel
  rw [loadImage, ht, hc, h, Store.ofList_defaults, imgLit_read]
  rfl
theorem imgCopy_valid : judgeCopy imgCopy = (0, some imgData) := by
  have hz : headerZero (imgHeader ++ imgBody ++ beBytes 4 (crc32 (imgHeader ++ imgBody))) = true := by
    have h : ∀ l : List Byte, numAt (imgHeader ++ l) 0x1C 36 = numAt imgHeader 0x1C 36 := by
      intro l
      have e : imgHeader = imgHeader.take 28 ++ imgHeader.drop 28 := (List.take_append_drop 28 _).symm
      simp only [numAt]
      rw [List.drop_append_of_le_length (by decide), List.take_append_of_le_length (by decide)]
    rw [headerZero, List.append_assoc, h]; decide
  rw [imgCopy, judgeCopy_sealed, List.drop_left' (by decide), imgBody_parses]
  simp only [imgData_loads, imgState_rules, hz, Bool.and_self, if_true]
/-- An EEPROM whose slot A holds the copy. -/
def imaged : State := { State.reset with eeprom := Store.ofList blank 0 imgCopy }
def inputs : BootInputs := {
  bootsel := .low, maddr := 0, eepromAnswersA := true, eepromAnswersB := true, busStuck := none, busStuckAfter := 0, arbitrationLosses := 0
  sfdp := .absent, sealLow := .low, sealHigh := .high, retainedOk := true
  vxio := 3300, duration := 20 }
theorem imgCopy_length : imgCopy.length = 6148 := by
  rw [imgCopy, List.length_append, List.length_append, imgBody_length]; simp [imgHeader]
theorem header_valid : judgeHeader none imgHeader = 0 ∧ imgLen imgHeader = 6148 ∧ judgeHeader none (List.replicate 64 blank) = 4 := by decide +kernel
/-- A source whose slot A holds the copy and whose slot B is blank gives the copy. -/
theorem chosen_of (b : BootInputs) (s : State) (src : ImageSource)
    (hA : ∀ n ≤ 6148, slotBytes s src false n = Store.bytes (Store.ofList blank 0 imgCopy) 0 n)
    (hB : slotBytes s src true 64 = Store.bytes (Store.ofList blank 0 imgCopy) 0x20000 64)
    (h0 : ∀ n, meetsStuck b src n = false) (hb : src = .eeprom → b.eepromAnswersA = true ∧ b.eepromAnswersB = true)
    (hx : src = .xmem → sfdpValid b = true) : (judgeSource b s src).chosen = some (false, imgData) := by
  have hA64 : slotBytes s src false 64 = imgHeader := by
    rw [hA 64 (by decide), Store.bytes_ofList _ _ _ (by rw [imgCopy_length]; decide), imgCopy, List.append_assoc]
    exact List.take_left' (by decide)
  have hB64 : slotBytes s src true 64 = List.replicate 64 blank := by
    rw [hB, Store.bytes_past _ _ _ _ (by rw [imgCopy_length]; decide)]
  have hAll : slotBytes s src false 6148 = imgCopy := by
    rw [hA 6148 (by decide), Store.bytes_ofList _ _ _ (by rw [imgCopy_length])]
    exact List.take_of_length_le (by rw [imgCopy_length])
  have ra : bootHeader b s src false = 0 := by
    rw [bootHeader, hA64, header_valid.1, h0]
    cases src <;> simp_all
  have rb : bootHeader b s src true = 4 := by
    rw [bootHeader, hB64, header_valid.2.2, h0]
    cases src <;> simp_all
  have hc : bootCopy b s src false 2 = (0, some imgData) := by
    rw [bootCopy, h0, hA64, header_valid.2.1, hAll, imgCopy_valid]; rfl
  rw [judgeSource, ra, rb]
  simp [tryCopies, hc]
theorem witness_BootEndsInStandby : imaged.pwr.phase = .inReset
    ∧ (judgeSource inputs (bootStart inputs imaged) (primarySrc inputs)).chosen = some (false, imgData) :=
  ⟨rfl, chosen_of inputs _ .eeprom (fun _ _ => rfl) rfl (fun _ => rfl) (fun _ => ⟨rfl, rfl⟩) (fun h => absurd h (by decide))⟩
/-- An external memory whose slot A holds the copy, beside a blank EEPROM. -/
def imagedXmem : State := { State.reset with xm := { State.reset.xm with mem := Store.ofList blank 0 imgCopy } }
def inputsOpen : BootInputs := { inputs with bootsel := .opened, sfdp := .valid 26 true 8 none none }
theorem witness_BootFallsBack : imagedXmem.pwr.phase = .inReset
    ∧ (judgeSource inputsOpen (bootStart inputsOpen imagedXmem) (primarySrc inputsOpen)).chosen = none
    ∧ fallbackSrc inputsOpen = some .xmem
    ∧ (judgeSource inputsOpen (bootStart inputsOpen imagedXmem) .xmem).chosen = some (false, imgData) := by
  have hd : (bootStart inputsOpen imagedXmem).xm.dens = 26 := rfl
  refine ⟨rfl, ?_, rfl, chosen_of inputsOpen _ .xmem (fun n hn => ?_) ?_ (fun _ => rfl) (fun h => absurd h (by decide)) (fun _ => rfl)⟩
  · have h : ∀ x : Bool, slotBytes (bootStart inputsOpen imagedXmem) .eeprom x 64 = List.replicate 64 blank := by
      intro x; cases x <;> decide +kernel
    have r : ∀ x : Bool, bootHeader inputsOpen (bootStart inputsOpen imagedXmem) .eeprom x = 4 := by
      intro x; rw [bootHeader, h, header_valid.2.2]; cases x <;> rfl
    show (judgeSource inputsOpen (bootStart inputsOpen imagedXmem) .eeprom).chosen = none
    rw [judgeSource, r, r]; rfl
  · rw [slotBytes, xmBytes_eq _ _ _ (by rw [hd]; simp only [slotBase]; norm_num; omega)]; rfl
  · rw [slotBytes, xmBytes_eq _ _ _ (by rw [hd]; decide)]; rfl
theorem witness_BootEndsInSafeIdle : State.reset.pwr.phase = .inReset
    ∧ (judgeSource inputs (bootStart inputs State.reset) (primarySrc inputs)).chosen = none ∧ fallbackSrc inputs = none
    ∧ up.pwr.phase ≠ .inReset := by decide +kernel
/-! ### Witnesses: the link -/

/-- The link runs, its load alive; rail 7 has a tile and its targets range from 0x100 to 0x200. -/
def linked (w : List (Reg × Word)) : State :=
  { tileIn 5 7 .active (regs up ([(.linkCfg, 0x00010001), (.loop 7 .tlim, 0x02000100)] ++ w)) with
    link := { up.link with alive := true, rxAt := some 0 } }
theorem witness_PingIsAnsweredWhateverItsRail : linkRuns (linked []) = true ∧ Quiet (linked []) 147 ∧ linkRuns up = false
    ∧ coreOn up = true ∧ linkRuns State.reset = false ∧ coreOn State.reset = false := by decide +kernel
theorem witness_LoadFramesAreJudgedInOrder :
    (let s := linked []
     s.Canonical ∧ Quiet s 149 ∧ linkRuns s = true ∧ s.link.alive = true ∧ Quiet s 144 ∧ Quiet s 145
       ∧ railAvail s 6 = false ∧ railAvail s 7 = true ∧ (s.rail 7).link.valid = false ∧ linkAuth s 7 = false
       ∧ queryItem s 7 (0#16).toNat = some (target s 7) ∧ (queryItem s 7 (5#16).toNat).isSome = true ∧ queryItem s 7 (6#16).toNat = none)
    ∧ (let s := railIn 7 .regulate (linked [(.linkAuth, 0x80)])
       linkAuth s 7 = true ∧ (0xFF#16).toNat < tMin s 7 ∧ ¬((0x100#16).toNat < tMin s 7 ∨ tMax s 7 < (0x100#16).toNat)
         ∧ ¬((0x200#16).toNat < tMin s 7 ∨ tMax s 7 < (0x200#16).toNat) ∧ tMax s 7 < (0x201#16).toNat ∧ NoWatch s 7
         ∧ railSt s 7 = .regulate)
    ∧ (let s := (linked []).modRail 7 fun r => { r with link := { r.link with valid := true, seq := 9, value := 0x100 } }
       (s.rail 7).link.valid = true ∧ (s.rail 7).link.seq = 9 ∧ (s.rail 7).link.value = 0x100 ∧ (s.rail 7).link.told = false)
    ∧ ((0x110000000000#48 ||| BitVec.ofNat 48 (rawCrc 0x110000000000)).toNat % 256 = rawCrc (0x110000000000#48 ||| BitVec.ofNat 48 (rawCrc 0x110000000000))
      ∧ (0x110000000000#48 ||| BitVec.ofNat 48 (rawCrc 0x110000000000 ^^^ 1)).toNat % 256
          ≠ rawCrc (0x110000000000#48 ||| BitVec.ofNat 48 (rawCrc 0x110000000000 ^^^ 1))) := by decide +kernel
theorem witness_LinkSendsSettlesAndLapses :
    (let f : LinkFrame := { ty := 0x92, seq := 1, rail := 7, flags := 0, value := 5 }
     let s := { linked [] with link := { (linked []).link with acks := [f], settled := [f] } }
     linkRuns s = true ∧ s.link.acks = [f] ∧ Quiet s 145
       ∧ (let t := { s with link := { s.link with acks := [] } }; linkRuns t = true ∧ t.link.acks = [] ∧ t.link.settled = [f]))
    ∧ up.link.acks = [] ∧ up.link.settled = []
    ∧ (let s := ({ linked [(.linkRail 7, 0x00100000)] with now := ms 1 }).modRail 7
         fun r => { r with link := { r.link with watch := some { seq := 1, openedAt := 0, inWinFrom := none, target := 0 } } }
       (s.rail 7).link.watch = some { seq := 1, openedAt := 0, inWinFrom := none, target := 0 } ∧ setTmo s 7 ≠ 0 ∧ 0 + ms (setTmo s 7) ≤ s.now
         ∧ s.link.settled.length < 16 ∧ Quiet s 150)
    ∧ setTmo up 7 = 0
    ∧ (let s := { linked [] with now := ms 1 + 1 }
       s.link.rxAt = some 0 ∧ s.link.alive = true ∧ linkWdt s ≠ 0 ∧ s.pwr.phase = .up ∧ 0 + ms (linkWdt s) < s.now ∧ Quiet s 146)
    ∧ (up.Canonical ∧ WordLands up .a .linkAuth 0xFF ∧ Quiet up 148) := by decide +kernel

theorem witness_SettlesWhatItTells : ∀ b : Bool,
    let s := (linked []).modRail 7 fun r => { r with link := { r.link with
      valid := true, seq := 1, outcome := if b then some (3, 5) else none, told := b } }
    (s.rail 7).link.valid = true ∧ (s.rail 7).link.seq = 1 ∧ (s.rail 7).link.outcome.isSome = b ∧ (s.rail 7).link.told = b := by decide +kernel

/-! ### Witnesses: replacement and NVM -/

/-- A replacement of EEPROM slot A is being received: `n` bytes are in the buffer. -/
def receiving (n offset : Nat) : State := arm { up with
  ldr := { up.ldr with repl := .receiving, src := .eeprom, tgtSrc := .eeprom, len := 100, offset := offset, buffer := List.replicate n 1 } }
theorem witness_ReplacementRunsFromBeginToVerdict :
    (let s := arm { up with ldr := { up.ldr with src := .eeprom } }
     armOpen s = true ∧ replNeedsSeal s = false ∧ WordLands s .a .imgCtl (word (1 + (68#16).toNat * 65536)) ∧ replBusy s = false
       ∧ 68 ≤ (68#16).toNat ∧ WordLands s .a .imgCtl (word (1 + (18432#16).toNat * 65536)) ∧ (18432#16).toNat ≤ 18432 ∧ targetSrc s ≠ .xmem)
    ∧ (let s := receiving 0 97
       WordLands s .a .imgData 5 ∧ s.ldr.repl = .receiving ∧ 64 ≤ s.ldr.offset ∧ s.ldr.offset < s.ldr.len ∧ 4 ≤ replFree s)
    ∧ (let s := receiving 0 100
       WordLands s .a .imgCtl 2 ∧ s.ldr.committing = false ∧ s.ldr.len ≤ s.ldr.offset ∧ WordLands s .a .imgCtl 3 ∧ replBusy s = true ∧ Quiet s 166)
    ∧ (armOpen up = false ∧ WordLands up .a .imgCtl 2 ∧ WordLands up .a .imgCtl 3 ∧ WordLands up .a .imgCtl (word (1 + (68#16).toNat * 65536)))
    ∧ (let s := receiving 64 100
       s.ldr.tgtSrc = .eeprom ∧ coreOn s = true ∧ s.Canonical ∧ imgNext s = some (.body (List.replicate 64 1)))
    ∧ imgNext up = none
    ∧ (let s := { receiving 0 100 with ldr := { (receiving 0 100).ldr with committing := true, header := List.replicate 64 1, progAt := 100 } }
       s.ldr.tgtSrc = .eeprom ∧ coreOn s = true ∧ s.Canonical ∧ s.ldr.repl = .receiving ∧ imgNext s = some .header ∧ replBusy s = true ∧ Quiet s 166)
    ∧ (let s := { up with ldr := { up.ldr with repl := .checking, tgtSrc := .eeprom } }
       s.ldr.repl = .checking ∧ Quiet s 165 ∧ Quiet s 166 ∧ judgeSlot s s.ldr.tgtSrc s.ldr.tgtB (runningGen s) = 4) := by decide +kernel
set_option maxRecDepth 100000 in
theorem witness_ReplacementValid : (let s := { imaged with
      pwr := { imaged.pwr with phase := .up }, ldr := { imaged.ldr with repl := .checking, tgtSrc := .eeprom } }
    judgeSlot s s.ldr.tgtSrc s.ldr.tgtB (runningGen s)) = 0 := by
  have h64 : Store.bytes (Store.ofList blank 0 imgCopy) 0 64 = imgHeader := by
    rw [Store.bytes_ofList _ _ _ (by rw [imgCopy_length]; decide), imgCopy, List.append_assoc]
    exact List.take_left' (by decide)
  have hAll : Store.bytes (Store.ofList blank 0 imgCopy) 0 6148 = imgCopy := by
    rw [Store.bytes_ofList _ _ _ (by rw [imgCopy_length])]
    exact List.take_of_length_le (by rw [imgCopy_length])
  have h0 : judgeHeader (some 0) imgHeader = 0 := by decide +kernel
  show (match judgeHeader (some 0) (Store.bytes (Store.ofList blank 0 imgCopy) 0 64) with
    | 0 => (judgeCopy (Store.bytes (Store.ofList blank 0 imgCopy) 0 (imgLen (Store.bytes (Store.ofList blank 0 imgCopy) 0 64)))).1
    | c => c) = 0
  rw [h64, h0, header_valid.2.1, hAll, imgCopy_valid]
  rfl
/-- Host A's NVM_IDX at the last word of user page 448. -/
def paged : State := (up.modHost .a fun x => { x with nvmIdx := 0x01C0003C })
theorem witness_NvmHostCommandsAreJudged :
    (let s := { up with nvm := { up.nvm with bufValid := true, bufPage := 479 } }
     s.nvm.hostJob = none ∧ s.nvm.opHost = false ∧ nvmFill s.nvm < 16 ∧ s.pwr.warn = false ∧ WordLands s .a .nvmCmd 1 ∧ userPage s.nvm.bufPage = true
       ∧ WordLands s .a .nvmCmd 4 ∧ s.ev.queue.length < 512)
    ∧ ((4#3).toNat ≤ 4 ∧ WordLands up .a .nvmCmd (word (2 + 16 * (4#3).toNat)) ∧ WordLands up .a .nvmCmd (word (3 + 16 * (4#3).toNat))
       ∧ armOpen up = false ∧ WordLands (arm up) .a .nvmCmd (word (2 + 16 * (4#3).toNat))
       ∧ WordLands (arm up) .a .nvmCmd (word (3 + 16 * (4#3).toNat)) ∧ armOpen (arm up) = true)
    ∧ (let s := { up with nvm := { up.nvm with hostJob := some .hostProgram } }
       s.nvm.hostJob.isSome = true ∧ WordLands s .a .nvmCmd 1 ∧ WordLands s .a .nvmCmd 4)
    ∧ (let s := { up with pwr := { up.pwr with warn := true } }; s.pwr.warn = true ∧ WordLands s .a .nvmCmd 4)
    ∧ (WordLands paged .a .nvmData 0x01020304 ∧ userPage (nvmPageIdx paged .a) = true ∧ nvmOffset paged .a = 60)
    ∧ (coreOn paged = true ∧ regLive paged .nvmData = true)
    ∧ (4 < (5#3).toNat ∧ WordLands (arm up) .a .nvmCmd (word (2 + 16 * (5#3).toNat)) ∧ WordLands (arm up) .a .nvmCmd (word (3 + 16 * (7#3).toNat)))
    ∧ (WordLands up .a .nvmData 5 ∧ userPage (nvmPageIdx up .a) = false)
    ∧ (let s := { up with ka := { up.ka with pend := up.ka.pend.set 10 1 } }
       cntW 10 ≤ pendOf s 10 ∧ (cntJob (s.modCnt 10 fun x => { x with flush := true }) 10).isSome = true ∧ WordLands s .a .nvmCmd 4
         ∧ s.nvm.op = none ∧ nvmFill s.nvm < 16 ∧ s.nvm.hostJob = none ∧ s.nvm.opHost = false ∧ s.pwr.warn = false) := by decide +kernel
/-- The NVM's leave is granted. -/
def leaved (j : List NvmJob) : State :=
  { up with nvm := { up.nvm with queue := j }, draw := { up.draw with active := [{ user := .nvm, cost := 0, since := 0 }] } }
theorem witness_NvmOperationsRunTheQueue :
    (let s := leaved [.erasePage 448]
     coreOn s = true ∧ s.nvm.op = none ∧ s.pwr.warn = false ∧ s.pwr.pfCommitted = false ∧ nvmLeave s = true
       ∧ nextJob s.nvm = some (.erasePage 448) ∧ jobPlan s (.erasePage 448) = some (3, 448, 0, []))
    ∧ (∀ b ∈ [true, false], let s := { up with nvm := { up.nvm with op := some (.erasePage 448), retried := b } }
       s.nvm.op = some (.erasePage 448) ∧ s.nvm.retried = b ∧ Store.wf blank s.nvm.mem = true)
    ∧ up.nvm.op = none
    ∧ (let s := { up with nvm := { up.nvm with cnt := modVec up.nvm.cnt 72 fun x => { x with carry := 2 } } }
       coreOn s = true ∧ s.nvm.op = none ∧ cntJob s 72 = some (.counter 72 2) ∧ s.nvm.queue.contains (.counter 72 2) = false ∧ nvmFill s.nvm < 16)
    ∧ cntJob up 0 = none
    ∧ (let s := { up with now := ms 100, nvm := { up.nvm with retries := [(80, 0)] } }
       s.nvm.retries.find? (fun x => x.1 == (80 : Fin 81).val && decide (x.2 + ms 100 ≤ s.now)) = some (80, 0)
         ∧ s.nvm.queue.contains (.record 80 false) = false ∧ nvmFill s.nvm < 16)
    ∧ (∀ x ∈ up.nvm.retries, x.1 = 80 → up.now < x.2 + ms 100)
    ∧ (marginDue up = true ∧ marginDue { up with nvm := { up.nvm with marginAt := some 0 } } = false
       ∧ marginDue { up with now := secs 60, nvm := { up.nvm with marginAt := some 0 } } = true)
    ∧ (let s := { up with nvm := { up.nvm with scan := 448 } }
       coreOn s = true ∧ marginDue s = true ∧ (refreshPlan s s.nvm.scan).isSome = true ∧ s.nvm.queue.contains (.refresh s.nvm.scan) = false) := by decide +kernel
/-! ### Witnesses: journal, external memory, draw, recorder -/

def entry (no : Nat) (flags : Byte) (copied : Bool) : JournalEntry :=
  { no := no, sec := 0, frac := 0, flags := flags, id := 98, seq := 0, detail := 0, snap := 0, writtenAt := 0, inXmem := copied }
def queued (cls : Bool) (ring : List JournalEntry) : State :=
  { up with ev := { up.ev with queue := [entryNow up 98 0 cls false none] }, jrn := { up.jrn with ring := ring, nextNo := ring.length } }
theorem witness_JournalWrite :
    (∀ b ∈ [true, false], let s := queued b [entry 0 0 false]
     coreOn s = true ∧ s.ev.queue = [entryNow up 98 0 b false none] ∧ s.jrn.ring.length < 1024 ∧ pinnedCount s < 64)
    ∧ (let s := queued true (List.replicate 64 (entry 0 4 false)); s.jrn.ring.length < 1024 ∧ 64 ≤ pinnedCount s ∧ Quiet s 185)
    ∧ up.ev.queue = [] := by decide +kernel
set_option maxRecDepth 100000 in
theorem witness_JournalOverwrites :
    let s := queued false (entry 0 4 false :: entry 1 0 true :: List.replicate 1022 (entry 2 0 true))
    s.jrn.ring.length = 1024 ∧ s.jrn.ring.find? (fun x => !x.pinned) = some (entry 1 0 true) ∧ (entry 1 0 true).inXmem = true
      ∧ eraseFirst (fun x => !x.pinned) s.jrn.ring = entry 0 4 false :: List.replicate 1022 (entry 2 0 true) :=
  ⟨by simp [queued], rfl, rfl, rfl⟩
theorem witness_JournalKeepsPopsAndMoves :
    (let s := queued false [entry 0 4 false]
     coreOn s = true ∧ regLive s (.jrnE 0) = true ∧ nextUnread s .a = some (entry 0 4 false) ∧ nextUnread up .a = none
       ∧ regLive s (.jrnE 7) = true ∧ (s.host .a).jrnLoaded = none)
    ∧ (let s := (queued false [entry 0 4 false]).modHost .a fun x => { x with jrnLoaded := some 0 }
       (s.host .a).jrnLoaded = some (entry 0 4 false).no ∧ nextUnread s .a = some (entry 0 4 false) ∧ jrInService s = false)
    ∧ WordLands up .b .jrnHctl 1 ∧ WordLands up .b .jrnHctl 2 := by decide +kernel
/-- A memory of 64 MiB with a journal region of two sectors and a recorder region of sixteen. -/
def memory : State :=
  let s := regs up [(.xmCfg, 1), (.xmJrg, 0x00020000), (.xmRrg, 0x00100002), (.recCfg, 1), (.recPost, 1)]
  { s with xm := { s.xm with present := true, dens := 26 }
           draw := { s.draw with active := [{ user := .xmJournal, cost := 0, since := 0 }, { user := .xmPrefetch, cost := 0, since := 0 },
             { user := .xmRecorder, cost := 0, since := 0 }, { user := .xmImage, cost := 0, since := 0 }] } }
theorem witness_XmemServesTheJournalAndTheHosts :
    (coreOn memory = true ∧ memory.pwr.xmi = true ∧ xmUp memory = true ∧ memory.xm.stall = false
      ∧ regionOut memory (min 12 26) (fld (setWord memory .xmJrg) 13 0) (jrSectors memory) = true
      ∧ regionOut memory (min 17 26) (fld (setWord memory .xmJrg) 13 0) (jrSectors memory) = false
      ∧ regionOut memory (min 17 26) (fld (setWord memory .xmRrg) 13 0) (fld (setWord memory .xmRrg) 29 16) = false
      ∧ regionOut memory (min 27 26) (fld (setWord memory .xmRrg) 13 0) (fld (setWord memory .xmRrg) 29 16) = false
      ∧ Quiet memory 177 ∧ xmRam memory = false)
    ∧ coreOn State.reset = false
    ∧ (jrInService memory = true ∧ memory.xm.jready = false ∧ freeGrant memory .xmJournal = true ∧ Quiet memory 183)
    ∧ jrInService up = false
    ∧ (∀ head ∈ [0, 1], let s := { memory with
         now := ms 50, xm := { memory.xm with jready := true, head := head }, jrn := { memory.jrn with ring := [entry 0 0 false] } }
       journalReady s = true ∧ credits s < 4 ∧ freeGrant s .xmJournal = true)
    ∧ (let s := { memory with xm := { memory.xm with bursts := [.journal [0] 255 ((entry 0 0 false).bytes)] } }
       xmUp s = true ∧ s.xm.stall = false ∧ s.xm.bursts = [.journal [0] 255 ((entry 0 0 false).bytes)])
    ∧ up.xm.bursts = [] ∧ (memory.rcd.state ≠ .capture ∧ Quiet memory 178)
    ∧ ({ memory with xm := { memory.xm with bursts := [.prefetch .a 64] } } : State).xm.bursts = [.prefetch .a 64]
    ∧ (let s := { memory with xm := { memory.xm with stall := true } }; xmUp s = true ∧ s.xm.stall = true ∧ Quiet s 179)
    ∧ xmUp up = false ∧ WordLands up .a .xmIdx 0x3FFFFC0 ∧ regLive up (.xmData 15) = true := by decide +kernel
theorem witness_XmemRegionsAndFill :
    (let s := regs memory [(.xmRrg, 0)]
     regionOut s (min 12 26) (fld (setWord s .xmJrg) 13 0) (jrSectors s) = true
       ∧ regionOut s (min 12 26) (fld (setWord s .xmRrg) 13 0) (fld (setWord s .xmRrg) 29 16) = false ∧ Quiet s 177)
    ∧ (∀ b ∈ [[], [XBurst.journal [7] 3 []], [XBurst.recorder 8192 [] false, .prefetch .a 0]],
       let s := { regs memory [(.xmCfg, 3)] with now := ms 50, jrn := { memory.jrn with ring := [entry 0 0 false] } }
       let s := { s with xm := { s.xm with jready := true, bursts := b, began := if b = [] then none else some 0, head := if b = [] then 0 else 127 } }
       xmRam s = true ∧ journalReady s = true ∧ credits s < 4 ∧ freeGrant s .xmJournal = (b != [XBurst.journal [7] 3 []])
         ∧ (nextSlot s % 128 = 0 ↔ b ≠ [XBurst.recorder 8192 [] false, .prefetch .a 0]))
    ∧ (∀ b ∈ [XBurst.recorder 8192 [1] false, .image 64 [2], .recorderErase 8192, .imageErase 4096],
       let s := { memory with xm := { memory.xm with bursts := [b], began := some 0 } }
       xmUp s = true ∧ s.xm.stall = false ∧ s.xm.bursts = [b])
    ∧ (stallDue memory = true ∧ (let s := { memory with xm := { memory.xm with bursts := [.prefetch .a 64], began := some 0 } }
       stallDue s = false ∧ stallDue { s with now := secs 10 } = true)) := by decide +kernel
theorem witness_JournalHeads :
    findHead memory = some 0
    ∧ findHead { memory with xm := { memory.xm with mem := [(0, 0), (4096, 0)] } } = none := by decide +kernel
/-- 63 samples of 0 µV taken, SHUNT 1 mΩ, a budget of 100 mA. -/
def drawn (cost : Nat) (active : List DrawGrant) : State :=
  let s := regs up [(.drawCfg, 0x01000064), (.drawCost, word (cost * 256))]
  { s with draw := { s.draw with samples := List.replicate 63 0, waiting := [{ user := .nvm, since := 0, long := false }], active := active } }
theorem witness_DrawArbiterGrantsUnderItsBudget :
    (coreOn State.reset = false ∧ coreOn up = true ∧ up.xm.present = false ∧ (pushKeep 64 0 up.draw.samples).length < 64)
    ∧ (∀ cost ∈ [100, 101], let s := drawn cost []
       64 ≤ (pushKeep 64 0 s.draw.samples).length ∧ s.pwr.warn = false ∧ s.draw.waiting = [{ user := .nvm, since := 0, long := false }]
         ∧ s.draw.active = [])
    ∧ (let s := drawn 101 [{ user := .bist, cost := 0, since := 0 }]
       let b : Int := max ((measured s (pushKeep 64 0 s.draw.samples) : Int) - grantSum s fun g => decide (g.since + ms 1 ≤ s.now)) 0
       drawBudget s - b - grantSum s (fun _ => true) < drawCostOf s .nvm ∧ leaveHeld s .charger = false ∧ s.draw.active ≠ [])
    ∧ (let s := { drawn 1 [] with now := secs 1 }
       s.draw.waiting.find? (fun x => drawRank x.user == (3 : Fin 8).val + 1 && !x.long && decide (x.since + secs 1 ≤ s.now))
         = some { user := .nvm, since := 0, long := false } ∧ Quiet s 184)
    ∧ up.draw.waiting = [] := by decide +kernel
/-- `drawn` with the self-test waiting behind the NVM at the cost 60 (DRAW_CFG). -/
def drawnTwo (cost : Nat) (active : List DrawGrant) : State :=
  let s := regs (drawn cost active) [(.drawCfg, 0x013C0064)]
  { s with draw := { s.draw with waiting := [{ user := .bist, since := 0, long := false }, { user := .nvm, since := 5, long := false }] } }
theorem witness_DrawRules :
    let a (s : State) : State := if coreOn s = true then xmAsk (imgWants s) s else s
    let b (s : State) : Int := max ((measured s (pushKeep 64 0 s.draw.samples) : Int) - grantSum s fun g => decide (g.since + ms 1 ≤ s.now)) 0
    let room (s : State) : Int := drawBudget s - b s - grantSum s fun _ => true
    let nvm : DrawRequest := { user := .nvm, since := 5, long := false }
    let bist : DrawRequest := { user := .bist, since := 0, long := false }
    (∀ s ∈ [drawnTwo 40 [], drawnTwo 41 [], drawnTwo 101 [], drawnTwo 50 [{ user := .charger, cost := 60, since := 0 }]],
      pastStep1 s = true ∧ (pushKeep 64 0 s.draw.samples).length = 64 ∧ s.pwr.warn = false ∧ drawOrder (a s) = [nvm, bist])
    ∧ ((drawCostOf (drawnTwo 40 []) .nvm + drawCostOf (drawnTwo 40 []) .bist : Nat) ≤ room (drawnTwo 40 []))
    ∧ (let s := drawnTwo 41 []
       (drawCostOf s .nvm : Int) ≤ room s ∧ room s - drawCostOf s .nvm < drawCostOf s .bist ∧ leaveHeld s .charger = false)
    ∧ (let s := drawnTwo 101 []
       s.draw.active = [] ∧ drawBudget s - b s < drawCostOf s .nvm ∧ room s < drawCostOf s .nvm)
    ∧ (let s := drawnTwo 50 [{ user := .charger, cost := 60, since := 0 }]
       room s < drawCostOf s .nvm ∧ leaveHeld s .charger = true ∧ drawRank .nvm < 8
         ∧ drawCostOf s .nvm ≤ room s + grantSum s (fun g => g.user == .charger)) := by decide +kernel
/-- The recorder of `memory` in state st with one frame held. -/
def recording (st : RecState) : State :=
  { memory with rcd := { memory.rcd with state := st, buffer := [1, 2], pre := [[3, 4]], erasedTo := 4096 } }
theorem witness_RecorderArmsCapturesAndEnds :
    (let s := recording .idle; WordLands s .a .recCtl 1 ∧ s.rcd.state = .idle ∧ recNch s ≠ 0 ∧ recNch s ≠ 0 ∧ coreOn s = true)
    ∧ (WordLands up .a .recCtl 1 ∧ recNch up = 0)
    ∧ (let s := recording .armed; WordLands s .a .recCtl 2 ∧ s.rcd.state = .armed ∧ Quiet s 180 ∧ WordLands s .a .recCtl 4)
    ∧ (WordLands (recording .frozen) .a .recCtl 2 ∧ WordLands (recording .frozen) .a .recCtl 8 ∧ (recording .frozen).rcd.state = .frozen)
    ∧ regLive up .recBdata = true
    ∧ (let s := recording .capture
       s.rcd.ending = false ∧ recStreams s = true ∧ s.rcd.buffer.length + (recFrameBytes s).length ≤ 65536 ∧ WordLands s .a .recCtl 4
         ∧ recWants s = true ∧ 0 < recorderCredits s ∧ freeGrant s .xmRecorder = true ∧ s.rcd.buffer ≠ [] ∧ s.rcd.written < s.rcd.erasedTo) := by
  decide +kernel

theorem witness_RecorderEnds :
    (let s := recording .capture
     let s := { s with rcd := { s.rcd with erasedTo := 0 } }
     recWants s = true ∧ 0 < recorderCredits s ∧ freeGrant s .xmRecorder = true ∧ s.rcd.buffer ≠ [] ∧ s.rcd.erasedTo ≤ s.rcd.written ∧ xmRam s = false)
    ∧ (let s := recording .capture
       let s := { s with rcd := { s.rcd with buffer := [], ending := true } }
       recWants s = true ∧ 0 < recorderCredits s ∧ freeGrant s .xmRecorder = true ∧ s.rcd.buffer = [])
    ∧ (let s := recording .capture
       let s := { s with xm := { s.xm with bursts := [.recorder 8192 [1] true] } }
       xmUp s = true ∧ s.xm.stall = false ∧ s.rcd.state = .capture ∧ s.xm.bursts = [.recorder 8192 [1] true] ∧ Quiet s 181 ∧ Quiet s 182
         ∧ recClosed s = true ∧ WordLands s .a .recCtl 4)
    ∧ (let s := recording .capture
       let s := { s with rcd := { s.rcd with ending := true }, xm := { s.xm with rdis := true } }
       recNch s ≠ 0 ∧ coreOn s = true ∧ s.rcd.state = .capture ∧ recStreams s = false ∧ s.rcd.ending = true ∧ Quiet s 182) := by decide +kernel
/-! ### Witnesses: the keep-alive domain -/

/-- `up` at time t with its keep-alive domain changed. -/
def ka (t : Nat) (f : KeepAlive → KeepAlive) : State := { up with now := t, ka := f up.ka }
def quietKa (s : State) : Prop := Quiet s 193 ∧ Quiet s 195 ∧ Quiet s 197 ∧ Quiet s 198 ∧ Quiet s 199 ∧ Quiet s 200 ∧ Quiet s 201
  deriving Decidable
theorem witness_KeepAliveDomainFollowsSourceCellAndClock :
    (kaOn up = true ∧ replBusy up = false ∧ quietKa up ∧ chgEn up.ka.chg = false ∧ sealJudge .low .high = up.ka.sealRec.state)
    ∧ (let s := ka 0 fun a => { a with src := true, srcGood := true, chg := { a.chg with loaded := true, cfg := 0x11 } }
       let s := { s with draw := { s.draw with active := [{ user := .charger, cost := 0, since := 0 }] } }
       chgEn s.ka.chg = true ∧ s.ka.chg.state = .off ∧ chgMayRun s = true)
    ∧ (let s := ka 0 fun a => { a with sealArm := true, sealRec := { a.sealRec with lastRead := some .short } }
       sealJudge .high .high ≠ s.ka.sealRec.state ∧ s.ka.sealRec.lastRead = some (sealJudge .high .high) ∧ s.ka.sealArm = true
         ∧ sealJudge .high .high ≠ .opened)
    ∧ (let s := ka 0 fun a => { a with src := true }; kaOn s = true ∧ s.ka.src = true ∧ s.ka.armed = false ∧ s.ka.lossAt = none)
    ∧ (∀ b : Bool, let s := ka 0 fun a => { a with src := true, armed := true }
       let s := { s with pwr := { s.pwr with phase := if b then .up else .keepAlive } }
       kaOn s = true ∧ s.ka.src = true ∧ s.ka.armed = true ∧ coreOn s = b)
    ∧ (coreOn (ka 0 fun a => { a with brum := true }) = true ∧ up.ka.brum = false)
    ∧ (let s := ka 0 fun a => { a with onCell := true }; s.ka.onCell = true ∧ (0#12).toNat < (chemOf s.ka.chg).cutoff ∧ up.ka.onCell = false)
    ∧ (let s := ka (ms 50) fun a => { a with src := false, lossAt := some 0 }; kaOn s = true ∧ s.ka.src = false ∧ s.ka.lossAt = some 0)
    ∧ (∀ n ∈ [999, 1000], let s := ka (ms 100) fun a => { a with src := true, lossAt := some 0, absence := n, chg := { a.chg with state := .fault } }
       s.ka.src = true ∧ s.ka.srcGood = false ∧ s.ka.srcFrom + ms 100 ≤ s.now ∧ quietKa s ∧ s.ka.lossAt.isSome = true ∧ s.ka.chg.state = .fault)
    ∧ up.now < up.ka.srcFrom + ms 100
    ∧ (let s := ka (secs 1) fun a => { a with onCell := true, cutFrom := some 0 }
       kaOn s = true ∧ s.ka.onCell = true ∧ s.ka.cutFrom = some 0 ∧ 0 + secs 1 ≤ s.now)
    ∧ (∀ b : Bool, let s := { ka 0 fun a => { a with cellOff := b } with pwr := { up.pwr with phase := .unpowered } }
       s.pwr.phase = .unpowered ∧ s.ka.cellOff = b) ∧ up.pwr.phase ≠ .unpowered
    ∧ ({ up with pwr := { up.pwr with phase := .brumation } } : State).pwr.phase = .brumation ∧ up.pwr.phase ≠ .brumation
    ∧ (WordLands up .a .rtcSet1 (0xFF#32 ||| 0x80000000#32) ∧ up.now < rtcNext up ∧ up.ev.queue.length < 512 ∧ regLive up .rtc0 = true)
    ∧ (WordLands up .a .chgCtl 1 ∧ up.ka.chg.state ≠ .fault ∧ (ka 0 fun a => { a with chg := { a.chg with state := .fault } }).ka.chg.state = .fault) := by
  decide +kernel
theorem witness_KeyArmAndBrumationFollowTheOperator :
    (kaOn up = true ∧ up.ka.key = false)
    ∧ (∀ t ∈ [secs 2 - 1, secs 2, secs 5, secs 5 + 1], let s := ka t fun a => { a with key := true, pressReady := true }
       kaOn s = true ∧ s.ka.key = true ∧ s.now - s.ka.pressAt = t ∧ (coreOn s && s.ka.pressReady) = true ∧ (sealRule s && !sealOpen s) = false
         ∧ Quiet s 192 ∧ Quiet s 194)
    ∧ ((ka (secs 2) fun a => { a with key := true }).ka.pressReady = false)
    ∧ (let s := ka (secs 2) fun a => { a with key := true, pressReady := true }
       let s := regs s [(.svcCfg, 0x400)]; (sealRule s && !sealOpen s) = true)
    ∧ (let s := ka 5 fun a => { a with armUntil := some 5 }
       s.ka.armUntil = some 5 ∧ 5 ≤ s.now ∧ replBusy s = false ∧ Quiet s 193 ∧ armOpen s = true ∧ WordLands s .a .svcCtl 1
         ∧ WordLands s .a .brumCtl 1 ∧ Quiet s 203)
    ∧ (up.ka.armUntil = none ∧ armOpen up = false ∧ WordLands up .a .svcCtl 1 ∧ WordLands up .a .brumCtl 1 ∧ WordLands up .a .brumCtl 2 ∧ Quiet up 204)
    ∧ (let s := ka (secs 3600) fun a => { a with armed := true }
       coreOn s = true ∧ s.ka.armed = true ∧ s.ka.residueAt + secs 3600 ≤ s.now ∧ nvmFill s.nvm < 16 ∧ s.nvm.op ≠ some (.residue 0)) ∧ up.ka.armed = false
    ∧ (let s := { up with nvm := { up.nvm with mem := [(64 * 445, 0)] } }; s.nvm.resNext = none ∧ residueFresh s = false)
    ∧ residueFresh up = true ∧ nvmFill up.nvm < 16 ∧ up.nvm.op ≠ some .markStale
    ∧ (let s := { up with nvm := { up.nvm with mem := [(64 * 445, 0)], resNext := some 3, queue := [.residue 3] } }; s.nvm.resNext.isSome = true) := by
  decide +kernel

/-! ### Behaviour: the manual's worked examples and hand calculation -/

/-- R42's example: PRD_FRAC = 4 adds 8 at each peak, so the hold ticks alternate 0, 1. -/
theorem test_hold_ticks_alternate :
    let c : Carrier := { prd := 3000, frac := 4 }
    (c.ticksDue, ({ c with acc := 8 } : Carrier).ticksDue) = (0, 1) := by decide
/-- A tile of R51's table (PRD 300, DTR = DTF = 192, MINP 480) at the valley 4,800. -/
def pulsed (mode cmp fine : Nat) : Tile :=
  let ti : Tile := { car := { prd := 300 }, duty := { cmp := cmp, fine := fine }, act := .active
                     deadNow := 0x00C000C0, minpNow := 480, cfgNow := word (4 * mode) }
  (ti.settlePeak 0 4800).settleValley 4800 0
def width (mode cmp fine : Nat) : Option Int :=
  match (pulsed mode cmp fine).edg.settledRise, (pulsed mode cmp fine).edg.settledFall with | some a, some b => some (b - a) | _, _ => none
theorem test_min_pulse_high : width 0 10 0 = none ∧ width 1 10 0 = some 480 ∧ width 2 0 6 = none ∧ width 0 150 0 = some 4800 := by decide +kernel
/-- Its row CMP = 280 under STRETCH: the falling edge at +4,368, the low side at +4,560, the next rising edge at +5,232. -/
theorem test_min_pulse_low : (pulsed 1 280 0).edg.settledFall = some (4800 + 4368) ∧ (pulsed 1 280 0).edg.lowOnAt = some (4800 + 4560)
    ∧ ((pulsed 1 280 0).settlePeak 9600 14400).edg.settledRise = some (4800 + 5232) ∧ (pulsed 0 282 0).edg.settledFall = none := by decide +kernel
/-- The example of R77: eight samples of −80 at D = 8; a window saturated low with c = 2,560. -/
theorem test_error_word :
    let s (w : Int) : State := (regs up [(.loop 0 .snsCfg, 3)]).modFe 0 fun f => { f with window := List.replicate 8 (w, 43691), coarse := 2560 }
    errorWord (s (-80)) 0 = (640, false) ∧ errorWord (s (-512)) 0 = (6401, true) := by decide +kernel
/-- The example of R89: GAIN 32,670 and OFFSET +82. -/
def calibrated : State := regs up [(.loop 0 .snsCal, 0x7F9E0052)]
theorem test_dac_code : dacOf calibrated 0 43691 = 43642 := by decide +kernel
theorem test_vout_code : voutOf calibrated 0 2727 1 = 43681 := by decide +kernel
/-- The example of R125: 99,952 samples reach 44,783 from 43,691 at SLEW 716, and the last one stops there. -/
theorem test_slew : slewStep (43691 * 65536) (44783 * 65536) 716 = 43691 * 65536 + 716
    ∧ slewStep (43691 * 65536 + 99951 * 716) (44783 * 65536) 716 = 44783 * 65536 := by decide
/-- The example of R150: slot 1 of 12 at PRD 3,000. -/
theorem test_slot_phase : phiOf 1 12 = 5461 ∧ phaseF 5461 3000 0 = 8000 ∧ wrapMove (0 - 60074) = 5462 := by decide +kernel
/-- The hot-bus region of the Moult chapter: the entries of one cool and one hot bin, and the bins of 200 A and 71 °C. -/
def hotel : State := (regs up [(.mapRegion 2, 0x091C0400), (.mapIbin 2, 0x10140000), (.mapTbin 2, 0x002A3000)])
theorem test_entry_index : entryIndex (hotel.modMo 2 fun m => { m with ibin := 3 }) 2 = 0x0403
    ∧ entryIndex (hotel.modMo 2 fun m => { m with ibin := 3, tbin := 1 }) 2 = 0x040B := by decide +kernel
theorem test_bins : binInitial (iDim hotel 2) 273066 = 3 ∧ binUpdate (iDim hotel 2) 2 249855 = 2 ∧ binUpdate (iDim hotel 2) 2 249856 = 3
    ∧ binUpdate (iDim hotel 2) 3 241663 = 2 ∧ binUpdate (iDim hotel 2) 3 241664 = 3 := by decide +kernel
/-- The example of R376: 400 V and 720 A are 131,073 units of power. -/
theorem test_power : railPower ((up.modFe 0 fun f => { f with vout := 43691 }).modMo 0 fun m => { m with ir := 196608 }) 0 = 131073 := by decide +kernel
/-- The example of R327: REF 43,691 and STOP_SLEW 7,158 take 400,019 samples of 96 fine steps. -/
theorem test_stop_time : tStop ((regs up [(.loop 0 .stopCfg, 7158)]).modEng 0 fun e => { e with ref := 43691 * 65536 }) 0 = 400019 * 96 := by
  decide +kernel
/-- The bus example: a write of LOOP[0].TARGET under PEC by host A, with the right code byte and with a wrong one. -/
def pecTarget : State := railIn 0 .off (regs up [(.busCfg, 8), (.loop 0 .tlim, 0xFFFF0000)])
theorem test_pec_right : (match exec (.registerWrite .a 0x1008 [0xAAAB] (some 0xE0)) pecTarget with
    | .next t => (target t 0, t.bus.pecCnt) | _ => (0, 0)) = (0xAAAB, 0) := by decide +kernel
theorem test_pec_wrong : (match exec (.registerWrite .a 0x1008 [0xAAAB] (some 0xE1)) pecTarget with
    | .next t => (target t 0, t.bus.pecCnt) | _ => (0, 0)) = (0, 1) := by decide +kernel
/-- The link example: the CRC of SET_TARGET 44,783 with SEQ 0x2A, its ACK, and the fields of LINK_RAIL[0]. -/
theorem test_link_crc : frameCrc 0x11 0x2A 0 1 0xAEEF = 0x56 ∧ rawCrc 0x112A01AEEF56 = 0x56 := by decide +kernel
theorem test_link_ack :
    let s : State := railIn 0 .regulate (tileIn 0 0 .active (regs up [(.linkCfg, 0x00010001), (.linkAuth, 1), (.loop 0 .tlim, 0xFFFF0000),
      (.linkRail 0, 0x0050A189)]))
    (match exec (.setTarget 0x2A 0 1 0xAEEF) { s with link := { s.link with alive := true } } with
      | .next t => (target t 0, t.link.acks, (t.rail 0).link.watch.isSome)
      | _ => (0, [], false))
    = (44783, [{ ty := 0x91, seq := 0x2A, rail := 0, flags := 0, value := 0xAEEF }], true) := by decide +kernel
theorem test_link_rail : let s := regs up [(.linkRail 0, 0x0050A189)]; (setWin s 0, setDly s 0, setTmo s 0) = (393, 10, 5) := by decide +kernel
/-- The counter example of R512: H = 1,203, U = 60, P = 1,524 at W = 1,024. -/
theorem test_life_counter :
    let c := finOf 73 (by decide) 30
    lifeShown { up.modCnt c (fun x => { x with h := 1203, u := 60 }) with ka := { up.ka with pend := up.ka.pend.set 30 1524 } } c = 73975284 := by
  decide +kernel
/-- The test access port answers 0x1488_046B (R599). -/
theorem test_idcode : idcode = 0x1488046B := by decide
/-! ### Witnesses: where the clauses of a statement meet -/

theorem witness_UnmappedWordsOfABurst : (∀ i : Nat, i < (List.replicate 16 (0 : Word)).length → decodeAddr ((0x8100 + 4 * i) % 65536) = none)
    ∧ (List.replicate 16 (0 : Word)).length ≤ 16 ∧ up.bus.owner = some .a ∧ coreOn up = true ∧ up.bus.holdFrom = none ∧ pecOn up = false
    ∧ (up.bus.owner ≠ some .b ∧ Quiet up 137) ∧ (0x3800 ≤ 0x3FFC ∧ decodeAddr 0x3FFC = none) := by decide +kernel
theorem witness_LatchOfThisCycleStays : let s := evb up 98 7
    let s := { s with ev := { s.ev with src := modVec s.ev.src 98 fun x => { x with latch := true, cycle := some (cycleOf up) } } }
    WordLands s .b (.evLatch 3) 4 ∧ s.pwr.phase = .up ∧ alerts s = true ∧ evEn s 98 = true ∧ evLatchEn s 98 = true
      ∧ (s.source 98).cycle = some (cycleOf s) ∧ bitOf (4#32) (98 % 32) = true := by decide +kernel
theorem witness_RailTimersWait :
    (let s := (railIn 3 .regulate (regs { up with now := ms 1 } [(.loop 2 .seq, 0x000100B0)])).modSeq 3 fun q => { q with pgood := true }
     let s := s.modSeq 2 fun q => { q with depFrom := some 0 }
     (s.rail 2).seq.depFrom = some 0 ∧ sdepEn s 2 = true ∧ (s.rail (startDep s 2)).seq.pgood = true ∧ 0 + us (10 * seqDly s 2) ≤ s.now
       ∧ ¬0 + us (10 * seqDly s 2) ≤ up.now)
    ∧ (up.rail 2).seq.depFrom = none ∧ (up.rail 2).seq.state ≠ .prepare
    ∧ (let s := railIn 2 .prepare up; (s.rail 2).seq.state = .prepare ∧ (s.rail 2).seq.pbHigh = false)
    ∧ (let s := (regs up [(.loop 2 .pgCfg, 0x10000)]).modSeq 2 fun q => { q with state := .regulate, winFrom := some 0 }
       (s.rail 2).seq.winFrom = some 0 ∧ s.now < 0 + us (10 * pgDly s 2) ∧ steady (railSt s 2) = true ∧ (s.rail 2).seq.pgood = false)
    ∧ (let s := up.modSeq 2 fun q => { q with winFrom := some 0 }; steady (railSt s 2) = false)
    ∧ (let s := up.modSeq 2 fun q => { q with pgood := true }; (s.rail 2).seq.pgood = true)
    ∧ (∀ n ∈ [0, 1], let s := regs (railIn 2 .regulate up) [(.loop 2 .hiccup, word n)]
       steady (railSt s 2) = true ∧ ((s.rail 2).seq.steadyFrom + ms (hiccupT s 2) ≤ s.now ↔ n = 0)) := by decide +kernel
theorem witness_TrackFailureCounts : ∀ n ∈ [0, 1, 255],
    let s := ({ regs up [(.loop 2 .track, 0x00010000), (.loop 2 .hiccup, word (n * 65536))] with now := 100000000 }).modSeq 2
      fun q => { q with state := .softstart, shortFrom := some 0 }
    (s.rail 2).seq.shortFrom = some 0 ∧ railSt s 2 = .softstart ∧ trackT s 2 ≠ 0 ∧ 0 + us (trackT s 2) < s.now
      ∧ ((retryN s 2 < satInc (s.rail 2).seq.retry 255 ∧ retryN s 2 ≠ 255) ↔ n = 0) := by decide +kernel
theorem witness_NoTrackFailure : (up.rail 2).seq.shortFrom = none ∧ trackT up 2 = 0 ∧ railSt up 2 ≠ .softstart
    ∧ (let s := (regs up [(.loop 2 .track, 0x00010000)]).modSeq 2 fun q => { q with state := .softstart, shortFrom := some 0 }
       (s.rail 2).seq.shortFrom = some 0 ∧ s.now ≤ 0 + us (trackT s 2) ∧ trackT s 2 ≠ 0) := by decide +kernel
theorem witness_StoppingGoesOn :
    (let s := railIn 2 .stopping up; railSt s 2 = .stopping ∧ (s.rail 2).seq.stopReached = false)
    ∧ (let s := (tileIn 5 2 .active up).modSeq 2 fun q => { q with state := .stopping, stopReached := true }
       (s.tile 5).rail = some 2 ∧ (s.tile 5).act = .active ∧ (s.tile 5).lowed = false ∧ (s.rail 2).seq.stopReached = true)
    ∧ (let s := (up.modSeq 2 fun q => { q with state := .stopping, stopReached := true, stopSafe := true })
       railSt s 2 = .stopping ∧ (s.rail 2).seq.stopSafe = true ∧ ∀ u, (s.tile u).rail = some 2 → (s.tile u).act = .active → (s.tile u).lowed = true) := by
  decide +kernel
/-- Rail 2 in state st under LEN2, active high, with LEN_MODE = 0; its stop depends on rail 3. -/
def lenned (st dep : RailState) (lp : LeapState) : State :=
  ((railIn 3 dep (railIn 2 st (regs up [(.loop 2 .seq, 0xB03)]))).modSeq 2 fun q => { q with lenPin := some true }).modLeap 2 fun l => { l with state := lp }
theorem witness_LenStops :
    (∀ st ∈ [RailState.off, .safe, .hiccup, .stopping, .prepare, .softstart, .regulate, .slew], let s := lenned st .off .idle
     coreOn s = true ∧ lenEn s 2 = true ∧ false ≠ lenPol s 2 ∧ lenMode s 2 = false ∧ lenActive s 2 = true ∧ railSt s 2 = st
       ∧ leapActive s 2 = false ∧ stopDepOk s 2 = true ∧ (∀ j, (s.rail j).seq.stopWait = none) ∧ NoWatch s 2)
    ∧ (∀ st ∈ [RailState.softstart, .regulate, .slew], stopDepOk (lenned st .regulate .idle) 2 = false ∧ leapActive (lenned st .off .leap) 2 = true
        ∧ lenActive (lenned st .regulate .idle) 2 = true ∧ lenMode (lenned st .regulate .idle) 2 = false)
    ∧ (let s := regs (lenned .off .off .idle) [(.loop 2 .seq, 7)]
       lenEn s 2 = true ∧ false ≠ lenPol s 2 ∧ lenMode s 2 = true ∧ railSt s 2 = .off)
    ∧ (let s := lenned .regulate .off .idle; true = lenPol s 2)
    ∧ (let s := (lenned .regulate .off .idle).modSeq 2 fun q => { q with lenPin := none }; lenActive s 2 = false ∧ lenMode s 2 = false)
    ∧ coreOn State.reset = false := by decide +kernel
/-- The low side of `emulated` has its end settled at 805, inside (800, 816). -/
theorem witness_DeLowSideEndsAsSettled : let s := emulated.modTile 5 fun x => { x with edg := { x.edg with lo := [(805, false), (0, true)] } }
    (s.tile 5).emulating = true ∧ lowAt (s.tile 5).edg (16 * (50 : Nat)) = true ∧ (∀ p ∈ (s.tile 5).edg.lo, 800 + 16 ≤ p.1 → p.2 = false)
      ∧ (Wave.last (Wave.endPulse (s.tile 5).edg.lo (800 + 16)) false (800 + 16)).getD (800 + 16) = 805 := by decide +kernel
theorem witness_IcalWithoutArm : WordLands up .a (.tile 5 .ical) 0x80000000 ∧ armOpen up = false := by decide +kernel
theorem witness_AutozeroTimeoutNeedsNoLeave :
    (let s := ({ up with now := ms 5 }).modFe 2 fun f => { f with autozero := .requested true 0 }
     (s.rail 2).fe.autozero = .requested true 0 ∧ leaveHeld s (.autozero 2) = false ∧ 0 + ms 5 ≤ s.now)
    ∧ (let s := up.modFe 2 fun f => { f with autozero := .requested true 0 }
       (s.rail 2).fe.autozero = .requested true 0 ∧ s.now < 0 + ms 5) := by decide +kernel
/-- Port 0 above its shutdown level, its one tile ACTIVE in a regulating rail. -/
def overheated : State := railIn 2 .regulate (tileIn 0 2 .active (heatedAt 160))
theorem witness_FastLaneFadesActiveTilesOut : fastList overheated = [0] ∧ chEn overheated 0 = true ∧ (overheated.chan 0).broken = false
    ∧ overheated.pwr.warn = false ∧ Quiet overheated (chSource 0) ∧ (∀ j, (overheated.rail j).seq.stopWait = none) ∧ (∀ j, NoWatch overheated j)
    ∧ (∀ u, (portOf u).val = (0 : ChanId).val → (overheated.tile u).act ≠ .ready ∧ (overheated.tile u).act ≠ .cold)
    ∧ (portOf 0).val = (0 : ChanId).val ∧ (overheated.tile 0).rail = some 2 ∧ (overheated.tile 0).act = .active ∧ (overheated.tile 0).fade = .none
    ∧ (overheated.rail 2).ilv.glide = .none ∧ leapActive overheated 2 = false ∧ railSt overheated 2 ≠ .stopping
    ∧ chShut overheated 0 = 160 ∧ readingOf overheated 0 14000 = 160 := by decide +kernel
/-- `memory` in a warning of the supply, a prefetch of host A staged. -/
def warned (began : Option Nat) : State :=
  { memory with pwr := { memory.pwr with warn := true }, xm := { memory.xm with bursts := [.prefetch .a 64], began := began } }
theorem witness_WarningHoldsTheMemoryPort :
    (coreOn (warned none) = true ∧ (warned none).pwr.warn = true ∧ Quiet (warned none) 96 ∧ (warned none).xm.bursts ≠ [] ∧ (warned none).xm.began = none
      ∧ (let s := { warned none with draw := { (warned none).draw with active := [] } }; freeGrant s .xmJournal = false ∧ s.xm.bursts ≠ [] ∧ s.xm.began = none))
    ∧ (xmUp (warned (some 0)) = true ∧ (warned (some 0)).xm.stall = false ∧ (warned (some 0)).xm.bursts = [.prefetch .a 64]
      ∧ (warned (some 0)).xm.began.isSome = true)
    ∧ (let s := { warned (some 0) with rcd := { memory.rcd with state := .capture, buffer := [1], ending := true } }
       let s := { s with xm := { s.xm with bursts := [.recorder 8192 [1] true] } }
       xmUp s = true ∧ s.xm.stall = false ∧ s.rcd.state = .capture ∧ s.pwr.warn = true ∧ s.xm.began.isSome = true ∧ Quiet s 181 ∧ Quiet s 182) := by
  decide +kernel
theorem witness_ResetsWithThePinLow :
    (let s := { up with tap := { up.tap with resetLow := true } }
     coreOn s = true ∧ s.tap.resetLow = true ∧ s.pwr.phase ≠ .inReset)
    ∧ (149 < 150 ∧ up.tap.resetLow = false)
    ∧ (let s := { State.reset with ka := { State.reset.ka with cause := 4 }, pwr := { State.reset.pwr with outAt := us 100 } }
       s.pwr.phase = .inReset ∧ inReset s = true ∧ s.ka.cause = 4 ∧ min s.ka.cause 6 = 4
         ∧ (let t := { s with now := us 100 }; t.pwr.phase = .inReset ∧ inReset t = false)
         ∧ (let t := { s with now := us 100, tap := { s.tap with resetLow := true } }; t.pwr.phase = .inReset ∧ inReset t = true)) := by decide +kernel
theorem witness_BootWaitsForThePin : (let s := { State.reset with tap := { State.reset.tap with resetLow := true } }
     s.pwr.phase = .inReset ∧ s.tap.resetLow = true) ∧ State.reset.tap.resetLow = false := by decide
theorem witness_SweepWithoutShutdown : up.hk.tsd = false ∧ ({ up with hk := { up.hk with tsd := true } } : State).hk.tsd = true := by decide
/-- `up` with a host operation running, with sixteen requests waiting, in a warning of the supply. -/
def nvmBusy : State := { up with nvm := { up.nvm with op := some (.erasePage 448), opHost := true } }
def nvmFull : State := { up with nvm := { up.nvm with queue := (List.range 16).map fun i => .erasePage i } }
def nvmWarn : State := { up with pwr := { up.pwr with warn := true } }
theorem witness_NvmCommandsAreTurnedAway :
    (∀ s ∈ [nvmBusy, nvmFull, nvmWarn], WordLands s .a .nvmCmd 1 ∧ WordLands s .a .nvmCmd (word (2 + 16 * (4#3).toNat))
      ∧ WordLands s .a .nvmCmd (word (3 + 16 * (4#3).toNat)) ∧ WordLands s .a .nvmCmd 4 ∧ s.nvm.hostJob = none)
    ∧ nvmBusy.nvm.opHost = true ∧ (nvmFull.nvm.opHost = false ∧ 16 ≤ nvmFill nvmFull.nvm)
    ∧ (nvmWarn.nvm.opHost = false ∧ nvmFill nvmWarn.nvm < 16 ∧ nvmWarn.pwr.warn = true)
    ∧ (up.nvm.bufValid = false ∧ WordLands up .a .nvmCmd 1 ∧ nvmFill up.nvm < 16) := by decide +kernel
theorem witness_JournalWriteWaitsForItsCycle :
    let s := { up with ev := { up.ev with queue := [{ entryNow up 98 0 false false none with cyc := 1 }] } }
    s.ev.queue = [{ entryNow up 98 0 false false none with cyc := 1 }] ∧ cycleOf s < 1 := by decide +kernel
theorem witness_BurstWaitsInAWarning : (warned none).pwr.warn = true ∧ (warned none).xm.began = none ∧ xmUp (warned none) = true
    ∧ (warned none).xm.stall = false := by decide +kernel
theorem witness_TrimEitherWay : ∀ n ∈ [(3 : Int), 0, -3], let s := ka 0 fun a => { a with trim := BitVec.ofInt _ n }
    kaOn s = true ∧ s.ka.trim.toInt = n ∧ s.ka.rtcNew = none := by decide +kernel
theorem witness_TestAccessPortMovesTheReset :
    (coreOn up = true ∧ up.ka.brum = false ∧ up.tap.resetLow = false)
    ∧ (let s := { State.reset with tap := { State.reset.tap with resetLow := true } }; s.tap.resetLow = true ∧ s.pwr.phase = .inReset) := by decide +kernel

end Sys2Proof.Tests
end

section
/-! SUPPORT. The register map read backwards, what a frame leaves, a register word after a write, and the opened transaction of a landed word. -/

namespace Sys2Proof.Machine

theorem loopRegAt_offset (x : LoopReg) : loopRegAt x.offset = some x := by
  cases x with
  | leapSet j => revert j; decide
  | _ => rfl

theorem tileRegAt_offset (x : TileReg) : tileRegAt x.offset = some x := by cases x <;> rfl

theorem loopReg_offset_lt (x : LoopReg) : x.offset % 4 = 0 ∧ x.offset < 0x200 := by
  cases x with
  | leapSet j => revert j; decide
  | _ => decide

theorem tileReg_offset_lt (x : TileReg) : x.offset % 4 = 0 ∧ x.offset < 0x80 := by cases x <;> decide

theorem decodeAddr_loop (k : RailId) (x : LoopReg) : decodeAddr (Reg.loop k x).addr = some (.loop k x) := by
  obtain ⟨h4, hlt⟩ := loopReg_offset_lt x
  have hk := k.isLt
  have hmod : (0x1000 + 0x200 * k.val + x.offset - 0x1000) % 0x200 = x.offset := by omega
  have hdiv : (0x1000 + 0x200 * k.val + x.offset - 0x1000) / 0x200 = k.val := by omega
  show decodeAddr (0x1000 + 0x200 * k.val + x.offset) = _
  unfold decodeAddr
  rw [if_neg (by omega), if_pos (by omega), hmod, hdiv, loopRegAt_offset, railOf_val, Option.map_some]

theorem decodeAddr_tile (t : TileId) (x : TileReg) : decodeAddr (Reg.tile t x).addr = some (.tile t x) := by
  obtain ⟨h4, hlt⟩ := tileReg_offset_lt x
  have ht := t.isLt
  have hmod : (0x2000 + 0x80 * t.val + x.offset - 0x2000) % 0x80 = x.offset := by omega
  have hdiv : (0x2000 + 0x80 * t.val + x.offset - 0x2000) / 0x80 = t.val := by omega
  show decodeAddr (0x2000 + 0x80 * t.val + x.offset) = _
  unfold decodeAddr
  rw [if_neg (by omega), if_neg (by omega), if_pos (by omega), hmod, hdiv, tileRegAt_offset, tileOf_val, Option.map_some]

/-- Every register's address decodes to it (R34): the two blocks by their strides, the arrays by their entries. -/
theorem decodeAddr_addr (r : Reg) : decodeAddr r.addr = some r := by
  cases r with
  | loop k x => exact decodeAddr_loop k x
  | tile t x => exact decodeAddr_tile t x
  | evCfg i | evLatch i | linkRail i | linkLast i | fastList i | chCfg i | chData i | therm i | trVolt i | trVpeak i | trCurr i | trCpeak i
  | trPower i | trPpeak i | trTemp i | trWin i | ttCurr i | ttCpeak i | ttTemp i | lifeEnergy i | lifeStarts i | lifeLeaps i | lifeTrips i
  | jrnE i | xmData i | recCh i | nvmRec i | cntStat i | mapRegion i | mapVbin i | mapIbin i | mapTbin i => revert i; decide +kernel
  | _ => rfl

theorem addr_injective {r q : Reg} (h : q.addr = r.addr) : q = r :=
  Option.some_injective _ ((decodeAddr_addr q).symm.trans (h ▸ decodeAddr_addr r))

/-! What stays outside the parts of a frame. -/

section Frames
variable {ps : List Part} {s t : State}

theorem Within.setWord_eq (h : Within ps s t) (hp : Part.settings ∉ ps) (r : Reg) : setWord t r = setWord s r :=
  congrArg (fun c => Store.get 0 c r.addr) (h .settings hp)
theorem Within.rail_eq (h : Within ps s t) (hp : Part.rails ∉ ps) (k : RailId) : t.rail k = s.rail k := congrArg (Vector.get · k) (h .rails hp)
theorem Within.tile_eq (h : Within ps s t) (hp : Part.tiles ∉ ps) (u : TileId) : t.tile u = s.tile u := congrArg (Vector.get · u) (h .tiles hp)
theorem Within.host_eq (h : Within ps s t) (hp : Part.bus ∉ ps) (g : HostId) : t.host g = s.host g := by
  have hb : t.bus = s.bus := h .bus hp
  cases g <;> simp only [State.host, hb]

end Frames

/-! A register word after a write. -/

theorem setWord_putWord_same {s : State} (hs : s.Canonical) (r : Reg) (w : Word) : setWord (putWord s r w) r = w :=
  Store.get_set_same hs.1 _ _
theorem setWord_putWord_other (s : State) {r q : Reg} (w : Word) (hq : q ≠ r) : setWord (putWord s r w) q = setWord s q :=
  Store.get_set_other (fun e => hq (addr_injective e)) w

/-! The opened transaction leaves every unit but the bus. -/

@[simp] theorem setWord_opened (s : State) (h : HostId) (a : Nat) (r : Reg) : setWord (s.opened h a) r = setWord s r :=
  (opened_within s h a).setWord_eq (by decide) r
@[simp] theorem opened_link (s : State) (h : HostId) (a : Nat) : (s.opened h a).link = s.link := opened_within s h a .link (by decide)
@[simp] theorem opened_hk (s : State) (h : HostId) (a : Nat) : (s.opened h a).hk = s.hk := opened_within s h a .hk (by decide)
@[simp] theorem opened_coef (s : State) (h : HostId) (a : Nat) : (s.opened h a).coef = s.coef := opened_within s h a .coef (by decide)

theorem canonical_of_bus {s t : State} (hb : Within [.bus] s t) (hs : s.Canonical) : t.Canonical := by
  have hset : t.settings = s.settings := hb .settings (by decide)
  have hcoef : t.coef = s.coef := hb .coef (by decide)
  have htab : t.tempTab = s.tempTab := hb .tempTab (by decide)
  have hmap : t.map = s.map := hb .map (by decide)
  have heep : t.eeprom = s.eeprom := hb .eeprom (by decide)
  have hnvm : t.nvm = s.nvm := hb .nvm (by decide)
  have hxm : t.xm = s.xm := hb .xm (by decide)
  unfold State.Canonical
  rw [hset, hcoef, htab, hmap, heep, hnvm, hxm]
  exact hs

theorem opened_canonical {s : State} (hs : s.Canonical) (h : HostId) (a : Nat) : (s.opened h a).Canonical :=
  canonical_of_bus (opened_within s h a) hs

theorem noWatch_of_bus {s t : State} {k : RailId} (hb : Within [.bus] s t) (hw : NoWatch s k) : NoWatch t k := by
  have hnow : t.now = s.now := hb .now (by decide)
  unfold NoWatch cycleOf
  rw [hb.rail_eq (by decide), hnow]
  exact hw

theorem opened_noWatch {s : State} {k : RailId} (hw : NoWatch s k) (h : HostId) (a : Nat) : NoWatch (s.opened h a) k :=
  noWatch_of_bus (opened_within s h a) hw

/-- A word that lands at a register has the effect of that register in the opened transaction. -/
theorem writeAt_of_lands {s : State} {h : HostId} {r : Reg} {data : Word} (hl : WordLands s h r data) :
    writeAt h r data s = indexStep h r (writeReg true h r data (s.opened h r.addr)) := writeAt_lands hl (decodeAddr_addr r)

/-! Fields of words. -/

theorem fld_lt (w : Word) (hi lo : Nat) : fld w hi lo < 2 ^ (hi + 1 - lo) := Nat.mod_lt _ (by positivity)
theorem fld_word_low {v : Nat} (hv : v < 65536) : fld (word v) 15 0 = v := by
  simp [fld, nfld, word]
  omega

/-! Settle watches (R445). -/

theorem closedNow_of_noWatch {s : State} {k : RailId} (hw : NoWatch s k) : closedNow s k = none := by
  obtain ⟨_, hold⟩ := hw
  unfold closedNow
  cases hc : (s.rail k).link.closed with
  | none => rfl
  | some c =>
    have hlt : c.cycle < cycleOf s := by simpa [hc] using hold
    exact if_neg (Nat.ne_of_lt hlt)

/-- With no watch open and none closed in this cycle there is nothing to close. -/
theorem closeWatch_of_noWatch {s : State} {k : RailId} (hw : NoWatch s k) (raise : Raise) (f : BitVec 5) (v : BitVec 16) :
    closeWatch raise k f v s = s := by
  unfold closeWatch recloseWatch
  rw [hw.1, closedNow_of_noWatch hw]

end Sys2Proof.Machine
end

section
/-! SUPPORT. The read of one register: what the transaction changes, what is sent and what commits (R402, R404, R409). -/

namespace Sys2Proof.Machine

theorem addr_lt (r : Reg) : r.addr < 65536 := by
  cases r with
  | loop k x =>
    have hx := (loopReg_offset_lt x).2
    have hk := k.isLt
    simp only [Reg.addr]; omega
  | tile t x =>
    have hx := (tileReg_offset_lt x).2
    have ht := t.isLt
    simp only [Reg.addr]; omega
  | evCfg i | evLatch i | linkRail i | linkLast i | fastList i | chCfg i | chData i | therm i | trVolt i | trVpeak i | trCurr i | trCpeak i
  | trPower i | trPpeak i | trTemp i | trWin i | ttCurr i | ttCpeak i | ttTemp i | lifeEnergy i | lifeStarts i | lifeLeaps i | lifeTrips i
  | jrnE i | xmData i | recCh i | nvmRec i | cntStat i | mapRegion i | mapVbin i | mapIbin i | mapTbin i => revert i; decide
  | _ => decide

theorem addr_toNat (r : Reg) : (BitVec.ofNat 16 r.addr).toNat = r.addr := by
  rw [BitVec.toNat_ofNat]; exact Nat.mod_eq_of_lt (addr_lt r)

theorem vector_ext_get {α : Type} {n : Nat} {v w : Vector α n} (h : ∀ i : Fin n, v.get i = w.get i) : v = w :=
  Vector.ext fun i hi => h ⟨i, hi⟩

/-! The trip inputs that a read samples (R71). -/

theorem reads_one {a x : Nat} (ha : a < 65536) (hx : x < 65536) : reads a 1 x = true ↔ x = a := by
  simp only [reads, Bool.and_eq_true, beq_iff_eq, decide_eq_true_eq]
  omega

theorem showTrips_tripStat {s : State} (hc : coreOn s = true) (u : TileId) (trips : BitVec 48) :
    showTrips (Reg.tile u .tripStat).addr 1 trips s
      = s.modTile u fun x => { x with trip := { x.trip with active := trips.getLsbD u.val } } := by
  have htiles : (showTrips (Reg.tile u .tripStat).addr 1 trips s).tiles
      = (s.modTile u fun x => { x with trip := { x.trip with active := trips.getLsbD u.val } }).tiles := by
    refine vector_ext_get fun v => ?_
    unfold showTrips
    rw [if_pos hc]
    refine (mapTiles_tile s _ v).trans ?_
    by_cases hv : v = u
    · subst hv
      rw [if_pos ((reads_one (addr_lt _) (addr_lt _)).mpr rfl)]
      exact (modTile_tile s v fun x => { x with trip := { x.trip with active := trips.getLsbD v.val } }).symm
    · rw [if_neg fun hr => hv (Reg.tile.inj (addr_injective ((reads_one (addr_lt _) (addr_lt _)).mp hr))).1]
      exact (modTile_other s u _ v hv).symm
  unfold showTrips at htiles ⊢
  rw [if_pos hc] at htiles ⊢
  exact congrArg (fun x => { s with tiles := x }) htiles

theorem showTrips_of_other {r : Reg} (hr : ∀ u, r ≠ .tile u .tripStat) (trips : BitVec 48) (s : State) :
    showTrips r.addr 1 trips s = s := by
  have htiles : (s.mapTiles fun t ti =>
      if reads r.addr 1 (Reg.addr (.tile t .tripStat)) then { ti with trip := { ti.trip with active := trips.getLsbD t.val } } else ti).tiles = s.tiles := by
    refine vector_ext_get fun v => (mapTiles_tile s _ v).trans ?_
    exact if_neg fun hv => hr v (addr_injective ((reads_one (addr_lt _) (addr_lt _)).mp hv)).symm
  unfold showTrips
  split
  · exact congrArg (fun x => { s with tiles := x }) htiles
  · rfl

/-! A read of one register (R402, R404, R409). -/

/-- The read transaction of one register at address a by host h is open, with the bytes of `lead` before its data, and nothing has been
sent. -/
def State.reading (s : State) (h : HostId) (a : Nat) (lead : List Byte) : State :=
  let x := openRead lead (addressPhase h a 1 s)
  { x with bus := { x.bus with nak := false, sent := [], sentCode := none } }

/-- The read of one register has committed: the pointer stands after it, and its code has gone out where it carries one. -/
def State.readDone (s : State) (h : HostId) (a : Nat) (code : Option Byte) : State :=
  let x := pointTo h (a + 4) s
  { x with bus := { x.bus with sentCode := code } }

theorem reading_within (s : State) (h : HostId) (a : Nat) (lead : List Byte) : Within [.bus] s (s.reading h a lead) :=
  ((within_addressPhase h a 1 s).trans (within_openRead lead _)).trans (within_set_bus _ _)
theorem readDone_within (s : State) (h : HostId) (a : Nat) (code : Option Byte) : Within [.bus] s (s.readDone h a code) :=
  (within_pointTo h (a + 4) s).trans (within_set_bus _ _)

theorem reading_pwr (s : State) (h : HostId) (a : Nat) (lead : List Byte) : (s.reading h a lead).pwr = s.pwr :=
  reading_within s h a lead .pwr (by decide)
@[simp] theorem reading_sent (s : State) (h : HostId) (a : Nat) (lead : List Byte) : (s.reading h a lead).bus.sent = [] := rfl
@[simp] theorem reading_host (s : State) (h : HostId) (a : Nat) (lead : List Byte) :
    (s.reading h a lead).host h = { s.host h with ptr := BitVec.ofNat 16 a } := by cases h <;> rfl
@[simp] theorem readDone_host (s : State) (h : HostId) (a : Nat) (code : Option Byte) :
    (s.readDone h a code).host h = { s.host h with ptr := BitVec.ofNat 16 (a + 4) } := by cases h <;> rfl
@[simp] theorem readDone_sent (s : State) (h : HostId) (a : Nat) (code : Option Byte) : (s.readDone h a code).bus.sent = s.bus.sent := by
  cases h <;> rfl

theorem coreOn_congr {s t : State} (h : t.pwr = s.pwr) : coreOn t = coreOn s := by simp only [coreOn, h]
theorem regLive_congr {s t : State} (h : t.pwr = s.pwr) (r : Reg) : regLive t r = regLive s r := by
  simp only [regLive, domainOn, groupOn, bankOn, h]

theorem readLen_one (s : State) (a : Addr) (trips : BitVec 48) : readLen s { ReadAccess.one a .ok with trips := trips } = 1 := by
  unfold readLen; split <;> rfl

theorem readPast_one (s : State) (a : Addr) (trips : BitVec 48) : readPast s { ReadAccess.one a .ok with trips := trips } = false := by
  unfold readPast; rw [readLen_one]; split <;> rfl

/-- A live register whose sampling reads no memory is sent as it reads, and its read commits. -/
theorem readOne_live {s : State} {h : HostId} {r : Reg} (hc : coreOn s = true) (hr : regLive s r = true) (hs : readSample h .ok r s = s) :
    readOne h r.addr .ok true s = pointTo h (r.addr + 4) (readCommit h r (sendWord (readReg s h r) s)) := by
  unfold readOne
  rw [decodeAddr_addr]
  simp only [hc, hr, hs, Bool.and_self, if_true]
  rfl

/-- A read of one register whose word is whole: its word is sampled with the trip inputs shown, sent and committed. -/
theorem readData_one {s : State} {h : HostId} {acc : ReadAccess} (hn : min acc.regs (readLen s acc) = 1) (hp : readPast s acc = false)
    (hw : acc.whole = true) (he : acc.ecc = [.ok]) :
    let x := openRead (readLead s h acc) (addressPhase h (readFrom s h acc) 1 (showTrips (readFrom s h acc) 1 acc.trips s))
    let y := readOne h (readFrom s h acc) .ok true { x with bus := { x.bus with nak := false, sent := [], sentCode := none } }
    ∃ code, readData h acc s = { y with bus := { y.bus with sentCode := code } } := by
  have hone : min 1 16 = 1 := rfl
  have hfill : ∀ l : List Word, l ++ List.replicate (1 - 16) 0xFFFFFFFF#32 = l := fun l => List.append_nil l
  unfold readData
  simp only [hn, hp, hw, he, hone, hfill, Bool.true_or, readWords, List.headD_cons, Bool.false_eq_true, if_false]
  generalize readOne h (readFrom s h acc) .ok true _ = y
  split
  · exact ⟨_, rfl⟩
  · exact ⟨y.bus.sentCode, rfl⟩

theorem busRead_one {s : State} {h : HostId} {r : Reg} (trips : BitVec 48) (hc : coreOn s = true) (hh : s.bus.holdFrom = none)
    (hr : regLive s r = true) (hs : ∀ x, readSample h .ok r x = x) :
    ∃ lead code, busRead h { ReadAccess.one (BitVec.ofNat 16 r.addr) .ok with trips := trips } s
      = (readCommit h r (sendWord (readReg ((showTrips r.addr 1 trips s).reading h r.addr lead) h r)
          ((showTrips r.addr 1 trips s).reading h r.addr lead))).readDone h r.addr code := by
  let acc := { ReadAccess.one (BitVec.ofNat 16 r.addr) .ok with trips := trips }
  have hfrom : readFrom s h acc = r.addr := addr_toNat r
  have hlen : min acc.regs (readLen s acc) = 1 := by rw [readLen_one]; rfl
  obtain ⟨code, hdata⟩ := readData_one (h := h) hlen (readPast_one s _ trips) rfl rfl
  rw [hfrom] at hdata
  have hpwr : ((showTrips r.addr 1 trips s).reading h r.addr (readLead s h acc)).pwr = s.pwr :=
    ((within_showTrips _ _ _ _).mono (by decide)).trans ((reading_within _ _ _ _).mono (by decide)) (ps := [.tiles, .bus]) .pwr (by decide)
  have hone := readOne_live (h := h) ((coreOn_congr hpwr).trans hc) ((regLive_congr hpwr r).trans hr) (hs _)
  refine ⟨readLead s h acc, code, ?_⟩
  unfold busRead
  rw [busAnswers_of_core hc hh, if_neg (by decide), if_neg (by simp [ReadAccess.one]), hdata]
  exact congrArg (fun y : State => { y with bus := { y.bus with sentCode := code } }) hone

/-- What every read of one live register does: its word is sent as the register reads once the trip inputs are shown, its fields clear and
its indexes move, and the transaction changes nothing else. -/
theorem busRead_one_commits {s : State} {h : HostId} {r : Reg} (trips : BitVec 48) (hc : coreOn s = true) (hh : s.bus.holdFrom = none)
    (hr : regLive s r = true) (hs : ∀ x, readSample h .ok r x = x)
    (hreg : ∀ y lead, readReg (State.reading y h r.addr lead) h r = readReg y h r)
    (hsent : ∀ w x, (readCommit h r (sendWord w x)).bus.sent = x.bus.sent ++ [w]) :
    ∃ x code, busRead h { ReadAccess.one (BitVec.ofNat 16 r.addr) .ok with trips := trips } s = (readCommit h r x).readDone h r.addr code
      ∧ Within [.bus] (showTrips r.addr 1 trips s) x ∧ x.host h = { s.host h with ptr := BitVec.ofNat 16 r.addr }
      ∧ ((readCommit h r x).readDone h r.addr code).bus.rdata = readReg (showTrips r.addr 1 trips s) h r := by
  obtain ⟨lead, code, hrun⟩ := busRead_one trips hc hh hr hs
  refine ⟨_, code, hrun, (reading_within _ h r.addr lead).trans (within_set_bus _ _), ?_, ?_⟩
  · rw [sendWord_host, reading_host, (within_showTrips _ _ _ s).host_eq (by decide)]
  · rw [Bus.rdata, readDone_sent, hsent, reading_sent, hreg]
    rfl

/-- The same of a register that no trip input is behind. -/
theorem readAt_commits {s : State} {h : HostId} {r : Reg} (hc : coreOn s = true) (hh : s.bus.holdFrom = none) (hr : regLive s r = true)
    (ht : ∀ u, r ≠ .tile u .tripStat) (hs : ∀ x, readSample h .ok r x = x)
    (hreg : ∀ y lead, readReg (State.reading y h r.addr lead) h r = readReg y h r)
    (hsent : ∀ w x, (readCommit h r (sendWord w x)).bus.sent = x.bus.sent ++ [w]) :
    ∃ x code, readAt h r .ok s = (readCommit h r x).readDone h r.addr code
      ∧ Within [.bus] s x ∧ x.host h = { s.host h with ptr := BitVec.ofNat 16 r.addr }
      ∧ ((readCommit h r x).readDone h r.addr code).bus.rdata = readReg s h r := by
  have := busRead_one_commits 0 hc hh hr hs hreg hsent
  rwa [showTrips_of_other ht] at this

theorem readDone_frame {ps : List Part} {s x u : State} (h : HostId) (a : Nat) (code : Option Byte) (hb : Part.bus ∈ ps) (hx : Within [.bus] s x)
    (hu : Within ps x u) : Within ps s (u.readDone h a code) :=
  ((hx.mono (by simpa using hb)).trans hu).step (readDone_within u h a code) (by simpa using hb)

@[simp] theorem readDone_rail (s : State) (h : HostId) (a : Nat) (code : Option Byte) (k : RailId) : (s.readDone h a code).rail k = s.rail k :=
  (readDone_within s h a code).rail_eq (by decide) k
@[simp] theorem readDone_tile (s : State) (h : HostId) (a : Nat) (code : Option Byte) (u : TileId) : (s.readDone h a code).tile u = s.tile u :=
  (readDone_within s h a code).tile_eq (by decide) u
@[simp] theorem readDone_ev (s : State) (h : HostId) (a : Nat) (code : Option Byte) : (s.readDone h a code).ev = s.ev :=
  readDone_within s h a code .ev (by decide)
@[simp] theorem readDone_link (s : State) (h : HostId) (a : Nat) (code : Option Byte) : (s.readDone h a code).link = s.link :=
  readDone_within s h a code .link (by decide)

end Sys2Proof.Machine
end

section
/-! SUPPORT. The loop's direct writes: TARGET, CSET, MOULT_CTL and COEF_DATA, each with what it stores or refuses. -/

namespace Sys2Proof.Machine

/-! TARGET (R124) -/

theorem targetWrite_of_refused {s : State} {h : HostId} {k : RailId} {data : Word}
    (hr : linkAuth s k = true ∨ fld data 15 0 < tMin s k ∨ tMax s k < fld data 15 0) : targetWrite h k data s = refuse h s := by
  unfold targetWrite
  exact if_pos (by simpa [or_assoc] using hr)

theorem targetWrite_of_accepted {s : State} {h : HostId} {k : RailId} {data : Word} (ha : linkAuth s k = false)
    (hlo : tMin s k ≤ fld data 15 0) (hhi : fld data 15 0 ≤ tMax s k) (hw : NoWatch s k) :
    targetWrite h k data s
      = (putWord s (.loop k .target) (word (fld data 15 0))).modEng k fun e => { e with srcLink := false } := by
  have hw' : NoWatch ((putWord s (.loop k .target) (word (fld data 15 0))).modEng k fun e => { e with srcLink := false }) k := by
    obtain ⟨hnone, hclosed⟩ := hw
    constructor
    · rw [modEng_rail]; exact hnone
    · rw [modEng_rail]; exact hclosed
  unfold targetWrite takeTarget
  rw [if_neg (by simp [ha, hlo, hhi])]
  dsimp only
  rw [closeWatch_of_noWatch hw', ite_self]

/-! CSET: the switch request (R118, R119) -/

theorem requestSet_other (k : RailId) (was : Bool × Nat) (s : State) : OtherRails k s (requestSet k was s) := by
  unfold requestSet
  split
  · exact fun _ _ => rfl
  · exact modRail_other s k _

/-- What becomes of the pending switch request; the active set stays, and so does the map's set. -/
theorem requestSet_rail (k : RailId) (was : Bool × Nat) (s : State) :
    ((requestSet k was s).rail k).eng.setPend
        = (if setSource s k = was then (s.rail k).eng.setPend else if wantedSet s k = (s.rail k).eng.setAct then none else some (wantedSet s k))
      ∧ ((requestSet k was s).rail k).eng.setAct = (s.rail k).eng.setAct
      ∧ ((requestSet k was s).rail k).mo = (s.rail k).mo := by
  unfold requestSet
  by_cases hsame : setSource s k = was
  · simp [hsame]
  · simp only [if_neg hsame, modEng_rail]
    by_cases hact : wantedSet s k = (s.rail k).eng.setAct
    · simp [hact]
    · by_cases hpend : (s.rail k).eng.setPend = some (wantedSet s k)
      · simp [hact, hpend]
      · simp [hact, hpend]

/-- The source of the set follows the settings and the map's set. -/
theorem setSource_congr {s t : State} {k : RailId} (hc : loopW t k .cset = loopW s k .cset) (hm : (t.rail k).mo = (s.rail k).mo) :
    setSource t k = setSource s k := by
  have hforce : forceCset t k = forceCset s k := congrArg (bitOf · 20) hc
  have hset : forceSet t k = forceSet s k := congrArg (fld · 19 16) hc
  rw [setSource, setSource, wantedSet, wantedSet, hforce, hset, hm]

/-! MOULT_CTL (R193) -/

theorem openBits_moultCtl_ne (s : State) (k : RailId) : openBits s (.loop k .moultCtl) ≠ 0 := by
  intro h0
  have hrw : (Reg.loop k .moultCtl).access.rw = 0 := (Nat.or_eq_zero_iff.mp (Nat.or_eq_zero_iff.mp h0).1).1
  exact absurd hrw (by decide : (0x7F0000 : Nat) ≠ 0)

theorem plainWrite_moultCtl (s : State) (h : HostId) (k : RailId) (data : Word)
    (hl : (setWord s (.loop k .moultCtl) ^^^ data) &&& word (lockedBits s (.loop k .moultCtl)) = 0) :
    plainWrite h (.loop k .moultCtl) data s
      = putWord s (.loop k .moultCtl) (merge (setWord s (.loop k .moultCtl)) data (word (openBits s (.loop k .moultCtl)))) := by
  have hopen := openBits_moultCtl_ne s k
  unfold plainWrite
  simp only [clearW1c, storeWord, heldWord, if_neg hopen, if_pos hl]

/-! COEF_DATA (R121, R139 to R141) -/

/-- The coefficient that the host's index reaches may be written with the word: the set is a run-time one that is neither active nor asked
for, and the word may hold the value. -/
def CoefFree (s : State) (h : HostId) (k : RailId) (data : Word) : Prop :=
  s.ldr.coefRt.getLsbD k.val = true ∧ (s.rail k).eng.setAct ≠ coefIdxSet (coefIdxOf s h k)
    ∧ (s.rail k).eng.setPend ≠ some (coefIdxSet (coefIdxOf s h k)) ∧ coefOk (coefIdxWord (coefIdxOf s h k)) (data &&& 0xFFFFFF#32) = true

theorem coefDataWrite_of_free {s : State} {h : HostId} {k : RailId} {data : Word} (hf : CoefFree s h k data) :
    coefDataWrite h k data s
      = { s with coef := Store.set 0 s.coef (coefKey k (coefIdxSet (coefIdxOf s h k)) (coefIdxWord (coefIdxOf s h k))) (data &&& 0xFFFFFF#32) } := by
  obtain ⟨hrt, hact, hpend, hok⟩ := hf
  unfold coefDataWrite
  exact if_pos (by simp [hrt, hok, hact, hpend])

theorem coefDataWrite_of_not_free {s : State} {h : HostId} {k : RailId} {data : Word} (hf : ¬CoefFree s h k data) :
    coefDataWrite h k data s = refuse h s := by
  unfold coefDataWrite
  refine if_neg fun hyes => hf ?_
  simp only [Bool.and_eq_true, bne_iff_ne, ne_eq] at hyes
  obtain ⟨⟨⟨hrt, hact⟩, hpend⟩, hok⟩ := hyes
  exact ⟨hrt, hact, hpend, hok⟩

theorem coefIdxOf_step (h : HostId) (k j : RailId) (s : State) :
    coefIdxOf (indexStep h (.loop k .coefData) s) h j = if j = k then coefStep (coefIdxOf s h k) else coefIdxOf s h j := by
  simp only [coefIdxOf, indexStep, modHost_host]
  split
  · next hj => rw [hj]; exact modVec_get_same ..
  · next hj => exact modVec_get_other _ _ hj

@[simp] theorem coefIdxOf_opened (s : State) (h : HostId) (a : Nat) (k : RailId) : coefIdxOf (s.opened h a) h k = coefIdxOf s h k := by
  rw [coefIdxOf, opened_host]; rfl

theorem coefDataWrite_coefIdx (s : State) (h : HostId) (k j : RailId) (data : Word) : coefIdxOf (coefDataWrite h k data s) h j = coefIdxOf s h j := by
  by_cases hf : CoefFree s h k data
  · rw [coefDataWrite_of_free hf]; rfl
  · rw [coefDataWrite_of_not_free hf, coefIdxOf, refuse_host]; rfl

theorem coefDataWrite_coef_of_free {s : State} {h : HostId} {k : RailId} {data : Word} (hf : CoefFree s h k data) :
    (coefDataWrite h k data s).coef
      = Store.set 0 s.coef (coefKey k (coefIdxSet (coefIdxOf s h k)) (coefIdxWord (coefIdxOf s h k))) (data &&& 0xFFFFFF#32) := by
  rw [coefDataWrite_of_free hf]
theorem coefDataWrite_refCnt_of_free {s : State} {h : HostId} {k : RailId} {data : Word} (hf : CoefFree s h k data) :
    ((coefDataWrite h k data s).host h).refCnt = (s.host h).refCnt := by rw [coefDataWrite_of_free hf]; rfl
@[simp] theorem refuse_refCnt (h : HostId) (s : State) : ((refuse h s).host h).refCnt = satInc (s.host h).refCnt 65535 := by
  rw [refuse_host]; rfl
@[simp] theorem opened_refCnt (s : State) (h : HostId) (a : Nat) : ((s.opened h a).host h).refCnt = (s.host h).refCnt := by rw [opened_host]
@[simp] theorem indexStep_coefData_refCnt (h : HostId) (k : RailId) (s : State) :
    ((indexStep h (.loop k .coefData) s).host h).refCnt = (s.host h).refCnt := by rw [indexStep, modHost_host]

theorem coefFree_opened {s : State} {h : HostId} {k : RailId} {data : Word} (a : Nat) :
    CoefFree (s.opened h a) h k data ↔ CoefFree s h k data := by
  simp [CoefFree]

theorem readReg_coefData {s : State} {h : HostId} {k : RailId} (hr : regLive s (.loop k .coefData) = true) :
    readReg s h (.loop k .coefData) = coefWord s k (coefIdxSet (coefIdxOf s h k)) (coefIdxWord (coefIdxOf s h k)) := if_pos hr

theorem readReg_coefData_congr {s t : State} {h : HostId} (hp : t.pwr = s.pwr) (hc : t.coef = s.coef) (hi : (t.host h).coefIdx = (s.host h).coefIdx)
    (k : RailId) : readReg t h (.loop k .coefData) = readReg s h (.loop k .coefData) := by
  simp only [readReg, regLive_congr hp, readAny, readLoop, coefWord, coefIdxOf, hc, hi]

@[simp] theorem loopW_opened (s : State) (h : HostId) (a : Nat) (k : RailId) (r : LoopReg) : loopW (s.opened h a) k r = loopW s k r :=
  setWord_opened ..
@[simp] theorem linkAuth_opened (s : State) (h : HostId) (a : Nat) (k : RailId) : linkAuth (s.opened h a) k = linkAuth s k := by
  simp [linkAuth, linkFbEn]
@[simp] theorem setSource_opened (s : State) (h : HostId) (a : Nat) (k : RailId) : setSource (s.opened h a) k = setSource s k :=
  setSource_congr (loopW_opened ..) (by rw [opened_rail])

@[simp] theorem openBits_opened (s : State) (h : HostId) (a : Nat) (r : Reg) : openBits (s.opened h a) r = openBits s r := by
  cases h <;> rfl
@[simp] theorem lockedBits_opened (s : State) (h : HostId) (a : Nat) (r : Reg) : lockedBits (s.opened h a) r = lockedBits s r := by
  rw [lockedBits, openBits_opened, lockedBits]

theorem opened_frame {ps : List Part} {s u : State} {h : HostId} {a : Nat} (hb : Part.bus ∈ ps) (hu : Within ps (s.opened h a) u) :
    Within ps s u := ((opened_within s h a).mono (by simpa using hb)).trans hu

/-! A register stored in the opened transaction. -/

theorem putWord_opened_same {s : State} (hs : s.Canonical) (h : HostId) (a : Nat) (r : Reg) (w : Word) :
    setWord (putWord (s.opened h a) r w) r = w := setWord_putWord_same (opened_canonical hs h a) r w
theorem putWord_opened_other (s : State) (h : HostId) (a : Nat) {r q : Reg} (w : Word) (hq : q ≠ r) :
    setWord (putWord (s.opened h a) r w) q = setWord s q := (setWord_putWord_other _ w hq).trans (setWord_opened ..)
theorem putWord_opened_rail (s : State) (h : HostId) (a : Nat) (r : Reg) (w : Word) (k : RailId) :
    (putWord (s.opened h a) r w).rail k = s.rail k := opened_rail ..
theorem putWord_opened_within (s : State) (h : HostId) (a : Nat) (r : Reg) (w : Word) :
    Within [.bus, .settings] s (putWord (s.opened h a) r w) := opened_frame (by decide) ((within_putWord _ r w).mono (by decide))

end Sys2Proof.Machine
end

section
/-! SUPPORT. What the clearing reads send depends on the fields they show. -/

namespace Sys2Proof.Machine

theorem readReg_faultCnt_congr {s t : State} (hp : t.pwr = s.pwr) (hr : t.rails = s.rails) (h : HostId) (k : RailId) :
    readReg t h (.loop k .faultCnt) = readReg s h (.loop k .faultCnt) := by
  simp only [readReg, regLive_congr hp, readAny, readLoop, State.rail, hr]
theorem readReg_tripStat_congr {s t : State} (hp : t.pwr = s.pwr) (hr : t.tiles = s.tiles) (h : HostId) (u : TileId) :
    readReg t h (.tile u .tripStat) = readReg s h (.tile u .tripStat) := by
  simp only [readReg, regLive_congr hp, readAny, readTile, State.tile, hr]

theorem readReg_errCnt_congr {s t : State} (hp : t.pwr = s.pwr) (h1 : t.bus.protoCnt = s.bus.protoCnt) (h2 : t.bus.pecCnt = s.bus.pecCnt)
    (h3 : t.bus.toutCnt = s.bus.toutCnt) (h4 : t.bus.relCnt = s.bus.relCnt) (h : HostId) : readReg t h .errCnt = readReg s h .errCnt := by
  simp only [readReg, regLive_congr hp, readAny, h1, h2, h3, h4]
theorem readReg_linkErr_congr {s t : State} (hp : t.pwr = s.pwr) (hl : t.link = s.link) (h : HostId) :
    readReg t h .linkErr = readReg s h .linkErr := by
  simp only [readReg, regLive_congr hp, readAny, hl]
theorem readReg_evDcnt_congr {s t : State} {h : HostId} (hp : t.pwr = s.pwr) (he : t.ev = s.ev) (hi : (t.host h).evDidx = (s.host h).evDidx) :
    readReg t h .evDcnt = readReg s h .evDcnt := by
  simp only [readReg, regLive_congr hp, readAny, srcOf, he, hi]

theorem readCommit_evDcnt_source (h : HostId) (x : State) :
    (readCommit h .evDcnt x).ev = (x.modEvSrc (fld (x.host h).evDidx 7 0) fun v => { v with count := 0 }).ev := by cases h <;> rfl

theorem modEvSrc_source_same (s : State) (e : Nat) (f : EventSource → EventSource) : (s.modEvSrc e f).source e = f (s.source e) :=
  modVec_get_same ..
theorem modEvSrc_source_other (s : State) {e : Nat} (f : EventSource → EventSource) (d : SourceId) (he : e < 256) (hd : d.val ≠ e) :
    (s.modEvSrc e f).source d.val = s.source d.val := by
  refine modVec_get_other _ _ fun heq => hd ?_
  have := congrArg Fin.val heq
  simp only [finOf] at this
  rwa [Nat.mod_eq_of_lt d.isLt, Nat.mod_eq_of_lt he] at this

end Sys2Proof.Machine
end

section
/-! SUPPORT. CMD: a rail's entry to OFF with no stop waiting, and what REQ and CLEAR do. -/

namespace Sys2Proof.Machine

/-! Outputs that are held low (R19, R56). -/

/-- A course with no change at or after n keeps from n on the level that it has there. -/
theorem wave_at_of_past {w : Wave} {n x : Int} (hw : ∀ p ∈ w, p.1 < n) (hx : n ≤ x) : Wave.at w x = Wave.at w n := by
  cases w with
  | nil => rfl
  | cons p w =>
    have hp : p.1 < n := hw p List.mem_cons_self
    have hpn : p.1 ≤ n := by omega
    have hpx : p.1 ≤ x := by omega
    simp [Wave.at, hpn, hpx]

theorem wave_at_hold_false (w : Wave) {n x : Int} (hx : n ≤ x) : Wave.at (Wave.hold w n false) x = false := by
  unfold Wave.hold
  dsimp only
  split
  · next hlow => rw [wave_at_of_past (by simp) hx, hlow]
  · simp [Wave.at, hx]

theorem halt_low (e : Edges) {n x : Int} (hx : n ≤ x) : highAt (e.halt n) x = false ∧ lowAt (e.halt n) x = false :=
  ⟨wave_at_hold_false e.hi hx, wave_at_hold_false e.lo hx⟩

/-- A tile that leaves for COLD or EXCLUDED takes that state. -/
theorem leaveCold_eq (ti : Tile) (now reason : Nat) :
    ∃ a why pend, ti.leaveCold now reason = { ti.leave now a why with reqPend := pend } ∧ (a = .excluded ∨ a = .cold) := by
  unfold Tile.leaveCold
  dsimp only
  split_ifs
  · exact ⟨_, _, _, rfl, .inl rfl⟩
  · exact ⟨_, _, _, rfl, .inl rfl⟩
  · exact ⟨_, _, _, rfl, .inr rfl⟩

theorem leave_edg (ti : Tile) (now : Nat) (a : TileAct) (reason : Nat) : (ti.leave now a reason).edg = ti.edg.halt (nextTick now) := by
  unfold Tile.leave
  dsimp only
  split <;> rfl

/-- A tile that leaves for COLD or EXCLUDED is neither ACTIVE nor READY. -/
theorem leaveCold_act (ti : Tile) (now reason : Nat) : (ti.leaveCold now reason).act ≠ .active ∧ (ti.leaveCold now reason).act ≠ .ready := by
  obtain ⟨a, why, pend, heq, rfl | rfl⟩ := leaveCold_eq ti now reason
  · rw [heq]; exact ⟨nofun, nofun⟩
  · rw [heq]; exact ⟨nofun, nofun⟩

/-- Its outputs go low at the next tick. -/
theorem leaveCold_edg (ti : Tile) (now reason : Nat) : (ti.leaveCold now reason).edg = ti.edg.halt (nextTick now) := by
  obtain ⟨a, why, pend, heq, -⟩ := leaveCold_eq ti now reason
  rw [heq]; exact leave_edg ti now a why

/-! PGOOD (R252, R255) -/

/-- A change of PGOOD touches a rail in its PGOOD and in its wait for a start dependency alone. -/
theorem setPgood_rail (k : RailId) (b : Bool) (s : State) (j : RailId) : ∃ p at' df dm,
    (setPgood k b s).rail j = { s.rail j with seq := { (s.rail j).seq with pgood := p, pgoodAt := at', depFrom := df, depMet := dm } }
      ∧ (j = k → p = b) := by
  unfold setPgood
  rw [mapRails_rail]
  dsimp only
  by_cases hj : j = k
  · simp only [if_pos hj]
    split_ifs <;> exact ⟨_, _, _, _, rfl, fun _ => rfl⟩
  · simp only [if_neg hj]
    split_ifs <;> exact ⟨_, _, _, _, rfl, fun e => absurd e hj⟩

/-! Stops that wait (R255) -/

/-- No rail has a stop that waits. -/
def NoStopWaits (s : State) : Prop := ∀ j, (s.rail j).seq.stopWait = none

theorem resumeStops_of_none {s : State} (hs : NoStopWaits s) (raise : Raise) : resumeStops raise s = s := by
  have hone : ∀ k, resumeStop raise k s = s := fun k => by unfold resumeStop; rw [hs k]
  unfold resumeStops
  induction allRails with
  | nil => rfl
  | cons k ks ih => rw [List.foldl_cons, hone, ih]

/-! Entry to OFF, SAFE or HICCUP (R238) -/

/-- What a rail's entry to state `st` with its cause leaves: PGOOD low, its ACTIVE and READY tiles out of their set, and every other rail
and tile where it was. -/
structure EnteredOut (k : RailId) (st : RailState) (cause : Nat) (s t : State) : Prop where
  frame : Within [.bus, .settings, .rails, .tiles] s t
  state : railSt t k = st
  cause_eq : (t.rail k).seq.cause = cause
  pgood : (t.rail k).seq.pgood = false
  others : ∀ j, j ≠ k → railSt t j = railSt s j
  tiles : ∀ u, t.tile u = if (s.tile u).rail == some k then
      (if (s.tile u).act = .active ∨ (s.tile u).act = .ready then
        { (s.tile u).leaveCold s.now 4 with was := some ((s.tile u).asWas (cycleOf s)) } else s.tile u) else s.tile u

/-- With no stop waiting and no settle watch of the rail open, nothing follows the change of a rail that keeps its link. -/
theorem settle_modRail {s : State} {k : RailId} (raise : Raise) (hs : NoStopWaits s) (hw : NoWatch s k) {f : Rail → Rail}
    (hstop : (f (s.rail k)).seq.stopWait = none) (hlink : (f (s.rail k)).link = (s.rail k).link) :
    resumeStops raise (abandonWatch raise k (s.modRail k f)) = s.modRail k f := by
  have hw' : NoWatch (s.modRail k f) k := by
    unfold NoWatch at hw ⊢
    rw [modRail_rail, hlink]
    exact hw
  have hs' : NoStopWaits (s.modRail k f) := fun j => by
    by_cases hj : j = k
    · subst hj; rw [modRail_rail, hstop]
    · rw [modRail_other s k f j hj, hs j]
  rw [abandonWatch, closeWatch_of_noWatch hw', resumeStops_of_none hs']

theorem enterOut_enters {s : State} {k : RailId} (raise : Raise) (st : RailState) (cause row : Nat) (hs : NoStopWaits s) (hw : NoWatch s k) :
    EnteredOut k st cause s (enterOut raise k st cause row s) := by
  unfold enterOut
  dsimp only
  generalize hf : (fun ti : Tile => if ti.act = .active ∨ ti.act = .ready then
    { ti.leaveCold s.now 4 with was := some (ti.asWas (cycleOf s)) } else ti) = f
  have hrail := setPgood_rail k false (s.modTilesOf k f)
  have hs' : NoStopWaits (setPgood k false (s.modTilesOf k f)) := fun j => by
    obtain ⟨_, _, _, _, hj, -⟩ := hrail j
    rw [hj]; exact hs j
  obtain ⟨_, _, _, _, hk, hpgood⟩ := hrail k
  have hw' : NoWatch (setPgood k false (s.modTilesOf k f)) k := by
    unfold NoWatch; rw [hk]; exact hw
  rw [settle_modRail raise hs' hw' rfl rfl]
  exact {
    frame := (((within_State_modTilesOf s k f).mono (by decide)).step (within_setPgood k false _) (by decide)).step
      (within_State_modRail _ k _) (by decide)
    state := by rw [railSt, modRail_rail]
    cause_eq := by rw [modRail_rail]
    pgood := by rw [modRail_rail, hk]; exact hpgood rfl
    others := fun j hj => by
      obtain ⟨_, _, _, _, hj', -⟩ := hrail j
      rw [railSt, modRail_other _ k _ j hj, hj']; rfl
    tiles := fun u => by
      rw [modRail_tile]
      exact (modTilesOf_tile s k f u).trans (by rw [← hf]) }

section
variable {k : RailId} {st : RailState} {cause : Nat} {s t : State}

theorem EnteredOut.otherSets (h : EnteredOut k st cause s t) : OtherSets k s t := fun u hu => by
  rw [h.tiles, if_neg (by simpa using hu)]

theorem EnteredOut.noneSwitches (h : EnteredOut k st cause s t) {u : TileId} (hu : (s.tile u).rail = some k) :
    (t.tile u).act ≠ .active ∧ (t.tile u).act ≠ .ready := by
  rw [h.tiles, if_pos (by simpa using hu)]
  split
  · exact leaveCold_act (s.tile u) s.now 4
  · next hact => exact not_or.mp hact

/-- A change of the bus and the settings before or after the entry leaves it what it is. -/
theorem EnteredOut.around {r x : State} (hb : Within [.bus, .settings] s r) (h : EnteredOut k st cause r x)
    (ht : Within [.bus, .settings] x t) : EnteredOut k st cause s t := by
  have hrail := hb.rail_eq (by decide)
  have htile := hb.tile_eq (by decide)
  have hnow : r.now = s.now := hb .now (by decide)
  have hrail' := ht.rail_eq (by decide)
  exact {
    frame := ((hb.mono (by decide)).trans h.frame).step ht (by decide)
    state := by rw [railSt, hrail', ← h.state, railSt]
    cause_eq := by rw [hrail', h.cause_eq]
    pgood := by rw [hrail', h.pgood]
    others := fun j hj => by
      have := h.others j hj
      rwa [railSt, railSt, ← hrail', hrail] at this
    tiles := fun u => by
      have := h.tiles u
      rwa [← ht.tile_eq (by decide), htile, cycleOf, hnow] at this }

theorem nextTick_le (n : Nat) {x : Int} (hx : (n : Int) + 16 ≤ x) : nextTick n ≤ x := by
  unfold nextTick; omega

theorem EnteredOut.outputsLow (h : EnteredOut k st cause s t) {u : TileId} (hu : (s.tile u).rail = some k)
    (hact : (s.tile u).act = .active ∨ (s.tile u).act = .ready) {x : Int} (hx : (s.now : Int) + 16 ≤ x) :
    highAt (t.tile u).edg x = false ∧ lowAt (t.tile u).edg x = false := by
  rw [h.tiles, if_pos (by simpa using hu), if_pos hact]
  exact leaveCold_edg (s.tile u) s.now 4 ▸ halt_low _ (nextTick_le s.now hx)

end

/-! REQ and CLEAR (R236, R253, R258) -/

theorem fld_merge_low (old : Word) (n : Nat) : fld (merge old (word n) 3) 1 0 = n % 4 := by
  have hbits : (merge old (word n) 3).toNat % 2 ^ 2 = n % 2 ^ 32 % 2 ^ 2 := by
    simp only [merge, word, BitVec.toNat_or, BitVec.toNat_and, BitVec.toNat_ofNat, Nat.or_mod_two_pow, Nat.and_mod_two_pow]
    have hmask : (~~~(3 : Word)).toNat % 2 ^ 2 = 0 ∧ (3 : Word).toNat % 2 ^ 2 = 2 ^ 2 - 1 := by decide
    rw [hmask.1, hmask.2, Nat.and_zero, Nat.zero_or, Nat.and_two_pow_sub_one_eq_mod, Nat.mod_mod]
  have hn : n % 2 ^ 32 % 2 ^ 2 = n % 4 := by omega
  exact hbits.trans hn

theorem reqOn_setReq {s : State} (hs : Store.wf 0 s.settings = true) (k : RailId) (n : Nat) : reqOn (setReq k n s) k = (n % 4 == 1) := by
  rw [reqOn, loopW, setReq, setWord, putWord, Store.get_set_same hs, fld_merge_low]

/-- A word without the reserved REQ, its ON not against a die shutdown: CLEAR acts first, or is refused, and then REQ. -/
theorem writeCmd_eq {h : HostId} {k : RailId} {data : Word} {s : State} (hreq : fld data 1 0 ≠ 3) (hon : fld data 1 0 = 1 → s.hk.tsd = false) :
    writeCmd h k data s = doReq k (fld data 1 0)
      (if bitOf data 4 = true then (if clearRefused s k = true then refuse h s else clearRail k s) else s) := by
  have hno : (fld data 1 0 == 1 && s.hk.tsd) = false := by
    by_cases h1 : fld data 1 0 = 1
    · simp [hon h1]
    · simp [h1]
  unfold writeCmd
  rw [if_neg hreq]
  dsimp only
  rw [hno]
  cases bitOf data 4 <;> cases clearRefused s k <;> rfl

theorem clearRail_of_not_safe {s : State} {k : RailId} (hs : railSt s k ≠ .safe) : clearRail k s = s := if_neg hs

/-- A CLEAR has been judged and does not act: counted where it is refused, nothing where the rail is not in SAFE (R7, R253). -/
def clearJudged (h : HostId) (k : RailId) (s : State) : State := if clearRefused s k = true then refuse h s else s

theorem clearJudged_within (h : HostId) (k : RailId) (s : State) : Within [.bus] s (clearJudged h k s) :=
  within_ite (within_refuse h s) Within.refl

theorem clearJudged_refCnt (h : HostId) (k : RailId) (s : State) : ((clearJudged h k s).host h).refCnt
    = if clearRefused s k = true then satInc (s.host h).refCnt 65535 else (s.host h).refCnt := by
  unfold clearJudged
  split
  · exact refuse_refCnt h s
  · rfl

section
variable {h : HostId} {k : RailId} {data : Word} {s : State} (h4 : bitOf data 4 = true) (hreq : fld data 1 0 ≠ 3)
  (hon : fld data 1 0 = 1 → s.hk.tsd = false)
include h4 hreq hon

theorem writeCmd_clear_accepted (hr : clearRefused s k = false) : writeCmd h k data s = doReq k (fld data 1 0) (clearRail k s) := by
  rw [writeCmd_eq hreq hon, if_pos h4, if_neg (by simp [hr])]

/-- A CLEAR that is refused counts one refused write, one outside SAFE does nothing, and the REQ beside it acts. -/
theorem writeCmd_clear_idle (hno : ¬(railSt s k = .safe ∧ clearRefused s k = false)) :
    writeCmd h k data s = doReq k (fld data 1 0) (clearJudged h k s) := by
  rw [writeCmd_eq hreq hon, if_pos h4, clearJudged]
  by_cases hr : clearRefused s k = true
  · rw [if_pos hr, if_pos hr]
  · rw [if_neg hr, if_neg hr, clearRail_of_not_safe fun hsafe => hno ⟨hsafe, by simpa using hr⟩]

end

section
variable {s : State} {k : RailId}

theorem railToOut_enters (hs : NoStopWaits s) (hw : NoWatch s k) (st : RailState) (cause row : Nat) :
    EnteredOut k st cause s (railToOut k st cause row s) := enterOut_enters occur st cause row hs hw

theorem immediateOff_enters (hs : NoStopWaits s) (hw : NoWatch s k) (hoff : railSt s k ≠ .off) (cause : Nat) :
    EnteredOut k .off cause s (immediateOff k cause s) := by
  rw [immediateOff, if_neg hoff]
  exact railToOut_enters hs hw .off cause 1

theorem clearRail_of_safe (hsafe : railSt s k = .safe) : clearRail k s = setReq k 0 (railToOut k .off 9 8 s) := if_pos hsafe

end

theorem orderlyOff_of_rest {s : State} {k : RailId} (raise : Raise) (cause : Nat)
    (hst : railSt s k = .off ∨ railSt s k = .safe ∨ railSt s k = .stopping) : orderlyOff raise k cause s = s := by
  unfold orderlyOff
  rcases hst with hst | hst | hst <;> rw [hst]

/-- REQ = OFF on a rail in OFF, SAFE or STOPPING only clears the request. -/
theorem doReq_off_of_rest {s : State} {k : RailId} (hst : railSt s k = .off ∨ railSt s k = .safe ∨ railSt s k = .stopping) :
    doReq k 0 s = setReq k 0 s := by
  have hrest : railSt (setReq k 0 s) k = .off ∨ railSt (setReq k 0 s) k = .safe ∨ railSt (setReq k 0 s) k = .stopping := hst
  have hno : ¬railSt (setReq k 0 s) k = .hiccup := by rcases hrest with hr | hr | hr <;> rw [hr] <;> nofun
  exact (if_neg hno).trans (orderlyOff_of_rest occur 1 hrest)

theorem doReq_kill_of_off {s : State} {k : RailId} (hst : railSt s k = .off) : doReq k 2 s = setReq k 0 s := if_pos hst

/-! A rail in a state that differs from `s` in the bus alone. -/

section
variable {s b : State} {k : RailId} (hb : Within [.bus] s b)
include hb

theorem NoStopWaits.of_bus (hs : NoStopWaits s) : NoStopWaits b := fun j => by rw [hb.rail_eq (by decide)]; exact hs j

theorem railSt_of_bus (j : RailId) : railSt b j = railSt s j := by rw [railSt, hb.rail_eq (by decide), railSt]

theorem settings_wf_of_bus (hs : s.Canonical) : Store.wf 0 b.settings = true := by
  have hset : b.settings = s.settings := hb .settings (by decide)
  rw [hset]; exact hs.1

/-- KILL takes a rail that is not OFF to OFF with cause 2 (R258). -/
theorem doReq_kill_enters (hs : s.Canonical) (hstop : NoStopWaits s) (hw : NoWatch s k) (hoff : railSt s k ≠ .off) :
    EnteredOut k .off 2 s (doReq k 2 b) ∧ reqOn (doReq k 2 b) k = false ∧ ∀ g, (doReq k 2 b).host g = b.host g := by
  have hset := within_setReq k 0 b
  have hin : Within [.tiles, .rails, .ev, .link, .rcd] (setReq k 0 b) (doReq k 2 b) := within_immediateOff k 2 _
  have hstopb : NoStopWaits b := hstop.of_bus hb
  have hwb : NoWatch b k := noWatch_of_bus hb hw
  have hoffb : railSt b k ≠ .off := by rwa [railSt_of_bus hb]
  have henter : EnteredOut k .off 2 (setReq k 0 b) (doReq k 2 b) :=
    immediateOff_enters (s := setReq k 0 b) hstopb hwb hoffb 2
  refine ⟨henter.around ((hb.mono (by decide)).step hset (by decide)) Within.refl, ?_,
    fun g => (hin.host_eq (by decide) g).trans (hset.host_eq (by decide) g)⟩
  rw [reqOn, loopW, hin.setWord_eq (by decide)]
  exact reqOn_setReq (settings_wf_of_bus hb hs) k 0

/-- CLEAR takes a rail in SAFE to OFF with cause 9 (R253); REQ = OFF or KILL beside it finds it there. -/
theorem clearRail_then_req (hs : s.Canonical) (hstop : NoStopWaits s) (hw : NoWatch s k) (hsafe : railSt s k = .safe) {req : Nat}
    (hreq : req = 0 ∨ req = 2) :
    EnteredOut k .off 9 s (doReq k req (clearRail k b)) ∧ reqOn (doReq k req (clearRail k b)) k = false
      ∧ ∀ g, (doReq k req (clearRail k b)).host g = b.host g := by
  have hin := within_railToOut k .off 9 8 b
  have henter := railToOut_enters (hstop.of_bus hb) (noWatch_of_bus hb hw) .off 9 8
  have hoff : railSt (setReq k 0 (railToOut k .off 9 8 b)) k = .off := by
    rw [railSt, (within_setReq k 0 _).rail_eq (by decide)]; exact henter.state
  have heq : doReq k req (clearRail k b) = setReq k 0 (setReq k 0 (railToOut k .off 9 8 b)) := by
    rw [clearRail_of_safe (by rw [railSt_of_bus hb, hsafe])]
    rcases hreq with rfl | rfl
    · exact doReq_off_of_rest (.inl hoff)
    · exact doReq_kill_of_off hoff
  have hset : Within [.settings] (railToOut k .off 9 8 b) (setReq k 0 (setReq k 0 (railToOut k .off 9 8 b))) :=
    (within_setReq k 0 _).trans (within_setReq k 0 _)
  rw [heq]
  refine ⟨henter.around (hb.mono (by decide)) (hset.mono (by decide)), reqOn_setReq ?_ k 0,
    fun g => (hset.host_eq (by decide) g).trans (hin.host_eq (by decide) g)⟩
  have hsame : (railToOut k .off 9 8 b).settings = b.settings := hin .settings (by decide)
  refine Store.wf_set ?_ _ _
  rw [hsame]; exact settings_wf_of_bus hb hs

end

/-- The command's judgement of CLEAR does not see the bus. -/
theorem clearRefused_opened (s : State) (h : HostId) (a : Nat) (k : RailId) : clearRefused (s.opened h a) k = clearRefused s k := by
  simp only [clearRefused, railClassSet, causePersists, qOf, qaOf, tilesOf, railSt, opened_tile, opened_rail, opened_hk, loopW_opened]

/-! The words of CMD that land. -/

section
variable {s : State} {h : HostId} {k : RailId} {data : Word} (hl : WordLands s h (.loop k .cmd) data)
include hl

theorem writeAt_cmd : writeAt h (.loop k .cmd) data s = writeCmd h k data (s.opened h (Reg.loop k .cmd).addr) := writeAt_of_lands hl

variable (h4 : bitOf data 4 = true) (hreq : fld data 1 0 ≠ 3) (hon : fld data 1 0 = 1 → s.hk.tsd = false)
include h4 hreq hon

theorem writeAt_cmd_clear_accepted (hr : clearRefused s k = false) :
    writeAt h (.loop k .cmd) data s = doReq k (fld data 1 0) (clearRail k (s.opened h (Reg.loop k .cmd).addr)) :=
  (writeAt_cmd hl).trans (writeCmd_clear_accepted h4 hreq (by rwa [opened_hk]) (by rwa [clearRefused_opened]))

theorem writeAt_cmd_clear_idle (hno : ¬(railSt s k = .safe ∧ clearRefused s k = false)) :
    writeAt h (.loop k .cmd) data s = doReq k (fld data 1 0) (clearJudged h k (s.opened h (Reg.loop k .cmd).addr)) :=
  (writeAt_cmd hl).trans (writeCmd_clear_idle h4 hreq (by rwa [opened_hk])
    (by rwa [clearRefused_opened, railSt_of_bus (opened_within s h _)]))

end

end Sys2Proof.Machine
end

section
/-! SUPPORT. States at which a statement fails. -/

namespace Sys2Proof.Machine

/-- RUN with every domain powered; host A holds the claim. -/
def claimedRun : State := { State.reset with
  pwr := { phase := .up, state := .run, target := .run, lga := true, lgb := true, banks := 15, hk := true, xmi := true }
  bus := { State.reset.bus with owner := some .a } }

/-- EV_CFG[16] enables, latches and alerts source 64, and the image marks the register; the source has latched, so ALERT_N is low. -/
def alerting : State :=
  let s := putWord claimedRun (.evCfg 16) 7
  { s with ldr := { s.ldr with rtMarks := [(Reg.evCfg 16).addr] }, ev := { s.ev with src := modVec s.ev.src 64 fun x => { x with latch := true } } }

/-- Rail 0 is in SAFE; rail 1 switches with tile 0, and its stop for a fault waits although nothing holds it. -/
def stopPending : State :=
  ((claimedRun.modSeq 0 fun q => { q with state := .safe }).modSeq 1 fun q => { q with state := .regulate, stopWait := some (true, 6) }).modTile 0
    fun ti => { ti with rail := some 1, act := .active }

/-- ICAL of tile 0 holds a gain of 0.5, and no service arm is open. -/
def calibrated : State := putWord claimedRun (.tile 0 .ical) 0x40000000

end Sys2Proof.Machine
end

section
/-! PROOFS. The statements of 00_scope.md. -/

open Sys2Proof Sys2Proof.Machine

/-- Refutes O11: where ALERT_N is low, a word that an image-marked EV_CFG takes (here the one it holds) also keeps ALERT_N low to the end of
the cycle (R385, R386), so a part of the event system outside the settings changes. -/
theorem not_registerWriteNeedsClaimAndMark : ¬ Obligations.RegisterWriteNeedsClaimAndMark := by
  intro hall
  have hpec : pecOn alerting = true → ∃ p, (none : Option Byte) = some p ∧ p.toNat = pecOf alerting .a (Reg.evCfg 16).addr [7] :=
    fun hon => absurd hon (by decide +kernel)
  obtain ⟨t, hrun, -, -, -, -, -, hframe, -⟩ := (hall .a (.evCfg 16) 7 none alerting hpec).2 (by decide +kernel) (by decide +kernel) nofun
    (.inl ⟨16, rfl⟩)
  have hev : t.ev = alerting.ev := hframe (.inl nofun) .ev (by decide)
  obtain rfl : registerWrite .a (BitVec.ofNat 16 (Reg.evCfg 16).addr) [7] none alerting = t := Host.Outcome.next.inj hrun
  exact absurd (congrArg Events.alertCyc hev) (by decide +kernel)

/-- Settles O17: each read sends its register as it stood, and the commit of its own clears the counts. -/
theorem clearingReadSendsThenClears : Obligations.ClearingReadSendsThenClears := by
  intro h s hc hh
  refine ⟨fun hr => ?_, fun hr => ?_, fun k hr => ?_, fun u hr trips => ?_, fun hr => ?_⟩
  · obtain ⟨x, code, hrun, hx, -, hdata⟩ := readAt_commits (h := h) (r := .errCnt) hc hh hr nofun (fun _ => rfl)
      (fun y lead => readReg_errCnt_congr (reading_pwr ..) (by cases h <;> rfl) (by cases h <;> rfl) (by cases h <;> rfl) (by cases h <;> rfl) h) (fun _ _ => rfl)
    refine ⟨_, congrArg Host.Outcome.next hrun, hdata, ?_, ?_, ?_, ?_, readDone_frame h _ code (by decide) hx (within_set_bus x _)⟩
      <;> cases h <;> rfl
  · obtain ⟨x, code, hrun, hx, -, hdata⟩ := readAt_commits (h := h) (r := .linkErr) hc hh hr nofun (fun _ => rfl)
      (fun y lead => readReg_linkErr_congr (reading_pwr ..) (reading_within y h _ lead .link (by decide)) h) (fun _ _ => rfl)
    have hlink : x.link = s.link := hx .link (by decide)
    refine ⟨_, congrArg Host.Outcome.next hrun, hdata, ?_, readDone_frame h _ code (by decide) hx ((within_set_link x _).mono (by decide))⟩
    rw [readDone_link, ← hlink]; rfl
  · obtain ⟨x, code, hrun, hx, -, hdata⟩ := readAt_commits (h := h) (r := .loop k .faultCnt) hc hh hr nofun (fun _ => rfl)
      (fun y lead => readReg_faultCnt_congr (reading_pwr ..) (reading_within y h _ lead .rails (by decide)) h k) (fun _ _ => rfl)
    have hrail : ∀ j, x.rail j = s.rail j := hx.rail_eq (by decide)
    refine ⟨_, congrArg Host.Outcome.next hrun, hdata, ?_, fun j hj => ?_,
      readDone_frame h _ code (by decide) hx ((within_State_modProt x k _).mono (by decide))⟩
    · rw [readDone_rail, ← hrail k]; exact modProt_rail x k _
    · rw [readDone_rail, ← hrail j]; exact modRail_other x k _ j hj
  · obtain ⟨x, code, hrun, hx, -, hdata⟩ := busRead_one_commits (h := h) (r := .tile u .tripStat) trips hc hh hr (fun _ => rfl)
      (fun y lead => readReg_tripStat_congr (reading_pwr ..) (reading_within y h _ lead .tiles (by decide)) h u) (fun _ _ => rfl)
    rw [showTrips_tripStat hc] at hx hdata
    have htile := hx.tile_eq (by decide)
    refine ⟨_, congrArg Host.Outcome.next hrun, hdata, ?_, fun v hv => ?_,
      (within_State_modTile s u _).mono (by decide) |>.trans <|
        readDone_frame h _ code (by decide) hx ((within_State_modTile x u _).mono (by decide))⟩
    · rw [readDone_tile]
      refine (modTile_tile x u _).trans ?_
      rw [htile, modTile_tile]
    · rw [readDone_tile]
      exact (modTile_other x u _ v hv).trans ((htile v).trans (modTile_other s u _ v hv))
  · obtain ⟨x, code, hrun, hx, hhost, hdata⟩ := readAt_commits (h := h) (r := .evDcnt) hc hh hr nofun (fun _ => rfl)
      (fun y lead => readReg_evDcnt_congr (reading_pwr ..) (reading_within y h _ lead .ev (by decide)) (by rw [reading_host])) (fun _ _ => by cases h <;> rfl)
    have hidx : (x.host h).evDidx = (s.host h).evDidx := by rw [hhost]
    have hev : x.ev = s.ev := hx .ev (by decide)
    have hevs : ((readCommit h .evDcnt x).readDone h Reg.evDcnt.addr code).ev
        = (s.modEvSrc (fld (s.host h).evDidx 7 0) fun v => { v with count := 0 }).ev := by
      rw [readDone_ev, readCommit_evDcnt_source, hidx, State.modEvSrc, hev]; rfl
    have hsrc : ∀ e, State.source ((readCommit h .evDcnt x).readDone h Reg.evDcnt.addr code) e = _ :=
      fun e => congrArg (fun v : Events => v.src.get (finOf 256 (by decide) e)) hevs
    refine ⟨_, congrArg Host.Outcome.next hrun, hdata, ?_, ?_, fun e he => ?_, by rw [hevs]; rfl,
      readDone_frame h _ code (by decide) hx ((Within.step ((within_set_ev x _).mono (by decide)) (within_State_modHost _ h _) (by decide)))⟩
    · rw [hsrc]; exact congrArg EventSource.count (modEvSrc_source_same s _ _)
    · rw [readDone_host, ← hidx]; cases h <;> rfl
    · rw [hsrc]; exact modEvSrc_source_other s _ e (fld_lt _ _ _) he

/-- Refutes O21: its second clause does not ask, as O23 does, that no stop waits. Entering OFF from SAFE by CLEAR has every waiting stop judged
again (R255); in a state where one of rail 1 waits with nothing to hold it, rail 1 enters STOPPING and its tile emulates a diode. (That a run
reaches such a state is not claimed: the statement is about every state.) -/
theorem not_onRequestStandsUnlessDieShutdown : ¬ Obligations.OnRequestStandsUnlessDieShutdown := by
  intro hall
  obtain ⟨-, hclear, -⟩ := hall .a 0 stopPending (by decide +kernel) (by decide +kernel)
  obtain ⟨t, hrun, -, -, -, -, hothers, -⟩ := hclear (by decide +kernel) (by decide +kernel) (by decide +kernel) rfl
  have htile : t.tile 0 = stopPending.tile 0 := hothers 0 (by decide +kernel)
  obtain rfl : writeAt .a (.loop 0 .cmd) (word (1 + atB true 4)) stopPending = t := Host.Outcome.next.inj hrun
  exact absurd (congrArg Tile.emulating htile) (by decide +kernel)

/-- Settles O23: a rail leaves for OFF by KILL with cause 2, by an accepted CLEAR from SAFE with cause 9. -/
theorem killAndClearLeaveOff : Obligations.KillAndClearLeaveOff := by
  intro h k s hs hstop hw
  have ho := opened_within s h (Reg.loop k .cmd).addr
  refine ⟨fun hl hst => ?_, fun hl hst => ?_, fun hl hst hclr => ?_, fun hl hst => ?_, fun hl hst => ?_⟩
  · have hrun : writeAt h (.loop k .cmd) 2 s = doReq k 2 (s.opened h _) := writeAt_of_lands hl
    obtain ⟨hout, hreq, -⟩ := doReq_kill_enters ho hs hstop hw hst
    exact ⟨_, congrArg Host.Outcome.next hrun, hout.state, hout.cause_eq, hout.pgood, hreq, fun u hu => hout.noneSwitches hu,
      fun u hu hact x hx => hout.outputsLow hu hact hx, hout.others, hout.otherSets, hout.frame⟩
  · have hrun : writeAt h (.loop k .cmd) 2 s = doReq k 2 (s.opened h _) := writeAt_of_lands hl
    rw [doReq_kill_of_off (by rwa [railSt_of_bus ho])] at hrun
    exact ⟨_, congrArg Host.Outcome.next hrun, reqOn_setReq (settings_wf_of_bus ho hs) k 0,
      (ho.mono (by decide)).step (within_setReq k 0 _) (by decide)⟩
  · have hrun : writeAt h (.loop k .cmd) 0x10#32 s = doReq k 0 (clearRail k (s.opened h _)) :=
      writeAt_cmd_clear_accepted hl rfl (by decide) (fun h1 => absurd h1 (by decide)) hclr
    obtain ⟨hout, -, -⟩ := clearRail_then_req ho hs hstop hw hst (.inl rfl)
    exact ⟨_, congrArg Host.Outcome.next hrun, hout.state, hout.cause_eq, hout.others, hout.otherSets, hout.frame⟩
  · have hno : ¬(railSt s k = .safe ∧ clearRefused s k = false) := by
      rintro ⟨hsafe, hclr⟩
      rcases hst with ⟨-, hr⟩ | hr | hr
      · exact absurd hr (by simp [hclr])
      · exact absurd (hsafe.symm.trans hr) nofun
      · exact absurd (hsafe.symm.trans hr) nofun
    have hrun : writeAt h (.loop k .cmd) 0x10#32 s = doReq k 0 (clearJudged h k (s.opened h _)) :=
      writeAt_cmd_clear_idle hl rfl (by decide) (fun h1 => absurd h1 (by decide)) hno
    have hb := ho.trans (clearJudged_within h k _)
    rw [doReq_off_of_rest (by rw [railSt_of_bus hb]; exact hst.elim (fun hr => .inr (.inl hr.1)) fun hr => hr.elim .inl fun hr => .inr (.inr hr))] at hrun
    have hset := within_setReq k 0 (clearJudged h k (s.opened h (Reg.loop k .cmd).addr))
    refine ⟨_, congrArg Host.Outcome.next hrun, reqOn_setReq (settings_wf_of_bus hb hs) k 0, hb .rails (by decide), hb .tiles (by decide), ?_,
      (hb.mono (by decide)).step hset (by decide)⟩
    rw [hset.host_eq (by decide), clearJudged_refCnt, clearRefused_opened, opened_refCnt]
  · by_cases hacc : railSt s k = .safe ∧ clearRefused s k = false
    · obtain ⟨hsafe, hclr⟩ := hacc
      have hrun : writeAt h (.loop k .cmd) 0x12#32 s = doReq k 2 (clearRail k (s.opened h _)) :=
        writeAt_cmd_clear_accepted hl rfl (by decide) (fun h1 => absurd h1 (by decide)) hclr
      obtain ⟨hout, hreq, hhost⟩ := clearRail_then_req ho hs hstop hw hsafe (.inr rfl)
      refine ⟨_, congrArg Host.Outcome.next hrun, hout.state, ?_, hreq, ?_, fun u hu => hout.noneSwitches hu, hout.others, hout.otherSets,
        hout.frame⟩
      · rw [if_pos ⟨hsafe, hclr⟩]; exact hout.cause_eq
      · rw [hhost, opened_refCnt, if_neg (by simp [hclr])]
    · have hrun : writeAt h (.loop k .cmd) 0x12#32 s = doReq k 2 (clearJudged h k (s.opened h _)) :=
        writeAt_cmd_clear_idle hl rfl (by decide) (fun h1 => absurd h1 (by decide)) hacc
      obtain ⟨hout, hreq, hhost⟩ := doReq_kill_enters (ho.trans (clearJudged_within h k _)) hs hstop hw hst
      refine ⟨_, congrArg Host.Outcome.next hrun, hout.state, ?_, hreq, ?_, fun u hu => hout.noneSwitches hu, hout.others, hout.otherSets,
        hout.frame⟩
      · rw [if_neg hacc]; exact hout.cause_eq
      · rw [hhost, clearJudged_refCnt, clearRefused_opened, opened_refCnt]

/-- Refutes O34: without a service arm, a write of ICAL with the word that it holds changes no locked field, so it is not refused (R7). -/
theorem not_timingSettingsNeedTheirMark : ¬ Obligations.TimingSettingsNeedTheirMark := by
  intro hall
  obtain ⟨-, hclosed, -⟩ := hall .a 0 0x40000000 calibrated (by decide +kernel)
  have hrun : writeAt .a (.tile 0 .ical) 0x40000000 calibrated = refuse .a (calibrated.opened .a (Reg.tile 0 .ical).addr) :=
    Host.Outcome.next.inj (hclosed (by decide +kernel) rfl)
  exact absurd (congrArg (fun t => (t.host .a).refCnt) hrun) (by decide +kernel)

/-- Settles O39: each word has the effect of its register in the opened transaction. -/
theorem directWritesOfTheLoop : Obligations.DirectWritesOfTheLoop := by
  intro h k data s hs
  refine ⟨fun hl => ⟨fun ha hlo hhi hw => ?_, fun hr => ?_⟩, fun hl => ?_, fun hl hlock => ?_, fun hl => ?_, fun hc hh hr => ?_⟩
  · have hrun : writeAt h (.loop k .target) data s = targetWrite h k data (s.opened h _) := writeAt_of_lands hl
    rw [targetWrite_of_accepted (by rwa [linkAuth_opened]) (by simpa [tMin] using hlo) (by simpa [tMax] using hhi) (opened_noWatch hw h _)] at hrun
    refine ⟨_, congrArg Host.Outcome.next hrun, ?_, ?_, fun r hr => putWord_opened_other s h _ _ hr,
      fun j hj => (modRail_other _ k _ j hj).trans (putWord_opened_rail ..),
      ((putWord_opened_within s h _ _ _).mono (by decide)).step (within_State_modEng _ k _) (by decide)⟩
    · exact (congrArg (fld · 15 0) (putWord_opened_same hs h _ _ _)).trans (fld_word_low (fld_lt _ _ _))
    · rw [modEng_rail, putWord_opened_rail]
  · have hrun : writeAt h (.loop k .target) data s = targetWrite h k data (s.opened h _) := writeAt_of_lands hl
    rw [targetWrite_of_refused (by simpa [tMin, tMax] using hr)] at hrun
    exact congrArg Host.Outcome.next hrun
  · have hrun : writeAt h (.loop k .cset) data s = requestSet k (setSource (s.opened h _) k) (putWord (s.opened h _) (.loop k .cset) (data &&& 0x1F0000#32)) :=
      writeAt_of_lands hl
    rw [setSource_opened] at hrun
    have hsame := putWord_opened_same hs h (Reg.loop k .cset).addr (.loop k .cset) (data &&& 0x1F0000#32)
    have hother := fun r hr => putWord_opened_other s h (Reg.loop k .cset).addr (r := .loop k .cset) (q := r) (data &&& 0x1F0000#32) hr
    have hrail := putWord_opened_rail s h (Reg.loop k .cset).addr (.loop k .cset) (data &&& 0x1F0000#32)
    have hin := putWord_opened_within s h (Reg.loop k .cset).addr (.loop k .cset) (data &&& 0x1F0000#32)
    generalize putWord (s.opened h (Reg.loop k .cset).addr) (.loop k .cset) (data &&& 0x1F0000#32) = p at hrun hsame hother hrail hin
    obtain ⟨hpend, hact, hmo⟩ := requestSet_rail k (setSource s k) p
    have hset := (within_requestSet k (setSource s k) p).setWord_eq (by decide)
    have hsrc := setSource_congr (hset (.loop k .cset)) hmo
    have hwant : wantedSet (requestSet k (setSource s k) p) k = wantedSet p k := congrArg Prod.snd hsrc
    refine ⟨_, congrArg Host.Outcome.next hrun, (hset _).trans hsame, fun r hr => (hset r).trans (hother r hr), ?_, ?_, fun j hj => ?_,
      (hin.mono (by decide)).step (within_requestSet k _ p) (by decide)⟩
    · rw [hpend, hsrc, hwant, hrail]
    · rw [hact, hrail]
    · rw [requestSet_other k _ p j hj, hrail]
  · have hrun : writeAt h (.loop k .moultCtl) data s = plainWrite h (.loop k .moultCtl) data (s.opened h _) := writeAt_of_lands hl
    rw [plainWrite_moultCtl _ h k data (by simpa using hlock), setWord_opened, openBits_opened] at hrun
    exact ⟨_, congrArg Host.Outcome.next hrun, putWord_opened_same hs h _ _ _, fun r hr => putWord_opened_other s h _ _ hr,
      putWord_opened_within s h _ _ _⟩
  · have hrun : writeAt h (.loop k .coefData) data s = indexStep h (.loop k .coefData) (coefDataWrite h k data (s.opened h _)) :=
      writeAt_of_lands hl
    have hcoef : (indexStep h (.loop k .coefData) (coefDataWrite h k data (s.opened h (Reg.loop k .coefData).addr))).coef
        = (coefDataWrite h k data (s.opened h (Reg.loop k .coefData).addr)).coef :=
      within_indexStep _ _ _ .coef (by decide)
    have hidx := fun j => coefIdxOf_step h k j (coefDataWrite h k data (s.opened h (Reg.loop k .coefData).addr))
    simp only [coefDataWrite_coefIdx, coefIdxOf_opened] at hidx
    refine ⟨_, congrArg Host.Outcome.next hrun, (hidx k).trans (if_pos rfl), fun j hj => (hidx j).trans (if_neg hj), ?_, fun hf => ?_, fun hf => ?_⟩
    · exact (opened_frame (by decide) ((within_coefDataWrite h k data _).mono (by decide))).step (within_indexStep h _ _) (by decide)
    · have hf' : CoefFree s h k data := hf
      rw [← coefFree_opened (Reg.loop k .coefData).addr] at hf'
      rw [coefDataWrite_coef_of_free hf', coefIdxOf_opened, opened_coef] at hcoef
      refine ⟨?_, ?_, fun key hkey => ?_⟩
      · rw [coefWord, hcoef]; exact Store.get_set_same hs.2.1 _ _
      · rw [indexStep_coefData_refCnt, coefDataWrite_refCnt_of_free hf', opened_refCnt]
      · rw [hcoef]; exact Store.get_set_other hkey _
    · have hf' : ¬CoefFree s h k data := hf
      rw [← coefFree_opened (Reg.loop k .coefData).addr] at hf'
      rw [coefDataWrite_of_not_free hf'] at hcoef ⊢
      refine ⟨hcoef.trans ((within_refuse _ _ .coef (by decide)).trans (opened_coef ..)), ?_⟩
      rw [indexStep_coefData_refCnt, refuse_refCnt, opened_refCnt]
  · obtain ⟨x, code, hrun, hx, hhost, hdata⟩ := readAt_commits (h := h) (r := .loop k .coefData) hc hh hr nofun (fun _ => rfl)
      (fun y lead => readReg_coefData_congr (reading_pwr ..) (reading_within y h _ lead .coef (by decide)) (by rw [reading_host]) k)
      (fun _ _ => by cases h <;> rfl)
    refine ⟨_, congrArg Host.Outcome.next hrun, hdata.trans (readReg_coefData hr), ?_,
      readDone_frame h _ code (by decide) hx (within_indexStep h (.loop k .coefData) x)⟩
    have hidx : coefIdxOf x h k = coefIdxOf s h k := by rw [coefIdxOf, hhost]; rfl
    rw [coefIdxOf, readDone_host, ← hidx]
    exact (coefIdxOf_step h k k x).trans (if_pos rfl)

end

section
/-! SUPPORT. What every step keeps: each command answers a state whose stores are canonical and whose queues keep their bounds. -/

namespace Sys2Proof.Machine

/-- Every command answers a state that is as sound as the one it found: an access of the bus as its transaction is, each other command as
its own operation. -/
theorem exec_keepsSound : ∀ (c : Instr) (s : State), ∃ t, exec c s = .next t ∧ KeepsSound s t
  | .rstCmd .., s | .tileSettingWrite .., s | .autozeroRequest .., s | .snsCalWrite .., s | .icalWrite .., s | .targetWrite .., s
  | .csetWrite .., s | .moultCtlWrite .., s | .mapDataWrite .., s | .railOn .., s | .railOff .., s | .railKill .., s | .railClear .., s
  | .railClassClear .., s | .tileClassClear .., s | .tileAdmit .., s | .tileExclude .., s | .xchkReq .., s | .pwrKeepalive .., s
  | .bistStart .., s | .pkClr .., s | .evLatchClear .., s | .heartbeatWrite .., s | .claimTake .., s | .claimRelease .., s
  | .linkAuthWrite .., s | .imgDataWrite .., s | .imgCommit .., s | .imgAbort .., s | .nvmProgram .., s | .calSave .., s | .recErase .., s
  | .flush .., s | .journalMoveOldest .., s | .journalMoveNewest .., s | .xmemPrefetch .., s | .recArm .., s | .recTrig .., s
  | .recStop .., s | .recRelease .., s | .rtcSet .., s | .clrFault .., s | .svcClose .., s | .brumationArm .., s | .brumDisarm .., s => ⟨_, rfl, keepsSound_writeAt _ _ _ s⟩
  | .pwrStandby .., s | .pwrReady .., s | .pwrRun .., s | .domCtlWrite .., s => ⟨_, rfl, (keepsSound_of_within (within_State_withVxio s _) (by decide)).trans (keepsSound_writeAt _ _ _ _)⟩
  | .mapDataRead .., s | .evDcntRead .., s | .journalLoad .., s | .journalPop .., s | .xmemWindowAdvance .., s | .recBdataRead .., s
  | .rtcRead .., s => ⟨_, rfl, keepsSound_readAt _ _ _ s⟩
  | .coefDataAccess _ _ (some _) _, s | .nvmDataAccess _ (some _), s => ⟨_, rfl, keepsSound_writeAt _ _ _ s⟩
  | .coefDataAccess _ _ none _, s | .nvmDataAccess _ none, s => ⟨_, rfl, keepsSound_readAt _ _ _ s⟩
  | .imgBegin .., s => ⟨_, rfl, keepsSound_busWrite1 _ _ _ _ s⟩
  | .nvmOperationDone _, s => ⟨_, rfl, (keepsSound_nvmOperationDone _ s).trans (keepsSound_afterHold _)⟩
  | .boot .., s => ⟨_, rfl, keepsSound_boot _ s⟩
  | .resetNLow .., s => ⟨_, rfl, keepsSound_resetNLow _ s⟩
  | .vsupReset .., s => ⟨_, rfl, keepsSound_vsupReset _ s⟩
  | .vioReset .., s => ⟨_, rfl, keepsSound_vioReset _ s⟩
  | .coreSupplyReset .., s => ⟨_, rfl, keepsSound_coreSupplyReset _ s⟩
  | .clockFault .., s => ⟨_, rfl, keepsSound_clockFault _ _ s⟩
  | .keepaliveWake .., s => ⟨_, rfl, keepsSound_keepaliveWake s⟩
  | .carrierPeak .., s => ⟨_, rfl, keepsSound_carrierPeak _ s⟩
  | .carrierValley .., s => ⟨_, rfl, keepsSound_carrierValley _ s⟩
  | .tripRecognised .., s => ⟨_, rfl, keepsSound_tripRecognised _ _ s⟩
  | .tripLatchClear .., s => ⟨_, rfl, keepsSound_tripLatchClear _ _ _ _ s⟩
  | .lowSideForceEnd .., s => ⟨_, rfl, keepsSound_of_within (within_lowSideForceEnd _ _ s) (by decide)⟩
  | .deLowSideOff .., s => ⟨_, rfl, keepsSound_of_within (within_deLowSideOff _ _ s) (by decide)⟩
  | .windowSample .., s => ⟨_, rfl, keepsSound_windowSample _ _ s⟩
  | .leapTileRelease .., s => ⟨_, rfl, keepsSound_leapTileRelease _ _ s⟩
  | .leapHoldoffExpiry .., s => ⟨_, rfl, keepsSound_of_within (within_leapHoldoffExpiry _ s) (by decide)⟩
  | .coarseConversion .., s => ⟨_, rfl, keepsSound_coarseConversion _ _ s⟩
  | .likConversion .., s => ⟨_, rfl, keepsSound_of_within (within_likConversion _ _ s) (by decide)⟩
  | .prebiasReading .., s => ⟨_, rfl, keepsSound_of_within (within_prebiasReading _ s) (by decide)⟩
  | .tileCurrentSample .., s => ⟨_, rfl, keepsSound_tileCurrentSample _ _ _ s⟩
  | .autozeroStart .., s => ⟨_, rfl, keepsSound_of_within (within_autozeroStart _ s) (by decide)⟩
  | .autozeroDone .., s => ⟨_, rfl, keepsSound_of_within (within_autozeroDone _ _ s) (by decide)⟩
  | .autozeroTimeout .., s => ⟨_, rfl, keepsSound_of_within (within_autozeroTimeout _ s) (by decide)⟩
  | .loopUpdate .., s => ⟨_, rfl, keepsSound_loopUpdate _ s⟩
  | .referenceValley .., s => ⟨_, rfl, keepsSound_referenceValley _ _ s⟩
  | .readyTimeout .., s => ⟨_, rfl, keepsSound_readyTimeout _ s⟩
  | .scrubWord .., s => ⟨_, rfl, keepsSound_scrubWord _ _ s⟩
  | .syncInEdge .., s => ⟨_, rfl, keepsSound_syncInEdge _ s⟩
  | .syncInLoss, s => ⟨_, rfl, keepsSound_syncInLoss s⟩
  | .syncOutPulse, s => ⟨_, rfl, keepsSound_of_within (within_syncOutPulse s) (by decide)⟩
  | .railStart .., s => ⟨_, rfl, keepsSound_railStart _ _ s⟩
  | .seqDelayExpiry .., s => ⟨_, rfl, keepsSound_of_within (within_seqDelayExpiry _ s) (by decide)⟩
  | .softstartEntry .., s => ⟨_, rfl, keepsSound_of_within (within_softstartEntry _ s) (by decide)⟩
  | .prebiasWaitTimeout .., s => ⟨_, rfl, keepsSound_prebiasWaitTimeout _ s⟩
  | .trackFailure .., s => ⟨_, rfl, keepsSound_trackFailure _ s⟩
  | .hiccupRetry .., s => ⟨_, rfl, keepsSound_hiccupRetry _ _ s⟩
  | .retryClear .., s => ⟨_, rfl, keepsSound_of_within (within_retryClear _ s) (by decide)⟩
  | .stoppingComplete .., s => ⟨_, rfl, keepsSound_stoppingComplete _ s⟩
  | .pgoodAssert .., s => ⟨_, rfl, keepsSound_of_within (within_pgoodAssert _ s) (by decide)⟩
  | .lenChange .., s => ⟨_, rfl, keepsSound_lenChange _ _ s⟩
  | .hkConversion .., s => ⟨_, rfl, keepsSound_of_within (within_hkConversion _ s) (by decide)⟩
  | .hkRoundEnd, s => ⟨_, rfl, keepsSound_hkRoundEnd s⟩
  | .fastLaneTimer .., s => ⟨_, rfl, keepsSound_fastLaneTimer _ _ s⟩
  | .tsdGraceExpiry, s => ⟨_, rfl, keepsSound_tsdGraceExpiry s⟩
  | .vsupWarning, s => ⟨_, rfl, keepsSound_of_within (within_vsupWarning s) (by decide)⟩
  | .vsupWarningClear, s => ⟨_, rfl, keepsSound_vsupWarningClear s⟩
  | .powerFail, s => ⟨_, rfl, keepsSound_powerFail s⟩
  | .snapshotComplete .., s => ⟨_, rfl, keepsSound_snapshotComplete _ s⟩
  | .vioWarning, s => ⟨_, rfl, keepsSound_vioWarning s⟩
  | .preregFault, s => ⟨_, rfl, keepsSound_preregFault s⟩
  | .refPpmWindow .., s => ⟨_, rfl, keepsSound_of_within (within_refPpmWindow _ s) (by decide)⟩
  | .powerTransitionComplete, s => ⟨_, rfl, keepsSound_powerTransitionComplete s⟩
  | .bankPowerUp .., s => ⟨_, rfl, keepsSound_of_within (within_bankPowerUp _ s) (by decide)⟩
  | .bankPowerUpDone .., s => ⟨_, rfl, keepsSound_of_within (within_bankPowerUpDone _ s) (by decide)⟩
  | .bistSweep .., s => ⟨_, rfl, keepsSound_bistSweep _ s⟩
  | .bistSweepEnd, s => ⟨_, rfl, keepsSound_bistSweepEnd s⟩
  | .telemetrySample, s => ⟨_, rfl, keepsSound_of_within (within_telemetrySample s) (by decide)⟩
  | .telemetryWindowEnd, s => ⟨_, rfl, keepsSound_of_within (within_telemetryWindowEnd s) (by decide)⟩
  | .telemetrySwap, s => ⟨_, rfl, keepsSound_of_within (within_telemetrySwap s) (by decide)⟩
  | .peakClearingRead .., s | .clearingRead .., s => ⟨_, rfl, keepsSound_busRead _ _ s⟩
  | .hourCount, s => ⟨_, rfl, keepsSound_of_within (within_hourCount s) (by decide)⟩
  | .journalWrite, s => ⟨_, rfl, keepsSound_journalWrite s⟩
  | .registerWrite .., s => ⟨_, rfl, keepsSound_registerWrite _ _ _ _ s⟩
  | .busInterrupt .., s => ⟨_, rfl, keepsSound_busInterrupt _ _ s⟩
  | .busTimeout .., s => ⟨_, rfl, keepsSound_busTimeout _ s⟩
  | .sdaRelease .., s => ⟨_, rfl, keepsSound_sdaRelease _ s⟩
  | .heartbeatLapse .., s => ⟨_, rfl, keepsSound_heartbeatLapse _ s⟩
  | .setTarget .., s | .query .., s | .ping .., s | .badFrame .., s => ⟨_, rfl, keepsSound_judgeFrame _ _ _ _ _ s⟩
  | .linkFrameError .., s => ⟨_, rfl, keepsSound_linkFrameError _ _ s⟩
  | .glClkStop .., s => ⟨_, rfl, keepsSound_glClkStop _ _ s⟩
  | .ack, s => ⟨_, rfl, keepsSound_sendAck s⟩
  | .settled, s => ⟨_, rfl, keepsSound_sendSettled s⟩
  | .settleTimeout .., s => ⟨_, rfl, keepsSound_settleTimeout _ s⟩
  | .loadLapse, s => ⟨_, rfl, keepsSound_loadLapse s⟩
  | .eepromPageWrite .., s => ⟨_, rfl, keepsSound_eepromPageWrite _ _ s⟩
  | .replacementCheckDone .., s => ⟨_, rfl, keepsSound_replacementCheckDone _ _ s⟩
  | .nvmOperationStart, s => ⟨_, rfl, keepsSound_nvmOperationStart s⟩
  | .counterCommit .., s => ⟨_, rfl, keepsSound_counterCommit _ s⟩
  | .recordRetry .., s => ⟨_, rfl, keepsSound_recordRetry _ s⟩
  | .marginRead .., s => ⟨_, rfl, keepsSound_marginRead _ s⟩
  | .xmemDiscovery .., s => ⟨_, rfl, keepsSound_xmemDiscovery _ s⟩
  | .journalHeadSearch, s => ⟨_, rfl, keepsSound_journalHeadSearch s⟩
  | .journalBurst .., s => ⟨_, rfl, keepsSound_journalBurst _ s⟩
  | .xmemBurstDone, s => ⟨_, rfl, keepsSound_xmemBurstDone s⟩
  | .xmemStall, s => ⟨_, rfl, keepsSound_xmemStall s⟩
  | .xmemRecovery, s => ⟨_, rfl, keepsSound_xmemRecovery s⟩
  | .recorderFrame, s => ⟨_, rfl, keepsSound_recorderFrame s⟩
  | .recorderBurst .., s => ⟨_, rfl, keepsSound_recorderBurst _ s⟩
  | .drawArbiterSample .., s => ⟨_, rfl, keepsSound_drawArbiterSample _ s⟩
  | .leaveWaitLong .., s => ⟨_, rfl, keepsSound_leaveWaitLong _ s⟩
  | .kaMonitorRun .., s => ⟨_, rfl, keepsSound_kaMonitorRun _ s⟩
  | .kaSourceLoss, s => ⟨_, rfl, keepsSound_kaSourceLoss s⟩
  | .kaSourceQualified, s => ⟨_, rfl, keepsSound_kaSourceQualified s⟩
  | .cellCutoff, s => ⟨_, rfl, keepsSound_cellCutoff s⟩
  | .rtcTrimInterval, s => ⟨_, rfl, keepsSound_of_within (within_rtcTrim s) (by decide)⟩
  | .serviceKeyRelease, s => ⟨_, rfl, keepsSound_keyRelease s⟩
  | .serviceArmExpiry, s => ⟨_, rfl, keepsSound_armExpiry s⟩
  | .residueHourlyWrite, s => ⟨_, rfl, keepsSound_residueHourly s⟩
  | .brumationWake .., s => ⟨_, rfl, keepsSound_brumationWake _ s⟩
  | .keepaliveDomainPowerUp .., s => ⟨_, rfl, keepsSound_kaPowerUp _ s⟩
  | .kaSourceReturn, s => ⟨_, rfl, keepsSound_of_within (within_kaSourceReturn s) (by decide)⟩
  | .transactionEnd .., s => ⟨_, rfl, keepsSound_transactionEnd _ _ _ _ s⟩
  | .commitHoldLimit, s => ⟨_, rfl, keepsSound_commitHoldLimit s⟩
  | .serviceKeyPress, s => ⟨_, rfl, keepsSound_of_within (within_keyPress s) (by decide)⟩
  | .testAccessPortInstruction .., s => ⟨_, rfl, keepsSound_tapLoad _ _ s⟩

theorem step_keepsSound {s t : State} (h : step s = .next t) : KeepsSound s t := by
  unfold step at h
  cases hp : s.pending with
  | nil =>
    rw [hp] at h
    obtain rfl := Host.Outcome.next.inj h
    exact keepsSound_of_within (within_idle s) (by decide)
  | cons c rest =>
    rw [hp] at h
    obtain ⟨u, hu, hk⟩ := exec_keepsSound c { s with pending := rest }
    obtain rfl := Host.Outcome.next.inj (hu.symm.trans h)
    exact hk

end Sys2Proof.Machine
end

section
/-! SUPPORT. One occurrence of a source that stays inside the event system: what it marks, and what enters the queue (R383, R384). -/

namespace Sys2Proof.Machine

/-- The source has occurred: its cycle is marked, and detail, count and latch are written where it is enabled (R384 steps 1 and 2). -/
def State.latched (s : State) (e : Nat) (d : Word) : State := if evEn s e then latchSrc e d (markSrc e s) else markSrc e s

theorem latched_within (s : State) (e : Nat) (d : Word) : Within [.ev] s (s.latched e d) :=
  within_ite ((within_markSrc e s).trans (within_latchSrc e d _)) (within_markSrc e s)

/-- The occurrence goes to the journal: its entry enters the queue, or is lost in a full one (R27). -/
def State.journaled (s : State) (e : Nat) (d : Word) : State := enqueue (entryNow s e d false false (eventHost e d)) (markJrn e s)

theorem journaled_within (s : State) (e : Nat) (d : Word) : Within [.ev] s (s.journaled e d) :=
  (within_markJrn e s).trans (within_enqueue _ _)

theorem quiet_congr_recorder {s y : State} (hset : y.settings = s.settings) (e : Nat) : evRec y e = evRec s e ∧ evResp y e = evResp s e := by
  simp only [evRec, evResp, evByte, setWord, hset, and_self]

/-- After the marks and the entry, an occurrence that stays inside the event system triggers no recorder and acts on no rail. -/
theorem quiet_tail_eq {s y : State} {e : Nat} (hq : Quiet s e) (hset : y.settings = s.settings) (raise : Raise) (a : State) :
    (if (evEn s e && decide (64 ≤ e)) = true then
      respAction raise (evResp (if (evEn s e && evRec y e) = true then a else y) e) (if (evEn s e && evRec y e) = true then a else y)
    else if (evEn s e && evRec y e) = true then a else y) = y := by
  obtain ⟨hrec, hresp⟩ := quiet_congr_recorder hset e
  rw [hrec]
  rcases hq with hoff | ⟨hnorec, h4, h6⟩
  · simp [hoff]
  · have hno : respAction raise (evResp y e) y = y := by rw [respAction, hresp, if_neg h4, if_neg h6]
    simp [hnorec, hno]

/-- An occurrence that stays inside the event system has no effect but its marks and its entry. -/
theorem occur_of_quiet {s : State} {e : Nat} (d : Word) (hq : Quiet s e) (hn : occurredNow s e = false) :
    occur e d s = if (evEn s e && evJrnl s e || alwaysJournaled e) = true then (s.latched e d).journaled e d else s.latched e d := by
  have hy : Within [.ev] s (if (evEn s e && evJrnl s e || alwaysJournaled e) = true then (s.latched e d).journaled e d else s.latched e d) :=
    within_ite ((latched_within s e d).trans (journaled_within _ e d)) (latched_within s e d)
  refine (if_neg (by simp [hn])).trans ?_
  dsimp only
  rw [Bool.or_false]
  exact quiet_tail_eq hq (hy .settings (by decide)) _ _

theorem occur_of_occurred {s : State} {e : Nat} (d : Word) (hn : occurredNow s e = true) : occur e d s = s := if_pos hn

/-! What the marks leave in the sources. -/

theorem finOf_val {n : Nat} (hn : 0 < n) (i : Fin n) : finOf n hn i.val = i := Fin.ext (Nat.mod_eq_of_lt i.isLt)

section
variable (s : State) (e : SourceId) (d : Word)

theorem latched_source :
    (s.latched e.val d).source e.val = if evEn s e.val = true then
        { s.source e.val with cycle := some (cycleOf s), detail := d, count := satInc (s.source e.val).count 65535
                              latch := (s.source e.val).latch || evLatchEn s e.val }
      else { s.source e.val with cycle := some (cycleOf s) } := by
  have hmark : (markSrc e.val s).source e.val = { s.source e.val with cycle := some (cycleOf s) } := modVec_get_same ..
  unfold State.latched
  split
  · refine (modVec_get_same (markSrc e.val s).ev.src (finOf 256 (by decide) e.val) _).trans ?_
    exact congrArg (fun x : EventSource =>
      { x with detail := d, count := satInc x.count 65535, latch := x.latch || evLatchEn (markSrc e.val s) e.val }) hmark
  · exact hmark

theorem latched_source_other {f : SourceId} (hf : f ≠ e) : (s.latched e.val d).source f.val = s.source f.val := by
  have hne : finOf 256 (by decide) f.val ≠ finOf 256 (by decide) e.val := by rwa [finOf_val, finOf_val]
  have hmark : (markSrc e.val s).source f.val = s.source f.val := modVec_get_other _ _ hne
  unfold State.latched
  split
  · exact (modVec_get_other (markSrc e.val s).ev.src _ hne).trans hmark
  · exact hmark

@[simp] theorem latched_queue (a : Nat) : (s.latched a d).ev.queue = s.ev.queue := by unfold State.latched; split <;> rfl
@[simp] theorem latched_ovfCnt (a : Nat) : (s.latched a d).ev.ovfCnt = s.ev.ovfCnt := by unfold State.latched; split <;> rfl
@[simp] theorem latched_now (a : Nat) : (s.latched a d).now = s.now := latched_within s a d .now (by decide)

end

/-! What the entry changes. -/

theorem mem_placeEntry (q : QueueEntry) (l : List QueueEntry) : q ∈ placeEntry q l := by
  induction l with
  | nil => exact List.mem_singleton.mpr rfl
  | cons x xs ih =>
    unfold placeEntry
    split
    · exact List.mem_cons_self
    · exact List.mem_cons_of_mem _ ih

@[simp] theorem enqueue_src (q : QueueEntry) (s : State) : (enqueue q s).ev.src = s.ev.src := by unfold enqueue; split <;> rfl

section
variable (s : State) (e : SourceId) (d : Word)

theorem journaled_src : (s.journaled e.val d).ev.src = (markJrn e.val s).ev.src := enqueue_src _ _

theorem journaled_source : (s.journaled e.val d).source e.val = { s.source e.val with jrnCycle := some (cycleOf s) } :=
  (congrArg (Vector.get · _) (journaled_src s e d)).trans (modVec_get_same ..)

theorem journaled_source_other {f : SourceId} (hf : f ≠ e) : (s.journaled e.val d).source f.val = s.source f.val :=
  (congrArg (Vector.get · _) (journaled_src s e d)).trans (modVec_get_other _ _ (by rwa [finOf_val, finOf_val]))

/-- While the queue has room the entry is in it. -/
theorem journaled_room (hroom : s.ev.queue.length < 512) :
    (s.journaled e.val d).ev.queue.length = s.ev.queue.length + 1
      ∧ ∃ q ∈ (s.journaled e.val d).ev.queue, q.id = e.val ∧ q.detail = d ∧ q.cyc = cycleOf s := by
  have hq : (s.journaled e.val d).ev.queue
      = placeEntry { entryNow s e.val d false false (eventHost e.val d) with loss := false || s.ev.lossNext } s.ev.queue :=
    congrArg (fun x : State => x.ev.queue) (if_neg (show ¬512 ≤ (markJrn e.val s).ev.queue.length from Nat.not_le.mpr hroom))
  rw [hq]
  exact ⟨placeEntry_length _ _, _, mem_placeEntry _ _, rfl, rfl, rfl⟩

/-- A full queue stays, and the overflow is counted (R27). -/
theorem journaled_full (hfull : ¬s.ev.queue.length < 512) :
    (s.journaled e.val d).ev.queue = s.ev.queue ∧ (s.journaled e.val d).ev.ovfCnt = satInc s.ev.ovfCnt 255 := by
  have hx : s.journaled e.val d = _ := if_pos (show 512 ≤ (markJrn e.val s).ev.queue.length from Nat.not_lt.mp hfull)
  rw [hx]
  exact ⟨rfl, rfl⟩

end

end Sys2Proof.Machine
end

section
/-! SUPPORT. Unmapped addresses: what is none, and what an access of one does (R34, R35). -/

namespace Sys2Proof.Machine

theorem addr_mod_four (r : Reg) : r.addr % 4 = 0 := by
  by_contra h4
  exact absurd ((if_pos h4).symm.trans (decodeAddr_addr r)) nofun

/-! The two ranges that R34 leaves unmapped. -/

theorem arrayAt_eq_none {base step n : Nat} (hn : 0 < n) (f : Fin n → Reg) {a : Nat} (ha : a < base ∨ n ≤ (a - base) / step) :
    arrayAt base step n hn f a = none := if_neg (by omega)

theorem arrayRegAt_eq_none {a : Nat} (ha : (0x3800 ≤ a ∧ a ≤ 0x3FFF) ∨ (0x8100 ≤ a ∧ a ≤ 0xEFFF)) : arrayRegAt a = none := by
  unfold arrayRegAt
  simp (disch := omega) only [arrayAt_eq_none]
  rfl

theorem singleRegAt_some_range {a : Nat} {r : Reg} (hr : singleRegAt a = some r) : a < 0x3800 ∨ (0x4000 ≤ a ∧ a < 0x8100) ∨ 0xF000 ≤ a := by
  unfold singleRegAt at hr
  split at hr <;> cases hr <;> decide

theorem decodeAddr_eq_none {a : Nat} (ha : (0x3800 ≤ a ∧ a ≤ 0x3FFF) ∨ (0x8100 ≤ a ∧ a ≤ 0xEFFF)) : decodeAddr a = none := by
  have hsingle : singleRegAt a = none := by
    by_contra hsome
    obtain ⟨r, hr⟩ := Option.ne_none_iff_exists'.mp hsome
    have := singleRegAt_some_range hr
    omega
  unfold decodeAddr
  split
  · rfl
  · rw [if_neg (by omega), if_neg (by omega), hsingle]
    exact arrayRegAt_eq_none ha

theorem addr_ne_of_unmapped {a : Nat} (hd : decodeAddr a = none) (r : Reg) : r.addr ≠ a := by
  rintro rfl
  exact absurd ((decodeAddr_addr r).symm.trans hd) nofun

/-! A read of an unmapped address. -/

theorem showTrips_of_unmapped {a : Nat} (ha : a < 65536) (hd : decodeAddr a = none) (trips : BitVec 48) (s : State) :
    showTrips a 1 trips s = s := by
  have htiles : (s.mapTiles fun t ti =>
      if reads a 1 (Reg.addr (.tile t .tripStat)) then { ti with trip := { ti.trip with active := trips.getLsbD t.val } } else ti).tiles = s.tiles :=
    vector_ext_get fun v => (mapTiles_tile s _ v).trans (if_neg fun hv => addr_ne_of_unmapped hd _ ((reads_one ha (addr_lt _)).mp hv))
  unfold showTrips
  split
  · exact congrArg (fun x => { s with tiles := x }) htiles
  · rfl

theorem reading_owner (s : State) (h : HostId) (a : Nat) (lead : List Byte) : (s.reading h a lead).bus.owner = s.bus.owner := by cases h <;> rfl
theorem readDone_owner (s : State) (h : HostId) (a : Nat) (code : Option Byte) : (s.readDone h a code).bus.owner = s.bus.owner := by cases h <;> rfl
theorem reading_host_other (s : State) {h g : HostId} (a : Nat) (lead : List Byte) (hg : g ≠ h) : (s.reading h a lead).host g = s.host g :=
  modHost_other s _ hg
theorem readDone_host_other (s : State) {h g : HostId} (a : Nat) (code : Option Byte) (hg : g ≠ h) : (s.readDone h a code).host g = s.host g :=
  modHost_other s _ hg

/-- A read of one register with whatever check its memory gives: its word is sampled, sent and committed. -/
theorem readData_word (s : State) (h : HostId) (a : Addr) (ecc : Ecc) :
    ∃ code, readData h (.one a ecc) s =
      let y := readOne h a.toNat ecc true ((showTrips a.toNat 1 0 s).reading h a.toNat (readLead s h (.one a ecc)))
      { y with bus := { y.bus with sentCode := code } } := by
  have hn : min (ReadAccess.one a ecc).regs (readLen s (.one a ecc)) = 1 := by
    rw [show readLen s (.one a ecc) = 1 from readLen_one s a 0]; rfl
  have hp : readPast s (.one a ecc) = false := readPast_one s a 0
  have hfrom : readFrom s h (.one a ecc) = a.toNat := rfl
  have htrips : (ReadAccess.one a ecc).trips = 0 := rfl
  have hecc : (ReadAccess.one a ecc).ecc = [ecc] := rfl
  have hwhole : (ReadAccess.one a ecc).whole = true := rfl
  have hone : min 1 16 = 1 := rfl
  have hfill : ∀ l : List Word, l ++ List.replicate (1 - 16) 0xFFFFFFFF#32 = l := fun l => List.append_nil l
  unfold readData State.reading
  simp only [hn, hp, hfrom, htrips, hecc, hwhole, hone, hfill, Bool.true_or, readWords, List.headD_cons, Bool.false_eq_true, if_false]
  generalize readOne h a.toNat ecc true _ = y
  split
  · exact ⟨_, rfl⟩
  · exact ⟨y.bus.sentCode, rfl⟩

theorem busRead_word {s : State} (hb : busAnswers s = true) (h : HostId) (a : Addr) (ecc : Ecc) : busRead h (.one a ecc) s = readData h (.one a ecc) s := by
  unfold busRead
  rw [hb, if_neg (by decide), if_neg (by simp [ReadAccess.one])]

/-- A read of an unmapped address sends 0, and the pointer passes it. -/
theorem busRead_unmapped {s : State} {a : Addr} (hb : busAnswers s = true) (hd : decodeAddr a.toNat = none) (h : HostId) (ecc : Ecc) :
    ∃ lead code, busRead h (.one a ecc) s = (sendWord 0 (s.reading h a.toNat lead)).readDone h a.toNat code := by
  obtain ⟨code, hread⟩ := readData_word s h a ecc
  rw [showTrips_of_unmapped a.isLt hd, readOne, hd] at hread
  exact ⟨_, code, (busRead_word hb h a ecc).trans hread⟩

/-! A write to an unmapped address. -/

theorem ofNat_toNat_add (a : Addr) (n : Nat) : BitVec.ofNat 16 (a.toNat + n) = a + BitVec.ofNat 16 n := by
  rw [BitVec.ofNat_add, BitVec.ofNat_toNat, BitVec.setWidth_eq]

theorem busWord_unmapped {s : State} {a : Nat} (hc : coreOn s = true) (hd : decodeAddr a = none) (h : HostId) (w : Word) :
    busWord true h a w s = if s.bus.owner = some h then refuse h s else claimRefuse h a s := by
  unfold busWord
  rw [hc, if_neg (by decide), hd]

theorem refuse_host_other {h g : HostId} (s : State) (hg : g ≠ h) : (refuse h s).host g = s.host g := modHost_other s _ hg

/-- The counts of a write that is refused for want of the claim (R418). -/
def claimCounted (h : HostId) (s : State) : State := (refuse h s).modHost h fun r => { r with claimCnt := satInc r.claimCnt 65535 }

theorem claimCounted_within (h : HostId) (s : State) : Within [.bus] s (claimCounted h s) :=
  (within_refuse h s).trans (within_State_modHost _ h _)

/-- Event 137 leaves the counts of the refusal on the bus. -/
theorem claimRefuse_bus (h : HostId) (a : Nat) (s : State) : (claimRefuse h a s).bus = (claimCounted h s).bus :=
  within_occur 137 _ (claimCounted h s) .bus (by decide)

theorem claimRefuse_host (h : HostId) (a : Nat) (s : State) (g : HostId) : (claimRefuse h a s).host g = (claimCounted h s).host g :=
  (within_occur 137 _ (claimCounted h s)).host_eq (by decide) g

theorem claimRefuse_quiet {h : HostId} {s : State} (hq : Quiet s 137) (a : Nat) : Within [.bus, .ev] s (claimRefuse h a s) := by
  have hc := claimCounted_within h s
  exact (hc.mono (by decide)).step (occur_quiet _ ((quiet_congr (hc .settings (by decide)) 137).mpr hq)) (by decide)

theorem claimCounted_host (h : HostId) (s : State) :
    (claimCounted h s).host h
      = { s.host h with refCnt := satInc (s.host h).refCnt 65535, claimCnt := satInc (s.host h).claimCnt 65535 } := by
  rw [claimCounted, modHost_host, refuse_host]; rfl

theorem claimCounted_host_other {h g : HostId} (s : State) (hg : g ≠ h) : (claimCounted h s).host g = s.host g :=
  (modHost_other _ _ hg).trans (refuse_host_other s hg)

/-- What a write of words that are all unmapped leaves: one refused write for each, and no setting and no rail's state changed. -/
structure RefusedWords (h : HostId) (ws : List Word) (s t : State) : Prop where
  host : t.host h = { s.host h with ptr := (t.host h).ptr, refCnt := ws.foldl (fun n _ => satInc n 65535) (s.host h).refCnt }
  others : ∀ g, g ≠ h → t.host g = s.host g
  settings : t.settings = s.settings
  rails : ∀ k, railSt t k = railSt s k
  pwr : t.pwr = s.pwr
  owner : t.bus.owner = s.bus.owner
  held : t.bus.holdFrom = s.bus.holdFrom

theorem RefusedWords.append {h : HostId} {ws vs : List Word} {s t u : State} (h1 : RefusedWords h ws s t) (h2 : RefusedWords h vs t u) :
    RefusedWords h (ws ++ vs) s u where
  host := by rw [h2.host, h1.host, List.foldl_append]
  others g hg := (h2.others g hg).trans (h1.others g hg)
  settings := h2.settings.trans h1.settings
  rails k := (h2.rails k).trans (h1.rails k)
  pwr := h2.pwr.trans h1.pwr
  owner := h2.owner.trans h1.owner
  held := h2.held.trans h1.held

theorem refusedWords_refl (h : HostId) (s : State) : RefusedWords h [] s s :=
  ⟨rfl, fun _ _ => rfl, rfl, fun _ => rfl, rfl, rfl, rfl⟩

theorem refusedWords_laterCycle (h : HostId) (s : State) : RefusedWords h [] s (laterCycle s) where
  host := rfl
  others _ _ := rfl
  settings := rfl
  rails k := by
    have hrail : (laterCycle s).rail k = { s.rail k with was := none } := mapVec_get ..
    rw [railSt, hrail, railSt]
  pwr := rfl
  owner := rfl
  held := rfl

theorem refusedWords_refuse (h : HostId) (w : Word) (a : Nat) (s : State) : RefusedWords h [w] s (refuse h (pointTo h a s)) where
  host := by cases h <;> rfl
  others g hg := (refuse_host_other _ hg).trans (modHost_other s _ hg)
  settings := by cases h <;> rfl
  rails _ := by cases h <;> rfl
  pwr := by cases h <;> rfl
  owner := by cases h <;> rfl
  held := by cases h <;> rfl

/-- The words of a burst from address `a` on all fall on unmapped addresses. -/
def Unmapped (a : Nat) (ws : List Word) : Prop := ∀ i : Nat, i < ws.length → decodeAddr ((a + 4 * i) % 65536) = none

theorem Unmapped.head {a : Nat} {w : Word} {ws : List Word} (hu : Unmapped a (w :: ws)) (ha : a < 65536) : decodeAddr a = none := by
  have h0 := hu 0 (Nat.zero_lt_succ _)
  rwa [Nat.mul_zero, Nat.add_zero, Nat.mod_eq_of_lt ha] at h0

theorem Unmapped.tail {a : Nat} {w : Word} {ws : List Word} (hu : Unmapped a (w :: ws)) : Unmapped ((a + 4) % 65536) ws := by
  intro i hi
  have hnext := hu (i + 1) (Nat.succ_lt_succ hi)
  rwa [show (a + 4 * (i + 1)) % 65536 = ((a + 4) % 65536 + 4 * i) % 65536 by omega] at hnext

section
variable {h : HostId} {s : State} {a : Nat}

theorem busWord_unmapped_refuses (hc : coreOn s = true) (ho : s.bus.owner = some h) (hd : decodeAddr a = none) (w : Word) (p : Nat) :
    busWord true h a w (pointTo h p s) = refuse h (pointTo h p s) := by
  have hc' : coreOn (pointTo h p s) = true := by rw [← hc]; cases h <;> rfl
  rw [busWord_unmapped hc' hd, if_pos (by rw [← ho]; cases h <;> rfl)]

theorem plainWords_unmapped (ws : List Word) (left : Nat) (hc : coreOn s = true) (hh : s.bus.holdFrom = none) (ho : s.bus.owner = some h) (ha : a < 65536)
    (hu : Unmapped a ws) (hl : ws.length ≤ left) : RefusedWords h ws s (plainWords h ws a left s) := by
  induction ws generalizing a left s with
  | nil => exact refusedWords_refl h s
  | cons w ws ih =>
    cases left with
    | zero => exact absurd hl (Nat.not_succ_le_zero _)
    | succ left =>
      have hone := refusedWords_refuse h w (a + 4) s
      unfold plainWords
      rw [busWord_unmapped_refuses hc ho (hu.head ha)]
      dsimp only
      split
      · next hlast =>
        obtain rfl : ws = [] := by
          refine hlast.resolve_right fun hno => ?_
          rw [pastStep1_of_core ((coreOn_congr hone.pwr).trans hc)] at hno
          exact absurd hno nofun
        exact hone
      · rw [hone.held, hh]
        have hlater := hone.append (refusedWords_laterCycle h _)
        exact hone.append ((refusedWords_laterCycle h _).append
          (ih left ((coreOn_congr hlater.pwr).trans hc) (hlater.held.trans hh) (hlater.owner.trans ho) (Nat.mod_lt _ (by decide)) hu.tail
            (Nat.le_of_succ_le_succ hl)))

theorem codedWords_unmapped (ws : List Word) (hc : coreOn s = true) (ho : s.bus.owner = some h) (ha : a < 65536) (hu : Unmapped a ws) :
    RefusedWords h ws s (codedWords h a ws s) := by
  induction ws generalizing a s with
  | nil => exact refusedWords_refl h s
  | cons w ws ih =>
    have hone := refusedWords_refuse h w (a + 4) s
    unfold codedWords
    rw [if_pos (pastStep1_of_core hc), busWord_unmapped_refuses hc ho (hu.head ha)]
    exact hone.append (ih ((coreOn_congr hone.pwr).trans hc) (hone.owner.trans ho) (Nat.mod_lt _ (by decide)) hu.tail)

theorem refusedWords_addressPhase (n c : Nat) :
    RefusedWords h [] s { addressPhase h a n s with bus := { (addressPhase h a n s).bus with nak := false, codeAt := c } } where
  host := by cases h <;> rfl
  others g hg := modHost_other s _ hg
  settings := by cases h <;> rfl
  rails _ := by cases h <;> rfl
  pwr := by cases h <;> rfl
  owner := by cases h <;> rfl
  held := by cases h <;> rfl

end

/-- A write of up to 16 words that are all unmapped, by the host that holds the claim, is refused word by word. -/
theorem registerWrite_unmapped {h : HostId} {a : Addr} {ws : List Word} {pec : Option Byte} {s : State} (hc : coreOn s = true)
    (hh : s.bus.holdFrom = none) (ho : s.bus.owner = some h) (hl : ws.length ≤ 16) (hu : Unmapped a.toNat ws)
    (hp : pecOn s = true → ∃ p, pec = some p ∧ p.toNat = pecOf s h a.toNat ws) : RefusedWords h ws s (registerWrite h a ws pec s) := by
  have hphase := fun c => refusedWords_addressPhase (h := h) (s := s) (a := a.toNat) (min ws.length 16) c
  unfold registerWrite
  rw [busAnswers_of_core hc hh, if_neg (by decide)]
  split
  · next hpec =>
    obtain ⟨p, rfl, hq⟩ := hp hpec
    have hwant : pecOf (addressPhase h a.toNat (min ws.length 16) s) h a.toNat ws = pecOf s h a.toNat ws := by cases h <;> rfl
    unfold writeCoded
    rw [if_neg (Nat.not_lt.mpr hl)]
    dsimp only
    rw [hwant, if_pos hq]
    exact (hphase _).append (codedWords_unmapped ws ((coreOn_congr (hphase _).pwr).trans hc) ((hphase _).owner.trans ho) a.isLt hu)
  · exact (hphase 0).append (plainWords_unmapped ws 16 ((coreOn_congr (hphase 0).pwr).trans hc) ((hphase 0).held.trans hh)
      ((hphase 0).owner.trans ho) a.isLt hu hl)

end Sys2Proof.Machine
end

section
/-! SUPPORT. The read of one register with the check of the memory behind it (R33, R404, R409). -/

namespace Sys2Proof.Machine

/-- The register's word is sampled and sent; a word that a double-bit error leaves open is a free value (log 18). -/
def sampleSend (h : HostId) (ecc : Ecc) (r : Reg) (x : State) : State :=
  let y := readSample h ecc r x
  if sentOpen x h ecc r then sendWord (word y.drawFree.1) y.drawFree.2 else sendWord (readReg y h r) y

theorem readOne_sampled {s : State} {h : HostId} {r : Reg} {ecc : Ecc} (hc : coreOn s = true) (hr : regLive s r = true) :
    readOne h r.addr ecc true s = pointTo h (r.addr + 4) (readCommit h r (sampleSend h ecc r s)) := by
  unfold readOne
  rw [decodeAddr_addr]
  simp only [hr, hc, Bool.and_self, if_true]
  rfl

/-- A read of a live register that no trip input is behind: its word is sampled and sent, and the read commits. -/
theorem readAt_sampled {s : State} {h : HostId} {r : Reg} {ecc : Ecc} (hc : coreOn s = true) (hh : s.bus.holdFrom = none) (hr : regLive s r = true)
    (ht : ∀ u, r ≠ .tile u .tripStat) :
    ∃ lead code, readAt h r ecc s = (readCommit h r (sampleSend h ecc r (s.reading h r.addr lead))).readDone h r.addr code := by
  obtain ⟨code, hread⟩ := readData_word s h (BitVec.ofNat 16 r.addr) ecc
  rw [addr_toNat, showTrips_of_other ht] at hread
  have hpwr := fun lead => reading_pwr s h r.addr lead
  rw [readOne_sampled ((coreOn_congr (hpwr _)).trans hc) ((regLive_congr (hpwr _) r).trans hr)] at hread
  exact ⟨_, code, (busRead_word (busAnswers_of_core hc hh) h _ ecc).trans hread⟩

end Sys2Proof.Machine
end

section
/-! SUPPORT. MAP_DATA: what a read samples, what a written word stores, and what a scrubbed word counts (R33, R194, R196, R197). -/

namespace Sys2Proof.Machine

/-! What the sampling does. -/

section
variable {x : State} {h : HostId}

theorem readSample_mapData_within (ecc : Ecc) : Within [.tiles, .rails, .test, .map, .ev, .link, .rcd] x (readSample h ecc .mapData x) := by
  unfold readSample
  refine within_ite Within.refl (within_ite ((within_readTableWord _ _ _).mono (by decide)) ?_)
  dsimp only
  exact within_ite ((within_readMapWord _ _ _).step (within_set_map _ _) (by decide)) (within_readMapWord _ _ _)

variable (hi : mapIdxOf x h ≤ 0x4087)
include hi

theorem readSample_table (ecc : Ecc) (h4 : 0x4000 ≤ mapIdxOf x h) : readSample h ecc .mapData x = readTableWord (mapIdxOf x h) ecc x :=
  (if_neg (Nat.not_lt.mpr hi)).trans (if_pos h4)

theorem readSample_map (ecc : Ecc) (h4 : mapIdxOf x h < 0x4000) :
    readSample h ecc .mapData x =
      let y := readMapWord (mapWord (mapIdxOf x h)) ecc x
      if y.map.bad.contains (mapWord (mapIdxOf x h)) then { y with map := { y.map with rdErr := true } } else y :=
  (if_neg (Nat.not_lt.mpr hi)).trans (if_neg (Nat.not_le.mpr h4))

variable (hbad : x.map.bad.contains (mapWord (mapIdxOf x h)) = false)
include hbad

theorem readSample_mapData_ok : readSample h .ok .mapData x = x := by
  by_cases h4 : 0x4000 ≤ mapIdxOf x h
  · rw [readSample_table hi .ok h4]; rfl
  · rw [readSample_map hi .ok (Nat.not_le.mp h4)]
    simp only [readMapWord, hbad, Bool.false_eq_true, if_false]

/-- One wrong bit is corrected and counted: in the map, or for the tables as one of the image shadow. -/
theorem readSample_mapData_single :
    readSample h .single .mapData x
      = if mapIdxOf x h < 0x4000 then { x with map := { x.map with sbe := satInc x.map.sbe 65535 } } else shadowFixed x := by
  by_cases h4 : mapIdxOf x h < 0x4000
  · rw [readSample_map hi .single h4, if_pos h4]
    simp only [readMapWord, hbad, Bool.false_eq_true, if_false]
  · rw [readSample_table hi .single (Nat.not_lt.mp h4), if_neg h4]; rfl

/-- Two wrong bits in the map mark the word bad and latch the error of the read (R194). -/
theorem readSample_mapData_double (h4 : mapIdxOf x h < 0x4000) (hq : Quiet x 224) :
    let y := readSample h .double .mapData x
    y.map = { x.map with bad := mapWord (mapIdxOf x h) :: x.map.bad, dbe := satInc x.map.dbe 255, dbeFlag := true
                         badWord := mapWord (mapIdxOf x h), badValid := true, rdErr := true }
      ∧ Within [.map, .test, .ev] x y := by
  let w := mapWord (mapIdxOf x h)
  let marked : State := { x with
    map := { x.map with bad := w :: x.map.bad, dbe := satInc x.map.dbe 255, dbeFlag := true, badWord := w, badValid := true }
    test := { x.test with dbe := satInc x.test.dbe 255 } }
  have hmarked : Within [.map, .test, .ev] x marked := (within_set_test_map x _ _).mono (by decide)
  have hocc : Within [.ev] marked (occur 224 0 marked) := occur_quiet 0 ((quiet_congr rfl 224).mpr hq)
  have hmap : (occur 224 0 marked).map = marked.map := hocc .map (by decide)
  have hread : readMapWord w .double x = occur 224 0 marked := by
    simp only [readMapWord, markMapBad, w, hbad, Bool.false_eq_true, if_false]
    rfl
  have hin : (occur 224 0 marked).map.bad.contains w = true := by rw [hmap]; simp [marked]
  have hrun : readSample h .double .mapData x = { occur 224 0 marked with map := { (occur 224 0 marked).map with rdErr := true } } := by
    rw [readSample_map hi .double h4]
    change (if (readMapWord w .double x).map.bad.contains w = true then _ else _) = _
    rw [hread, if_pos hin]
  rw [hrun]
  refine ⟨?_, (hmarked.step hocc (by decide)).step (within_set_map _ _) (by decide)⟩
  dsimp only
  rw [hmap]

end

/-- Two wrong bits in a table count, and mark no map word. -/
theorem shadowError_test (uses : RailId → Bool) (s : State) : (shadowError uses s).test = (countDbe s).test := by
  have hstop : Within [.tiles, .rails, .ev, .link, .rcd] (countDbe s)
      (allRails.foldl (fun s k => if uses k then orderlySafe occur k 8 s else s) (countDbe s)) :=
    within_foldl (fun x k => within_ite (within_orderlySafe _ _ _ _ fun e d x => within_occur e d x) Within.refl) _ _
  exact (hstop.trans (within_occur _ _ _)) .test (by decide)

/-! The read. -/

theorem mapIdxOf_congr {s t : State} {h : HostId} (hb : (t.host h).mapIdx = (s.host h).mapIdx) : mapIdxOf t h = mapIdxOf s h := by
  rw [mapIdxOf, hb, mapIdxOf]

theorem readReg_mapData {s : State} (h : HostId) (hr : regLive s .mapData = true) : readReg s h .mapData = mapDataWord s h := if_pos hr

theorem mapDataWord_of_good {s : State} {h : HostId} (hi : mapIdxOf s h ≤ 0x4087) (hbad : s.map.bad.contains (mapWord (mapIdxOf s h)) = false) :
    mapDataWord s h = Store.get 0 s.map.mem (mapIdxOf s h) := by
  refine if_neg fun hno => ?_
  rcases hno with hno | hno
  · exact absurd hno (Nat.not_lt.mpr hi)
  · exact absurd (hbad.symm.trans hno) nofun
theorem mapDataWord_of_bad {s : State} {h : HostId} (hbad : s.map.bad.contains (mapWord (mapIdxOf s h)) = true) : mapDataWord s h = 0 :=
  if_pos (.inr hbad)

theorem sentOpen_mapData {s : State} {h : HostId} {ecc : Ecc} (hn : ecc ≠ .double ∨ mapIdxOf s h < 0x4000) : sentOpen s h ecc .mapData = false := by
  unfold sentOpen
  rcases hn with hn | hn
  · cases ecc with
    | ok | single => rfl
    | double => exact absurd rfl hn
  · simp [Nat.not_le.mpr hn]

theorem readCommit_mapData (h : HostId) (s : State) : readCommit h .mapData s = s.modHost h fun x => { x with mapIdx := mapStep x.mapIdx } := rfl

theorem sampleSend_within (h : HostId) (ecc : Ecc) (r : Reg) (x : State) : Within [.bus, .free] (readSample h ecc r x) (sampleSend h ecc r x) := by
  unfold sampleSend
  exact within_ite (((within_set_free _ _).mono (by decide)).step (within_set_bus _ _) (by decide)) ((within_set_bus _ _).mono (by decide))

/-- A read of MAP_DATA samples in an opened transaction `x`, and steps the host's index on; a word that is not left open is the one that the
register shows then. -/
theorem mapDataRead_samples {s : State} {h : HostId} (hc : coreOn s = true) (hh : s.bus.holdFrom = none) (hr : regLive s .mapData = true) (ecc : Ecc) :
    ∃ x t, exec (.mapDataRead h ecc) s = .next t ∧ Within [.bus] s x ∧ mapIdxOf x h = mapIdxOf s h
      ∧ (t.host h).mapIdx = mapStep (s.host h).mapIdx ∧ Within [.bus, .free] (readSample h ecc .mapData x) t
      ∧ (sentOpen x h ecc .mapData = false → t.bus.sent = [mapDataWord (readSample h ecc .mapData x) h]
          ∧ Within [.bus] (readSample h ecc .mapData x) t) := by
  obtain ⟨lead, code, hrun⟩ := readAt_sampled (h := h) (ecc := ecc) hc hh hr nofun
  let x := s.reading h Reg.mapData.addr lead
  have hx : Within [.bus] s x := reading_within s h _ lead
  have hidx : (x.host h).mapIdx = (s.host h).mapIdx := by rw [reading_host]
  have hsample := readSample_mapData_within (x := x) (h := h) ecc
  have hcommit : Within [.bus] (sampleSend h ecc .mapData x) ((readCommit h .mapData (sampleSend h ecc .mapData x)).readDone h Reg.mapData.addr code) :=
    (within_State_modHost _ h _).trans (readDone_within _ h _ code)
  have hsend := sampleSend_within h ecc .mapData x
  refine ⟨x, _, congrArg Host.Outcome.next hrun, hx, mapIdxOf_congr hidx, ?_, hsend.step hcommit (by decide), fun hopen => ?_⟩
  · rw [readDone_host, readCommit_mapData, modHost_host]
    have hhost : (sampleSend h ecc .mapData x).host h = (readSample h ecc .mapData x).host h := by
      unfold sampleSend; split <;> rfl
    exact congrArg mapStep ((congrArg HostRegs.mapIdx (hhost.trans (hsample.host_eq (by decide) h))).trans hidx)
  · have hword : sampleSend h ecc .mapData x = sendWord (mapDataWord (readSample h ecc .mapData x) h) (readSample h ecc .mapData x) := by
      unfold sampleSend
      rw [hopen, if_neg (by decide), readReg_mapData h ((regLive_congr (hsample .pwr (by decide)) _).trans ((regLive_congr (hx .pwr (by decide)) _).trans hr))]
    refine ⟨?_, ?_⟩
    · have hsent : (readSample h ecc .mapData x).bus.sent = [] := (congrArg Bus.sent (hsample .bus (by decide))).trans (reading_sent ..)
      rw [readDone_sent, readCommit_mapData, hword]
      have hstep : ∀ z : State, (z.modHost h fun r => { r with mapIdx := mapStep r.mapIdx }).bus.sent = z.bus.sent := fun z => by cases h <;> rfl
      rw [hstep, sendWord_sent, hsent, List.nil_append]
    · rw [hword] at hcommit ⊢
      exact (within_set_bus _ _).trans hcommit

/-! What a written word stores (R197). -/

/-- The entry that the host's index reaches takes the word: a service arm is open, the image marks the map, its rail rests, the value may
stand there, and its map word is good. -/
def MapFree (s : State) (h : HostId) (data : Word) : Prop :=
  s.ldr.mapRt = true ∧ armOpen s = true ∧ mapIdxOf s h ≤ 0x4087
    ∧ (∀ k, mapOwner s (mapIdxOf s h) = some k → railSt s k = .off ∨ railSt s k = .safe)
    ∧ mapValueOk s (mapIdxOf s h) data = true ∧ s.map.bad.contains (mapWord (mapIdxOf s h)) = false

/-- The safe entry of rail k is written, and it is the rail's present entry (R194, R195). -/
def OwnEntry (s : State) (i : Nat) (k : RailId) : Prop := i = 0x4080 + k.val ∧ ((s.rail k).mo.safe = true ∨ rgEn s k = false)

theorem mapFree_iff (s : State) (h : HostId) (data : Word) : MapFree s h data ↔
    (s.ldr.mapRt && armOpen s && decide (mapIdxOf s h ≤ 0x4087)
      && (match mapOwner s (mapIdxOf s h) with | none => true | some k => railSt s k == .off || railSt s k == .safe)
      && mapValueOk s (mapIdxOf s h) data && !s.map.bad.contains (mapWord (mapIdxOf s h))) = true := by
  cases hown : mapOwner s (mapIdxOf s h) with
  | none => simp [MapFree, hown, and_assoc]
  | some k => simp [MapFree, hown, and_assoc]

/-- The map's memory takes the word at an index. -/
def State.mapStored (s : State) (i : Nat) (data : Word) : State := { s with map := { s.map with mem := Store.set 0 s.map.mem i data } }

theorem mapDataStore_of_free {s : State} {h : HostId} {data : Word} (hf : MapFree s h data) :
    mapDataStore h data s = safeEntryStored (mapIdxOf s h) (s.mapStored (mapIdxOf s h) data) := if_pos ((mapFree_iff s h data).mp hf)

theorem mapDataStore_of_not_free {s : State} {h : HostId} {data : Word} (hf : ¬MapFree s h data) : mapDataStore h data s = refuse h s :=
  if_neg fun hyes => hf ((mapFree_iff s h data).mpr hyes)

/-- The entry has become the rail's present one, its set with it. -/
def State.entrySet (s : State) (k : RailId) (e : Word) : State :=
  (s.modMo k fun m => { m with entry := e }).modMo k fun m => { m with freqPend := none, setWithFreq := none, mapSet := entCset e }

/-- The entry has become the rail's present one, its frequency and its set asked for. -/
def State.entryAsked (s : State) (k : RailId) (e : Word) : State :=
  (s.modMo k fun m => { m with entry := e }).modMo k fun m => { m with freqPend := some (entFcode e), setWithFreq := some (entCset e) }

theorem takeEntry_eq (k : RailId) (e : Word) (s : State) :
    takeEntry k e s = if entFcode e = (s.rail k).mo.fcode then requestSet k (setSource s k) (s.entrySet k e) else s.entryAsked k e := rfl

theorem entrySet_rail (k : RailId) (e : Word) (s : State) :
    (s.entrySet k e).rail k
      = { s.rail k with mo := { (s.rail k).mo with entry := e, freqPend := none, setWithFreq := none, mapSet := entCset e } } := by
  rw [State.entrySet, modMo_rail, modMo_rail]
theorem entryAsked_rail (k : RailId) (e : Word) (s : State) :
    (s.entryAsked k e).rail k
      = { s.rail k with mo := { (s.rail k).mo with entry := e, freqPend := some (entFcode e), setWithFreq := some (entCset e) } } := by
  rw [State.entryAsked, modMo_rail, modMo_rail]
theorem entrySet_other (k : RailId) (e : Word) (s : State) : OtherRails k s (s.entrySet k e) :=
  fun j hj => (modRail_other _ k _ j hj).trans (modRail_other s k _ j hj)
theorem entryAsked_other (k : RailId) (e : Word) (s : State) : OtherRails k s (s.entryAsked k e) :=
  fun j hj => (modRail_other _ k _ j hj).trans (modRail_other s k _ j hj)

theorem takeEntry_other (k : RailId) (e : Word) (s : State) : OtherRails k s (takeEntry k e s) := by
  intro j hj
  rw [takeEntry_eq]
  split
  · exact (requestSet_other k _ _ j hj).trans (entrySet_other k e s j hj)
  · exact entryAsked_other k e s j hj

theorem requestSet_keeps (k : RailId) (was : Bool × Nat) (s : State) :
    ((requestSet k was s).rail k).seq = (s.rail k).seq ∧ ((requestSet k was s).rail k).prot = (s.rail k).prot := by
  unfold requestSet
  split
  · exact ⟨rfl, rfl⟩
  · rw [modEng_rail]; exact ⟨rfl, rfl⟩

/-- Rail r is rail q with the entry taken: the set at once, or with the frequency that is asked for (R184). -/
def TookEntry (e : Word) (q r : Rail) : Prop :=
  r.mo.entry = e ∧ r.seq = q.seq ∧ r.prot = q.prot
    ∧ (if entFcode e = q.mo.fcode then r.mo.mapSet = entCset e else r.mo.freqPend = some (entFcode e) ∧ r.mo.mapSet = q.mo.mapSet)

theorem takeEntry_rail (k : RailId) (e : Word) (s : State) : TookEntry e (s.rail k) ((takeEntry k e s).rail k) := by
  unfold TookEntry
  rw [takeEntry_eq]
  by_cases hf : entFcode e = (s.rail k).mo.fcode
  · obtain ⟨-, -, hmo⟩ := requestSet_rail k (setSource s k) (s.entrySet k e)
    obtain ⟨hseq, hprot⟩ := requestSet_keeps k (setSource s k) (s.entrySet k e)
    rw [if_pos hf, if_pos hf, hmo, hseq, hprot, entrySet_rail]
    exact ⟨rfl, rfl, rfl, rfl⟩
  · rw [if_neg hf, if_neg hf, entryAsked_rail]
    exact ⟨rfl, rfl, rfl, rfl, rfl⟩

/-- The word at a rail's safe entry becomes its present entry; no other entry touches a rail. -/
theorem safeEntryStored_rail {s : State} {i : Nat} (hi : i ≤ 0x4087) (k : RailId) :
    (OwnEntry s i k → (safeEntryStored i s).rail k = (takeEntry k (safeEntry s k) s).rail k)
      ∧ (¬OwnEntry s i k → (safeEntryStored i s).rail k = s.rail k) := by
  have hval : ∀ j : RailId, 0x4080 ≤ i → (railOf (i - 0x4080) = j ↔ i = 0x4080 + j.val) := by
    intro j h4
    have hmod : (i - 0x4080) % 8 = i - 0x4080 := Nat.mod_eq_of_lt (by omega)
    rw [Fin.ext_iff, railOf, finOf]
    simp only [hmod]
    omega
  unfold safeEntryStored
  by_cases h4 : 0x4080 ≤ i
  · rw [if_pos h4]
    dsimp only
    by_cases hk : railOf (i - 0x4080) = k
    · subst hk
      have hown : OwnEntry s i (railOf (i - 0x4080)) ↔ ((s.rail (railOf (i - 0x4080))).mo.safe || !rgEn s (railOf (i - 0x4080))) = true := by
        rw [OwnEntry, and_iff_right ((hval _ h4).mp rfl), Bool.or_eq_true, Bool.not_eq_true']
      exact ⟨fun ho => by rw [if_pos (hown.mp ho)], fun ho => by rw [if_neg fun hyes => ho (hown.mpr hyes)]⟩
    · refine ⟨fun ho => absurd ((hval k h4).mpr ho.1) hk, fun _ => ?_⟩
      split
      · exact takeEntry_other _ _ s k fun hj => hk hj.symm
      · rfl
  · exact ⟨fun ho => absurd (by have := ho.1; omega) h4, fun _ => by rw [if_neg h4]⟩

/-! The written word in the opened transaction. -/

section
variable {s : State} {h : HostId} {data : Word}

@[simp] theorem mapIdxOf_opened (a : Nat) : mapIdxOf (s.opened h a) h = mapIdxOf s h := mapIdxOf_congr (by rw [opened_host])
@[simp] theorem opened_map (a : Nat) : (s.opened h a).map = s.map := opened_within s h a .map (by decide)

theorem mapOwner_congr {t : State} (hset : t.settings = s.settings) (i : Nat) : mapOwner t i = mapOwner s i := by
  have hword : ∀ r, setWord t r = setWord s r := fun r => by rw [setWord, hset, setWord]
  unfold mapOwner rgEn rgBase rgNv rgNi rgNt
  simp only [hword]

theorem mapValueOk_congr {t : State} (hset : t.settings = s.settings) (htile : ∀ u, t.tile u = s.tile u) (i : Nat) (w : Word) :
    mapValueOk t i w = mapValueOk s i w := by
  simp only [mapValueOk, tilesOf, htile, lockEn, loopW, tileW, setWord, hset]

theorem mapFree_opened (a : Nat) : MapFree (s.opened h a) h data ↔ MapFree s h data := by
  simp only [MapFree, mapIdxOf_opened, opened_ldr, armOpen, opened_ka, opened_map, railSt, opened_rail, mapOwner_congr (opened_settings s h a),
    mapValueOk_congr (opened_settings s h a) (opened_tile s h a)]

theorem ownEntry_stored (a i j : Nat) (k : RailId) : OwnEntry ((s.opened h a).mapStored i data) j k ↔ OwnEntry s j k := by
  have hrail : ((s.opened h a).mapStored i data).rail k = s.rail k := opened_rail s h a k
  have hset : ((s.opened h a).mapStored i data).settings = s.settings := opened_settings s h a
  simp only [OwnEntry, hrail, rgEn, setWord, hset]

/-- A word that lands at MAP_DATA has its effect in the opened transaction, and the host's index steps on. -/
theorem writeAt_mapData (hl : WordLands s h .mapData data) :
    writeAt h .mapData data s = (mapDataStore h data (s.opened h Reg.mapData.addr)).modHost h fun x => { x with mapIdx := mapStep x.mapIdx } :=
  writeAt_of_lands hl

end

/-- From `s` to `t` the word has been stored at host h's index, and where it is a rail's own entry the rail has taken it. -/
structure MapStored (s t : State) (h : HostId) (data : Word) : Prop where
  index : (t.host h).mapIdx = mapStep (s.host h).mapIdx
  accepted : (t.host h).refCnt = (s.host h).refCnt
  map : t.map = { s.map with mem := Store.set 0 s.map.mem (mapIdxOf s h) data }
  own : ∀ k, OwnEntry s (mapIdxOf s h) k → TookEntry data (s.rail k) (t.rail k)
  others : ∀ k, ¬OwnEntry s (mapIdxOf s h) k → t.rail k = s.rail k
  frame : Within [.bus, .map, .rails] s t

section
variable {s : State} {h : HostId} {data : Word} (hl : WordLands s h .mapData data)
include hl

theorem writeAt_mapData_free (hs : Store.wf 0 s.map.mem = true) (hf : MapFree s h data) : MapStored s (writeAt h .mapData data s) h data := by
  let m := (s.opened h Reg.mapData.addr).mapStored (mapIdxOf s h) data
  obtain ⟨-, -, hi, -⟩ := id hf
  have hrun : writeAt h .mapData data s = (safeEntryStored (mapIdxOf s h) m).modHost h fun x => { x with mapIdx := mapStep x.mapIdx } := by
    rw [writeAt_mapData hl, mapDataStore_of_free ((mapFree_opened _).mpr hf), mapIdxOf_opened]
  have hstored : Within [.bus, .map] s m := ((opened_within s h _).mono (by decide)).step (within_set_map _ _) (by decide)
  have hentry := within_safeEntryStored (mapIdxOf s h) m
  have hstep := within_State_modHost (safeEntryStored (mapIdxOf s h) m) h fun x => { x with mapIdx := mapStep x.mapIdx }
  have hmap : m.map = { s.map with mem := Store.set 0 s.map.mem (mapIdxOf s h) data } := by simp only [m, State.mapStored, opened_map]
  have hhost : (safeEntryStored (mapIdxOf s h) m).host h = { s.host h with ptr := BitVec.ofNat 16 (Reg.mapData.addr + 4) } :=
    (hentry.host_eq (by decide) h).trans (opened_host s h _)
  have hrail := fun k => safeEntryStored_rail (s := m) hi k
  have hmrail : ∀ k, m.rail k = s.rail k := hstored.rail_eq (by decide)
  have hown : ∀ k, OwnEntry m (mapIdxOf s h) k ↔ OwnEntry s (mapIdxOf s h) k := ownEntry_stored _ _ _
  rw [hrun]
  exact {
    index := by rw [modHost_host, hhost]
    accepted := by rw [modHost_host, hhost]
    map := (hstep .map (by decide)).trans ((hentry .map (by decide)).trans hmap)
    own := fun k hk => by
      have hsafe : safeEntry m k = data := by rw [safeEntry, hmap, ← hk.1]; exact Store.get_set_same hs _ _
      rw [hstep.rail_eq (by decide), (hrail k).1 ((hown k).mpr hk), hsafe, ← hmrail k]
      exact takeEntry_rail k data m
    others := fun k hk => by rw [hstep.rail_eq (by decide), (hrail k).2 fun hyes => hk ((hown k).mp hyes), hmrail]
    frame := ((hstored.mono (by decide)).step hentry (by decide)).step hstep (by decide) }

theorem writeAt_mapData_refused (hf : ¬MapFree s h data) : Within [.bus] s (writeAt h .mapData data s)
    ∧ ((writeAt h .mapData data s).host h).mapIdx = mapStep (s.host h).mapIdx
    ∧ ((writeAt h .mapData data s).host h).refCnt = satInc (s.host h).refCnt 65535 := by
  have hrun := writeAt_mapData hl
  rw [mapDataStore_of_not_free fun hyes => hf ((mapFree_opened _).mp hyes)] at hrun
  rw [hrun, modHost_host, refuse_host, opened_host]
  exact ⟨((opened_within s h _).trans (within_refuse h _)).trans (within_State_modHost _ h _), rfl, rfl⟩

end

/-! What a scrubbed word counts (R364, R374). -/

theorem readMapWord_of_right (w : Nat) {ecc : Ecc} (he : ecc ≠ .double) (s : State) :
    readMapWord w ecc s
      = if ecc = .single ∧ s.map.bad.contains w = false then { s with map := { s.map with sbe := satInc s.map.sbe 65535 } } else s := by
  unfold readMapWord
  cases ecc with
  | ok | single => cases s.map.bad.contains w <;> rfl
  | double => exact absurd rfl he

section
variable {s : State} {ecc : Ecc} (hc : coreOn s = true) (he : ecc ≠ .double)
include hc he

theorem scrubWord_map : scrubWord .map ecc s =
    if ecc = .single ∧ s.map.bad.contains s.test.scrubMap = false then
      { s with test := { s.test with scrubMap := (s.test.scrubMap + 1) % mapWords, passMap := s.test.passMap - 1 }
               map := { s.map with sbe := satInc s.map.sbe 65535 } }
    else { s with test := { s.test with scrubMap := (s.test.scrubMap + 1) % mapWords, passMap := s.test.passMap - 1 } } := by
  refine (if_pos hc).trans ((if_neg fun hd => he hd.1).trans ?_)
  exact readMapWord_of_right _ he _

theorem scrubWord_ring : scrubWord .ring ecc s = { s with test := { s.test with
    scrubRing := (s.test.scrubRing + 1) % ringWords, passRing := s.test.passRing - 1
    sbeRing := if ecc = .single then satInc s.test.sbeRing 255 else s.test.sbeRing } } := by
  refine (if_pos hc).trans ?_
  cases ecc with
  | ok | single => rfl
  | double => exact absurd rfl he

theorem scrubWord_recorder : scrubWord .recorder ecc s = { s with test := { s.test with
    scrubRec := (s.test.scrubRec + 1) % recWords, passRec := s.test.passRec - 1
    sbeRec := if ecc = .single then satInc s.test.sbeRec 255 else s.test.sbeRec } } := by
  refine (if_pos hc).trans ?_
  cases ecc with
  | ok | single => rfl
  | double => exact absurd rfl he

theorem scrubWord_shadow : scrubWord .shadow ecc s = { s with test := { s.test with
    scrubImg := (s.test.scrubImg + 1) % Config.shadowWords, passImg := s.test.passImg - 1
    sbeImg := if ecc = .single then satInc s.test.sbeImg 255 else s.test.sbeImg } } := by
  refine (if_pos hc).trans ?_
  cases ecc with
  | ok | single => rfl
  | double => exact absurd rfl he

end

end Sys2Proof.Machine
end

section
/-! SUPPORT. A state on the way to KEEPALIVE. -/

namespace Sys2Proof.Machine

/-- In STANDBY on the way to KEEPALIVE, HK and XMI are powered down while DOM_CTL keeps its setting (R357, R369); a bank holds an assigned
tile, and host A holds the claim. -/
def leavingStandby : State :=
  { claimedRun with pwr := { claimedRun.pwr with
      state := .standby, target := .keepalive, trans := true, banks := 0, lga := false, lgb := false, hk := false, xmi := false
      undo := some (true, true) } }.modTile 0 fun ti => { ti with rail := some 0 }

end Sys2Proof.Machine
end

section
/-! SUPPORT. The run-time mark of the map through boot, and a valid copy of a locked class (R470, R473, R480). -/

namespace Sys2Proof.Machine

/-- The map's run-time mark is the same in both states. -/
def KeepsMark (s t : State) : Prop := t.ldr.mapRt = s.ldr.mapRt

theorem KeepsMark.trans {s t u : State} (h : KeepsMark s t) (h' : KeepsMark t u) : KeepsMark s u := Eq.trans h' h
theorem keepsMark_of_within {ps : List Part} {s t : State} (h : Within ps s t) (hp : Part.ldr ∉ ps) : KeepsMark s t := congrArg Loader.mapRt (h .ldr hp)
theorem keepsMark_ite {s a b : State} {c : Prop} [Decidable c] (ha : KeepsMark s a) (hb : KeepsMark s b) : KeepsMark s (if c then a else b) := by
  split <;> assumption

theorem restoreFsum_keepsMark (s : State) : KeepsMark s (restoreFsum s) := by unfold restoreFsum; split <;> rfl

theorem compareBoot_keepsMark (s : State) : KeepsMark s (compareBoot s) := by
  have hevent : ∀ (c : Prop) [Decidable c] (d : Word),
      KeepsMark s (nvmRequest (.record 0 false) (nextCycle (if c then occurClass 167 d s else occur 167 d s))) := fun c _ d =>
    (keepsMark_ite (keepsMark_of_within (within_occurClass 167 d s) (by decide)) (keepsMark_of_within (within_occur 167 d s) (by decide))).trans
      ((keepsMark_of_within (within_nextCycle _) (by decide)).trans (keepsMark_of_within (within_nvmRequest _ _) (by decide)))
  have hclass : ∀ t : State, KeepsMark s t → KeepsMark s (fsumChanged { t with ldr := { t.ldr with classChg := true } }) := fun t ht =>
    ht.trans (KeepsMark.trans (t := { t with ldr := { t.ldr with classChg := true } }) rfl (keepsMark_of_within (within_fsumChanged _) (by decide)))
  unfold compareBoot
  exact keepsMark_ite rfl (keepsMark_ite (hclass _ (hevent _ _)) (hevent _ _))

theorem bootRecover_keepsMark (b : BootInputs) (cause : Nat) (s : State) : KeepsMark s (bootRecover b cause s) := by
  have hread : KeepsMark s ((List.range 8).foldl (fun s r => readRecord r s) s) :=
    keepsMark_of_within (within_foldl (fun x r => within_readRecord r x) _ _) (by decide)
  refine hread.trans ((restoreFsum_keepsMark _).trans ((keepsMark_of_within (within_restoreCal _) (by decide)).trans
    ((compareBoot_keepsMark _).trans ((keepsMark_of_within (within_foldl (fun x c => within_recoverCounter x c) (finList 73) _) (by decide)).trans
    ((keepsMark_of_within (within_recoverResidue _ _) (by decide)).trans ((keepsMark_of_within (within_recoverFaultPages _) (by decide)).trans
    ((keepsMark_of_within (within_bootSeal _ _) (by decide)).trans rfl)))))))

/-- A copy of a locked class is loaded with no map entry writable, whatever its own mark says (R480). -/
theorem bootLoad_mapRt (b : BootInputs) (src : ImageSource) (slotB fb : Bool) (h : List Byte) (d : ImageData) (s : State) :
    (bootLoad b src slotB fb h d s).ldr.mapRt = (!(imgFlags h).testBit 0 && d.mapRt) := by
  have hkept : ∀ t : State, KeepsMark t (((bootXmi (bootCharger t)).mapTiles (bootTile (bootXmi (bootCharger t)))).mapRails
      (bootRail (bootXmi (bootCharger t)))) := fun t =>
    (keepsMark_of_within (within_bootCharger t) (by decide)).trans ((keepsMark_of_within (within_bootXmi _) (by decide)).trans
      ((keepsMark_of_within (within_State_mapTiles _ _) (by decide)).trans (keepsMark_of_within (within_State_mapRails _ _) (by decide))))
  have hheader : ∀ t : State, (bootHeaderKept src slotB fb h t).ldr.mapRt = (!(imgFlags h).testBit 0 && t.ldr.mapRt) := fun t => rfl
  have hkill : (clearKill (loadImage d s)).ldr.mapRt = (loadImage d s).ldr.mapRt := keepsMark_of_within (within_clearKill _) (by decide)
  unfold bootLoad
  exact Eq.trans (hkept _) (Eq.trans (hheader _) (congrArg _ hkill))

/-- What follows the load keeps the mark. -/
theorem bootFrom_mapRt (b : BootInputs) (src : ImageSource) (fb : Bool) (first : Option SourceResult) (r : SourceResult) (x : Bool × ImageData)
    (s : State) : (bootFrom b src fb first r x s).ldr.mapRt = (!(imgFlags (slotBytes s src x.1 64)).testBit 0 && x.2.mapRt) := by
  suffices hkeeps : KeepsMark (bootLoad b src x.1 fb (slotBytes s src x.1 64) x.2 s) (bootFrom b src fb first r x s) from
    Eq.trans hkeeps (bootLoad_mapRt b src x.1 fb (slotBytes s src x.1 64) x.2 s)
  have hfirst : ∀ t : State, KeepsMark t (match first with | some f => sourceEvents b (primarySrc b) f t | none => t) := by
    intro t
    cases first with
    | none => rfl
    | some f => exact keepsMark_of_within (within_sourceEvents _ _ _ _) (by decide)
  have hdisc : ∀ t : State, KeepsMark t (if b.bootsel = .low then t else nextCycle (discover b.sfdp t)) := fun t =>
    keepsMark_ite rfl ((keepsMark_of_within (within_discover _ _) (by decide)).trans (keepsMark_of_within (within_nextCycle _) (by decide)))
  have hreasons : ∀ t : State, KeepsMark t { t with ldr := { t.ldr with reasonA := r.a, reasonB := r.b } } := fun t => rfl
  have hrest : ∀ t : State, KeepsMark t (bootEvent 160 (srcCode src + atB x.1 2 + atB fb 3 + imgGen (slotBytes s src x.1 64) % 65536 * 65536)
      (sourceEvents b src r t)) := fun t =>
    (keepsMark_of_within (within_sourceEvents _ _ _ _) (by decide)).trans (keepsMark_of_within (within_bootEvent _ _ _) (by decide))
  have hend : ∀ t : State, KeepsMark t (bootEnd (bootReports (bootRecover b t.ka.cause t))) := fun t =>
    (bootRecover_keepsMark _ _ _).trans ((keepsMark_of_within (within_bootReports _) (by decide)).trans (keepsMark_of_within (within_bootEnd _) (by decide)))
  exact (hreasons _).trans ((keepsMark_of_within (within_lossEvents b.arbitrationLosses _) (by decide)).trans
    ((hfirst _).trans ((hrest _).trans ((hdisc _).trans (hend _)))))

/-! ### A whole copy of a locked class -/

/-- Register records without which an image holds reserved encodings (R8, R473): address and value, none of them run-time writable, from
the highest address down. -/
def lockedRecords : List (Nat × Nat) :=
  let rail (k : RailId) : List (Reg × Nat) := [(.loop k .ssCfg, 1), (.loop k .hiccup, 1), (.loop k .pgCfg, 0x01000001),
    (.loop k .ovCfg, 0x00010000), (.loop k .uvCfg, 0x00010001), (.loop k .ocrCfg, 0x01010000), (.loop k .tdetCfg, 0x00001011),
    (.loop k .respTile, 0x3300), (.loop k .leapCfg, 0x10), (.loop k (.leapSet 0), 1), (.loop k (.leapSet 1), 1), (.loop k (.leapSet 2), 1),
    (.loop k (.leapSet 3), 1), (.loop k .leapImax, 1), (.loop k .syncLoop, 2), (.loop k .moultCfg, 0x01000101),
    (.loop k .snsCal, 0x80000000), (.loop k .snsRatio, 0x00010001), (.loop k .snsIscale, 1)]
  let tile (t : TileId) : List (Reg × Nat) := [(.tile t .ical, 0x40000000), (.tile t .oclim, 1)]
  let stage (c : Fin 24) : Reg × Nat := (.chCfg (finOf 36 (by decide) c.val), 0x400)
  (allRails.map (fun k => (Reg.linkRail k, 1)) ++ (finList 24).map stage ++ allRails.flatMap rail ++ allTiles.flatMap tile).reverse.map fun x : Reg × Nat => (x.1.addr, x.2)

/-- The values of sections 1 to 6 (R471): no tile assigned, every coefficient and map entry 0, the map marked run-time writable. -/
def lockedValues : List (List Byte) :=
  [ lockedRecords.flatMap fun x => beBytes 2 x.1 ++ beBytes 2 0 ++ beBytes 4 x.2
  , List.replicate 48 0xFF
  , (List.replicate 8 ([0] ++ (List.replicate 16 (List.replicate 12 0 ++ [0xE0] ++ List.replicate 11 0)).flatten)).flatten
  , beBytes 8 0x0100BFFF00000000
  , (List.replicate 128 (beBytes 4 150)).flatten ++ (List.replicate 8 (beBytes 4 0x00010001)).flatten
  , List.replicate 136 0 ]
def lockedBody : List Byte := (lockedValues.zipIdx 1).flatMap fun x => beBytes 2 x.2 ++ beBytes 2 x.1.length ++ x.1
/-- A header of generation 1 whose FLAGS bit 0 locks the class (R469, R470). -/
def lockedHeader : List Byte :=
  beBytes 4 0x5A494D47 ++ beBytes 4 0x01000001 ++ beBytes 4 1 ++ beBytes 4 6148 ++ beBytes 4 0x5A524880 ++ List.replicate 44 0
def lockedCopy : List Byte := lockedHeader ++ lockedBody ++ beBytes 4 (crc32 (lockedHeader ++ lockedBody))

/-- The words of a rail's frequency tables and of the safe entries. -/
def lockedTables : List Word := List.replicate 128 150 ++ List.replicate 8 0x00010001
/-- What the copy says. -/
def lockedData : ImageData := {
  records := lockedRecords.map fun x => (x.1, 0, x.2), assign := List.replicate 48 0xFF
  coef := List.replicate 8 (0, (List.replicate 16 [0, 0, 0, 0, 0xE00000, 0, 0, 0]).flatten), mapRt := true
  map := List.replicate 16384 0 ++ lockedTables, temp := List.replicate 68 0 }
/-- The state that the copy is judged in; the map's store holds the tables alone. -/
def lockedState : State :=
  let s := loadImage lockedData State.reset
  { s with map := { s.map with mem := Store.ofList 0 16384 lockedTables } }

/-- In reset, with the copy in slot A of an EEPROM whose slot B is blank. -/
def lockedImaged : State := { State.reset with eeprom := Store.ofList blank 0 lockedCopy }
/-- The straps select the EEPROM alone, which answers. -/
def lockedInputs : BootInputs := {
  bootsel := .low, maddr := 0, eepromAnswersA := true, eepromAnswersB := true, busStuck := none, busStuckAfter := 0, arbitrationLosses := 0
  sfdp := .absent, sealLow := .low, sealHigh := .high, retainedOk := true, vxio := 3300, duration := 20 }

theorem lockedBody_length : lockedBody.length = 6080 := by decide +kernel

theorem lockedCopy_length : lockedCopy.length = 6148 := by
  simp [lockedCopy, lockedHeader, lockedBody_length]

theorem lockedHeader_valid : judgeHeader none lockedHeader = 0 ∧ imgLen lockedHeader = 6148 ∧ (imgFlags lockedHeader).testBit 0 = true
    ∧ judgeHeader none (List.replicate 64 blank) = 4 := by
  decide +kernel

def ImageData.same (d e : ImageData) : Bool :=
  d.records == e.records && d.assign == e.assign && d.coef == e.coef && d.mapRt == e.mapRt && d.map == e.map && d.temp == e.temp

theorem ImageData.eq_of_same {d e : ImageData} (h : d.same e = true) : d = e := by
  simp only [ImageData.same, Bool.and_eq_true, beq_iff_eq] at h
  obtain ⟨⟨⟨⟨⟨hrecords, hassign⟩, hcoef⟩, hmark⟩, hmap⟩, htemp⟩ := h
  cases d; cases e
  simp_all

theorem lockedBody_parses : parseImage lockedBody = some lockedData := by
  have hsame : (parseImage lockedBody).any (fun d => d.same lockedData) = true := by decide +kernel
  obtain ⟨d, hparse, hd⟩ := Option.any_eq_true _ _ |>.mp hsame
  rw [hparse, ImageData.eq_of_same hd]

theorem lockedData_loads : loadImage lockedData State.reset = lockedState := by
  have hmap : Store.ofList 0 0 lockedData.map = Store.ofList 0 16384 lockedTables := Store.ofList_defaults _ _ _ _
  unfold lockedState loadImage
  rw [hmap]

/-! Each rule on the content by itself (R620). -/

theorem lockedState_records : lockedData.records.all (recordOk lockedState.settings lockedData.records) = true := by decide +kernel
theorem lockedState_lowRails : ∀ k ∈ [0, 1, 2, 3], railRules lockedState k = true := by decide +kernel
theorem lockedState_highRails : ∀ k ∈ [4, 5, 6, 7], railRules lockedState k = true := by decide +kernel
theorem lockedState_apart : (allRails.all fun j => allRails.all fun k => regionsApart lockedState j k) = true := by decide +kernel
theorem lockedState_tiles : (allTiles.all fun x => decide (ocLo lockedState x < ocHi lockedState x) && tileOk .ical (tileW lockedState x .ical)) = true := by
  decide +kernel
theorem lockedState_channels : (finList 36).all (channelRules lockedState) = true := by decide +kernel
theorem lockedState_pairs : (allTiles.all fun x => allTiles.all fun y => x.val / 2 != y.val / 2 || (lockedState.tile x).rail.isNone
    || (lockedState.tile y).rail.isNone || (lockedState.tile x).rail == (lockedState.tile y).rail) = true := by decide +kernel
theorem lockedState_orders : (!depCycle (fun k => if sdepEn lockedState k then some (startDep lockedState k) else none)) = true
    ∧ (!depCycle (fun k => if tdepEn lockedState k then some (stopDep lockedState k) else none)) = true ∧ xmemRules lockedState = true := by
  decide +kernel

theorem lockedState_rails : allRails.all (railRules lockedState) = true := by
  refine List.all_eq_true.mpr fun k _ => ?_
  match k with
  | 0 | 1 | 2 | 3 => exact lockedState_lowRails _ (by decide)
  | 4 | 5 | 6 | 7 => exact lockedState_highRails _ (by decide)

/-- The copy's content meets every rule. -/
theorem lockedData_rules : imageRules lockedData (loadImage lockedData State.reset) = true := by
  obtain ⟨hstart, hstop, hxmem⟩ := lockedState_orders
  rw [lockedData_loads, imageRules, lockedState_records, lockedState_pairs, lockedState_rails, lockedState_apart, lockedState_tiles,
    lockedState_channels, hstart, hstop, hxmem]
  rfl

/-- The 36 bytes of a header from offset 0x1C stay those of the header whatever follows it. -/
theorem headerZero_append (l : List Byte) : headerZero (lockedHeader ++ l) = true := by
  have hbytes : ((lockedHeader ++ l).drop 0x1C).take 36 = (lockedHeader.drop 0x1C).take 36 := by
    rw [List.drop_append_of_le_length (by decide), List.take_append_of_le_length (by decide)]
  unfold headerZero numAt
  rw [hbytes]
  decide

/-- The copy is valid. -/
theorem lockedCopy_valid : judgeCopy lockedCopy = (0, some lockedData) := by
  rw [lockedCopy, judgeCopy_sealed, List.drop_left' (by decide), lockedBody_parses, List.append_assoc, headerZero_append]
  simp only [lockedData_rules, Bool.and_self, if_true]

theorem lockedInputs_header (s : State) (slotB : Bool) :
    bootHeader lockedInputs s .eeprom slotB = judgeHeader none (slotBytes s .eeprom slotB 64) := by
  cases slotB <;> rfl
theorem lockedInputs_copy (s : State) (slotB : Bool) :
    bootCopy lockedInputs s .eeprom slotB 2 = judgeCopy (slotBytes s .eeprom slotB (imgLen (slotBytes s .eeprom slotB 64))) := rfl

theorem lockedImaged_slotA (n : Nat) (hn : n ≤ 6148) : slotBytes (bootStart lockedInputs lockedImaged) .eeprom false n = lockedCopy.take n :=
  Store.bytes_ofList _ _ _ (by rw [lockedCopy_length]; exact hn)
theorem lockedImaged_slotB : slotBytes (bootStart lockedInputs lockedImaged) .eeprom true 64 = List.replicate 64 blank :=
  Store.bytes_past _ _ _ _ (by rw [lockedCopy_length]; decide)
theorem lockedImaged_header : slotBytes (bootStart lockedInputs lockedImaged) .eeprom false 64 = lockedHeader := by
  rw [lockedImaged_slotA 64 (by decide), lockedCopy, List.append_assoc, List.take_left' (by decide)]

/-- The search of the EEPROM chooses the copy. -/
theorem lockedCopy_chosen : (judgeSource lockedInputs (bootStart lockedInputs lockedImaged) .eeprom).chosen = some (false, lockedData) := by
  obtain ⟨hheader, hlength, -, hblank⟩ := lockedHeader_valid
  have ha : bootHeader lockedInputs (bootStart lockedInputs lockedImaged) .eeprom false = 0 := by
    rw [lockedInputs_header, lockedImaged_header, hheader]
  have hb : bootHeader lockedInputs (bootStart lockedInputs lockedImaged) .eeprom true = 4 := by
    rw [lockedInputs_header, lockedImaged_slotB, hblank]
  have hjudged : bootCopy lockedInputs (bootStart lockedInputs lockedImaged) .eeprom false 2 = (0, some lockedData) := by
    rw [lockedInputs_copy, lockedImaged_header, hlength, lockedImaged_slotA _ le_rfl, List.take_of_length_le lockedCopy_length.le, lockedCopy_valid]
  simp [judgeSource, ha, hb, tryCopies, hjudged]

/-- Boot runs from the copy that the search of the primary source chooses. -/
theorem boot_of_chosen (b : BootInputs) (s : State) (x : Bool × ImageData) (hreset : s.pwr.phase = .inReset) (hpin : s.tap.resetLow = false)
    (hchosen : (judgeSource b (bootStart b s) (primarySrc b)).chosen = some x) :
    boot b s = bootFrom b (primarySrc b) false none (judgeSource b (bootStart b s) (primarySrc b)) x (bootStart b s) := by
  unfold boot
  rw [if_pos ⟨hreset, hpin⟩]
  simp only [hchosen]

end Sys2Proof.Machine
end

section
/-! SUPPORT. The journal: what the writer puts into the ring, and what a host's read loads and pops (R28, R529 to R533). -/

namespace Sys2Proof.Machine

/-! The writer. -/

/-- The entry asks for a pin (R531). -/
def wantsPin (q : QueueEntry) : Bool := q.cls || q.snap || (q.record && q.id == 4)
/-- Its pin finds no room (R531). -/
def pinRefused (s : State) (q : QueueEntry) : Bool := wantsPin q && !(wantsPin q && decide (pinnedCount s < 64))

/-- The ring's entry for a queue entry, as the values stand; the ring of `r` has room for it. -/
def entryFor (s r : State) (q : QueueEntry) : JournalEntry := {
  no := r.jrn.nextNo, sec := q.sec, frac := q.frac, flags := BitVec.ofNat 8 (flagsOf q + atB (wantsPin q && decide (pinnedCount s < 64)) 2)
  id := BitVec.ofNat 8 q.id, seq := q.seq.getD s.ka.nextSeq, detail := q.detail, snap := q.snapBytes.getD (snapOf s q), writtenAt := r.now
  inXmem := false }

/-- The entry stands at the ring's end. -/
def State.appended (s : State) (q : QueueEntry) (e : JournalEntry) (refused : Bool) : State := { s with
  jrn := { s.jrn with ring := s.jrn.ring ++ [e], nextNo := e.no + 1, pinOvf := if refused then satInc s.jrn.pinOvf 255 else s.jrn.pinOvf }
  ka := if q.seq.isSome then s.ka else { s.ka with nextSeq := s.ka.nextSeq + 1 } }

theorem appended_within (s : State) (q : QueueEntry) (e : JournalEntry) (refused : Bool) : Within [.jrn, .ka] s (s.appended q e refused) :=
  (within_set_jrn_ka s _ _).mono (by decide)

/-- The oldest unpinned entry of a full ring, one that XMEM holds, is given up (R28, R533). -/
def State.roomMade (s : State) (no oldest : Nat) (ring : List JournalEntry) : State :=
  (({ s with jrn := { s.jrn with ring := ring, ovrCnt := satInc s.jrn.ovrCnt 65535 } }.modHost .a fun h => h.overwritten no oldest)).modHost .b
    fun h => h.overwritten no oldest

theorem makeRoom_of_room {s : State} (hroom : s.jrn.ring.length < 1024) : makeRoom s = s := if_pos hroom

theorem makeRoom_of_full {s : State} {old o : JournalEntry} {more : List JournalEntry} (hfull : 1024 ≤ s.jrn.ring.length)
    (hfind : s.jrn.ring.find? (fun x => !x.pinned) = some old) (hheld : old.inXmem = true)
    (herase : eraseFirst (fun x => !x.pinned) s.jrn.ring = o :: more) : makeRoom s = s.roomMade old.no o.no (o :: more) := by
  unfold makeRoom
  rw [if_neg (Nat.not_lt.mpr hfull), hfind]
  simp only [herase, hheld, Bool.not_true, Bool.false_and, Bool.and_false, Bool.or_false, Bool.false_eq_true, if_false]
  rfl

theorem roomMade_within (s : State) (no oldest : Nat) (ring : List JournalEntry) : Within [.jrn, .bus] s (s.roomMade no oldest ring) :=
  ((within_set_jrn s _).mono (by decide)).step ((within_State_modHost _ _ _).trans (within_State_modHost _ _ _)) (by decide)

theorem roomMade_jrn (s : State) (no oldest : Nat) (ring : List JournalEntry) :
    (s.roomMade no oldest ring).jrn = { s.jrn with ring := ring, ovrCnt := satInc s.jrn.ovrCnt 65535 } := rfl

theorem roomMade_host (s : State) (no oldest : Nat) (ring : List JournalEntry) (h : HostId) :
    (s.roomMade no oldest ring).host h = (s.host h).overwritten no oldest := by cases h <;> rfl

/-- Both fields of an overwritten host depend on where its pointer stood. -/
theorem overwritten_eq (r : HostRegs) (no oldest : Nat) : r.overwritten no oldest =
    { r with jrnPtr := if r.jrnPtr = no then oldest else r.jrnPtr, skipped := if r.jrnPtr ≤ no then satInc r.skipped 65535 else r.skipped } := by
  unfold HostRegs.overwritten
  by_cases hle : r.jrnPtr ≤ no <;> by_cases heq : r.jrnPtr = no <;> simp [hle, heq]

/-- The writer puts the entry behind a ring that has room, or has made it; event 185 follows a refused pin (R531). -/
theorem writeEntry_eq {s r : State} {q : QueueEntry} (hroom : makeRoom s = r) :
    writeEntry q s = if pinRefused s q = true then occur 185 (word (q.seq.getD s.ka.nextSeq).toNat) (r.appended q (entryFor s r q) (pinRefused s q))
      else r.appended q (entryFor s r q) (pinRefused s q) := by
  unfold writeEntry entryFor
  rw [hroom]
  cases hbytes : q.snapBytes with
  | none => simp only [Option.getD_none]; rfl
  | some bytes => simp only [Option.getD_some]; rfl

theorem pinRefused_eq_false {s : State} {q : QueueEntry} (hpin : wantsPin q = (wantsPin q && decide (pinnedCount s < 64))) : pinRefused s q = false := by
  rw [pinRefused, ← hpin, Bool.and_not_self]
theorem pinRefused_eq_true {s : State} {q : QueueEntry} (hwants : wantsPin q = true) (hcrowd : 64 ≤ pinnedCount s) : pinRefused s q = true := by
  rw [pinRefused, hwants, decide_eq_false (Nat.not_lt.mpr hcrowd)]; rfl

/-- The queue without its oldest entry. -/
def State.dequeued (s : State) (rest : List QueueEntry) : State := { s with ev := { s.ev with queue := rest } }

theorem dequeued_within (s : State) (rest : List QueueEntry) : Within [.ev] s (s.dequeued rest) := within_set_ev s _

theorem journalWrite_of_due {s : State} {q : QueueEntry} {rest : List QueueEntry} (hc : coreOn s = true) (hq : s.ev.queue = q :: rest)
    (hcyc : q.cyc ≤ cycleOf s) : journalWrite s = writeEntry q (s.dequeued rest) := by
  unfold journalWrite
  rw [hq]
  simp only [hc, hcyc, decide_true, Bool.and_self, if_true]
  rfl

theorem journalWrite_of_not_due {s : State} (hn : coreOn s = false ∨ s.ev.queue = [] ∨ ∃ q rest, s.ev.queue = q :: rest ∧ cycleOf s < q.cyc) :
    journalWrite s = s := by
  unfold journalWrite
  cases hqueue : s.ev.queue with
  | nil => rfl
  | cons q rest =>
    refine if_neg fun hdue => ?_
    obtain ⟨hc, hcyc⟩ := Bool.and_eq_true _ _ |>.mp hdue
    rcases hn with hoff | hnil | ⟨q', rest', hcons, hlate⟩
    · exact absurd (hoff.symm.trans hc) nofun
    · exact absurd (hnil.symm.trans hqueue) nofun
    · obtain ⟨rfl, -⟩ := List.cons.inj (hcons.symm.trans hqueue)
      exact absurd (of_decide_eq_true hcyc) (Nat.not_le.mpr hlate)

/-! The readers. -/

theorem moveOldest_lands {s : State} {h : HostId} (hl : WordLands s h .jrnHctl 1) : writeAt h .jrnHctl 1 s = moveOldest h (s.opened h Reg.jrnHctl.addr) :=
  writeAt_of_lands hl
theorem moveNewest_lands {s : State} {h : HostId} (hl : WordLands s h .jrnHctl 2) : writeAt h .jrnHctl 2 s = moveNewest h (s.opened h Reg.jrnHctl.addr) :=
  writeAt_of_lands hl

/-- A move sets the host's own pointer alone (R552). -/
theorem moved_opened (s : State) (h : HostId) (a n : Nat) :
    let t := (s.opened h a).modHost h fun r => { r with jrnPtr := n }
    Within [.bus] s t ∧ (∀ g, g ≠ h → t.host g = s.host g) ∧ (t.host h).jrnPtr = n :=
  ⟨(opened_within s h a).trans (within_State_modHost _ h _), fun _ hg => (modHost_other _ _ hg).trans (opened_host_other s a hg), by rw [modHost_host]⟩

theorem nextUnread_congr {s t : State} {h : HostId} (hj : t.jrn = s.jrn) (hp : (t.host h).jrnPtr = (s.host h).jrnPtr) :
    nextUnread t h = nextUnread s h := by
  rw [nextUnread, hj, hp, nextUnread]

theorem jrInService_congr {s t : State} (hset : t.settings = s.settings) (hp : t.pwr = s.pwr) (hx : t.xm = s.xm) :
    jrInService t = jrInService s := by
  simp only [jrInService, xmUp, xmEn, jrSectors, setWord, hset, hx, hp, coreOn_congr hp]

theorem loadEntry_host_other {s : State} {h g : HostId} (hg : g ≠ h) : (loadEntry h s).host g = s.host g := by
  unfold loadEntry; split <;> exact modHost_other _ _ hg
theorem loadEntry_sent (s : State) (h : HostId) : (loadEntry h s).bus.sent = s.bus.sent := by
  unfold loadEntry; split <;> cases h <;> rfl
theorem loadEntry_jrnPtr (s : State) (h : HostId) : ((loadEntry h s).host h).jrnPtr = (s.host h).jrnPtr := by
  unfold loadEntry; split <;> rw [modHost_host]
theorem loadEntry_some {s : State} {h : HostId} {e : JournalEntry} (he : nextUnread s h = some e) :
    (loadEntry h s).host h = { s.host h with jrnBuf := BitVec.ofNat 256 (beNat e.bytes), jrnLoaded := some e.no } := by
  unfold loadEntry; rw [he]; exact modHost_host ..
theorem loadEntry_none {s : State} {h : HostId} (he : nextUnread s h = none) :
    (loadEntry h s).host h = { s.host h with jrnBuf := 0, jrnLoaded := none } := by
  unfold loadEntry; rw [he]; exact modHost_host ..

theorem bufWord_zero {s : State} {h : HostId} (hb : (s.host h).jrnBuf = 0) (j : Nat) : bufWord s h j = 0 := by
  rw [bufWord, hb]; simp

/-- The host's pointer stands past the entry, which is loaded no more. -/
def State.popped (s : State) (h : HostId) (no : Nat) : State := s.modHost h fun r => { r with jrnLoaded := none, jrnPtr := no + 1 }

/-- With no journal region in service the entry loses its pin (R531). -/
def Journal.unpinned (j : Journal) (no : Nat) : Journal := { j with ring := j.ring.map fun x => if x.no = no then x.unpin else x }

theorem popEntry_of_loaded {s : State} {h : HostId} {e : JournalEntry} (hl : (s.host h).jrnLoaded = some e.no) (hu : nextUnread s h = some e) :
    popEntry h s = { s.popped h e.no with jrn := if jrInService s = true then s.jrn else s.jrn.unpinned e.no } := by
  have hservice : ∀ (x : State) f, jrInService (x.modHost h f) = jrInService x := fun x f =>
    have hbus := within_State_modHost x h f
    jrInService_congr (hbus .settings (by decide)) (hbus .pwr (by decide)) (hbus .xm (by decide))
  unfold popEntry
  simp only [hl, hu, if_true, hservice]
  cases jrInService s <;> cases h <;> rfl

theorem popped_host (s : State) (h : HostId) (no : Nat) (j : Journal) :
    ({ s.popped h no with jrn := j } : State).host h = { s.host h with jrnLoaded := none, jrnPtr := no + 1 } := by cases h <;> rfl

theorem popEntry_of_not_loaded {s : State} {h : HostId} (hl : (s.host h).jrnLoaded = none) :
    popEntry h s = s.modHost h fun r => { r with jrnLoaded := none } := by
  unfold popEntry; rw [hl]

theorem popEntry_host_other {s : State} {h g : HostId} (hg : g ≠ h) : (popEntry h s).host g = s.host g := by
  have hother : ∀ f, (s.modHost h f).host g = s.host g := fun f => modHost_other s f hg
  unfold popEntry
  split
  · dsimp only
    split
    · split
      · exact (modHost_other _ _ hg).trans (hother _)
      · exact (modHost_other _ _ hg).trans (hother _)
    · exact hother _
  · exact hother _

theorem popEntry_sent (s : State) (h : HostId) : (popEntry h s).bus.sent = s.bus.sent := by
  unfold popEntry
  split
  · dsimp only
    split
    · split <;> cases h <;> rfl
    · cases h <;> rfl
  · cases h <;> rfl

theorem readReg_jrnE {s : State} (h : HostId) {j : Fin 8} (hr : regLive s (.jrnE j) = true) : readReg s h (.jrnE j) = bufWord s h j.val := if_pos hr

theorem readReg_jrnE_reading {s : State} {h : HostId} {j : Fin 8} (hr : regLive s (.jrnE j) = true) (lead : List Byte) :
    readReg (s.reading h (Reg.jrnE j).addr lead) h (.jrnE j) = readReg s h (.jrnE j) := by
  rw [readReg_jrnE h hr, readReg_jrnE h ((regLive_congr (reading_pwr s h _ lead) _).trans hr), bufWord, bufWord, reading_host]

/-- With right words in the memory, what is sent is the register's word as sampled. -/
theorem sampleSend_ok (h : HostId) (r : Reg) (x : State) :
    sampleSend h .ok r x = sendWord (readReg (readSample h .ok r x) h r) (readSample h .ok r x) := by
  unfold sampleSend
  exact if_neg Bool.false_ne_true

/-- A read of a live register that samples no memory: the opened transaction has sent the register's word, and the read commits in it. -/
theorem readAt_sends {s : State} {h : HostId} {r : Reg} (hc : coreOn s = true) (hh : s.bus.holdFrom = none) (hr : regLive s r = true)
    (ht : ∀ u, r ≠ .tile u .tripStat) (hs : ∀ x, readSample h .ok r x = x)
    (hreg : ∀ lead, readReg (s.reading h r.addr lead) h r = readReg s h r) :
    ∃ x code, readAt h r .ok s = (readCommit h r x).readDone h r.addr code ∧ Within [.bus] s x
      ∧ x.host h = { s.host h with ptr := BitVec.ofNat 16 r.addr } ∧ (∀ g, g ≠ h → x.host g = s.host g) ∧ x.bus.sent = [readReg s h r] := by
  obtain ⟨lead, code, hrun⟩ := readAt_sampled (h := h) (ecc := .ok) hc hh hr ht
  rw [sampleSend_ok, hs, hreg] at hrun
  refine ⟨_, code, hrun, (reading_within s h _ lead).trans (within_set_bus _ _), ?_, fun g hg => ?_, ?_⟩
  · rw [sendWord_host, reading_host]
  · rw [sendWord_host, reading_host_other s _ lead hg]
  · rw [sendWord_sent, reading_sent, List.nil_append]

/-- A read of JRN_E[0] in an opened transaction `x` loads the entry and sends the buffer's first word (R533). -/
theorem journalLoad_runs {s : State} {h : HostId} (hc : coreOn s = true) (hh : s.bus.holdFrom = none) (hr : regLive s (.jrnE 0) = true) :
    ∃ x code, readAt h (.jrnE 0) .ok s = (sendWord (bufWord (loadEntry h x) h 0) (loadEntry h x)).readDone h (Reg.jrnE 0).addr code
      ∧ Within [.bus] s x ∧ x.host h = { s.host h with ptr := BitVec.ofNat 16 (Reg.jrnE 0).addr } ∧ (∀ g, g ≠ h → x.host g = s.host g)
      ∧ x.bus.sent = [] := by
  obtain ⟨lead, code, hrun⟩ := readAt_sampled (h := h) (ecc := .ok) hc hh hr nofun
  have hcheck : ∀ x : State, checkEntry h .ok x = x := fun x => by unfold checkEntry; split <;> rfl
  have hsample : ∀ x : State, readSample h .ok (.jrnE 0) x = loadEntry h x := fun x => congrArg (loadEntry h) (hcheck x)
  have hlive : regLive (loadEntry h (s.reading h (Reg.jrnE 0).addr lead)) (.jrnE 0) = true :=
    (regLive_congr (((reading_within s h _ lead).trans (within_loadEntry h _)) .pwr (by decide)) _).trans hr
  rw [sampleSend_ok, hsample, readReg_jrnE h hlive] at hrun
  exact ⟨s.reading h (Reg.jrnE 0).addr lead, code, hrun, reading_within s h _ lead, reading_host s h _ lead, fun g hg => reading_host_other s _ lead hg, rfl⟩

end Sys2Proof.Machine
end

section
/-! SUPPORT. The port of the external memory: discovery, staging, the end of a burst, a stall and a prefetch (R534 to R540). -/

namespace Sys2Proof.Machine

/-! Leave. -/

theorem askBursts_none (u : DrawUser) (s : State) : askBursts u 0 s = s := by
  have hnone : ∀ n, 0 - n = 0 := Nat.zero_sub
  simp only [askBursts, askLeaves, hnone, List.replicate_zero, List.append_nil]

/-- A memory that cannot be reached asks for nothing. -/
theorem xmAsk_of_down {s : State} (hd : xmUp s = false) (image : Bool) : xmAsk image s = s := by
  have hj : jrInService s = false := by rw [jrInService, hd]; rfl
  have hready : journalReady s = false := by rw [journalReady, hj]; rfl
  have hwants : journalWants s = 0 := by rw [journalWants, hj, hready]; rfl
  have hdue : prefetchDue s = false := by rw [prefetchDue, hd, Bool.and_false]; rfl
  have hrec : recorderWants s = 0 := by
    have hstream : recStreams s = false := by rw [recStreams, hd]; rfl
    rw [recorderWants, recWants, hstream, Bool.and_false, Bool.false_and, if_neg Bool.false_ne_true]
  simp only [xmAsk, hwants, ite_self, askBursts_none, hdue, hrec, hd, Bool.and_false, Bool.false_and, Bool.false_eq_true, if_false]

/-! Discovery. -/

/-- What discovery takes from a valid table (R534, R535). -/
def Xmem.found (x : Xmem) (d page : Nat) (program erase : Option Nat) (j : Bool) : Xmem :=
  { x with present := true, dens := min d 26, pageLog := page, progMax := program, eraseMax := erase, jdis := j, rdis := false }

/-- The journal region, and the recorder's, do not fit a memory of 2^d bytes. -/
def journalOut (s : State) (d : Nat) : Bool := regionOut s (min d 26) (fld (setWord s .xmJrg) 13 0) (jrSectors s)
def recorderOut (s : State) (d : Nat) : Bool := regionOut s (min d 26) (fld (setWord s .xmRrg) 13 0) (fld (setWord s .xmRrg) 29 16)

section
variable {s : State} {d page : Nat} {e4k : Bool} {program erase : Option Nat}

theorem discover_valid (he : e4k = true ∨ xmRam s = true) (hr : recorderOut s d = false) :
    discover (.valid d e4k page program erase) s =
      if journalOut s d = true then nextCycle (occur 177 2 { s with xm := s.xm.found d page program erase true })
      else { s with xm := s.xm.found d page program erase false } := by
  have hsmall : (!e4k && !xmRam s) = false := by rcases he with he | he <;> rw [he] <;> simp
  have hrec : regionOut s (min d 26) (fld (setWord s .xmRrg) 13 0) (fld (setWord s .xmRrg) 29 16) = false := hr
  unfold discover
  simp only [hsmall, hrec, Bool.false_eq_true, if_false]
  rw [show regionOut s (min d 26) (fld (setWord s .xmJrg) 13 0) (jrSectors s) = journalOut s d from rfl]
  cases journalOut s d <;> rfl

end

/-- Nothing valid leaves the memory absent, and event 177 says why. -/
theorem discover_nothing {s : State} {f : Sfdp} (hf : f = .absent ∨ f = .notValid ∨ (∃ d page p e, f = .valid d false page p e) ∧ xmRam s = false) :
    ∃ n, discover f s = occur 177 n { s with xm := { s.xm with present := false, dens := 0 } } := by
  rcases hf with rfl | rfl | ⟨⟨d, page, p, e, rfl⟩, hram⟩
  · exact ⟨_, rfl⟩
  · exact ⟨_, rfl⟩
  · exact ⟨word 0, if_pos (by rw [hram]; rfl)⟩

theorem xmemDiscovery_of_on {s : State} (hc : coreOn s = true) (hxmi : s.pwr.xmi = true) (f : Sfdp) : xmemDiscovery f s = xmAsk false (discover f s) :=
  if_pos (by rw [hc, hxmi]; rfl)
theorem xmemDiscovery_of_off {s : State} (hoff : coreOn s = false ∨ s.pwr.xmi = false) (f : Sfdp) : xmemDiscovery f s = s :=
  if_neg (by rcases hoff with h | h <;> rw [h] <;> simp)

/-! Staging. -/

section
variable {α : Type} {p : α → Bool} {b : α} {l : List α}

theorem ahead_of_none (h : ∀ x ∈ l, p x = false) : l.takeWhile p ++ b :: l.dropWhile p = b :: l := by
  cases l with
  | nil => rfl
  | cons a l =>
    have ha : p a = false := h a List.mem_cons_self
    simp [ha]
theorem ahead_of_all (h : ∀ x ∈ l, p x = true) : l.takeWhile p ++ b :: l.dropWhile p = l ++ [b] := by
  rw [List.takeWhile_eq_self_iff.mpr h, List.dropWhile_eq_nil_iff.mpr h]

end

/-- A staged burst of the journal changes the order of the bursts alone (R536). -/
structure StagedAhead (b : XBurst) (filled : Nat) (s t : State) : Prop where
  frame : Within [.xm] s t
  port : t.xm = { s.xm with bursts := t.xm.bursts, began := t.xm.began, filled := filled }
  others : (∀ x ∈ s.xm.bursts, isJournalBurst x = false) →
    t.xm.bursts = if s.xm.began.isSome = true then s.xm.bursts.take 1 ++ b :: s.xm.bursts.drop 1 else b :: s.xm.bursts
  same : (∀ x ∈ s.xm.bursts, isJournalBurst x = true) → t.xm.bursts = s.xm.bursts ++ [b]

theorem stageBurst_journal {b : XBurst} {s : State} (hb : isJournalBurst b = true) (filled : Nat) :
    StagedAhead b filled s (stageBurst b { s with xm := { s.xm with filled := filled } }) := by
  have hbursts : (stageBurst b { s with xm := { s.xm with filled := filled } }).xm.bursts =
      if s.xm.began.isSome then
        s.xm.bursts.take 1 ++ ((s.xm.bursts.drop 1).takeWhile isJournalBurst ++ b :: (s.xm.bursts.drop 1).dropWhile isJournalBurst)
      else s.xm.bursts.takeWhile isJournalBurst ++ b :: s.xm.bursts.dropWhile isJournalBurst := if_pos hb
  refine ⟨(within_set_xm _ _).trans (within_stageBurst b _), rfl, fun hn => ?_, fun hj => ?_⟩
  · rw [hbursts, ahead_of_none hn, ahead_of_none fun x hx => hn x (List.mem_of_mem_drop hx)]
  · rw [hbursts, ahead_of_all hj, ahead_of_all fun x hx => hj x (List.mem_of_mem_drop hx), ← List.append_assoc, List.take_append_drop, ite_self]

section
variable {s : State}

/-- Entries follow where the slot's sector has its next one erased, or is not at its start (R539). -/
theorem nextJournal_entries (hs : nextSlot s % 128 ≠ 0 ∨ s.xm.erasedFor = some (nextSlot s / 128)) :
    let es := (uncopied s).take (burstRoom s (jrBase s + 32 * nextSlot s) / 32)
    nextJournal s = some (.journal (es.map (·.no)) (nextSlot s) (es.flatMap (·.bytes))) :=
  if_neg fun hn => hs.elim (fun h => h hn.1) hn.2

theorem nextJournal_erase (hs : nextSlot s % 128 = 0) (he : s.xm.erasedFor ≠ some (nextSlot s / 128)) (hram : xmRam s = false)
    (hnext : (nextJournal s).isSome = true) : nextJournal s = some (.journalErase ((nextSlot s / 128 + 1) % jrSectors s)) := by
  unfold nextJournal at hnext ⊢
  rw [if_pos ⟨hs, he⟩, hram, if_neg Bool.false_ne_true] at hnext ⊢
  split at hnext
  · exact absurd hnext nofun
  · exact if_neg ‹_›

theorem nextJournal_fill (hs : nextSlot s % 128 = 0) (he : s.xm.erasedFor ≠ some (nextSlot s / 128)) (hram : xmRam s = true)
    (hnext : (nextJournal s).isSome = true) :
    let after := (nextSlot s / 128 + 1) % jrSectors s
    nextJournal s = some (.journalFill after s.xm.filled (burstRoom s (jrBase s + 4096 * after + s.xm.filled))) := by
  unfold nextJournal at hnext ⊢
  rw [if_pos ⟨hs, he⟩, hram, if_pos rfl] at hnext ⊢
  split at hnext
  · exact if_pos ‹_›
  · exact absurd hnext nofun

variable (hr : journalReady s = true) (hcredit : credits s < 4) (hleave : freeGrant s .xmJournal = true)

include hr in
theorem nextJournal_of_ready : (nextJournal s).isSome = true := by
  simp only [journalReady, Bool.and_eq_true] at hr
  exact hr.1.2

include hr hcredit hleave

theorem journalBurst_go : (journalReady s && decide (credits s < 4) && freeGrant s .xmJournal) = true := by
  rw [hr, hleave, decide_eq_true hcredit]; rfl

theorem journalBurst_entries {nos : List Nat} {slot : Nat} {bytes : List Byte} (hb : nextJournal s = some (.journal nos slot bytes)) :
    StagedAhead (.journal nos slot bytes) s.xm.filled s (journalBurst [] s) := by
  have hcheck : checkEntries nos [] s = s := by cases nos <;> rfl
  have hrun : journalBurst [] s = stageBurst (.journal nos slot bytes) s := by
    unfold journalBurst
    rw [if_pos (journalBurst_go hr hcredit hleave), hb]
    simp only [hcheck, hb]
  exact hrun ▸ stageBurst_journal rfl s.xm.filled

theorem journalBurst_erase {sct : Nat} (hb : nextJournal s = some (.journalErase sct)) :
    StagedAhead (.journalErase sct) s.xm.filled s (journalBurst [] s) := by
  have hrun : journalBurst [] s = stageBurst (.journalErase sct) s := by
    unfold journalBurst
    rw [if_pos (journalBurst_go hr hcredit hleave), hb]
  exact hrun ▸ stageBurst_journal rfl s.xm.filled

theorem journalBurst_fill {sct off n : Nat} (hb : nextJournal s = some (.journalFill sct off n)) :
    StagedAhead (.journalFill sct off n) (off + n) s (journalBurst [] s) := by
  have hrun : journalBurst [] s = stageBurst (.journalFill sct off n) { s with xm := { s.xm with filled := off + n } } := by
    unfold journalBurst
    rw [if_pos (journalBurst_go hr hcredit hleave), hb]
  exact hrun ▸ stageBurst_journal rfl (off + n)

end

/-! The head search (R540). -/

theorem journalHeadSearch_of_leave {s : State} (hin : jrInService s = true) (hs : s.xm.stall = false) (hready : s.xm.jready = false)
    (hleave : freeGrant s .xmJournal = true) :
    ∃ x d, journalHeadSearch s = occur 183 d { releaseLeave .xmJournal s with xm := x }
      ∧ (∀ h, findHead s = some h → x = { s.xm with head := h, jready := true, erasedFor := none, filled := 0 })
      ∧ (findHead s = none → x = { s.xm with
          head := 0, jready := true, jfmt := true, erasedFor := none, filled := 0, mem := eraseSector s.xm.mem (jrBase s) }) := by
  have hgo : (jrInService s && !s.xm.stall && !s.xm.jready) = true := by rw [hin, hs, hready]; rfl
  have hsame : findHead (releaseLeave .xmJournal s) = findHead s := rfl
  unfold journalHeadSearch
  rw [if_pos hgo, if_pos hleave]
  dsimp only
  rw [hsame]
  cases findHead s with
  | none => exact ⟨_, _, rfl, fun _ h => absurd h nofun, fun _ => rfl⟩
  | some h => exact ⟨_, _, rfl, fun h' he => by rw [Option.some.inj he]; rfl, fun hn => absurd hn nofun⟩

theorem journalHeadSearch_of_not_due {s : State} (hn : jrInService s = false ∨ s.xm.stall = true ∨ s.xm.jready = true) : journalHeadSearch s = s := by
  refine if_neg fun hgo => ?_
  simp only [Bool.and_eq_true, Bool.not_eq_true'] at hgo
  obtain ⟨⟨hin, hs⟩, hready⟩ := hgo
  rcases hn with hn | hn | hn
  · exact absurd (hn.symm.trans hin) nofun
  · exact absurd (hn.symm.trans hs) nofun
  · exact absurd (hn.symm.trans hready) nofun

/-! The end of a burst. -/

/-- The memory's bytes and the journal's head stay. -/
def SameMemory (s t : State) : Prop := t.xm.mem = s.xm.mem ∧ t.xm.head = s.xm.head

theorem SameMemory.trans {s t u : State} (h : SameMemory s t) (h' : SameMemory t u) : SameMemory s u := ⟨h'.1.trans h.1, h'.2.trans h.2⟩
theorem sameMemory_of_within {ps : List Part} {s t : State} (h : Within ps s t) (hp : Part.xm ∉ ps) : SameMemory s t :=
  ⟨congrArg Xmem.mem (h .xm hp), congrArg Xmem.head (h .xm hp)⟩

theorem sameMemory_xmPump (s : State) : SameMemory s (xmPump s) := by
  unfold xmPump
  split
  · exact ⟨rfl, rfl⟩
  · split <;> exact ⟨rfl, rfl⟩

theorem sameMemory_imgPump (s : State) : SameMemory s (imgPump s) := by
  unfold imgPump
  split
  · cases imgNext s with
    | none => exact ⟨rfl, rfl⟩
    | some w => exact SameMemory.trans (t := stageBurst _ s) ⟨rfl, rfl⟩ (sameMemory_of_within (within_imgTaken w _) (by decide))
  · exact ⟨rfl, rfl⟩

/-- The port goes on once a burst has ended. -/
def portGoesOn (s : State) : State :=
  let t := imgPump (xmPump (nextBegins s))
  xmAsk (imgWants t) t

theorem portGoesOn_within (s : State) : Within [.xm, .draw, .ldr] s (portGoesOn s) :=
  ((((within_nextBegins s).trans (within_xmPump _)).mono (by decide)).step (within_imgPump _) (by decide)).step (within_xmAsk _ _) (by decide)

theorem sameMemory_portGoesOn (s : State) : SameMemory s (portGoesOn s) :=
  SameMemory.trans (t := nextBegins s) ⟨rfl, rfl⟩ ((sameMemory_xmPump _).trans ((sameMemory_imgPump _).trans
    (sameMemory_of_within (within_xmAsk _ _) (by decide))))

/-- The burst has left its credit. -/
def State.unstaged (s : State) (rest : List XBurst) : State := { s with xm := { s.xm with bursts := rest } }

theorem xmemBurstDone_of_begun {s : State} {b : XBurst} {rest : List XBurst} (hup : xmUp s = true) (hs : s.xm.stall = false)
    (hb : s.xm.bursts = b :: rest) (hw : s.pwr.warn = false ∨ s.xm.began.isSome = true) :
    xmemBurstDone s = portGoesOn (imgBurstDone b (burstEffect b (s.unstaged rest))) := by
  have hbegun : (s.pwr.warn && s.xm.began.isNone) = false := by
    rcases hw with hw | hw
    · rw [hw]; rfl
    · rw [Option.isNone_eq_false_iff.mpr hw, Bool.and_false]
  unfold xmemBurstDone
  rw [if_pos (by rw [hup, hs]; rfl), hbegun, if_neg Bool.false_ne_true, hb]
  rfl

theorem releaseLeave_set_within (u : DrawUser) (s : State) (x : Xmem) : Within [.xm, .draw] s { releaseLeave u s with xm := x } :=
  ((within_releaseLeave u s).mono (by decide)).step (within_set_xm _ _) (by decide)

theorem burstEffect_journal (nos : List Nat) (slot : Nat) (bytes : List Byte) (s : State) :
    let t := burstEffect (.journal nos slot bytes) s
    Within [.xm, .draw, .jrn] s t ∧ t.xm.mem = progBytes (xmRam s) s.xm.mem (jrBase s + 32 * slot) bytes
      ∧ t.xm.head = (slot + nos.length) % (128 * jrSectors s)
      ∧ t.jrn = { s.jrn with ring := s.jrn.ring.map fun e => if nos.contains e.no = true then { e.unpin with inXmem := true } else e } :=
  ⟨((releaseLeave_set_within .xmJournal s _).mono (by decide)).step (within_set_jrn_xm _ _ _) (by decide), rfl, rfl, rfl⟩

/-- The recorder's frames and an image's page are programmed where they were staged. -/
theorem burstEffect_write {b : XBurst} {a : Nat} {bytes : List Byte} (hb : b = .recorder a bytes false ∨ b = .image a bytes) (s : State) :
    Within [.xm, .draw] s (burstEffect b s) ∧ (burstEffect b s).xm.mem = progBytes (xmRam s) s.xm.mem a bytes
      ∧ (burstEffect b s).xm.head = s.xm.head := by
  rcases hb with rfl | rfl
  · exact ⟨releaseLeave_set_within .xmRecorder s _, rfl, rfl⟩
  · exact ⟨releaseLeave_set_within .xmImage s _, rfl, rfl⟩

theorem burstEffect_erase {b : XBurst} {a : Nat} (hb : b = .recorderErase a ∨ b = .imageErase a) (s : State) :
    Within [.xm, .draw] s (burstEffect b s) ∧ (burstEffect b s).xm.mem = eraseSector s.xm.mem (a - a % 4096)
      ∧ (burstEffect b s).xm.head = s.xm.head := by
  rcases hb with rfl | rfl
  · exact ⟨releaseLeave_set_within .xmRecorder s _, rfl, rfl⟩
  · exact ⟨releaseLeave_set_within .xmImage s _, rfl, rfl⟩

/-- What follows a burst's effect leaves the memory and every unit but the port's and the loader's as the effect has left them. -/
theorem burstDone_after (b : XBurst) (s : State) :
    Within [.xm, .draw, .ldr] s (portGoesOn (imgBurstDone b s)) ∧ SameMemory s (portGoesOn (imgBurstDone b s)) :=
  ⟨((within_imgBurstDone b s).mono (by decide)).trans (portGoesOn_within _),
    (sameMemory_of_within (within_imgBurstDone b s) (by decide)).trans (sameMemory_portGoesOn _)⟩

theorem xmemBurstDone_of_not_due {s : State}
    (hn : s.xm.bursts = [] ∨ xmUp s = false ∨ s.xm.stall = true ∨ (s.pwr.warn = true ∧ s.xm.began = none)) : xmemBurstDone s = s := by
  unfold xmemBurstDone
  rcases hn with hn | hn | hn | ⟨hwarn, hn⟩
  · simp only [hn, ite_self]
  · rw [hn]; rfl
  · rw [hn, Bool.not_true, Bool.and_false]; rfl
  · simp only [hwarn, hn, Option.isNone_none, Bool.and_self, if_true, ite_self]

/-! A stall. -/

theorem xmNoLeave_held {u : DrawUser} (hu : xmUser u = true) (s : State) : leaveHeld (xmNoLeave s) u = false ∧ leaveWaits (xmNoLeave s) u = false := by
  have hnot : ∀ v : DrawUser, (!xmUser v) = true → ¬(v == u) = true := fun v hv he => by
    rw [eq_of_beq he, hu] at hv; exact absurd hv nofun
  constructor
  · exact List.any_eq_false.mpr fun g hg => hnot g.user (List.mem_filter.mp hg).2
  · exact List.any_eq_false.mpr fun g hg => hnot g.user (List.mem_filter.mp hg).2

/-- No write was on its way, so no byte changes. -/
theorem burstCut_of_read {s : State} (hb : s.xm.bursts = [] ∨ ∃ h a rest, s.xm.bursts = .prefetch h a :: rest) : burstCut s = s := by
  unfold burstCut
  rcases hb with hb | ⟨h, a, rest, hb⟩ <;> rw [hb] <;> cases s.xm.began <;> rfl

/-- The port has stalled: its bursts, its leave and a staged header are gone (R485, R537). -/
def State.stalled (s : State) : State :=
  let s := xmNoLeave s
  { s with xm := { s.xm with stall := true, stallCnt := satInc s.xm.stallCnt 255, bursts := [], began := none, filled := 0, lost := 0 }
           ldr := { s.ldr with headerDone := s.ldr.headerDone && s.ldr.repl != .receiving } }

theorem stalled_within (s : State) : Within [.xm, .draw, .ldr] s s.stalled :=
  ((within_xmNoLeave s).mono (by decide)).step (within_set_ldr_xm _ _ _) (by decide)

theorem xmemStall_of_due {s : State} (hup : xmUp s = true) (hs : s.xm.stall = false) (hd : stallDue s = true)
    (hb : s.xm.bursts = [] ∨ ∃ h a rest, s.xm.bursts = .prefetch h a :: rest) (hr : s.rcd.state ≠ .capture) (hq : Quiet s 178) :
    xmemStall s = occur 178 (stallDetail s) s.stalled ∧ Within [.ev] s.stalled (xmemStall s) := by
  have hgo : (xmUp s && !s.xm.stall && stallDue s) = true := by rw [hup, hs, hd]; rfl
  have hevent : Within [.ev] s.stalled (occur 178 (stallDetail s) s.stalled) := occur_quiet _ ((quiet_congr (stalled_within s .settings (by decide)) 178).mpr hq)
  have hrcd : (occur 178 (stallDetail s) s.stalled).rcd = s.rcd := (hevent .rcd (by decide)).trans (stalled_within s .rcd (by decide))
  have hrun : xmemStall s = occur 178 (stallDetail s) s.stalled := by
    unfold xmemStall
    rw [if_pos hgo, burstCut_of_read hb]
    exact if_neg fun hcap => hr ((congrArg Recorder.state hrcd).symm.trans hcap)
  exact ⟨hrun, hrun ▸ hevent⟩

theorem xmemRecovery_of_stalled {s : State} (hup : xmUp s = true) (hs : s.xm.stall = true) :
    xmemRecovery s = xmAsk false (occur 179 (word (s.xm.lost % 2 ^ 24)) { s with xm := { s.xm with stall := false, jready := false } }) :=
  if_pos (by rw [hup, hs]; rfl)

/-! A prefetch. -/

/-- Host h's window stands at an address, and the fetch of it waits or is on its way (R538). -/
structure FetchQueued (s t : State) (h : HostId) (a : Nat) : Prop where
  index : (t.host h).xmIdx = word a
  held : (t.host h).xmHeld = none
  queued : (h, a) ∈ t.xm.prefetchWait ∨ XBurst.prefetch h a ∈ t.xm.bursts
  mem : t.xm.mem = s.xm.mem
  others : ∀ g, g ≠ h → t.host g = s.host g
  frame : Within [.bus, .xm, .draw] s t

theorem xmPump_queues {s : State} {h : HostId} {a : Nat} (hw : (h, a) ∈ s.xm.prefetchWait) :
    (h, a) ∈ (xmPump s).xm.prefetchWait ∨ XBurst.prefetch h a ∈ (xmPump s).xm.bursts := by
  unfold xmPump
  cases hwait : s.xm.prefetchWait with
  | nil => exact absurd (hwait ▸ hw) List.not_mem_nil
  | cons p rest =>
    obtain ⟨h', a'⟩ := p
    dsimp only
    split
    · rcases List.mem_cons.mp (hwait ▸ hw) with hhead | hrest
      · obtain ⟨rfl, rfl⟩ := Prod.mk.inj hhead
        exact .inr (List.mem_append_right s.xm.bursts (List.mem_singleton.mpr rfl))
      · exact .inl hrest
    · exact .inl hw

theorem startPrefetch_queues (s : State) (h : HostId) (a : Nat) : FetchQueued s (startPrefetch h a s) h a := by
  let x := s.modHost h fun r => { r with xmIdx := word a, xmHeld := none }
  let y : State := { x with xm := { x.xm with prefetchWait := (x.xm.prefetchWait.filter fun p => p.1 != h) ++ [(h, a)] } }
  have hask := within_xmAsk false y
  have hpump := within_xmPump (xmAsk false y)
  have hhost : ∀ g, (startPrefetch h a s).host g = x.host g := fun g =>
    (hpump.host_eq (by decide) g).trans (hask.host_eq (by decide) g)
  have hwaits : (h, a) ∈ (xmAsk false y).xm.prefetchWait := by
    rw [hask .xm (by decide)]; exact List.mem_append_right _ (List.mem_singleton.mpr rfl)
  have hmem := (sameMemory_of_within hask (by decide)).trans (sameMemory_xmPump (xmAsk false y))
  have hkept : x.xm.mem = s.xm.mem := congrArg Xmem.mem (within_State_modHost s h _ .xm (by decide))
  have hx : (x.host h) = { s.host h with xmIdx := word a, xmHeld := none } := modHost_host ..
  exact {
    index := by rw [hhost, hx]
    held := by rw [hhost, hx]
    queued := xmPump_queues hwaits
    mem := hmem.1.trans hkept
    others := fun g hg => (hhost g).trans (modHost_other s _ hg)
    frame := within_startPrefetch h a s }

/-- The steps of the transaction around it reach the bus interface alone. -/
theorem FetchQueued.within_bus {s x y t : State} {h : HostId} {a : Nat} (hq : FetchQueued x y h a) (hx : Within [.bus] s x)
    (hxo : ∀ g, g ≠ h → x.host g = s.host g) (hy : Within [.bus] y t) (hyo : ∀ g, g ≠ h → t.host g = y.host g)
    (hidx : (t.host h).xmIdx = (y.host h).xmIdx) (hheld : (t.host h).xmHeld = (y.host h).xmHeld) : FetchQueued s t h a where
  index := hidx.trans hq.index
  held := hheld.trans hq.held
  queued := by rw [hy .xm (by decide)]; exact hq.queued
  mem := by rw [hy .xm (by decide), hq.mem, hx .xm (by decide)]
  others := fun g hg => (hyo g hg).trans ((hq.others g hg).trans (hxo g hg))
  frame := ((hx.mono (by decide)).trans hq.frame).step hy (by decide)

theorem startPrefetch_sent (s : State) (h : HostId) (a : Nat) : (startPrefetch h a s).bus.sent = s.bus.sent := by
  have hpump : ∀ x : State, (xmPump (xmAsk false x)).bus = x.bus := fun x =>
    (within_xmPump _ .bus (by decide)).trans (within_xmAsk false x .bus (by decide))
  unfold startPrefetch
  dsimp only
  rw [hpump]
  cases h <;> rfl

theorem readReg_xmData {s : State} (h : HostId) {i : Fin 16} (hr : regLive s (.xmData i) = true) : readReg s h (.xmData i) = xmDataWord s h i.val := if_pos hr

/-- A read of XM_DATA[15] sends the window's last word and queues the fetch of the next 64 bytes (R538). -/
theorem xmemWindowAdvance_queues {s : State} {h : HostId} (hc : coreOn s = true) (hh : s.bus.holdFrom = none) (hr : regLive s (.xmData 15) = true) :
    (readAt h (.xmData 15) .ok s).bus.rdata = xmDataWord s h 15
      ∧ FetchQueued s (readAt h (.xmData 15) .ok s) h ((fld (s.host h).xmIdx 25 0 + 64) % 2 ^ 26) := by
  have hreg : ∀ lead, readReg (s.reading h (Reg.xmData 15).addr lead) h (.xmData 15) = readReg s h (.xmData 15) := fun lead => by
    rw [readReg_xmData h hr, readReg_xmData h ((regLive_congr (reading_pwr s h _ lead) _).trans hr), xmDataWord, xmDataWord, reading_host]
  obtain ⟨x, code, hrun, hx, hhost, hother, hsent⟩ := readAt_sends hc hh hr nofun (fun _ => rfl) hreg
  have hcommit : readCommit h (.xmData 15) x = startPrefetch h ((fld (s.host h).xmIdx 25 0 + 64) % 2 ^ 26) x := by
    rw [← show (x.host h).xmIdx = (s.host h).xmIdx by rw [hhost]]; rfl
  rw [hrun, hcommit]
  refine ⟨?_, (startPrefetch_queues x h _).within_bus hx hother (readDone_within _ h _ code) (fun g hg => readDone_host_other _ _ code hg) ?_ ?_⟩
  · rw [Bus.rdata, readDone_sent, startPrefetch_sent, hsent, readReg_xmData h hr]; rfl
  · rw [readDone_host]
  · rw [readDone_host]

theorem fld_merge_window (old data : Word) : fld (merge old data 0x3FFFFFF) 5 0 = fld data 5 0 := by
  have hbits : (merge old data 0x3FFFFFF).toNat % 2 ^ 6 = data.toNat % 2 ^ 6 := by
    simp only [merge, BitVec.toNat_or, BitVec.toNat_and, Nat.or_mod_two_pow, Nat.and_mod_two_pow]
    have hmask : (~~~(0x3FFFFFF : Word)).toNat % 2 ^ 6 = 0 ∧ (0x3FFFFFF : Word).toNat % 2 ^ 6 = 2 ^ 6 - 1 := by decide
    rw [hmask.1, hmask.2, Nat.and_zero, Nat.zero_or, Nat.and_two_pow_sub_one_eq_mod, Nat.mod_mod]
  simpa [fld, nfld] using hbits

theorem xmIdx_lands {s : State} {h : HostId} {data : Word} (hl : WordLands s h .xmIdx data) :
    writeAt h .xmIdx data s = startPrefetch h (fld data 25 0) (s.opened h Reg.xmIdx.addr) := by
  obtain ⟨-, -, -, -, henc⟩ := id hl
  have hlow : fld data 5 0 = 0 := (fld_merge_window _ _).symm.trans (eq_of_beq henc)
  exact (writeAt_of_lands hl).trans (if_neg (not_not.mpr hlow))

end Sys2Proof.Machine
end

section
/-! PROOFS. The statements of 01_architecture.md. -/

open Sys2Proof Sys2Proof.Machine

/-- Settles O3: the state after reset, field by field. -/
theorem resetHoldsOutputsLowAndNoCommand : Obligations.ResetHoldsOutputsLowAndNoCommand :=
  ⟨rfl, rfl, by decide, by decide, rfl, fun h => by cases h <;> rfl, fun _ => rfl, rfl, rfl⟩

/-- Settles O6: a tick changes the time alone, and every command keeps stores and queues sound. -/
theorem stepKeepsStoresCanonical : Obligations.StepKeepsStoresCanonical := fun _ _ h => step_keepsSound h

/-- Settles O9: an address decodes to its own register, so it is a multiple of 4. -/
theorem registerAddressesDecode : Obligations.RegisterAddressesDecode :=
  fun r => ⟨decodeAddr_addr r, addr_mod_four r, addr_lt r⟩

/-- Settles O20: a quiet occurrence is its marks and its entry. -/
theorem occurrenceSetsDetailCountLatchAndQueue : Obligations.OccurrenceSetsDetailCountLatchAndQueue := by
  intro c e s hc hcore hq
  have hrun : exec c s = .next (occur e.val 0 s) := by
    rcases hc with ⟨rfl, he⟩ | ⟨rfl, he⟩
    · rw [he]; exact congrArg Host.Outcome.next (if_pos hcore)
    · rw [he]; exact congrArg Host.Outcome.next (if_pos hcore)
  have hplain : alwaysJournaled e.val = false := by rcases hc with ⟨-, he⟩ | ⟨-, he⟩ <;> rw [he] <;> rfl
  rw [hrun]
  refine ⟨fun hn => congrArg Host.Outcome.next (occur_of_occurred 0 hn), fun hn => ⟨_, rfl, occur_quiet 0 hq, ?_⟩⟩
  rw [occur_of_quiet 0 hq hn, hplain, Bool.or_false]
  have hsrc := latched_source s e 0
  have hother := fun f (hf : f ≠ e) => latched_source_other s e 0 hf
  by_cases hj : (evEn s e.val && evJrnl s e.val) = true
  · obtain ⟨hen, -⟩ := Bool.and_eq_true_iff.mp hj
    rw [if_pos hen] at hsrc
    rw [if_pos hj]
    refine ⟨fun f hf => (journaled_source_other _ e 0 hf).trans (hother f hf), fun _ => ?_, fun hoff => absurd (hoff.symm.trans hen) nofun,
      fun _ _ => ?_, fun hno => absurd (hno.symm.trans hj) nofun⟩
    · rw [journaled_source, hsrc]; exact ⟨rfl, rfl, rfl⟩
    · have hroom := journaled_room (s.latched e.val 0) e 0
      have hfull := journaled_full (s.latched e.val 0) e 0
      rw [latched_queue] at hroom hfull
      rw [latched_ovfCnt] at hfull
      have hcyc : cycleOf (s.latched e.val 0) = cycleOf s := congrArg (· / 128) (latched_now s 0 e.val)
      rw [hcyc] at hroom
      split
      · next hlt => exact hroom hlt
      · next hge => exact hfull hge
  · rw [if_neg hj]
    refine ⟨hother, fun hen => ?_, fun hoff => ?_, fun hen hjr => absurd (Bool.and_eq_true_iff.mpr ⟨hen, hjr⟩) hj, fun _ => latched_queue s 0 _⟩
    · rw [hsrc, if_pos hen]; exact ⟨rfl, rfl, rfl⟩
    · rw [hsrc, if_neg (by simp [hoff])]; exact ⟨rfl, rfl, rfl⟩

/-- Settles O10: no register answers, so a read sends 0 and each written word is refused once. -/
theorem unmappedAddressReadsZeroAndRefuses : Obligations.UnmappedAddressReadsZeroAndRefuses := by
  refine ⟨fun h a ecc s hb hd => ?_, fun h a w pec s hc hh hd hp => ?_, fun h a ws pec s hc hh ho hl hu hp => ?_, fun a ha => decodeAddr_eq_none ha⟩
  · obtain ⟨lead, code, hrun⟩ := busRead_unmapped hb hd h ecc
    refine ⟨_, congrArg Host.Outcome.next hrun, ?_, ?_, fun g hg => ?_, ?_,
      readDone_frame h _ code (by decide) (reading_within s h _ lead) (within_set_bus _ _)⟩
    · rw [readDone_sent, sendWord_sent, reading_sent]; rfl
    · rw [readDone_host]; exact ofNat_toNat_add a 4
    · exact (readDone_host_other _ _ code hg).trans (reading_host_other s _ lead hg)
    · exact (readDone_owner ..).trans (reading_owner s h _ lead)
  · have hrun : exec (.registerWrite h a [w] pec) s
        = .next (if s.bus.owner = some h then refuse h (s.opened h a.toNat) else claimRefuse h a.toNat (s.opened h a.toNat)) := by
      refine congrArg Host.Outcome.next ((registerWrite_one h a w pec s (busAnswers_of_core hc hh) hp).trans ?_)
      rw [busWord_unmapped ((coreOn_congr (opened_pwr s h _)).trans hc) hd, opened_owner]
    have hptr := ofNat_toNat_add a 4
    have ho := opened_within s h a.toNat
    rw [hrun]
    by_cases hown : s.bus.owner = some h
    · rw [if_pos hown]
      refine ⟨_, rfl, ?_, fun _ => ⟨?_, fun g hg => ?_, by cases h <;> rfl, ho.trans (within_refuse h _)⟩, fun hno => absurd hown hno⟩
      · rw [refuse_refCnt, opened_refCnt]
      · rw [refuse_host, opened_host, hptr]; rfl
      · rw [refuse_host_other _ hg, opened_host_other s _ hg]
    · rw [if_neg hown]
      have hhost := claimRefuse_host h a.toNat (s.opened h a.toNat)
      have hself := (hhost h).trans (claimCounted_host h _)
      rw [opened_host, hptr] at hself
      refine ⟨_, rfl, congrArg HostRegs.refCnt hself, fun hyes => absurd hyes hown, fun _ hq => ⟨?_, fun g hg => ?_, ?_, ?_⟩⟩
      · rw [hself]; rfl
      · rw [hhost, claimCounted_host_other _ hg, opened_host_other s _ hg]
      · rw [claimRefuse_bus]; cases h <;> rfl
      · exact (ho.mono (by decide)).trans (claimRefuse_quiet ((quiet_congr (opened_settings s h _) 137).mpr hq) a.toNat)
  · have hr := registerWrite_unmapped hc hh ho hl hu hp
    exact ⟨_, rfl, hr.host, hr.others, hr.settings, hr.rails⟩

/-- Settles O40: a read samples the entry with the check of its word, a free word is stored at the index alone, a scrubbed word counts. -/
theorem mapIsReadWrittenAndScrubbed : Obligations.MapIsReadWrittenAndScrubbed := by
  intro h s hs
  obtain ⟨-, -, -, hcanonical, -⟩ := hs
  refine ⟨fun hc hh hr hi hbad => ⟨?_, ?_, fun h4 => ?_, fun h4 hq => ?_⟩, fun data hl => ?_, fun hc ecc he => ⟨?_, ?_, ?_, ?_⟩, fun hc m ecc => ?_⟩
  · obtain ⟨x, t, hrun, hx, hix, hidx, -, hsent⟩ := mapDataRead_samples hc hh hr .ok
    have hmap : x.map = s.map := hx .map (by decide)
    rw [← hix] at hi
    rw [← hix, ← hmap] at hbad
    obtain ⟨hword, hin⟩ := hsent (sentOpen_mapData (.inl nofun))
    rw [readSample_mapData_ok hi hbad] at hword hin
    refine ⟨t, hrun, ?_, hidx, hx.trans hin⟩
    rw [hword, mapDataWord_of_good hi hbad, hix, hmap]
  · obtain ⟨x, t, hrun, hx, hix, hidx, -, hsent⟩ := mapDataRead_samples hc hh hr .single
    have hmap : x.map = s.map := hx .map (by decide)
    have htest : x.test = s.test := hx .test (by decide)
    rw [← hix] at hi
    rw [← hix, ← hmap] at hbad
    obtain ⟨hword, hin⟩ := hsent (sentOpen_mapData (.inl nofun))
    rw [readSample_mapData_single hi hbad] at hword hin
    rw [← hix, ← hmap, ← htest]
    by_cases h4 : mapIdxOf x h < 0x4000
    · rw [if_pos h4] at hword hin
      rw [if_pos h4, if_pos h4]
      refine ⟨t, hrun, hword.trans (congrArg (fun w => [w]) (mapDataWord_of_good hi hbad)), hidx,
        ((hx.mono (by decide)).step (within_set_map x _) (by decide)).step hin (by decide), hin .map (by decide), hin .test (by decide)⟩
    · rw [if_neg h4] at hword hin
      rw [if_neg h4, if_neg h4]
      refine ⟨t, hrun, hword.trans (congrArg (fun w => [w]) (mapDataWord_of_good hi hbad)), hidx,
        ((hx.mono (by decide)).step (within_shadowFixed x) (by decide)).step hin (by decide), hin .map (by decide), hin .test (by decide)⟩
  · obtain ⟨x, t, hrun, hx, hix, hidx, hin, -⟩ := mapDataRead_samples hc hh hr .double
    have hmap : x.map = s.map := hx .map (by decide)
    have htest : x.test = s.test := hx .test (by decide)
    rw [← hix] at hi h4
    rw [readSample_table hi .double h4] at hin
    have htable := within_shadowError (tableUses (mapIdxOf x h)) x .map (by decide)
    refine ⟨t, hrun, (hin .map (by decide)).trans (htable.trans hmap), ?_, hidx⟩
    rw [hin .test (by decide), ← htest]
    exact congrArg Test.dbe (shadowError_test (tableUses (mapIdxOf x h)) x)
  · obtain ⟨x, t, hrun, hx, hix, hidx, -, hsent⟩ := mapDataRead_samples hc hh hr .double
    have hmap : x.map = s.map := hx .map (by decide)
    rw [← hix] at hi h4
    rw [← hix, ← hmap] at hbad
    obtain ⟨hword, hin⟩ := hsent (sentOpen_mapData (.inr h4))
    obtain ⟨hread, hsample⟩ := readSample_mapData_double hi hbad h4 ((quiet_congr (hx .settings (by decide)) 224).mpr hq)
    have htmap := (hin .map (by decide)).trans hread
    have hyx : mapIdxOf (readSample h .double .mapData x) h = mapIdxOf x h := mapIdxOf_congr (by rw [hsample.host_eq (by decide)])
    rw [← hix, ← hmap]
    refine ⟨t, hrun, ?_, ?_, ?_, ?_, ?_, ?_, ((hx.mono (by decide)).step hsample (by decide)).step hin (by decide)⟩
    · rw [hword, mapDataWord_of_bad (by rw [hyx, hread]; simp)]
    all_goals rw [htmap]
  · by_cases hf : MapFree s h data
    · have ht := writeAt_mapData_free hl hcanonical hf
      refine ⟨_, rfl, ht.index, ht.frame, fun k => ⟨fun hno => ht.others k fun hk => hno ⟨hf, hk⟩, fun hyes => ht.own k hyes.2⟩,
        fun _ => ⟨?_, ?_, fun j hj => ?_, ht.accepted⟩, fun hno => absurd hf hno⟩
      · rw [ht.map]
      · rw [ht.map]; exact Store.get_set_same hcanonical _ _
      · rw [ht.map]; exact Store.get_set_other hj _
    · obtain ⟨hframe, hindex, hcount⟩ := writeAt_mapData_refused hl hf
      exact ⟨_, rfl, hindex, hframe.mono (by decide), fun k => ⟨fun _ => hframe.rail_eq (by decide) k, fun hyes => absurd hyes.1 hf⟩,
        fun hyes => absurd hyes hf, fun _ => ⟨hframe .map (by decide), hcount⟩⟩
  · refine ⟨_, congrArg Host.Outcome.next (scrubWord_map hc he), ?_, ?_, ?_⟩
    · split <;> rfl
    · split <;> rfl
    · exact within_ite (within_set_test_map s _ _) ((within_set_test s _).mono (by decide))
  · exact ⟨_, congrArg Host.Outcome.next (scrubWord_ring hc he), within_set_test s _, rfl⟩
  · exact ⟨_, congrArg Host.Outcome.next (scrubWord_recorder hc he), within_set_test s _, rfl⟩
  · exact ⟨_, congrArg Host.Outcome.next (scrubWord_shadow hc he), within_set_test s _, rfl⟩
  · exact congrArg Host.Outcome.next (if_neg (by simp [hc]))

/-- Refutes O47: on the way from STANDBY to KEEPALIVE HK is off while DOM_CTL.HK_EN still reads 1 (R357, R369), so PWR_CMD = READY is not
refused, although a bank is needed; it withdraws the KEEPALIVE target and counts no refused write. -/
theorem not_powerStatesFollowTheTarget : ¬ Obligations.PowerStatesFollowTheTarget := by
  intro hall
  obtain ⟨-, hrefused, -⟩ := hall leavingStandby
  have hrun : writeAt .a .pwrCmd (pwrWord 1 false) (leavingStandby.withVxio 0)
      = refuse .a ((leavingStandby.withVxio 0).opened .a Reg.pwrCmd.addr) :=
    Host.Outcome.next.inj ((hrefused .a false rfl rfl rfl ⟨0, by decide +kernel⟩).1 0 (by decide +kernel))
  exact absurd (congrArg (fun t => (t.host .a).refCnt) hrun) (by decide +kernel)

/-- Refutes O46: a copy of a locked class may mark the map run-time writable, and boot ignores every such mark (R480), so the mark that boot
leaves is not the copy's. -/
theorem not_bootEndsInStandbyOrSafeIdle : ¬ Obligations.BootEndsInStandbyOrSafeIdle := by
  intro hall
  obtain ⟨hprimary, -⟩ := (hall lockedInputs lockedImaged).1 rfl rfl
  obtain ⟨-, hloads⟩ := hprimary false lockedData lockedCopy_chosen
  obtain ⟨-, -, -, -, hmapRt, -⟩ := hloads _ rfl
  have hmarked : (boot lockedInputs lockedImaged).ldr.mapRt = true := hmapRt
  obtain ⟨-, -, hlocked, -⟩ := lockedHeader_valid
  have hsource : primarySrc lockedInputs = .eeprom := rfl
  rw [boot_of_chosen lockedInputs lockedImaged (false, lockedData) rfl rfl lockedCopy_chosen, bootFrom_mapRt, hsource, lockedImaged_header,
    hlocked] at hmarked
  exact absurd hmarked nofun

/-- Settles O55: the entry goes behind a ring with room or made room, and a host's reads and moves reach its own registers alone. -/
theorem journalKeepsPopsAndMoves : Obligations.JournalKeepsPopsAndMoves := by
  intro s
  refine ⟨fun q rest hc hqueue hcyc => ?_, fun hn => congrArg Host.Outcome.next (journalWrite_of_not_due hn), fun h hc hh hr => ?_,
    fun h hc hh hr => ⟨fun e hloaded hunread => ?_, fun hloaded => ?_⟩, fun h => ⟨fun hl => ?_, fun hl => ?_⟩⟩
  · have hrun : exec .journalWrite s = .next (writeEntry q (s.dequeued rest)) := congrArg Host.Outcome.next (journalWrite_of_due hc hqueue hcyc)
    have hframe : ∀ e refused, Within [.ev, .jrn, .ka] s ((s.dequeued rest).appended q e refused) := fun e refused =>
      ((dequeued_within s rest).mono (by decide)).step (appended_within _ q e refused) (by decide)
    refine ⟨fun hroom hpin => ?_, fun hroom hwants hcrowd hquiet => ?_, fun old o more hfull hpin hfind hheld herase => ?_⟩
    · have hkept : pinRefused (s.dequeued rest) q = false := pinRefused_eq_false hpin
      rw [writeEntry_eq (makeRoom_of_room (s := s.dequeued rest) hroom), hkept, if_neg Bool.false_ne_true] at hrun
      exact ⟨_, hrun, rfl, rfl, rfl, hframe _ _⟩
    · have hrefused : pinRefused (s.dequeued rest) q = true := pinRefused_eq_true hwants hcrowd
      rw [writeEntry_eq (makeRoom_of_room (s := s.dequeued rest) hroom), hrefused, if_pos rfl] at hrun
      let y := (s.dequeued rest).appended q (entryFor (s.dequeued rest) (s.dequeued rest) q) true
      have hevent : Within [.ev] y _ := occur_quiet (word (q.seq.getD s.ka.nextSeq).toNat) ((quiet_congr rfl 185).mpr hquiet)
      exact ⟨_, hrun, hevent .jrn (by decide), hevent .ka (by decide), (hframe _ _).step hevent (by decide)⟩
    · have hkept : pinRefused (s.dequeued rest) q = false := pinRefused_eq_false hpin
      rw [writeEntry_eq (makeRoom_of_full (s := s.dequeued rest) hfull hfind hheld herase), hkept, if_neg Bool.false_ne_true] at hrun
      refine ⟨_, hrun, rfl, rfl, fun h => ?_, rfl, ?_⟩
      · exact (roomMade_host (s.dequeued rest) old.no o.no (o :: more) h).trans (overwritten_eq _ _ _)
      · exact (((dequeued_within s rest).mono (by decide)).step (roomMade_within _ _ _ _) (by decide)).step (appended_within _ q _ false) (by decide)
  · obtain ⟨x, code, hrun, hx, hhost, hother, hsent⟩ := journalLoad_runs hc hh hr
    have hunread : nextUnread x h = nextUnread s h := nextUnread_congr (hx .jrn (by decide)) (by rw [hhost])
    have hword : ∀ w y, ((sendWord w y).readDone h (Reg.jrnE 0).addr code).bus.rdata = w := fun w y => by
      rw [Bus.rdata, readDone_sent, sendWord_sent, List.getLastD_concat]
    refine ⟨_, congrArg Host.Outcome.next hrun, ?_, fun g hg => ?_, ?_, ?_, fun e he => ?_, fun hnone => ?_⟩
    · exact hx.trans ((within_loadEntry h x).trans ((within_set_bus _ _).trans (readDone_within _ h _ code)))
    · rw [readDone_host_other _ _ code hg, sendWord_host, loadEntry_host_other hg, hother g hg]
    · rw [readDone_host, sendWord_host, loadEntry_jrnPtr, hhost]
    · rw [hword, bufWord, bufWord, readDone_host, sendWord_host]
    · rw [readDone_host, sendWord_host, loadEntry_some (hunread.trans he)]
      exact ⟨rfl, rfl⟩
    · have hempty := loadEntry_none (hunread.trans hnone)
      rw [readDone_host, sendWord_host, hword, hempty]
      exact ⟨rfl, rfl, bufWord_zero (by rw [hempty]) 0⟩
  · obtain ⟨x, code, hrun, hx, hhost, hother, hsent⟩ := readAt_sends hc hh hr nofun (fun _ => rfl) (readReg_jrnE_reading hr)
    have hpop : popEntry h x = _ := popEntry_of_loaded (by rw [hhost]; exact hloaded)
      ((nextUnread_congr (hx .jrn (by decide)) (by rw [hhost])).trans hunread)
    have hservice : jrInService x = jrInService s := jrInService_congr (hx .settings (by decide)) (hx .pwr (by decide)) (hx .xm (by decide))
    have hcommit : readCommit h (.jrnE 7) x = popEntry h x := rfl
    have hset : (popEntry h x).host h = { s.host h with ptr := BitVec.ofNat 16 (Reg.jrnE 7).addr, jrnLoaded := none, jrnPtr := e.no + 1 } := by
      rw [hpop, popped_host, hhost]
    rw [hcommit] at hrun
    refine ⟨_, congrArg Host.Outcome.next hrun, fun g hg => ?_, ?_, ?_, ?_, ?_, ?_, ?_⟩
    · rw [readDone_host_other _ _ code hg, popEntry_host_other hg, hother g hg]
    · rw [Bus.rdata, readDone_sent, popEntry_sent, hsent, readReg_jrnE h hr]; rfl
    · rw [readDone_host, hset]
    · rw [readDone_host, hset]
    · rw [readDone_host, hset]
    · rw [readDone_within _ h _ code .jrn (by decide), hpop, hservice, hx .jrn (by decide)]; rfl
    · exact ((hx.mono (by decide)).step (within_popEntry h x) (by decide)).step (readDone_within _ h _ code) (by decide)
  · obtain ⟨x, code, hrun, hx, hhost, hother, hsent⟩ := readAt_sends hc hh hr nofun (fun _ => rfl) (readReg_jrnE_reading hr)
    have hpop : popEntry h x = _ := popEntry_of_not_loaded (by rw [hhost]; exact hloaded)
    have hcommit : readCommit h (.jrnE 7) x = popEntry h x := rfl
    rw [hcommit] at hrun
    refine ⟨_, congrArg Host.Outcome.next hrun, ?_, ?_, fun g hg => ?_, ?_⟩
    · rw [Bus.rdata, readDone_sent, popEntry_sent, hsent, readReg_jrnE h hr]; rfl
    · rw [readDone_host, hpop, modHost_host, hhost]
    · rw [readDone_host_other _ _ code hg, popEntry_host_other hg, hother g hg]
    · rw [hpop]
      exact hx.trans ((within_State_modHost _ _ _).trans (readDone_within _ h _ code))
  · refine ⟨_, congrArg Host.Outcome.next (moveOldest_lands hl), ?_⟩
    have hpointer : (match s.jrn.ring with | e :: _ => e.no | [] => s.jrn.nextNo) = (s.jrn.ring.map JournalEntry.no).headD s.jrn.nextNo := by
      cases s.jrn.ring <;> rfl
    rw [← hpointer, ← (opened_within s h Reg.jrnHctl.addr .jrn (by decide) : _ = s.jrn)]
    exact moved_opened s h _ _
  · refine ⟨_, congrArg Host.Outcome.next (moveNewest_lands hl), ?_⟩
    rw [← (opened_within s h Reg.jrnHctl.addr .jrn (by decide) : _ = s.jrn)]
    exact moved_opened s h _ _

/-- Settles O56: each row of the port by its own lemma, the events inside the event system. -/
theorem xmemServesTheJournalAndTheHosts : Obligations.XmemServesTheJournalAndTheHosts := by
  intro s
  refine ⟨fun hc hxmi => ⟨fun d page e4k program erase he => ⟨fun hj hr => ?_, fun hj hr hq => ?_⟩, fun hq f hf => ?_⟩, fun hoff f => ?_,
    fun hin hs hready hleave hq => ?_, fun hn => ?_, fun hready hcredit hleave => ?_, fun b rest hup hs hb hw => ?_,
    fun hn => congrArg Host.Outcome.next (xmemBurstDone_of_not_due hn), fun hup hs hd hb hr hq => ?_, fun hup hs hq => ?_,
    fun hup => ?_, fun hd => ?_, fun h => ⟨fun data hl => ?_, fun hc hh hr => ?_⟩⟩
  · have hout : journalOut s d = false := hj
    have hrun := xmemDiscovery_of_on hc hxmi (.valid d e4k page program erase)
    rw [discover_valid he hr, hout, if_neg Bool.false_ne_true] at hrun
    have hask := within_xmAsk false { s with xm := s.xm.found d page program erase false }
    exact ⟨_, congrArg Host.Outcome.next hrun, hask .xm (by decide), ((within_set_xm s _).mono (by decide)).step hask (by decide)⟩
  · have hout : journalOut s d = true := hj
    have hrun := xmemDiscovery_of_on hc hxmi (.valid d e4k page program erase)
    rw [discover_valid he hr, hout, if_pos rfl] at hrun
    let y : State := { s with xm := s.xm.found d page program erase true }
    have hevent : Within [.ev] y (occur 177 2 y) := occur_quiet 2 ((quiet_congr rfl 177).mpr hq)
    have hask := within_xmAsk false (nextCycle (occur 177 2 y))
    have hxm : (xmAsk false (nextCycle (occur 177 2 y))).xm = y.xm := (hask .xm (by decide)).trans (hevent .xm (by decide))
    refine ⟨_, congrArg Host.Outcome.next hrun, hxm, ?_, ?_⟩
    · rw [jrInService, hxm]; simp [y, Xmem.found]
    · exact ((((within_set_xm s _).mono (by decide)).step hevent (by decide)).step (within_nextCycle _) (by decide)).step hask (by decide)
  · obtain ⟨n, hnothing⟩ := discover_nothing (s := s) hf
    let y : State := { s with xm := { s.xm with present := false, dens := 0 } }
    have hevent : Within [.ev] y (occur 177 n y) := occur_quiet n ((quiet_congr rfl 177).mpr hq)
    have hxm : (occur 177 n y).xm = y.xm := hevent .xm (by decide)
    have hdown : xmUp (occur 177 n y) = false := by rw [xmUp, hxm]; rfl
    have hrun := xmemDiscovery_of_on hc hxmi f
    rw [hnothing, xmAsk_of_down hdown] at hrun
    exact ⟨_, congrArg Host.Outcome.next hrun, hxm, ((within_set_xm s _).mono (by decide)).step hevent (by decide)⟩
  · exact congrArg Host.Outcome.next (xmemDiscovery_of_off hoff f)
  · obtain ⟨x, d, hrun, hfound, hformat⟩ := journalHeadSearch_of_leave hin hs hready hleave
    have hevent : Within [.ev] { releaseLeave .xmJournal s with xm := x } (occur 183 d { releaseLeave .xmJournal s with xm := x }) :=
      occur_quiet d ((quiet_congr rfl 183).mpr hq)
    have hxm : (occur 183 d { releaseLeave .xmJournal s with xm := x }).xm = x := hevent .xm (by decide)
    exact ⟨_, congrArg Host.Outcome.next hrun, ((releaseLeave_set_within .xmJournal s x).mono (by decide)).step hevent (by decide),
      fun h hh => hxm.trans (hfound h hh), fun hn => hxm.trans (hformat hn)⟩
  · exact congrArg Host.Outcome.next (journalHeadSearch_of_not_due hn)
  · have hnext := nextJournal_of_ready hready
    refine ⟨fun hs => ?_, fun hs he hram => ?_, fun hs he hram => ?_⟩
    · have hstaged := journalBurst_entries hready hcredit hleave (nextJournal_entries hs)
      exact ⟨_, rfl, hstaged.frame, hstaged.port, hstaged.others, hstaged.same⟩
    · have hstaged := journalBurst_erase hready hcredit hleave (nextJournal_erase hs he hram hnext)
      exact ⟨_, rfl, hstaged.frame, hstaged.port, hstaged.others, hstaged.same⟩
    · have hstaged := journalBurst_fill hready hcredit hleave (nextJournal_fill hs he hram hnext)
      exact ⟨_, rfl, hstaged.frame, hstaged.port, hstaged.others, hstaged.same⟩
  · let y := s.unstaged rest
    obtain ⟨hafter, hmem, hhead⟩ := burstDone_after b (burstEffect b y)
    have hunstaged : Within [.xm] s y := within_set_xm s _
    refine ⟨_, congrArg Host.Outcome.next (xmemBurstDone_of_begun hup hs hb hw), ?_, ?_, ?_⟩
    · rintro nos slot bytes rfl
      obtain ⟨heffect, hprog, hmoved, hring⟩ := burstEffect_journal nos slot bytes y
      exact ⟨((hunstaged.mono (by decide)).step heffect (by decide)).step hafter (by decide), hmem.trans hprog, hhead.trans hmoved,
        (hafter .jrn (by decide)).trans hring⟩
    · intro a bytes hw
      obtain ⟨heffect, hprog, hkept⟩ := burstEffect_write hw y
      exact ⟨((hunstaged.mono (by decide)).step heffect (by decide)).step hafter (by decide), hmem.trans hprog, hhead.trans hkept⟩
    · intro a he
      obtain ⟨heffect, hblank, hkept⟩ := burstEffect_erase he y
      exact ⟨((hunstaged.mono (by decide)).step heffect (by decide)).step hafter (by decide), hmem.trans hblank, hhead.trans hkept⟩
  · obtain ⟨hrun, hevent⟩ := xmemStall_of_due hup hs hd hb hr hq
    refine ⟨_, rfl, ((stalled_within s).mono (by decide)).step hevent (by decide), ?_, ?_, fun u hu => ?_⟩
    · exact hevent .xm (by decide)
    · exact hevent .ldr (by decide)
    · have hdraw : (xmemStall s).draw = (xmNoLeave s).draw := hevent .draw (by decide)
      unfold leaveHeld leaveWaits
      rw [hdraw]
      exact xmNoLeave_held hu s
  · let y : State := { s with xm := { s.xm with stall := false, jready := false } }
    have hevent : Within [.ev] y (occur 179 (word (s.xm.lost % 2 ^ 24)) y) := occur_quiet _ ((quiet_congr rfl 179).mpr hq)
    have hask := within_xmAsk false (occur 179 (word (s.xm.lost % 2 ^ 24)) y)
    exact ⟨_, congrArg Host.Outcome.next (xmemRecovery_of_stalled hup hs),
      (((within_set_xm s _).mono (by decide)).step hevent (by decide)).step hask (by decide), (hask .xm (by decide)).trans (hevent .xm (by decide))⟩
  · exact ⟨congrArg Host.Outcome.next (if_neg (by rw [hup]; simp)), congrArg Host.Outcome.next (if_neg (by rw [hup]; simp))⟩
  · exact congrArg Host.Outcome.next (if_neg (by rw [hd]; simp))
  · have hq := (startPrefetch_queues (s.opened h Reg.xmIdx.addr) h (fld data 25 0)).within_bus (opened_within s h _)
      (fun g hg => opened_host_other s _ hg) Within.refl (fun _ _ => rfl) rfl rfl
    exact ⟨_, congrArg Host.Outcome.next (xmIdx_lands hl), hq.index, hq.held, hq.queued, hq.mem, hq.others, hq.frame⟩
  · obtain ⟨hdata, hq⟩ := xmemWindowAdvance_queues hc hh hr
    exact ⟨_, rfl, hdata, hq.index, hq.held, hq.queued, hq.mem, hq.others, hq.frame⟩

end

section
/-! SUPPORT. Output courses that are held low, and the tile that a trip cuts (R59 to R61). -/

namespace Sys2Proof.Machine

/-! Courses (R50) -/

/-- A hold from m leaves what came before it. -/
theorem wave_at_hold_before (w : Wave) {m x : Int} (b : Bool) (hx : x < m) : Wave.at (Wave.hold w m b) x = Wave.at w x := by
  have hfilter : Wave.at (w.filter fun p => decide (p.1 < m)) x = Wave.at w x := by
    have hpast : (fun p : Int × Bool => decide (decide (p.1 < m) = true ∧ decide (p.1 ≤ x) = true)) = fun p => decide (p.1 ≤ x) := by
      funext p
      simp only [decide_eq_true_eq]
      exact decide_eq_decide.mpr ⟨And.right, fun hp => ⟨by omega, hp⟩⟩
    rw [Wave.at, List.find?_filter, hpast, Wave.at]
  have hcons : ∀ v : Wave, Wave.at ((m, b) :: v) x = Wave.at v x := fun v => by
    have hm : ¬m ≤ x := by omega
    simp [Wave.at, hm]
  unfold Wave.hold
  dsimp only
  split
  · exact hfilter
  · exact (hcons _).trans hfilter

/-- The high side is low at n and at every later instant. -/
def Edges.HighOffFrom (e : Edges) (n : Int) : Prop := ∀ x : Int, n ≤ x → highAt e x = false
/-- The low side is low at n and at every later instant. -/
def Edges.LowOffFrom (e : Edges) (n : Int) : Prop := ∀ x : Int, n ≤ x → lowAt e x = false

theorem cutHigh_highOff (e : Edges) (n : Int) : (e.cutHigh n).HighOffFrom n := fun _ hx => wave_at_hold_false e.hi hx
theorem cutLow_lowOff (e : Edges) (n : Int) : (e.cutLow n).LowOffFrom n := fun _ hx => wave_at_hold_false e.lo hx

/-- Outputs that are low from n on stay so when both are driven low at m, be m before n or after it. -/
theorem halt_keeps_off {e : Edges} {n : Int} (m : Int) (hh : e.HighOffFrom n) (hl : e.LowOffFrom n) :
    (e.halt m).HighOffFrom n ∧ (e.halt m).LowOffFrom n := by
  have hold : ∀ w : Wave, (∀ x, n ≤ x → Wave.at w x = false) → ∀ x, n ≤ x → Wave.at (Wave.hold w m false) x = false := by
    intro w hw x hx
    by_cases hm : m ≤ x
    · exact wave_at_hold_false w hm
    · exact (wave_at_hold_before w false (by omega)).trans (hw x hx)
  exact ⟨hold e.hi hh, hold e.lo hl⟩

@[simp] theorem turnLowOn_hi (ti : Tile) (x : Int) : (ti.turnLowOn x).hi = ti.edg.hi := rfl
@[simp] theorem complement_hi (ti : Tile) (x : Int) : (ti.complement x).hi = ti.edg.hi := by
  unfold Tile.complement
  dsimp only
  split <;> rfl

/-! The tile that a trip cuts -/

theorem recount_eq (ti : Tile) (n : Int) : ∃ a, ti.recount n = { ti with leap := { ti.leap with onTotal := a } } := by
  unfold Tile.recount
  split
  · exact ⟨_, rfl⟩
  · exact ⟨ti.leap.onTotal, rfl⟩

/-- A cycle-by-cycle trip changes a tile in its outputs, its trip marks and its Leap on-time alone; the high side goes off, and with TRIP_LS
the low side too (R59, R60). -/
theorem tripCut_eq (ti : Tile) (n : Int) : ∃ a e,
    ti.tripCut n = { ti with leap := { ti.leap with onTotal := a }, edg := e, trip := { ti.trip with held := true, lowHeld := tripLs ti } }
      ∧ e.HighOffFrom n ∧ (tripLs ti = true → e.LowOffFrom n) := by
  obtain ⟨a, ha⟩ := recount_eq ti n
  have hhigh : ∀ e : Edges, e.hi = (ti.edg.cutHigh n).hi → e.HighOffFrom n := fun e he x hx => by
    rw [highAt, he]; exact cutHigh_highOff ti.edg n x hx
  unfold Tile.tripCut
  rw [ha]
  dsimp only
  split
  · exact ⟨a, (ti.edg.cutHigh n).cutLow n, rfl, hhigh _ rfl, fun _ => cutLow_lowOff _ n⟩
  · next hls =>
    split_ifs
    all_goals exact ⟨a, _, rfl, hhigh _ (by simp), fun h => absurd h hls⟩

/-- The tile at a latched trip that has effect from n: both outputs low and LATCH set (R61). -/
def Tile.latchCut (ti : Tile) (n : Int) : Tile :=
  { ti.recount n with
    edg := (ti.edg.cutHigh n).cutLow n
    trip := { ti.trip with latch := true, held := true, resume := false, count := satInc ti.trip.count 65535 } }

theorem latchCut_off (ti : Tile) (n : Int) : (ti.latchCut n).edg.HighOffFrom n ∧ (ti.latchCut n).edg.LowOffFrom n :=
  ⟨cutHigh_highOff ti.edg n, cutLow_lowOff (ti.edg.cutHigh n) n⟩

theorem latchCut_eq (ti : Tile) (n : Int) : ∃ a, ti.latchCut n =
    { ti with leap := { ti.leap with onTotal := a }, edg := (ti.edg.cutHigh n).cutLow n
              trip := { ti.trip with latch := true, held := true, resume := false, count := satInc ti.trip.count 65535 } } := by
  obtain ⟨a, ha⟩ := recount_eq ti n
  exact ⟨a, by rw [Tile.latchCut, ha]⟩

end Sys2Proof.Machine
end

section
/-! SUPPORT. A tile leaves its rail's set by Tail-drop, and a tile source fires (R225, R268, R283). -/

namespace Sys2Proof.Machine

/-! Leap (R225) -/

theorem leapRemove_of_not_under {s : State} {u : TileId} (hu : (s.tile u).leap.under = false) : leapRemove u s = s := by
  unfold leapRemove
  split
  · rfl
  · exact if_neg (by simp [hu])

theorem modTile_of_fixed {s : State} {u : TileId} {f : Tile → Tile} (hf : f (s.tile u) = s.tile u) : s.modTile u f = s := by
  have htiles : (s.modTile u f).tiles = s.tiles := vector_ext_get fun v => by
    by_cases hv : v = u
    · subst hv; exact (modTile_tile s v f).trans hf
    · exact modTile_other s u f v hv
  exact congrArg (fun x => { s with tiles := x }) htiles

/-- The tile is taken out of a Leap, and nothing follows from that. -/
def State.outOfLeap (s : State) (u : TileId) : State := s.modTile u fun ti => { ti with leap := { ti.leap with under := false } }

/-- On a rail with no Leap in progress and no stop that waits, a tile's part in a Leap ends with no further effect. -/
theorem leapRemove_of_idle {s : State} {u : TileId} {k : RailId} (hr : (s.tile u).rail = some k) (hleap : leapActive s k = false)
    (hstop : (s.rail k).seq.stopWait = none) : leapRemove u s = s.outOfLeap u := by
  by_cases hu : (s.tile u).leap.under = true
  · have hcheck : leapCheck k (some 3) (s.outOfLeap u) = s.outOfLeap u := by
      have hidle : leapActive (s.outOfLeap u) k = false := hleap
      exact if_neg (by simp [hidle])
    have hresume : resumeStop occur k (s.outOfLeap u) = s.outOfLeap u := by
      have hnone : ((s.outOfLeap u).rail k).seq.stopWait = none := hstop
      unfold resumeStop
      rw [hnone]
    have hrun : leapRemove u s = resumeStop occur k (leapCheck k (some 3) (s.outOfLeap u)) := by
      unfold leapRemove
      rw [hr]
      exact if_pos hu
    rw [hrun, hcheck, hresume]
  · have hoff : (s.tile u).leap.under = false := by simpa using hu
    rw [leapRemove_of_not_under hoff]
    exact (modTile_of_fixed (by rw [← hoff])).symm

/-! Removal from the rail's set (R154, R283, R285) -/

/-- A tile that leaves ACTIVE or READY keeps the time it left ACTIVE, takes its state and stops. -/
theorem leave_eq (ti : Tile) (now : Nat) (a : TileAct) (reason : Nat) :
    ∃ l, ti.leave now a reason = ({ ti with leftAt := l }.setAct a reason).stopped now := by
  unfold Tile.leave
  dsimp only
  split
  · exact ⟨_, rfl⟩
  · exact ⟨ti.leftAt, rfl⟩

theorem closeSlot_tile (k : RailId) (j : Option Nat) (s : State) (v : TileId) :
    ∃ n, (closeSlot k j s).tile v = { s.tile v with slot := n } ∧ ((s.tile v).slot = none → n = none) := by
  unfold closeSlot
  cases j with
  | none => exact ⟨_, rfl, id⟩
  | some j =>
    dsimp only
    rw [modTilesOf_tile]
    split
    · split
      · next n hslot => split_ifs <;> exact ⟨_, rfl, fun h => absurd (hslot.symm.trans h) nofun⟩
      · exact ⟨(s.tile v).slot, rfl, id⟩
    · exact ⟨(s.tile v).slot, rfl, id⟩

theorem settleChange_rail (k : RailId) (s : State) :
    ∃ c, (settleChange k s).rail k = { s.rail k with ilv := { (s.rail k).ilv with change := c } } := by
  unfold settleChange
  split
  · exact ⟨_, rfl⟩
  · exact ⟨_, modIlv_rail s k _⟩

theorem settleChange_other (k : RailId) (s : State) : OtherRails k s (settleChange k s) := by
  unfold settleChange
  split
  · exact fun _ _ => rfl
  · exact modRail_other s k _

/-- A tile of the rail that is neither DROPPED nor EXCLUDED counts in Q (R276). -/
theorem qOf_ne_zero {s : State} {k : RailId} {v : TileId} (hr : (s.tile v).rail = some k) (hd : (s.tile v).act ≠ .dropped)
    (he : (s.tile v).act ≠ .excluded) : qOf s k ≠ 0 := by
  have hmem : v ∈ (tilesOf s k).filter fun t => (s.tile t).act != .dropped && (s.tile t).act != .excluded := by
    simp [tilesOf, allTiles, finList, hr, hd, he]
  exact Nat.ne_of_gt (List.length_pos_of_mem hmem)

theorem noTileLeft_of_tiles {s : State} {k : RailId} (hq : qOf s k ≠ 0) (cause : Nat) : noTileLeft k cause s = s :=
  if_neg fun h => hq h.1

/-- Tile u has left its rail's set for state `a`: it is stopped, and its detectors judge it as it stood (R269). -/
def State.unset (s : State) (u : TileId) (a : TileAct) (reason : Nat) : State :=
  s.modTile u fun ti => { ti.leave s.now a reason with reqPend := false, was := (s.tile u).keepWas (cycleOf s) }

/-- Its slot in rail k is closed, and a re-spacing is due where it held one. -/
def State.unslotted (s : State) (u : TileId) (k : RailId) (a : TileAct) (reason : Nat) : State :=
  (closeSlot k (s.tile u).slot (s.unset u a reason)).modIlv k fun i =>
    { i with respaceDue := i.respaceDue || (s.tile u).slot.isSome, adding := if i.adding = some u then none else i.adding }

section
variable (s : State) (u : TileId) (k : RailId) (a : TileAct) (reason : Nat)

theorem unset_tile : (s.unset u a reason).tile u =
    { (s.tile u).leave s.now a reason with reqPend := false, was := (s.tile u).keepWas (cycleOf s) } := modTile_tile ..

theorem removed_tile : (settleChange k (s.unslotted u k a reason)).tile u = (s.unset u a reason).tile u := by
  have hslot : ((s.unset u a reason).tile u).slot = none := by
    obtain ⟨l, hleave⟩ := leave_eq (s.tile u) s.now a reason
    rw [unset_tile, hleave]; rfl
  obtain ⟨n, hclosed, hnone⟩ := closeSlot_tile k (s.tile u).slot (s.unset u a reason) u
  rw [(within_settleChange k _).tile_eq (by decide), State.unslotted, State.modIlv, modRail_tile, hclosed, hnone hslot, ← hslot]

theorem removed_tile_other {v : TileId} (hv : v ≠ u) :
    ∃ n, (settleChange k (s.unslotted u k a reason)).tile v = { s.tile v with slot := n } := by
  obtain ⟨n, hclosed, -⟩ := closeSlot_tile k (s.tile u).slot (s.unset u a reason) v
  have hunset : (s.unset u a reason).tile v = s.tile v := modTile_other s u _ v hv
  exact ⟨n, by rw [(within_settleChange k _).tile_eq (by decide), State.unslotted, State.modIlv, modRail_tile, hclosed, hunset]⟩

theorem removed_rail : ∃ d c, (settleChange k (s.unslotted u k a reason)).rail k = { s.rail k with
    ilv := { (s.rail k).ilv with respaceDue := (s.rail k).ilv.respaceDue || (s.tile u).slot.isSome, adding := d, change := c } } := by
  have hclosed : (closeSlot k (s.tile u).slot (s.unset u a reason)).rail k = s.rail k := (within_closeSlot k _ _).rail_eq (by decide) k
  obtain ⟨c, hc⟩ := settleChange_rail k (s.unslotted u k a reason)
  rw [State.unslotted, modIlv_rail, hclosed] at hc
  exact ⟨_, c, hc⟩

theorem removed_other : OtherRails k s (settleChange k (s.unslotted u k a reason)) := fun j hj =>
  (settleChange_other k _ j hj).trans ((modRail_other _ k _ j hj).trans ((within_closeSlot k _ _).rail_eq (by decide) j))

end

/-- With another ACTIVE tile left, no more follows from the removal of a tile that is under no Leap. -/
theorem removeTile_of_others {s : State} {u v : TileId} {k : RailId} (a : TileAct) (reason : Nat) (hr : (s.tile u).rail = some k)
    (hu : (s.tile u).leap.under = false) (hv : v ≠ u) (hvr : (s.tile v).rail = some k) (hva : (s.tile v).act = .active) :
    removeTile u a reason s = settleChange k (s.unslotted u k a reason) := by
  obtain ⟨n, hn⟩ := removed_tile_other s u k a reason hv
  have hq : qOf (settleChange k (s.unslotted u k a reason)) k ≠ 0 := by
    refine qOf_ne_zero (v := v) ?_ ?_ ?_ <;> rw [hn]
    · exact hvr
    · exact fun h => absurd (hva.symm.trans h) nofun
    · exact fun h => absurd (hva.symm.trans h) nofun
  have hunset : ((s.unset u a reason).tile u).rail = some k := by
    obtain ⟨l, hleave⟩ := leave_eq (s.tile u) s.now a reason
    rw [unset_tile, hleave]; exact hr
  unfold removeTile
  rw [leapRemove_of_not_under hu]
  dsimp only
  rw [show ((s.modTile u _).tile u).rail = some k from hunset]
  exact noTileLeft_of_tiles hq _

/-- What a Tail-drop of tile u of rail k with its reason leaves while another tile of the rail is ACTIVE. -/
structure TailDropped (u : TileId) (k : RailId) (reason : Nat) (s t : State) : Prop where
  tile : t.tile u = { (s.tile u).leave s.now .dropped reason with reqPend := false, was := (s.tile u).keepWas (cycleOf s) }
  acts : ∀ v, v ≠ u → (t.tile v).act = (s.tile v).act
  check : (t.rail k).prot.dropCheck = true
  respace : (t.rail k).ilv.respaceDue = ((s.rail k).ilv.respaceDue || (s.tile u).slot.isSome)
  state : railSt t k = railSt s k
  others : OtherRails k s t

theorem tailDrop_drops {s : State} {u v : TileId} {k : RailId} (reason : Nat) (hr : (s.tile u).rail = some k)
    (hact : (s.tile u).act = .active ∨ (s.tile u).act = .ready) (hu : (s.tile u).leap.under = false) (hv : v ≠ u)
    (hvr : (s.tile v).rail = some k) (hva : (s.tile v).act = .active) : TailDropped u k reason s (tailDrop u reason s) := by
  have hdrop : tailDrop u reason s = (settleChange k (s.unslotted u k .dropped reason)).modProt k fun p => { p with dropCheck := true } := by
    unfold tailDrop
    rw [← removeTile_of_others .dropped reason hr hu hv hvr hva, hr]
    rcases hact with hact | hact <;> rw [hact]
  obtain ⟨d, c, hrail⟩ := removed_rail s u k .dropped reason
  have hk := modProt_rail (settleChange k (s.unslotted u k .dropped reason)) k fun p => { p with dropCheck := true }
  rw [hrail] at hk
  rw [hdrop]
  exact {
    tile := (removed_tile s u k .dropped reason).trans (unset_tile s u .dropped reason)
    acts := fun w hw => by
      obtain ⟨n, hn⟩ := removed_tile_other s u k .dropped reason hw
      rw [State.modProt, modRail_tile, hn]
    check := by rw [hk]
    respace := by rw [hk]
    state := by rw [railSt, hk]; rfl
    others := fun j hj => (modRail_other _ k _ j hj).trans (removed_other s u k .dropped reason j hj) }

section
variable {u : TileId} {k : RailId} {reason : Nat} {s t : State} (h : TailDropped u k reason s t)
include h

/-- An occurrence after it leaves a Tail-drop what it is. -/
theorem TailDropped.then_event {x : State} (hx : Within [.ev] t x) : TailDropped u k reason s x := by
  have hrail := hx.rail_eq (by decide)
  have htile := hx.tile_eq (by decide)
  exact {
    tile := (htile u).trans h.tile
    acts := fun v hv => (congrArg Tile.act (htile v)).trans (h.acts v hv)
    check := by rw [hrail]; exact h.check
    respace := by rw [hrail]; exact h.respace
    state := by rw [railSt, hrail]; exact h.state
    others := fun j hj => (hrail j).trans (h.others j hj) }

/-- The tile is DROPPED with its reason, its generation one further, its slot, fade and trim gone; FAULT stays (R283, R290). -/
theorem TailDropped.fields (hact : (s.tile u).act ≠ .dropped) :
    (t.tile u).act = .dropped ∧ (t.tile u).reason = reason ∧ (t.tile u).gen = (s.tile u).gen + 1 ∧ (t.tile u).slot = none
      ∧ (t.tile u).fade = .none ∧ (t.tile u).prot.trimAcc = 0 ∧ (t.tile u).prot.fault = (s.tile u).prot.fault := by
  obtain ⟨l, hl⟩ := leave_eq (s.tile u) s.now .dropped reason
  rw [h.tile, hl]
  exact ⟨rfl, rfl, if_neg hact.symm, rfl, rfl, rfl, rfl⟩

/-- Outputs that were low from n on stay low. -/
theorem TailDropped.off {n : Int} (hh : (s.tile u).edg.HighOffFrom n) (hl : (s.tile u).edg.LowOffFrom n) :
    (t.tile u).edg.HighOffFrom n ∧ (t.tile u).edg.LowOffFrom n := by
  have hedg : (t.tile u).edg = (s.tile u).edg.halt (nextTick s.now) := (congrArg Tile.edg h.tile).trans (leave_edg (s.tile u) s.now .dropped reason)
  rw [hedg]
  exact halt_keeps_off _ hh hl

end

/-! A tile source that is no class fault fires (R268) -/

/-- The cause of a tile source stands in FAULT, and the source's counter, where it has one, has counted. -/
def Tile.caused (ti : Tile) (c : TileCause) : Tile :=
  { ti with prot := { ti.prot with
      fault := setBit ti.prot.fault c.bit, ocCount := if c.source.idx = 1 then satInc ti.prot.ocCount 65535 else ti.prot.ocCount } }

section
variable {s : State} {u : TileId} {k : RailId} {c : TileCause} (hr : (s.tile u).rail = some k)
  (hcls : respClass (loopW s k .respTile) c.source.idx = false)
include hr hcls

/-- With code 0 an occurrence that is always told of is the only further effect. -/
theorem fireTile_code0 (hcode : respCode (loopW s k .respTile) c.source.idx = 0) (detail : Nat) :
    ∃ d, fireTile u c detail true s = occur u.val d (s.modTile u fun ti => ti.caused c) := by
  unfold fireTile
  rw [hr]
  dsimp only
  rw [hcode, hcls]
  exact ⟨_, rfl⟩

/-- Code 3 drops the tile. -/
theorem fireTile_code3 (hcode : respCode (loopW s k .respTile) c.source.idx = 3) (detail : Nat) :
    ∃ d, fireTile u c detail true s = occur u.val d (tailDrop u c.reason (s.modTile u fun ti => ti.caused c)) := by
  unfold fireTile
  rw [hr]
  dsimp only
  rw [hcode, hcls]
  exact ⟨_, rfl⟩

end

end Sys2Proof.Machine
end

section
/-! SUPPORT. TRIP_RECOGNISED: what is judged, and what the cycle-by-cycle and the latched trip leave (R59 to R61). -/

namespace Sys2Proof.Machine

/-- The trip of tile u at a tick has been seen: time, the lifetime count of trips and the shown input. -/
def State.tripSeen (s : State) (u : TileId) (tick : Nat) : State :=
  (lifeInc (finOf 73 (by decide) (25 + u.val)) (s.advance (16 * tick))).modTile u fun ti => { ti with trip := { ti.trip with active := true } }

theorem tripSeen_tile (s : State) (u : TileId) (tick : Nat) :
    (s.tripSeen u tick).tile u = { s.tile u with trip := { (s.tile u).trip with active := true } } := modTile_tile ..
theorem tripSeen_other (s : State) (u : TileId) (tick : Nat) : OtherTiles u s (s.tripSeen u tick) := fun v hv => modTile_other _ u _ v hv
theorem tripSeen_now (s : State) (u : TileId) (tick : Nat) : (s.tripSeen u tick).now = max s.now (16 * tick) := by
  have htick : (16 * (tick : Int)).toNat = 16 * tick := by omega
  exact congrArg (max s.now) htick
theorem tripSeen_within (s : State) (u : TileId) (tick : Nat) : Within [.now, .tiles, .ka] s (s.tripSeen u tick) :=
  (((within_State_advance s _).mono (by decide)).step (within_lifeInc _ _) (by decide)).step (within_State_modTile _ u _) (by decide)

theorem tripRecognised_of_off {s : State} {u : TileId} {tick : Nat} (h : tripEn (s.tile u) = false ∨ tripClear (s.tile u) tick = false) :
    tripRecognised u tick s = s := by
  unfold tripRecognised
  dsimp only
  split
  · rfl
  · exact if_neg (by rcases h with h | h <;> simp [h])

section
variable {s : State} {u : TileId} {k : RailId} {tick : Nat} (hr : (s.tile u).rail = some k)
  (hact : (s.tile u).act = .active ∨ (s.tile u).act = .ready) (hen : tripEn (s.tile u) = true) (hclear : tripClear (s.tile u) tick = true)
include hr hact hen hclear

theorem tripRecognised_of_clear : tripRecognised u tick s =
    if tripLatched (s.tile u) then tripLatch u (16 * (tick : Int) + 16) (s.tripSeen u tick)
    else tripCycle u (16 * (tick : Int) + 16) (s.tripSeen u tick) := by
  unfold tripRecognised
  dsimp only
  rw [hr]
  exact if_pos (by rcases hact with h | h <;> simp [h, hen, hclear])

theorem tripRecognised_cycle (hmode : tripLatched (s.tile u) = false) :
    tripRecognised u tick s = tripCycle u (16 * (tick : Int) + 16) (s.tripSeen u tick) :=
  (tripRecognised_of_clear hr hact hen hclear).trans (if_neg (by simp [hmode]))

theorem tripRecognised_latch (hmode : tripLatched (s.tile u) = true) :
    tripRecognised u tick s = tripLatch u (16 * (tick : Int) + 16) (s.tripSeen u tick) :=
  (tripRecognised_of_clear hr hact hen hclear).trans (if_pos hmode)

end

/-! Cycle by cycle (R59, R60) -/

/-- A cycle-by-cycle trip with effect from n: the tile is cut, its period counts as tripped, COUNT takes the first trip of a period, and
nothing but the tile and the event system changes. -/
structure CycleTripped (u : TileId) (n : Int) (s t : State) : Prop where
  frame : Within [.tiles, .ev] s t
  others : OtherTiles u s t
  tile : ∃ a e, t.tile u = { s.tile u with
      leap := { (s.tile u).leap with onTotal := a }, edg := e
      trip := { (s.tile u).trip with
        held := true, lowHeld := tripLs (s.tile u), inPeriod := true
        count := if (s.tile u).trip.inPeriod = true then (s.tile u).trip.count else satInc (s.tile u).trip.count 65535 } }
    ∧ e.HighOffFrom n ∧ (tripLs (s.tile u) = true → e.LowOffFrom n)

theorem tripCycle_trips {s : State} {u : TileId} (n : Int) (hq : Quiet s u.val) : CycleTripped u n s (tripCycle u n s) := by
  obtain ⟨a, e, hcut, hhigh, hlow⟩ := tripCut_eq (s.tile u) n
  have htile : (s.modTile u fun ti => ti.tripCut n).tile u = _ := (modTile_tile s u _).trans hcut
  unfold tripCycle
  dsimp only
  cases hin : (s.tile u).trip.inPeriod with
  | true =>
    exact {
      frame := (within_State_modTile s u _).mono (by decide)
      others := modTile_other s u _
      tile := ⟨a, e, htile.trans (by simp [hin]), hhigh, hlow⟩ }
  | false =>
    rw [if_pos (by rfl)]
    let x := (s.modTile u fun ti => ti.tripCut n).modTile u fun ti =>
      { ti with trip := { ti.trip with inPeriod := true, count := satInc ti.trip.count 65535 } }
    have hevent : Within [.ev] x (occur u.val (tileDetail x u 0 false) x) := occur_quiet _ ((quiet_congr rfl _).mpr hq)
    exact {
      frame := (((within_State_modTile s u _).trans (within_State_modTile _ u _)).mono (by decide)).step hevent (by decide)
      others := fun v hv => (hevent.tile_eq (by decide) v).trans ((modTile_other _ u _ v hv).trans (modTile_other s u _ v hv))
      tile := ⟨a, e, by rw [hevent.tile_eq (by decide), modTile_tile, htile]; simp [hin], hhigh, hlow⟩ }

/-! Latched (R61) -/

theorem tripLatch_eq (u : TileId) (n : Int) (s : State) :
    tripLatch u n s = fireTile u .tripRep 9 true ((leapRemove u s).modTile u fun ti => ti.latchCut n) := rfl

/-- The tile after a latched trip with effect from n, its cause bit set. -/
theorem latchCut_caused_eq (ti : Tile) (n : Int) : ∃ a, (ti.latchCut n).caused .tripRep =
    { ti with
      leap := { ti.leap with onTotal := a }, edg := (ti.edg.cutHigh n).cutLow n
      trip := { ti.trip with latch := true, held := true, resume := false, count := satInc ti.trip.count 65535 }
      prot := { ti.prot with fault := ti.prot.fault ||| 1 } } := by
  obtain ⟨a, ha⟩ := latchCut_eq ti n
  exact ⟨a, by rw [ha]; rfl⟩

/-- The tile's trip with effect from n has latched and set its cause, its source's response being still to come. -/
def State.tripCaused (s : State) (u : TileId) (n : Int) : State :=
  (s.modTile u fun ti => ti.latchCut n).modTile u fun ti => ti.caused .tripRep

theorem tripCaused_tile (s : State) (u : TileId) (n : Int) : (s.tripCaused u n).tile u = ((s.tile u).latchCut n).caused .tripRep := by
  rw [State.tripCaused, modTile_tile, modTile_tile]
theorem tripCaused_other (s : State) (u : TileId) (n : Int) : OtherTiles u s (s.tripCaused u n) := fun v hv =>
  (modTile_other _ u _ v hv).trans (modTile_other s u _ v hv)
theorem tripCaused_within (s : State) (u : TileId) (n : Int) : Within [.tiles] s (s.tripCaused u n) :=
  (within_State_modTile s u _).trans (within_State_modTile _ u _)

/-- The same of a tile that the trip takes out of a Leap first. -/
theorem outOfLeap_tripCaused_tile (s : State) (u : TileId) (n : Int) : ∃ l, ((s.outOfLeap u).tripCaused u n).tile u =
    { s.tile u with
      leap := l, edg := ((s.tile u).edg.cutHigh n).cutLow n
      trip := { (s.tile u).trip with latch := true, held := true, resume := false, count := satInc (s.tile u).trip.count 65535 }
      prot := { (s.tile u).prot with fault := (s.tile u).prot.fault ||| 1 } } ∧ l.under = false := by
  obtain ⟨a, ha⟩ := latchCut_caused_eq ((s.outOfLeap u).tile u) n
  rw [tripCaused_tile, ha, State.outOfLeap, modTile_tile]
  exact ⟨_, rfl, rfl⟩
theorem outOfLeap_tripCaused_other (s : State) (u : TileId) (n : Int) : OtherTiles u s ((s.outOfLeap u).tripCaused u n) := fun v hv =>
  (tripCaused_other _ u n v hv).trans (modTile_other s u _ v hv)

/-- A latched trip with effect from n whose source has no response: both outputs low, LATCH, COUNT and the cause set, and nothing but the
tile and the event system changed. -/
structure LatchTripped (u : TileId) (n : Int) (s t : State) : Prop where
  frame : Within [.tiles, .ev] s t
  others : OtherTiles u s t
  tile : t.tile u = ((s.tile u).latchCut n).caused .tripRep

section
variable {s : State} {u : TileId} {k : RailId} (n : Int) (hr : (s.tile u).rail = some k) (hcls : respClass (loopW s k .respTile) 0 = false)
  (hq : Quiet s u.val)
include hr hcls hq

theorem tripLatch_latches (hu : (s.tile u).leap.under = false) (hcode : respCode (loopW s k .respTile) 0 = 0) :
    LatchTripped u n s (tripLatch u n s) := by
  have hrail : ((s.modTile u fun ti => ti.latchCut n).tile u).rail = some k := by
    obtain ⟨a, ha⟩ := latchCut_eq (s.tile u) n
    rw [modTile_tile, ha]; exact hr
  obtain ⟨d, hrun⟩ := fireTile_code0 (c := .tripRep) hrail hcls hcode 9
  have hevent : Within [.ev] (s.tripCaused u n) (occur u.val d (s.tripCaused u n)) := occur_quiet d ((quiet_congr rfl _).mpr hq)
  rw [tripLatch_eq, leapRemove_of_not_under hu, hrun]
  exact {
    frame := ((tripCaused_within s u n).mono (by decide)).step hevent (by decide)
    others := fun v hv => (hevent.tile_eq (by decide) v).trans (tripCaused_other s u n v hv)
    tile := (hevent.tile_eq (by decide) u).trans (tripCaused_tile s u n) }

theorem tripLatch_drops {v : TileId} (hact : (s.tile u).act = .active ∨ (s.tile u).act = .ready) (hleap : leapActive s k = false)
    (hstop : (s.rail k).seq.stopWait = none) (hcode : respCode (loopW s k .respTile) 0 = 3) (hv : v ≠ u)
    (hvr : (s.tile v).rail = some k) (hva : (s.tile v).act = .active) :
    TailDropped u k 12 ((s.outOfLeap u).tripCaused u n) (tripLatch u n s) := by
  let y := (s.outOfLeap u).tripCaused u n
  have hrail : (((s.outOfLeap u).modTile u fun ti => ti.latchCut n).tile u).rail = some k := by
    obtain ⟨a, ha⟩ := latchCut_eq ((s.outOfLeap u).tile u) n
    rw [modTile_tile, ha, State.outOfLeap, modTile_tile]; exact hr
  have hother : y.tile v = s.tile v := outOfLeap_tripCaused_other s u n v hv
  obtain ⟨l, hy, hout⟩ := outOfLeap_tripCaused_tile s u n
  have hdrop : TailDropped u k 12 y (tailDrop u 12 y) := tailDrop_drops 12 (by rw [hy]; exact hr) (by rw [hy]; exact hact)
    (by rw [hy]; exact hout) hv (by rw [hother]; exact hvr) (by rw [hother]; exact hva)
  have hset : (tailDrop u 12 y).settings = y.settings := within_tailDrop u 12 y .settings (by decide)
  obtain ⟨d, hrun⟩ := fireTile_code3 (c := .tripRep) hrail hcls hcode 9
  rw [tripLatch_eq, leapRemove_of_idle hr hleap hstop, hrun]
  exact hdrop.then_event (occur_quiet d ((quiet_congr hset _).mpr ((quiet_congr rfl _).mpr hq)))

end

end Sys2Proof.Machine
end

section
/-! PROOFS. The statements of 02_phase_tiles_pwm.md. -/

open Sys2Proof Sys2Proof.Machine

/-- Settles O31: the trip is seen, and then cuts its period, latches, or drops the tile. -/
theorem tripsForceTheOutputs : Obligations.TripsForceTheOutputs := by
  intro u k tick s hr
  refine ⟨fun hact hen hclear hq => ?_, fun hoff => congrArg Host.Outcome.next (tripRecognised_of_off hoff)⟩
  let x := s.tripSeen u tick
  have hseen : Within [.now, .tiles, .ka] s x := tripSeen_within s u tick
  have hx : x.tile u = { s.tile u with trip := { (s.tile u).trip with active := true } } := tripSeen_tile s u tick
  have hother : OtherTiles u s x := tripSeen_other s u tick
  have hrx : (x.tile u).rail = some k := by rw [hx]; exact hr
  have hqx : Quiet x u.val := (quiet_congr (hseen .settings (by decide)) _).mpr hq
  refine ⟨fun hmode => ?_, fun hmode hu hcode hcls => ?_, fun hmode hleap hcode hcls hstop ⟨v, hv, hvr, hva⟩ => ?_⟩
  · have htrip := tripCycle_trips (16 * (tick : Int) + 16) hqx
    obtain ⟨a, e, htile, hhigh, hlow⟩ := htrip.tile
    rw [hx] at htile hlow
    have hnow : (tripCycle u (16 * (tick : Int) + 16) x).now = x.now := htrip.frame .now (by decide)
    refine ⟨_, congrArg Host.Outcome.next (tripRecognised_cycle hr hact hen hclear hmode), hnow.trans (tripSeen_now s u tick), ?_⟩
    rw [htile]
    exact ⟨hhigh, hlow, rfl, rfl, rfl, rfl, rfl, fun v hv => (htrip.others v hv).trans (hother v hv),
      (hseen.mono (by decide)).step htrip.frame (by decide)⟩
  · have htrip := tripLatch_latches (16 * (tick : Int) + 16) hrx hcls hqx (by rw [hx]; exact hu) hcode
    obtain ⟨a, ha⟩ := latchCut_caused_eq (x.tile u) (16 * (tick : Int) + 16)
    have htile := htrip.tile.trans ha
    rw [hx] at htile
    obtain ⟨hhigh, hlow⟩ := latchCut_off (s.tile u) (16 * (tick : Int) + 16)
    refine ⟨_, congrArg Host.Outcome.next (tripRecognised_latch hr hact hen hclear hmode), ?_⟩
    rw [htile]
    exact ⟨fun y hy => ⟨hhigh y hy, hlow y hy⟩, rfl, rfl, rfl, rfl, rfl, rfl, fun v hv => (htrip.others v hv).trans (hother v hv),
      (hseen.mono (by decide)).step htrip.frame (by decide)⟩
  · have hactx : (x.tile u).act = .active ∨ (x.tile u).act = .ready := by rw [hx]; exact hact
    have hdrop := tripLatch_drops (16 * (tick : Int) + 16) hrx hcls hqx hactx hleap hstop hcode hv (by rw [hother v hv]; exact hvr)
      (by rw [hother v hv]; exact hva)
    obtain ⟨l, hy, -⟩ := outOfLeap_tripCaused_tile x u (16 * (tick : Int) + 16)
    have hothery := outOfLeap_tripCaused_other x u (16 * (tick : Int) + 16)
    obtain ⟨hdropped, hreason, hgen, hslot, hfade, htrim, hfault⟩ := hdrop.fields (by rw [hy]; rcases hactx with h | h <;> rw [h] <;> nofun)
    obtain ⟨hhigh, hlow⟩ := hdrop.off (n := 16 * (tick : Int) + 16) (by rw [hy]; exact cutHigh_highOff _ _) (by rw [hy]; exact cutLow_lowOff _ _)
    have hrespace := hdrop.respace
    rw [hy, hx] at hgen hfault hrespace
    exact ⟨_, congrArg Host.Outcome.next (tripRecognised_latch hr hact hen hclear hmode), hdropped, hreason, hgen,
      fun y hy => ⟨hhigh y hy, hlow y hy⟩, hslot, hfade, htrim, hfault, hdrop.check, hrespace, hdrop.state,
      fun w hw => (hdrop.acts w hw).trans (congrArg Tile.act ((hothery w hw).trans (hother w hw))), hdrop.others⟩

end

section
/-! SUPPORT. Tile current samples: what a conversion records, and what OCT makes of a sample within the limits (R84 to R86, R242, R279). -/

namespace Sys2Proof.Machine

/-- The samples once one of a kind has been taken at x, with its corrected value and its raw code (R85, R86). -/
def TileSense.taken (sen : TileSense) (which : SampleKind) (ic x : Int) (raw : Nat) : TileSense :=
  { sen with
    ic := ic, icAt := x, icPrev := sen.ic, icPrevAt := sen.icAt, raws := pushKeep 4 raw sen.raws
    iv := if which = .valley then some ic else sen.iv
    ip := if which = .peak then some ic else sen.ip
    riseSample := if which = .rising then some ic else sen.riseSample
    fallSample := if which = .falling then some ic else sen.fallSample }

/-- Tile u has taken a sample of a kind at x, which may change a turn-on of its low side that is still to come (R242). -/
def State.sampled (s : State) (u : TileId) (which : SampleKind) (x : Int) (raw : Nat) : State :=
  (s.advance x).modTile u fun ti => ({ ti with sen := ti.sen.taken which (icOf s u raw) x raw }).rejudgeDe (s.advance x).now

theorem rejudgeDe_eq (ti : Tile) (now : Int) : ∃ e, ti.rejudgeDe now = { ti with edg := e } := by
  unfold Tile.rejudgeDe
  split
  · exact ⟨ti.edg, rfl⟩
  · split
    · exact ⟨_, rfl⟩
    · exact ⟨ti.edg, rfl⟩

theorem sampled_tile (s : State) (u : TileId) (which : SampleKind) (x : Int) (raw : Nat) : ∃ e,
    (s.sampled u which x raw).tile u = { s.tile u with sen := (s.tile u).sen.taken which (icOf s u raw) x raw, edg := e } := by
  obtain ⟨e, he⟩ := rejudgeDe_eq { s.tile u with sen := (s.tile u).sen.taken which (icOf s u raw) x raw } (s.advance x).now
  exact ⟨e, (modTile_tile ..).trans he⟩
theorem sampled_other (s : State) (u : TileId) (which : SampleKind) (x : Int) (raw : Nat) : OtherTiles u s (s.sampled u which x raw) :=
  fun v hv => modTile_other _ u _ v hv
theorem sampled_within (s : State) (u : TileId) (which : SampleKind) (x : Int) (raw : Nat) :
    Within [.now, .tiles] s (s.sampled u which x raw) :=
  ((within_State_advance s x).mono (by decide)).step (within_State_modTile _ u _) (by decide)

section
variable {s : State} {u : TileId} {k : RailId} {which : SampleKind} (hr : (s.tile u).rail = some k)
include hr

/-- A conversion of a live tile is judged by OCT once its sample has been taken. -/
theorem tileCurrentSample_of_due {x : Int} (r : BitVec 12) (hact : (s.tile u).act = .active ∨ (s.tile u).act = .ready)
    (hrun : (s.tile u).car.running = true) (hx : sampleAt s k (s.tile u) which = some x) :
    tileCurrentSample u which r s = judgeOct u (icOf s u r.toNat) (s.sampled u which x r.toNat) := by
  have hlive : (((s.tile u).act == .active || (s.tile u).act == .ready) && (s.tile u).car.running) = true := by
    rcases hact with h | h <;> simp [h, hrun]
  unfold tileCurrentSample
  dsimp only
  rw [hr]
  dsimp only
  rw [if_pos hlive, hx]
  cases which <;> rfl

/-- A sample that R85 omits, and one of a tile that does not run in its rail's set, is none. -/
theorem tileCurrentSample_of_omitted (r : BitVec 12) (hno : sampleAt s k (s.tile u) which = none ∨ (s.tile u).car.running = false
      ∨ ((s.tile u).act ≠ .active ∧ (s.tile u).act ≠ .ready)) (hstop : stoppedNow s (s.tile u) = false) :
    tileCurrentSample u which r s = s := by
  unfold tileCurrentSample
  dsimp only
  rw [hr]
  dsimp only
  split
  · next hlive =>
    simp only [Bool.and_eq_true, Bool.or_eq_true, beq_iff_eq] at hlive
    obtain ⟨hact, hrun⟩ := hlive
    rcases hno with hno | hno | ⟨hna, hnr⟩
    · rw [hno]
    · exact absurd (hno.symm.trans hrun) nofun
    · exact absurd hact (not_or.mpr ⟨hna, hnr⟩)
  · rw [if_neg (by simp [hstop])]

/-- A sample within the limits clears both counts, and no source fires (R279). -/
theorem judgeOct_within_limits {ic : Int} (hlo : ocLo s u ≤ ic) (hhi : ic ≤ ocHi s u) :
    judgeOct u ic s = s.modTile u fun ti => { ti with prot := { ti.prot with ocHi := 0, ocLo := 0, ocPresent := false } } := by
  unfold judgeOct
  rw [hr]
  simp [Int.not_lt.mpr hlo, Int.not_lt.mpr hhi, filt]

end

end Sys2Proof.Machine
end

section
/-! SUPPORT. Preparation of a start: the pre-bias reading and its completion (R81, R238 to R240). -/

namespace Sys2Proof.Machine

theorem modRail_of_fixed {s : State} {k : RailId} {f : Rail → Rail} (hf : f (s.rail k) = s.rail k) : s.modRail k f = s := by
  have hrails : (s.modRail k f).rails = s.rails := vector_ext_get fun j => by
    by_cases hj : j = k
    · subst hj; exact (modRail_rail s j f).trans hf
    · exact modRail_other s k f j hj
  exact congrArg (fun x => { s with rails := x }) hrails

/-- Preparation is complete but for its record (R238). -/
def Rail.Prepared (r : Rail) : Prop :=
  r.seq.state = .prepare ∧ r.seq.pbDone = true ∧ startZero r.fe.autozero = false ∧ r.seq.prepDone = none

theorem prepCheck_rail (k : RailId) (s : State) : ∃ done ref refs,
    (prepCheck k s).rail k = { s.rail k with
      seq := { (s.rail k).seq with prepDone := done }, eng := { (s.rail k).eng with ref := ref }, fe := { (s.rail k).fe with refs := refs } }
    ∧ ((s.rail k).Prepared → done = some s.now ∧ ref = (s.rail k).seq.pb * 65536) := by
  unfold prepCheck
  dsimp only
  split
  · refine ⟨_, _, pushKeep 12 (s.now, ((s.rail k).seq.pb * 65536 + 0x8000) / 65536) (s.rail k).fe.refs, ?_, fun _ => ⟨rfl, rfl⟩⟩
    rw [setRef, modRail_rail, modSeq_rail]
  · next hno => exact ⟨_, _, _, rfl, fun hyes => absurd hyes hno⟩

/-- A rail that no earlier step has changed is not changed by the check of another's preparation. -/
theorem OtherRails.prepCheck {k : RailId} {s t : State} (h : OtherRails k s t) : OtherRails k s (prepCheck k t) := by
  unfold Machine.prepCheck
  dsimp only
  split
  · exact fun j hj => (modRail_other _ k _ j hj).trans ((modRail_other t k _ j hj).trans (h j hj))
  · exact h

/-- The 64 conversions of a pre-bias average stand ready (R81). -/
def Rail.PrebiasDue (r : Rail) : Prop := r.seq.state = .prepare ∧ r.fe.pbN = 64 ∧ r.seq.pbDone = false

/-- The reading that is handed over lies above TARGET, and the rail has not waited and may not discharge (R240). -/
abbrev PrebiasWaits (s : State) (k : RailId) : Prop :=
  (s.rail k).seq.pbWaitDone = false ∧ target s k < voutOf s k (s.rail k).fe.pbSum 64 ∧ pbDisch s k = false

/-- The sequencer takes the reading as PB, capped at TARGET after a wait (R240). -/
def prebiasTaken (s : State) (k : RailId) (q : Sequencer) : Sequencer :=
  let pb := voutOf s k (s.rail k).fe.pbSum 64
  { q with pb := if (s.rail k).seq.pbWaitDone = true then min pb (target s k) else pb, pbDone := true }

/-- The pre-bias average has been handed over, with its consequence for the sequencer. -/
def State.prebiased (s : State) (k : RailId) (f : Sequencer → Sequencer) : State :=
  (s.modFe k fun x => { x with pbN := 0, pbSum := 0 }).modSeq k f

theorem prebiased_rail (s : State) (k : RailId) (f : Sequencer → Sequencer) :
    (s.prebiased k f).rail k = { s.rail k with fe := { (s.rail k).fe with pbN := 0, pbSum := 0 }, seq := f (s.rail k).seq } := by
  rw [State.prebiased, modSeq_rail, modFe_rail]
theorem prebiased_other (s : State) (k : RailId) (f : Sequencer → Sequencer) : OtherRails k s (s.prebiased k f) := fun j hj =>
  (modRail_other _ k _ j hj).trans (modRail_other s k _ j hj)

theorem prebiased_within (s : State) (k : RailId) (f : Sequencer → Sequencer) : Within [.rails] s (s.prebiased k f) :=
  (within_State_modFe s k _).trans (within_State_modSeq _ k f)

theorem prebiasReading_of_not_due {s : State} {k : RailId} (hno : ¬(s.rail k).PrebiasDue) : prebiasReading k s = s := if_neg hno

section
variable {s : State} {k : RailId} (hdue : (s.rail k).PrebiasDue)
include hdue

theorem prebiasReading_waits (hw : PrebiasWaits s k) : prebiasReading k s
    = s.prebiased k fun q => { q with pb := voutOf s k (s.rail k).fe.pbSum 64, pbHigh := true, pbWaitFrom := s.now } := by
  obtain ⟨hfirst, habove, hkeep⟩ := hw
  have hcond : (decide (target s k < voutOf s k (s.rail k).fe.pbSum 64) && !pbDisch s k) = true := by simp [habove, hkeep]
  exact (if_pos hdue).trans ((if_neg (by simp [hfirst])).trans (if_pos hcond))

/-- A reading that does not wait is taken, and preparation may be complete (R239, R240). -/
theorem prebiasReading_taken (hw : ¬PrebiasWaits s k) : prebiasReading k s = prepCheck k (s.prebiased k (prebiasTaken s k)) := by
  unfold prebiasTaken
  by_cases hwait : (s.rail k).seq.pbWaitDone = true
  · simp only [if_pos hwait]
    exact (if_pos hdue).trans (if_pos hwait)
  · have hcond : ¬(decide (target s k < voutOf s k (s.rail k).fe.pbSum 64) && !pbDisch s k) = true := fun h =>
      hw ⟨by simpa using hwait, by simpa using h⟩
    simp only [if_neg hwait]
    exact (if_pos hdue).trans ((if_neg hwait).trans (if_neg hcond))

end

end Sys2Proof.Machine
end
section
/-! SUPPORT. Autozero: the host's request, its start, its end and the timeout of a start's request (R88). -/

namespace Sys2Proof.Machine

/-! The request (R88, R547) -/

/-- The word of a request alone clears no flag of SNS_STAT. -/
theorem clearW1c_azReq (k : RailId) (s : State) : clearW1c (.loop k .snsStat) 0x80000000#32 s = s := by
  have hmask : ~~~(BitVec.ofNat 6 (0x80000000#32).toNat) = BitVec.allOnes 6 := by decide
  have hkeep : (s.rail k).fe.stat &&& ~~~(BitVec.ofNat 6 (0x80000000#32).toNat) = (s.rail k).fe.stat := by rw [hmask, BitVec.and_allOnes]
  exact modRail_of_fixed (congrArg (fun b => { s.rail k with fe := { (s.rail k).fe with stat := b } }) hkeep)

theorem writeAt_azReq {s : State} {h : HostId} {k : RailId} (hl : WordLands s h (.loop k .snsStat) 0x80000000#32) :
    writeAt h (.loop k .snsStat) 0x80000000#32 s = autozeroAsk h k (s.opened h (Reg.loop k .snsStat).addr) := by
  have hrun : writeAt h (.loop k .snsStat) 0x80000000#32 s
      = autozeroAsk h k (clearW1c (.loop k .snsStat) 0x80000000#32 (s.opened h (Reg.loop k .snsStat).addr)) := writeAt_of_lands hl
  rw [hrun, clearW1c_azReq]

/-- With no autozero under way a request waits and asks for leave. -/
theorem askAutozero_of_idle {s : State} {k : RailId} (byStart : Bool) (hz : (s.rail k).fe.autozero = .idle)
    (hw : leaveWaits s (.autozero k) = false) : askAutozero k byStart s =
      { s.modFe k fun f => { f with autozero := .requested byStart s.now } with
        draw := { s.draw with waiting := s.draw.waiting ++ [{ user := .autozero k, since := s.now, long := false }] } } := by
  have hw' : leaveWaits (s.modFe k fun f => { f with autozero := .requested byStart s.now }) (.autozero k) = false := hw
  unfold askAutozero
  rw [hz]
  dsimp only
  rw [askLeave, if_neg (by simp [hw'])]
  rfl

theorem autozeroAsk_of_off {s : State} (h : HostId) {k : RailId} (hoff : railSt s k = .off) : autozeroAsk h k s = askAutozero k false s := if_pos hoff
theorem autozeroAsk_of_not_off {s : State} (h : HostId) {k : RailId} (hoff : railSt s k ≠ .off) : autozeroAsk h k s = refuse h s := if_neg hoff

theorem leaveWaits_of_bus {s b : State} (hb : Within [.bus] s b) (u : DrawUser) : leaveWaits b u = leaveWaits s u := by
  have hdraw : b.draw = s.draw := hb .draw (by decide)
  rw [leaveWaits, hdraw, leaveWaits]

/-! Start and timeout -/

section
variable {s : State} {k : RailId} {b : Bool} {f : Nat} (hz : (s.rail k).fe.autozero = .requested b f)
include hz

theorem autozeroStart_of_requested : autozeroStart k s
    = if leaveHeld s (.autozero k) = true then s.modFe k fun x => { x with autozero := .running b 0 0 } else s := by
  unfold autozeroStart
  rw [hz]

theorem autozeroTimeout_of_kept (hno : b = false ∨ s.now < f + ms 5 ∨ leaveHeld s (.autozero k) = true) : autozeroTimeout k s = s := by
  unfold autozeroTimeout
  rw [hz]
  cases b with
  | false => rfl
  | true =>
    refine if_neg fun ⟨hlate, hnone⟩ => ?_
    rcases hno with hno | hno | hno
    · exact absurd hno nofun
    · exact absurd hlate (Nat.not_le.mpr hno)
    · exact absurd (hno.symm.trans hnone) nofun

end

/-- The autozero of a start has been given up: flagged, and its request withdrawn. -/
def State.zeroDropped (s : State) (k : RailId) : State :=
  dropLeave (.autozero k) (s.modFe k fun f => { f with autozero := .idle, stat := f.stat ||| 16 })

theorem zeroDropped_rail (s : State) (k : RailId) :
    (s.zeroDropped k).rail k = { s.rail k with fe := { (s.rail k).fe with autozero := .idle, stat := (s.rail k).fe.stat ||| 16 } } :=
  modFe_rail s k fun f => { f with autozero := .idle, stat := f.stat ||| 16 }
theorem zeroDropped_other (s : State) (k : RailId) : OtherRails k s (s.zeroDropped k) := modRail_other s k _
theorem zeroDropped_within (s : State) (k : RailId) : Within [.rails, .draw] s (s.zeroDropped k) :=
  ((within_State_modFe s k _).mono (by decide)).step (within_dropLeave _ _) (by decide)

theorem leaveWaits_dropLeave (u : DrawUser) (s : State) : leaveWaits (dropLeave u s) u = false := by
  simp [leaveWaits, dropLeave]

theorem autozeroTimeout_of_late {s : State} {k : RailId} {f : Nat} (hz : (s.rail k).fe.autozero = .requested true f) (hlate : f + ms 5 ≤ s.now)
    (hnone : leaveHeld s (.autozero k) = false) : autozeroTimeout k s = prepCheck k (s.zeroDropped k) := by
  unfold autozeroTimeout
  rw [hz]
  exact if_pos ⟨hlate, hnone⟩

/-! The end -/

/-- The front end takes the mean of an autozero, or flags one beyond its range. -/
def FrontEnd.zeroed (f : FrontEnd) (az : Int) : FrontEnd :=
  if -127 ≤ az ∧ az ≤ 127 then { f with autozero := .idle, az := az } else { f with autozero := .idle, stat := f.stat ||| 32 }

@[simp] theorem zeroed_autozero (f : FrontEnd) (az : Int) : (f.zeroed az).autozero = .idle := by unfold FrontEnd.zeroed; split <;> rfl
theorem zeroed_result (f : FrontEnd) (az : Int) : if -127 ≤ az ∧ az ≤ 127 then (f.zeroed az).az = az ∧ (f.zeroed az).stat = f.stat
    else (f.zeroed az).az = f.az ∧ (f.zeroed az).stat = f.stat ||| 32 := by
  unfold FrontEnd.zeroed
  split_ifs <;> exact ⟨rfl, rfl⟩

/-- An autozero has ended at a tick with its result, and its leave is released. -/
def State.zeroEnded (s : State) (k : RailId) (tick : Nat) (az : Int) : State :=
  (releaseLeave (.autozero k) (s.advance (16 * tick))).modFe k fun f => f.zeroed az

section
variable (s : State) (k : RailId) (tick : Nat) (az : Int)

theorem zeroEnded_rail : (s.zeroEnded k tick az).rail k = { s.rail k with fe := (s.rail k).fe.zeroed az } := modFe_rail ..
theorem zeroEnded_other : OtherRails k s (s.zeroEnded k tick az) := modRail_other _ k _
theorem zeroEnded_within : Within [.now, .rails, .draw] s (s.zeroEnded k tick az) :=
  (((within_State_advance s _).mono (by decide)).step (within_releaseLeave _ _) (by decide)).step (within_State_modFe _ k _) (by decide)
theorem zeroEnded_now : (s.zeroEnded k tick az).now = max s.now (16 * tick) := by
  have htick : (16 * (tick : Int)).toNat = 16 * tick := by omega
  exact congrArg (max s.now) htick

end

theorem autozeroDone_of_whole {s : State} {k : RailId} {b : Bool} {sum : Int} (tick : Nat)
    (hz : (s.rail k).fe.autozero = .running b 4096 sum) :
    autozeroDone k tick s = prepCheck k (s.zeroEnded k tick (quotFree (8 * sum) 4096)) := by
  unfold autozeroDone
  rw [hz]
  rfl

theorem autozeroDone_of_short {s : State} {k : RailId} {b : Bool} {n : Nat} {sum : Int} (tick : Nat)
    (hz : (s.rail k).fe.autozero = .running b n sum) (hn : n < 4096) : autozeroDone k tick s = s := by
  unfold autozeroDone
  rw [hz]
  exact if_neg (Nat.ne_of_lt hn)

end Sys2Proof.Machine
end

section
/-! SUPPORT. A loop update with nothing else due: the engine's step and the shadow writes (R77, R106, R107, R110, R111, R115). -/

namespace Sys2Proof.Machine

theorem writeShadows_tile (k : RailId) (d x : Int) (s : State) (u : TileId) : (writeShadows k d x s).tile u =
    if (s.tile u).rail = some k ∧ ((s.tile u).act = .active ∨ (s.tile u).act = .ready) then
      { s.tile u with duty := (s.tile u).duty.write (tileDuty s k (s.tile u) d x).1 (tileDuty s k (s.tile u) d x).2 d (nowI s) x }
    else s.tile u := by
  unfold writeShadows
  rw [mapTiles_tile]
  simp

/-- No Leap, preload, switch or frequency change has a part in the rail's next update. -/
def PlainUpdate (s : State) (k : RailId) : Prop :=
  leapActive s k = false ∧ (s.rail k).eng.preload = .none ∧ (s.rail k).eng.setPend = none ∧ (s.rail k).mo.freqGo = none

/-- The engine as its next update runs: with the new error word and the gain shown (R77, R136). -/
def Engine.fed (e : Engine) (err : Int) : Engine := { e with err := err, ffShown := e.ff }

/-- The rail at its update aimed at `aim`, before its shadow writes. -/
def State.updated (s : State) (k : RailId) (aim : Int) : State :=
  (s.advance (aim - 1408)).modRail k fun r =>
    { r with fe := { r.fe with rangeExt := (errorWord s k).2 }, eng := runUpdate s k (errorWord s k).1 (r.eng.fed (errorWord s k).1) }

section
variable {s : State} {k : RailId} {aim : Int}

theorem updated_rail : (s.updated k aim).rail k = { s.rail k with
    fe := { (s.rail k).fe with rangeExt := (errorWord s k).2 }
    eng := runUpdate s k (errorWord s k).1 ((s.rail k).eng.fed (errorWord s k).1) } := modRail_rail ..
theorem updated_other : OtherRails k s (s.updated k aim) := modRail_other _ k _
theorem updated_within : Within [.now, .rails] s (s.updated k aim) :=
  ((within_State_advance s _).mono (by decide)).step (within_State_modRail _ k _) (by decide)

end

theorem modRail_modRail (s : State) (k : RailId) (f g : Rail → Rail) : (s.modRail k f).modRail k g = s.modRail k fun r => g (f r) := by
  have hrails : ((s.modRail k f).modRail k g).rails = (s.modRail k fun r => g (f r)).rails := vector_ext_get fun j => by
    by_cases hj : j = k
    · subst hj
      exact (modRail_rail (s.modRail j f) j g).trans ((congrArg g (modRail_rail s j f)).trans (modRail_rail s j fun r => g (f r)).symm)
    · exact (modRail_other _ k g j hj).trans ((modRail_other s k f j hj).trans (modRail_other s k _ j hj).symm)
  exact congrArg (fun x => { s with rails := x }) hrails

/-- An update's step of the engine reads the settings, the coefficients and the rail's gain alone. -/
theorem runUpdate_congr {s t : State} {k : RailId} (hset : t.settings = s.settings) (hcoef : t.coef = s.coef)
    (hff : (t.rail k).eng.ff = (s.rail k).eng.ff) (err : Int) (e : Engine) : runUpdate t k err e = runUpdate s k err e := by
  have hd : ∀ y, dutyOf t k y = dutyOf s k y := fun y => by simp only [dutyOf, dmin, dmax, loopW, setWord, hset, hff]
  have hy : ∀ set es us, compensate t k set es us = compensate s k set es us := fun set es us => by
    simp only [compensate, bSum, coefI, bshift, coefWord, hcoef]
  simp only [runUpdate, hd, hy]

theorem errorWord_congr {s t : State} {k : RailId} (hset : t.settings = s.settings) (hfe : (t.rail k).fe = (s.rail k).fe) :
    errorWord t k = errorWord s k := by
  have hdecim : decimN t k = decimN s k := by simp only [decimN, loopW, setWord, hset]
  rw [errorWord, errorWord, hdecim, hfe]

/-- The rail at its update aimed at `aim`, its error word formed (R77). -/
def State.fed (s : State) (k : RailId) (aim : Int) : State :=
  ((s.advance (aim - 1408)).modFe k fun f => { f with rangeExt := (errorWord s k).2 }).modEng k fun e => e.fed (errorWord s k).1

theorem fed_rail (s : State) (k : RailId) (aim : Int) : (s.fed k aim).rail k =
    { s.rail k with fe := { (s.rail k).fe with rangeExt := (errorWord s k).2 }, eng := (s.rail k).eng.fed (errorWord s k).1 } := by
  rw [State.fed, modEng_rail, modFe_rail]; rfl

theorem fed_updated (s : State) (k : RailId) (aim : Int) :
    ((s.fed k aim).modEng k fun _ => runUpdate s k (errorWord s k).1 ((s.rail k).eng.fed (errorWord s k).1)) = s.updated k aim :=
  (modRail_modRail _ k _ _).trans (modRail_modRail _ k _ _)

/-- A plain update is the engine's step and the shadow writes of its duty. -/
theorem makeUpdate_of_plain {s : State} {k : RailId} {aim : Int} (atValley : Bool) (hp : PlainUpdate s k) :
    makeUpdate k aim atValley s = writeShadows k ((s.updated k aim).rail k).eng.d (aim - 128) (s.updated k aim) := by
  obtain ⟨hleap, hpre, hset, hgo⟩ := hp
  have herr : errorWord (s.advance (aim - 1408)) k = errorWord s k := errorWord_congr rfl rfl
  have hrail := fed_rail s k aim
  have hleap' : leapActive (s.fed k aim) k = false := by rw [leapActive, hrail]; exact hleap
  have hgo' : ((s.fed k aim).rail k).mo.freqGo = none := by rw [hrail]; exact hgo
  have hpre' : ((s.fed k aim).rail k).eng.preload = .none := by rw [hrail]; exact hpre
  have hdue : switchDue (s.fed k aim) k atValley (aim - 1408) = none := by
    rw [switchDue, show ((s.fed k aim).rail k).eng.setPend = none by rw [hrail]; exact hset]
  have hrun : runUpdate (s.fed k aim) k (errorWord s k).1 ((s.fed k aim).rail k).eng
      = runUpdate s k (errorWord s k).1 ((s.rail k).eng.fed (errorWord s k).1) := by
    rw [hrail]
    exact runUpdate_congr (t := s.fed k aim) (s := s) rfl rfl (by rw [hrail]; rfl) _ _
  unfold makeUpdate
  dsimp only
  rw [herr]
  generalize hy : State.modEng _ k _ = y
  obtain rfl : y = s.fed k aim := hy.symm
  rw [hgo']
  dsimp only
  rw [if_neg (by simp [hleap']), hdue]
  dsimp only
  rw [if_neg Bool.false_ne_true, hpre']
  simp only [Bool.false_eq_true, if_false]
  rw [hrun, fed_updated, updated_rail]

/-! The command (R106, R107) -/

/-- The reload point that the rail's next update aims at (R106). -/
def Carrier.aim (c : Carrier) : Int := if c.atPeak = true then c.nextValley else c.nextPeak

/-- An update aimed at a reference valley marks it (R106). -/
def State.aiming (s : State) (k : RailId) : State := s.modEng k fun e => { e with aimed := (s.rail k).car.atPeak }

theorem aiming_rail (s : State) (k : RailId) :
    (s.aiming k).rail k = { s.rail k with eng := { (s.rail k).eng with aimed := (s.rail k).car.atPeak } } := modEng_rail ..

/-- The engine's step in the rail's next update. -/
def State.engineStep (s : State) (k : RailId) : Engine :=
  runUpdate s k (errorWord s k).1 ({ (s.rail k).eng with aimed := (s.rail k).car.atPeak }.fed (errorWord s k).1)

/-- The rail at its next update, its engine stepped and its shadows still to be written. -/
def State.engineStepped (s : State) (k : RailId) : State := (s.aiming k).updated k (s.rail k).car.aim

section
variable (s : State) (k : RailId)

theorem engineStepped_rail : (s.engineStepped k).rail k =
    { s.rail k with fe := { (s.rail k).fe with rangeExt := (errorWord s k).2 }, eng := s.engineStep k } := by
  have herr : errorWord (s.aiming k) k = errorWord s k := errorWord_congr rfl (by rw [aiming_rail])
  have hstep : ∀ err e, runUpdate (s.aiming k) k err e = runUpdate s k err e := runUpdate_congr rfl rfl (by rw [aiming_rail])
  rw [State.engineStepped, updated_rail, herr, hstep, aiming_rail, State.engineStep]
theorem engineStepped_other : OtherRails k s (s.engineStepped k) := fun j hj => (updated_other j hj).trans (modRail_other s k _ j hj)
theorem engineStepped_within : Within [.now, .rails] s (s.engineStepped k) :=
  ((within_State_modEng s k _).mono (by decide)).trans updated_within
theorem engineStepped_now : (s.engineStepped k).now = max s.now ((s.rail k).car.aim - 1408).toNat := rfl

end

/-- The rail after a plain update: the engine has stepped, the shadows are written, and after one aimed at a peak the reference carrier has
moved there (R105, R107). -/
def State.loopUpdated (s : State) (k : RailId) : State :=
  let t := writeShadows k (s.engineStep k).d ((s.rail k).car.aim - 128) (s.engineStepped k)
  if (s.rail k).car.atPeak = true then t else refToPeak k t

theorem loopUpdate_of_rest {s : State} {k : RailId} (hno : (s.rail k).car.running = false ∨ (s.rail k).eng.aimed = true
      ∨ (railSt s k = .prepare ∧ startValley s k = none)) : loopUpdate k s = s := by
  unfold loopUpdate
  dsimp only
  rcases hno with hno | hno | ⟨hst, hv⟩
  · rw [if_pos (by simp [hno])]
  · rw [if_pos (by simp [hno])]
  · rw [if_pos (show (s.rail k).seq.state = .prepare from hst), hv]
    exact ite_self s

section
variable {s : State} {k : RailId}

theorem loopUpdate_of_plain (hrun : (s.rail k).car.running = true) (haim : (s.rail k).eng.aimed = false)
    (hsw : switching (railSt s k) = true) (hp : PlainUpdate s k) : loopUpdate k s = s.loopUpdated k := by
  have hnp : ¬(s.rail k).seq.state = .prepare := fun h => by
    rw [railSt, h] at hsw
    exact absurd hsw (by decide)
  have hp' : PlainUpdate (s.aiming k) k := by
    unfold PlainUpdate leapActive
    rw [aiming_rail]
    exact hp
  have hmake : ∀ v, makeUpdate k (s.rail k).car.aim v (s.aiming k)
      = writeShadows k (s.engineStep k).d ((s.rail k).car.aim - 128) (s.engineStepped k) := fun v => by
    rw [makeUpdate_of_plain v hp', ← State.engineStepped, engineStepped_rail]
  unfold loopUpdate State.loopUpdated
  dsimp only
  rw [if_neg (by simp [hrun, haim]), if_neg hnp, if_pos (show switching (s.rail k).seq.state = true from hsw),
    ← hmake (s.rail k).car.atPeak, Carrier.aim]
  cases hpeak : (s.rail k).car.atPeak with
  | true =>
    rw [State.aiming, hpeak]
    rfl
  | false =>
    have hsame : s.aiming k = s := modRail_of_fixed (by rw [hpeak, ← haim])
    rw [hsame]
    rfl

/-! What a plain update leaves -/

theorem glidePaused_congr {t : State} (hseq : (t.rail k).seq = (s.rail k).seq) (hleap : (t.rail k).leap = (s.rail k).leap) :
    glidePaused t k = glidePaused s k := by
  simp only [glidePaused, railSt, leapActive, hseq, hleap]

theorem tileDuty_congr {t : State} (hset : t.settings = s.settings) (hseq : (t.rail k).seq = (s.rail k).seq)
    (hleap : (t.rail k).leap = (s.rail k).leap) (hprot : (t.rail k).prot = (s.rail k).prot) (ti : Tile) (d x : Int) :
    tileDuty t k ti d x = tileDuty s k ti d x := by
  have hdmin : dmin t k = dmin s k := by simp only [dmin, loopW, setWord, hset]
  rw [tileDuty, tileDuty, glidePaused_congr hseq hleap, hdmin, hprot]

theorem loopUpdated_rail : (s.loopUpdated k).rail k = { s.rail k with
    car := if (s.rail k).car.atPeak = true then (s.rail k).car else (s.rail k).car.toPeak (glidePaused s k)
    fe := { (s.rail k).fe with rangeExt := (errorWord s k).2 }, eng := s.engineStep k } := by
  have hshadow := (within_writeShadows k (s.engineStep k).d ((s.rail k).car.aim - 128) (s.engineStepped k)).rail_eq (by decide) k
  rw [engineStepped_rail] at hshadow
  unfold State.loopUpdated
  dsimp only
  split
  · exact hshadow
  · rw [refToPeak, modRail_rail, glidePaused_congr (s := s) (by rw [hshadow]) (by rw [hshadow]), hshadow]

theorem loopUpdated_now : (s.loopUpdated k).now = max s.now ((s.rail k).car.aim - 1408).toNat := by
  rw [← engineStepped_now]
  unfold State.loopUpdated
  dsimp only
  split <;> rfl

/-- Every live tile of the rail has its compare values of the rail's duty on their way into the shadow (R107, R115). -/
theorem loopUpdated_tile (u : TileId) : (s.loopUpdated k).tile u =
    if (s.tile u).rail = some k ∧ ((s.tile u).act = .active ∨ (s.tile u).act = .ready) then
      { s.tile u with
        duty := (s.tile u).duty.write (tileDuty s k (s.tile u) (s.engineStep k).d ((s.rail k).car.aim - 128)).1
          (tileDuty s k (s.tile u) (s.engineStep k).d ((s.rail k).car.aim - 128)).2 (s.engineStep k).d (s.loopUpdated k).now
          ((s.rail k).car.aim - 128) }
    else s.tile u := by
  have hrail := engineStepped_rail s k
  have hset : (s.engineStepped k).settings = s.settings := engineStepped_within s k .settings (by decide)
  have hduty := tileDuty_congr hset (by rw [hrail]) (by rw [hrail]) (by rw [hrail]) (s.tile u) (s.engineStep k).d ((s.rail k).car.aim - 128)
  have htile : (s.loopUpdated k).tile u
      = (writeShadows k (s.engineStep k).d ((s.rail k).car.aim - 128) (s.engineStepped k)).tile u := by
    unfold State.loopUpdated
    dsimp only
    split <;> rfl
  rw [htile, writeShadows_tile, (engineStepped_within s k).tile_eq (by decide), hduty, nowI, loopUpdated_now, engineStepped_now]

theorem loopUpdated_within : Within [.now, .rails, .tiles] s (s.loopUpdated k) := by
  have hin := ((engineStepped_within s k).mono (by decide) : Within [.now, .rails, .tiles] s _).step
    (within_writeShadows k (s.engineStep k).d ((s.rail k).car.aim - 128) _) (by decide)
  exact within_ite hin (hin.step (within_refToPeak k _) (by decide))

theorem loopUpdated_other : OtherRails k s (s.loopUpdated k) := fun j hj => by
  have hshadow := ((within_writeShadows k (s.engineStep k).d ((s.rail k).car.aim - 128) (s.engineStepped k)).rail_eq (by decide) j).trans
    (engineStepped_other s k j hj)
  unfold State.loopUpdated
  dsimp only
  split
  · exact hshadow
  · exact (modRail_other _ k _ j hj).trans hshadow

end

end Sys2Proof.Machine
end
section
/-! SUPPORT. A state at which a statement on conversions fails. -/

namespace Sys2Proof.Machine

/-- Rail 0 regulates with PGOOD high, its reference at 1,000 codes, its output sense calibrated and UV at code 1 with UV_N = 1; rail 1 depends
on PGOOD0 for its start, and its wait for START_DLY has begun. -/
def pgoodAwaited : State :=
  let s := [(Reg.loop 0 .snsCal, 0x80000000#32), (.loop 0 .uvCfg, 0x00010000#32), (.loop 0 .respRail, 0x100#32), (.loop 1 .seq, 0x80#32)].foldl
    (fun s p => putWord s p.1 p.2) claimedRun
  (s.modRail 0 fun r => { r with seq := { r.seq with state := .regulate, pgood := true }, eng := { r.eng with ref := 65536000 } }).modSeq 1
    fun q => { q with depFrom := some 0 }

end Sys2Proof.Machine
end

section
/-! PROOFS. The statements of 03_sensing_front_ends.md. -/

open Sys2Proof Sys2Proof.Machine

/-- Settles O33: the sample is taken, and OCT, within its limits, only clears its counts. -/
theorem currentSamplesAreCorrected : Obligations.CurrentSamplesAreCorrected := by
  intro u k which r s hr ic
  refine ⟨fun x hact hrun hx hlo hhi => ?_, fun hno hstop => congrArg Host.Outcome.next (tileCurrentSample_of_omitted hr r hno hstop)⟩
  obtain ⟨e, htile⟩ := sampled_tile s u which x r.toNat
  have hry : ((s.sampled u which x r.toNat).tile u).rail = some k := by rw [htile]; exact hr
  have hoct := modTile_tile (s.sampled u which x r.toNat) u fun ti =>
    { ti with prot := { ti.prot with ocHi := 0, ocLo := 0, ocPresent := false } }
  refine ⟨_, congrArg Host.Outcome.next ((tileCurrentSample_of_due hr r hact hrun hx).trans (judgeOct_within_limits hry hlo hhi)), ?_⟩
  rw [hoct, htile]
  exact ⟨rfl, rfl, rfl, rfl, rfl, rfl, rfl, rfl, rfl, rfl, rfl, rfl, rfl, rfl,
    fun v hv => (modTile_other _ u _ v hv).trans (sampled_other s u which x r.toNat v hv),
    (sampled_within s u which x r.toNat).step (within_State_modTile _ u _) (by decide)⟩

/-- Refutes O35: its clause on UV says that no other rail changes. The conversion that counts toward UV also lies outside the power-good window,
and where it lowers PGOOD a rail whose start depends on that loses its wait for START_DLY (R252, R255): here rail 1. (That a run
reaches this very state is not claimed: the statement is about every state.) -/
theorem not_conversionsTakeEffect : ¬ Obligations.ConversionsTakeEffect := by
  intro hall
  obtain ⟨hon, -⟩ := hall 0 pgoodAwaited
  obtain ⟨-, -, -, huv, -⟩ := hon (by decide +kernel)
  obtain ⟨t, hrun, -, -, -, -, hothers⟩ := huv 0 (by decide +kernel) (by decide +kernel) (by decide +kernel) (by decide +kernel)
    (by decide +kernel) (by decide +kernel) (by decide +kernel) (by decide +kernel) (by decide +kernel) (by decide +kernel) (by decide +kernel)
    (by decide +kernel)
  have hrail : t.rail 1 = pgoodAwaited.rail 1 := hothers 1 (by decide)
  obtain rfl : coarseConversion 0 0 pgoodAwaited = t := Host.Outcome.next.inj hrun
  exact absurd (congrArg (fun r => r.seq.depFrom) hrail) (by decide +kernel)

/-- Settles O36: the reading is handed over or waits, autozero is asked for, starts, ends or is given up, and preparation is judged after each. -/
theorem preparationEndsWithPrebiasAndAutozero : Obligations.PreparationEndsWithPrebiasAndAutozero := by
  intro k s
  refine ⟨fun hst hn hpb => ?_, fun hno => ?_, fun h hl => ⟨fun hoff hz hw => ?_, fun hoff => ?_⟩,
    fun b f hz => ⟨?_, fun hb hlate hnone => ?_, fun hno => ?_⟩,
    fun b sum tick hz => ?_, fun b n tick sum hz hn => ?_⟩
  · have hdue : (s.rail k).PrebiasDue := ⟨hst, hn, hpb⟩
    by_cases hw : PrebiasWaits s k
    · refine ⟨_, congrArg Host.Outcome.next (prebiasReading_waits hdue hw), prebiased_other s k _, prebiased_within s k _, ?_⟩
      rw [prebiased_rail]
      exact ⟨rfl, by rw [if_pos hw]; exact ⟨rfl, rfl, hpb, rfl⟩⟩
    · obtain ⟨done, ref, refs, hrail, hdone⟩ := prepCheck_rail k (s.prebiased k (prebiasTaken s k))
      rw [prebiased_rail] at hrail hdone
      refine ⟨_, congrArg Host.Outcome.next (prebiasReading_taken hdue hw),
        (prebiased_other s k _).prepCheck, (prebiased_within s k _).step (within_prepCheck k _) (by decide), ?_⟩
      rw [hrail]
      exact ⟨rfl, by rw [if_neg hw]; exact ⟨rfl, rfl, fun hz hnone => hdone ⟨hst, rfl, by rw [hz]; rfl, hnone⟩⟩⟩
  · refine congrArg Host.Outcome.next (prebiasReading_of_not_due fun ⟨hst, hn, hpb⟩ => ?_)
    rcases hno with hno | hno | hno
    · exact hno hst
    · exact hno hn
    · exact absurd (hno.symm.trans hpb) nofun
  · have hin := opened_within s h (Reg.loop k .snsStat).addr
    have hrun : writeAt h (.loop k .snsStat) 0x80000000#32 s = _ := (writeAt_azReq hl).trans
      ((autozeroAsk_of_off h (by rw [railSt_of_bus hin]; exact hoff)).trans
        (askAutozero_of_idle false (by rw [opened_rail]; exact hz) (by rw [leaveWaits_of_bus hin]; exact hw)))
    have hdraw : (s.opened h (Reg.loop k .snsStat).addr).draw = s.draw := hin .draw (by decide)
    rw [opened_now, hdraw] at hrun
    have hrail := modFe_rail (s.opened h (Reg.loop k .snsStat).addr) k fun f => { f with autozero := .requested false s.now }
    refine ⟨_, congrArg Host.Outcome.next hrun, ?_, rfl, ?_, fun j hj => (modRail_other _ k _ j hj).trans (opened_rail ..),
      (hin.mono (by decide)).trans (((within_State_modFe _ k _).mono (by decide)).step (within_set_draw _ _) (by decide))⟩
    · exact congrArg (fun r => r.fe.autozero) hrail
    · exact (congrArg (fun r => r.fe.stat) hrail).trans (congrArg (fun r => r.fe.stat) (opened_rail ..))
  · have hin := opened_within s h (Reg.loop k .snsStat).addr
    have hrun : writeAt h (.loop k .snsStat) 0x80000000#32 s = _ :=
      (writeAt_azReq hl).trans (autozeroAsk_of_not_off h (by rw [railSt_of_bus hin]; exact hoff))
    have hout := hin.trans (within_refuse h _)
    refine ⟨_, congrArg Host.Outcome.next hrun, ?_, ?_, fun j _ => hout.rail_eq (by decide) j, hout.mono (by decide)⟩
    · rw [refuse_refCnt, opened_refCnt]
    · rw [hout.rail_eq (by decide)]
  · exact congrArg Host.Outcome.next (autozeroStart_of_requested hz)
  · subst hb
    obtain ⟨done, ref, refs, hrail, -⟩ := prepCheck_rail k (s.zeroDropped k)
    rw [zeroDropped_rail] at hrail
    have hdraw : (prepCheck k (s.zeroDropped k)).draw = (s.zeroDropped k).draw := within_prepCheck k _ .draw (by decide)
    refine ⟨_, congrArg Host.Outcome.next (autozeroTimeout_of_late hz hlate hnone), ?_, ?_, ?_,
      (zeroDropped_other s k).prepCheck, (zeroDropped_within s k).step (within_prepCheck k _) (by decide)⟩
    · rw [hrail]
    · rw [hrail]
    · rw [leaveWaits, hdraw]; exact leaveWaits_dropLeave _ _
  · exact congrArg Host.Outcome.next (autozeroTimeout_of_kept hz hno)
  · obtain ⟨done, ref, refs, hrail, hdone⟩ := prepCheck_rail k (s.zeroEnded k tick (quotFree (8 * sum) 4096))
    rw [zeroEnded_rail] at hrail hdone
    have hin := within_prepCheck k (s.zeroEnded k tick (quotFree (8 * sum) 4096))
    have hnow : (prepCheck k (s.zeroEnded k tick (quotFree (8 * sum) 4096))).now = _ := hin .now (by decide)
    have hdraw : (prepCheck k (s.zeroEnded k tick (quotFree (8 * sum) 4096))).draw = (s.zeroEnded k tick _).draw := hin .draw (by decide)
    refine ⟨_, congrArg Host.Outcome.next (autozeroDone_of_whole tick hz), ?_⟩
    rw [hrail, hnow]
    refine ⟨zeroed_autozero .., hdraw, zeroEnded_now .., zeroed_result .., fun hst hpb hnone => hdone ⟨hst, hpb, ?_, hnone⟩,
      (zeroEnded_other s k tick _).prepCheck, (zeroEnded_within s k tick _).step hin (by decide)⟩
    rw [zeroed_autozero]; rfl
  · exact congrArg Host.Outcome.next (autozeroDone_of_short tick hz hn)

/-- Settles O37: a plain update steps the engine and writes the shadows; after one aimed at a peak the reference carrier stands there. -/
theorem loopUpdateWritesTheShadows : Obligations.LoopUpdateWritesTheShadows := by
  intro k s
  refine ⟨fun hrun haim hsw hleap hpre hset hgo => ?_, fun hno => congrArg Host.Outcome.next (loopUpdate_of_rest hno)⟩
  refine ⟨_, congrArg Host.Outcome.next (loopUpdate_of_plain hrun haim hsw ⟨hleap, hpre, hset, hgo⟩), loopUpdated_now, ?_⟩
  rw [loopUpdated_rail]
  refine ⟨rfl, rfl, rfl, rfl, rfl, rfl, rfl, rfl, rfl, rfl, rfl, fun u => ?_, rfl, loopUpdated_other, loopUpdated_within⟩
  rw [loopUpdated_tile, loopUpdated_now]
  rfl

end

section
/-! SUPPORT. The judgement of a load frame: what an accepted frame leaves, how it is answered, and what a SET_TARGET takes (R436 to R441). -/

namespace Sys2Proof.Machine

theorem coreOn_of_linkRuns {s : State} (hr : linkRuns s = true) : coreOn s = true := by
  have hup : (s.pwr.phase == .up) = true := (Bool.and_eq_true_iff.mp hr).1
  simp [coreOn, hup]

/-- The state in which the frame of a load that counts as alive is judged: the clock runs and the frame is counted (R431, R436, R450). -/
def State.received (s : State) : State :=
  { s with link := { s.link with clkActive := true, rxCnt := satInc s.link.rxCnt 65535, rxAt := some s.now, alive := true } }

theorem received_within (s : State) : Within [.link] s s.received := within_set_link s _

/-- A frame that arrives while the link runs and the load counts as alive causes no event of its own. -/
theorem judgeFrame_of_alive {s : State} (hr : linkRuns s = true) (ha : s.link.alive = true) (ty seq : Byte) (k : RailId) (flags : BitVec 5)
    (value : BitVec 16) :
    judgeFrame ty seq k flags value s =
      if ty = 0x11 then judgeTarget seq k flags value s.received
      else if ty = 0x12 then judgeQuery seq k flags value s.received
      else if ty = 0x13 then judgePing seq k flags value s.received
      else answer seq k value 4 0 s.received := by
  have hclk : clkRuns s = { s with link := { s.link with clkActive := true } } := if_pos (coreOn_of_linkRuns hr)
  have hacc : frameAccepted (clkRuns s) = s.received := by
    rw [hclk]
    exact if_neg (by simp [ha])
  have hrun : linkRuns (clkRuns s) = true := by rw [hclk]; exact hr
  unfold judgeFrame
  dsimp only
  rw [hacc, if_pos hrun]

/-- An occurrence that stays inside the event system leaves the link as it was put. -/
theorem occur_quiet_link {s : State} {e : Nat} (d : Word) (l : Link) (hq : Quiet s e) :
    (occur e d { s with link := l }).link = l ∧ Within [.link, .ev] s (occur e d { s with link := l }) := by
  have hput : Within [.link] s { s with link := l } := within_set_link s l
  have hin := occur_quiet d ((quiet_congr (hput .settings (by decide)) e).mpr hq)
  exact ⟨hin .link (by decide), (hput.mono (by decide)).trans (hin.mono (by decide))⟩

/-! Answers (R438, R443) -/

/-- From `s` to `t` one accepted frame was answered with the result and the value: what an ACK says and counts. -/
structure Answered (seq : Byte) (k : RailId) (code : BitVec 5) (v : BitVec 16) (s t : State) : Prop where
  acks : t.link.acks = s.link.acks ++ [{ ty := 0x91, seq := seq, rail := k, flags := code, value := v }]
  rxCnt : t.link.rxCnt = satInc s.link.rxCnt 65535
  refCnt : t.link.refCnt = if code.toNat < 2 then s.link.refCnt else satInc s.link.refCnt 65535
  within : Within [.link, .ev] s t

variable {s x : State}

/-- ACCEPTED and DUPLICATE are answered in a state that differs from the one after the frame in the link alone. -/
theorem answered_of_taken (seq : Byte) (k : RailId) (rcv v : BitVec 16) {code : BitVec 5} (hc : code.toNat < 2) (hx : Within [.link] s x)
    (hacks : x.link.acks = s.link.acks) (hrx : x.link.rxCnt = satInc s.link.rxCnt 65535) (href : x.link.refCnt = s.link.refCnt) :
    Answered seq k code v s (answer seq k rcv code.toNat v x) := by
  have hans : answer seq k rcv code.toNat v x = pushAck seq k code.toNat v x := if_pos hc
  rw [hans]
  refine ⟨?_, hrx, href.trans (if_pos hc).symm, (hx.trans (within_set_link x _)).mono (by decide)⟩
  show x.link.acks ++ [_] = _
  rw [hacks, BitVec.ofNat_toNat, BitVec.setWidth_eq]

/-- Every other result counts and latches event 149, which stays inside the event system. -/
theorem answered_of_refused (seq : Byte) (k : RailId) (rcv v : BitVec 16) {code : BitVec 5} (hc : ¬code.toNat < 2) (hq : Quiet s 149) :
    Answered seq k code v s (answer seq k rcv code.toNat v s.received) := by
  have hans : answer seq k rcv code.toNat v s.received = occur 149 (word (k.val + at_ code.toNat 5 3 + seq.toNat * 256 + rcv.toNat * 65536))
      { s with link := { (pushAck seq k code.toNat v s.received).link with refCnt := satInc s.link.refCnt 65535 } } := if_neg hc
  obtain ⟨hlink, hin⟩ := occur_quiet_link (word (k.val + at_ code.toNat 5 3 + seq.toNat * 256 + rcv.toNat * 65536))
    { (pushAck seq k code.toNat v s.received).link with refCnt := satInc s.link.refCnt 65535 } hq
  rw [hans]
  refine ⟨?_, ?_, ?_, hin⟩
  · rw [hlink]
    show s.link.acks ++ [_] = _
    rw [BitVec.ofNat_toNat, BitVec.setWidth_eq]
  · rw [hlink]; rfl
  · rw [hlink, if_neg hc]

/-- A frame answered in the state that it leaves is answered by one ACK, whatever the result. -/
theorem answered_received (hq : Quiet s 149) (seq : Byte) (k : RailId) (rcv v : BitVec 16) (code : BitVec 5) :
    Answered seq k code v s (answer seq k rcv code.toNat v s.received) := by
  by_cases hc : code.toNat < 2
  · exact answered_of_taken seq k rcv v hc (received_within s) rfl rfl rfl
  · exact answered_of_refused seq k rcv v hc hq

/-! SET_TARGET by the tests of R439 -/

/-- The rail's last command was the same one (R440). -/
def Repeated (s : State) (seq : Byte) (k : RailId) (value : BitVec 16) : Prop :=
  (s.rail k).link.valid = true ∧ (s.rail k).link.seq = seq ∧ (s.rail k).link.value = value

section
variable {seq : Byte} {k : RailId} {flags : BitVec 5} {value : BitVec 16}

theorem repeated_iff : ((s.rail k).link.valid && (s.rail k).link.seq == seq && (s.rail k).link.value == value) = true ↔ Repeated s seq k value := by
  simp [Repeated, and_assoc]

theorem judgeTarget_of_reserved (hf : flags.toNat / 2 ≠ 0) : judgeTarget seq k flags value s = answer seq k value 4 0 s := if_pos hf

theorem judgeTarget_of_unavailable (hf : flags.toNat / 2 = 0) (ha : railAvail s k = false) :
    judgeTarget seq k flags value s = answer seq k value 5 0 s := by
  unfold judgeTarget
  rw [if_neg (not_not.mpr hf), if_pos (by simp [ha])]

/-- The tests of a SET_TARGET behind the first two: with its flags in order, of a rail that can be commanded. -/
theorem judgeTarget_of_available (hf : flags.toNat / 2 = 0) (ha : railAvail s k = true) :
    (Repeated s seq k value → judgeTarget seq k flags value s = duplicate seq k value s)
      ∧ (¬Repeated s seq k value → linkAuth s k = false → judgeTarget seq k flags value s = answer seq k value 2 (targetNow s k) s)
      ∧ (¬Repeated s seq k value → linkAuth s k = true →
          (value.toNat < tMin s k ∨ tMax s k < value.toNat → judgeTarget seq k flags value s = answer seq k value 3 (targetNow s k) s)
          ∧ (¬(value.toNat < tMin s k ∨ tMax s k < value.toNat) →
              judgeTarget seq k flags value s = acceptTarget seq k (flags.getLsbD 0) value s)) := by
  unfold judgeTarget
  dsimp only
  rw [if_neg (not_not.mpr hf), if_neg (by simp [ha])]
  refine ⟨fun hd => if_pos (repeated_iff.mpr hd), fun hd hno => ?_, fun hd hyes => ⟨fun ho => ?_, fun ho => ?_⟩⟩
  · rw [if_neg (mt repeated_iff.mp hd), if_pos (by simp [hno])]
  · rw [if_neg (mt repeated_iff.mp hd), if_neg (by simp [hyes]), if_pos ho]
  · rw [if_neg (mt repeated_iff.mp hd), if_neg (by simp [hyes]), if_neg ho]

/-- The duplicate of a command whose outcome is open or has not been sent is answered, and nothing more (R440). -/
theorem duplicate_of_untold (hu : (s.rail k).link.told = false ∨ (s.rail k).link.outcome = none) :
    duplicate seq k value s = answer seq k value 1 (targetNow s k) { s with link := { s.link with dupCnt := satInc s.link.dupCnt 255 } } := by
  have hrail : ((answer seq k value 1 (targetNow s k) { s with link := { s.link with dupCnt := satInc s.link.dupCnt 255 } }).rail k).link
      = (s.rail k).link := rfl
  unfold duplicate
  dsimp only
  rw [hrail]
  rcases hu with hu | hu
  · rw [hu]
    split <;> rfl
  · rw [hu]

end

/-! What a SET_TARGET takes (R124, R439, R445) -/

/-- The link's record of a rail after an accepted SET_TARGET: the command, and its watch where it asks for one. -/
def LinkRail.taking (l : LinkRail) (seq : Byte) (value : BitVec 16) (settle : Bool) (now : Nat) : LinkRail :=
  { l with seq := seq, value := value, valid := true, outcome := none, told := false
           watch := if settle then some { seq := seq, openedAt := now, inWinFrom := none, target := value.toNat } else none }

/-- The rail's target with its source. -/
def State.retargeted (s : State) (k : RailId) (v : Nat) (byLink : Bool) : State :=
  (putWord s (.loop k .target) (word v)).modEng k fun e => { e with srcLink := byLink }

theorem retargeted_rail (s : State) (k : RailId) (v : Nat) (byLink : Bool) :
    (s.retargeted k v byLink).rail k = { s.rail k with eng := { (s.rail k).eng with srcLink := byLink } } := modEng_rail ..

theorem retargeted_within (s : State) (k : RailId) (v : Nat) (byLink : Bool) : Within [.settings, .rails] s (s.retargeted k v byLink) :=
  ((within_putWord s _ _).mono (by decide)).trans ((within_State_modEng _ _ _).mono (by decide))

theorem target_retargeted (hs : s.Canonical) (k : RailId) (value : BitVec 16) (byLink : Bool) :
    target (s.retargeted k value.toNat byLink) k = value.toNat := by
  have hput : loopW (s.retargeted k value.toNat byLink) k .target = word value.toNat := setWord_putWord_same hs _ _
  rw [target, hput]
  exact fld_word_low value.isLt

theorem noWatch_retargeted {k : RailId} (hw : NoWatch s k) (v : Nat) (byLink : Bool) : NoWatch (s.retargeted k v byLink) k := by
  obtain ⟨hnone, hclosed⟩ := hw
  constructor
  · rw [retargeted_rail]; exact hnone
  · rw [retargeted_rail]; exact hclosed

theorem takeTarget_of_noWatch {k : RailId} (hw : NoWatch s k) (v : Nat) (byLink : Bool) :
    takeTarget k v byLink s = s.retargeted k v byLink := by
  show (if _ then closeWatch occur k 1 _ (s.retargeted k v byLink) else s.retargeted k v byLink) = _
  rw [closeWatch_of_noWatch (noWatch_retargeted hw v byLink), ite_self]

/-- The rail's state while a watch that is opened stays open (R445). -/
def Watchable (s : State) (k : RailId) : Prop :=
  railSt s k = .prepare ∨ railSt s k = .softstart ∨ railSt s k = .regulate ∨ railSt s k = .slew

theorem openWatch_of_watchable {k : RailId} (hst : Watchable s k) (seq : Byte) :
    openWatch k seq s = s.modRail k fun r =>
      { r with link := { r.link with watch := some { seq := seq, openedAt := s.now, inWinFrom := none, target := target s k } } } := by
  have hrail : railSt (s.modRail k fun r =>
      { r with link := { r.link with watch := some { seq := seq, openedAt := s.now, inWinFrom := none, target := target s k } } }) k
      = railSt s k := by rw [railSt, modRail_rail]; rfl
  unfold openWatch
  dsimp only
  rw [hrail]
  rcases hst with hst | hst | hst | hst <;> rw [hst]

/-- What an accepted SET_TARGET leaves of a rail with no watch that is on its way or switching: one ACK, the target, its source and the
record of the command. -/
structure TargetTaken (seq : Byte) (k : RailId) (value : BitVec 16) (settle : Bool) (s t : State) : Prop where
  acks : t.link.acks = s.link.acks ++ [{ ty := 0x91, seq := seq, rail := k, flags := 0, value := value }]
  target : target t k = value.toNat
  rail : t.rail k = { s.rail k with
    eng := { (s.rail k).eng with srcLink := true }, link := (s.rail k).link.taking seq value settle s.now }
  others : OtherRails k s t
  within : Within [.link, .settings, .rails] s t

/-- The accepted command in the rail's record, its ACK in the queue. -/
def State.recorded (s : State) (seq : Byte) (k : RailId) (value : BitVec 16) : State :=
  pushAck seq k 0 value ((s.retargeted k value.toNat true).modRail k fun r =>
    { r with link := { r.link with seq := seq, value := value, valid := true, outcome := none, told := false } })

theorem recorded_rail (s : State) (seq : Byte) (k : RailId) (value : BitVec 16) :
    (s.recorded seq k value).rail k = { s.rail k with
      eng := { (s.rail k).eng with srcLink := true }
      link := { (s.rail k).link with seq := seq, value := value, valid := true, outcome := none, told := false } } :=
  (modRail_rail ..).trans (by rw [retargeted_rail])

theorem recorded_within (s : State) (seq : Byte) (k : RailId) (value : BitVec 16) :
    Within [.link, .settings, .rails] s (s.recorded seq k value) :=
  (((retargeted_within s k _ _).mono (by decide)).trans ((within_State_modRail _ _ _).mono (by decide))).trans
    ((within_set_link _ _).mono (by decide))

theorem recorded_other (s : State) (seq : Byte) (k : RailId) (value : BitVec 16) : OtherRails k s (s.recorded seq k value) := fun j hj =>
  (modRail_other (s.retargeted k value.toNat true) k _ j hj).trans (modRail_other _ k _ j hj)

theorem acceptTarget_of_noWatch {k : RailId} (hw : NoWatch s k) (seq : Byte) (settle : Bool) (value : BitVec 16) :
    acceptTarget seq k settle value s = if settle then openWatch k seq (s.recorded seq k value) else s.recorded seq k value := by
  unfold acceptTarget
  dsimp only
  rw [takeTarget_of_noWatch hw, closeWatch_of_noWatch (noWatch_retargeted hw _ _), ite_self]
  rfl

theorem targetTaken_acceptTarget {k : RailId} (hs : s.Canonical) (hw : NoWatch s k) (hst : Watchable s k) (seq : Byte) (settle : Bool)
    (value : BitVec 16) : TargetTaken seq k value settle s (acceptTarget seq k settle value s) := by
  have htgt : target (s.recorded seq k value) k = value.toNat := target_retargeted hs k value true
  rw [acceptTarget_of_noWatch hw]
  cases settle with
  | false =>
    refine ⟨rfl, htgt, ?_, recorded_other s seq k value, recorded_within s seq k value⟩
    have hopen : (s.rail k).link = { (s.rail k).link with watch := none } := by rw [← hw.1]
    rw [if_neg (by decide), recorded_rail, hopen]
    rfl
  | true =>
    have hst' : Watchable (s.recorded seq k value) k := by
      rw [Watchable, railSt, recorded_rail]; exact hst
    rw [if_pos rfl, openWatch_of_watchable hst']
    refine ⟨rfl, htgt, ?_, fun j hj => (modRail_other _ k _ j hj).trans (recorded_other s seq k value j hj),
      (recorded_within s seq k value).step (within_State_modRail _ _ _) (by decide)⟩
    rw [modRail_rail, htgt, recorded_rail]
    rfl

theorem targetTaken_of_received {seq : Byte} {k : RailId} {value : BitVec 16} {settle : Bool} {t : State}
    (h : TargetTaken seq k value settle s.received t) : TargetTaken seq k value settle s t :=
  ⟨h.acks, h.target, h.rail, h.others, ((received_within s).mono (by decide)).trans h.within⟩

/-! QUERY and PING (R441, R442) -/

section
variable {seq : Byte} {k : RailId} {flags : BitVec 5} {value : BitVec 16}

theorem judgeQuery_of_item {v : Nat} (hv : queryItem s k value.toNat = some v) :
    (flags = 0 → railAvail s k = true → judgeQuery seq k flags value s = answer seq k value 0 (BitVec.ofNat 16 v) s)
      ∧ (flags = 0 → railAvail s k = false → judgeQuery seq k flags value s = answer seq k value 5 0 s)
      ∧ (flags ≠ 0 → judgeQuery seq k flags value s = answer seq k value 4 0 s) := by
  unfold judgeQuery
  rw [hv]
  dsimp only
  refine ⟨fun hf ha => ?_, fun hf ha => ?_, fun hf => if_pos hf⟩
  · rw [if_neg (not_not.mpr hf), if_neg (by simp [ha])]
  · rw [if_neg (not_not.mpr hf), if_pos (by simp [ha])]

theorem judgeQuery_of_no_item (hv : queryItem s k value.toNat = none) : judgeQuery seq k flags value s = answer seq k value 4 0 s := by
  unfold judgeQuery
  rw [hv]

theorem judgePing_of_reserved (hf : flags ≠ 0) : judgePing seq k flags value s = answer seq k value 4 0 s := if_pos hf

end

/-! A frame with an error (R436) -/

/-- Once the clock is known to run, further edges of it show nothing new. -/
theorem judgeFrame_clkRuns (ty seq : Byte) (k : RailId) (flags : BitVec 5) (value : BitVec 16) (s : State) :
    judgeFrame ty seq k flags value (clkRuns s) = judgeFrame ty seq k flags value s := by
  have hidem : clkRuns (clkRuns s) = clkRuns s := by
    by_cases hc : coreOn s = true
    · have hclk : clkRuns s = { s with link := { s.link with clkActive := true } } := if_pos hc
      rw [hclk]
      exact if_pos hc
    · have hclk : clkRuns s = s := if_neg hc
      rw [hclk, hclk]
  unfold judgeFrame
  dsimp only
  rw [hidem]

theorem linkFrameError_of_runs (hr : linkRuns s = true) (f : BitVec 48) :
    linkFrameError f false s
        = occur 145 0 { s with link := { s.link with clkActive := true, frmCnt := satInc s.link.frmCnt 255 } }
      ∧ (f.toNat % 256 ≠ rawCrc f → linkFrameError f true s = occur 144 (word (f.toNat % 256 + rawCrc f * 256))
          { s with link := { s.link with clkActive := true, crcCnt := satInc s.link.crcCnt 255 } })
      ∧ (f.toNat % 256 = rawCrc f → linkFrameError f true s =
          judgeFrame (BitVec.ofNat 8 (f.toNat >>> 40)) (BitVec.ofNat 8 (f.toNat >>> 32)) (railOf (f.toNat >>> 29))
            (BitVec.ofNat 5 (f.toNat >>> 24)) (BitVec.ofNat 16 (f.toNat >>> 8)) s) := by
  have hclk : clkRuns s = { s with link := { s.link with clkActive := true } } := if_pos (coreOn_of_linkRuns hr)
  have hrun : linkRuns (clkRuns s) = true := by rw [hclk]; exact hr
  unfold linkFrameError
  dsimp only
  rw [if_pos hrun]
  refine ⟨?_, fun hne => ?_, fun heq => ?_⟩
  · rw [if_pos (by decide), hclk]
  · rw [if_pos hrun, if_neg (by decide), if_pos hne, hclk]
  · rw [if_pos hrun, if_neg (by decide), if_neg (not_not.mpr heq), judgeFrame_clkRuns]

end Sys2Proof.Machine
end

section
/-! SUPPORT. A state at which a statement on reference valleys fails. -/

namespace Sys2Proof.Machine

/-- Rail 0 stands in PREPARE with tile 0 ACTIVE and its carrier running. Its present entry, of ILSCALE 128, lies in map word 0, which has been
marked bad since; the valley that takes the safe entry, of ILSCALE 64, is still to come (R194). ILIM is 256. -/
def preparingOnBadWord : State :=
  let s := putWord (putWord claimedRun (.mapRegion 0) 0x08000000) (.loop 0 .ocrCfg) 256
  let s := { s with map := { s.map with mem := Store.set 0 (Store.set 0 s.map.mem 0 0x800000) 0x4080 0x400000, bad := [0] } }
  (s.modRail 0 fun r => { r with
    seq := { r.seq with state := .prepare }, car := { r.car with running := true, prd := 100 }, mo := { r.mo with entry := 0x800000 } }).modTile 0
    fun ti => { ti with rail := some 0, act := .active }

end Sys2Proof.Machine
end

section
/-! PROOFS. The statements of 04_loop_engines.md. -/

open Sys2Proof Sys2Proof.Machine

/-- Refutes O38: its clause on PREPARE does not ask that the present entry stays. A rail whose entry lies in a bad word takes its safe entry at
this valley in every state (R194), before the limits are judged (R186, R276), so ILIM_EFF is that of the safe entry's ILSCALE (here 128) and
not that of the entry before (256). -/
theorem not_referenceValleyForIrAndLimits : ¬ Obligations.ReferenceValleyForIrAndLimits := by
  intro hall
  obtain ⟨hvalley, -⟩ := hall 0 .ok preparingOnBadWord
  obtain ⟨-, hprepare, -⟩ := hvalley (by decide +kernel)
  obtain ⟨t, hrun, -, -, -, -, hlimit, -⟩ := hprepare (by decide +kernel) (by decide +kernel) (by decide +kernel)
  obtain rfl : referenceValley 0 .ok preparingOnBadWord = t := Host.Outcome.next.inj hrun
  have hbefore : ilimEffOf preparingOnBadWord 0 = 256 := by decide +kernel
  have htaken : ((referenceValley 0 .ok preparingOnBadWord).rail 0).prot.ilimEff = 128 := by decide +kernel
  exact absurd (htaken.symm.trans (hlimit.trans hbefore)) (by decide)

/-- Settles O50: the frame is judged in the state that its reception leaves, and each test of R439 has its own answer. -/
theorem loadFramesAreJudgedInOrder : Obligations.LoadFramesAreJudgedInOrder := by
  intro seq k flags value s hs hq hr halive ack answers
  have hjudge := judgeFrame_of_alive hr halive
  have hanswers : ∀ (c : Instr) (code : BitVec 5) (v : BitVec 16),
      exec c s = .next (answer seq k value code.toNat v s.received) → answers c code v := fun c code v hc => by
    obtain ⟨hacks, hrx, href, hin⟩ := answered_received hq seq k value v code
    exact ⟨_, hc, hacks, hrx, href, hin⟩
  have hset : exec (.setTarget seq k flags value) s = .next (judgeTarget seq k flags value s.received) :=
    congrArg Host.Outcome.next (hjudge ..)
  have hquery : exec (.query seq k flags value) s = .next (judgeQuery seq k flags value s.received) :=
    congrArg Host.Outcome.next (hjudge ..)
  have hping : exec (.ping seq k flags value) s = .next (judgePing seq k flags value s.received) :=
    congrArg Host.Outcome.next (hjudge ..)
  refine ⟨fun hf => hanswers _ 4 0 ?_, fun hf => ⟨fun ha => hanswers _ 5 0 ?_, fun ha => ?_⟩, fun v hv => ?_, fun hf => hanswers _ 4 0 ?_,
    fun hv => hanswers _ 4 0 ?_, fun ty h11 h12 h13 => hanswers _ 4 0 ?_, fun f hq144 hq145 => ?_⟩
  · rw [hset, judgeTarget_of_reserved hf]; rfl
  · rw [hset, judgeTarget_of_unavailable (s := s.received) hf ha]; rfl
  · obtain ⟨hdup, hnoauth, htaken⟩ := judgeTarget_of_available (s := s.received) (seq := seq) (value := value) hf ha
    refine ⟨fun hd hu => ?_, fun hd hno => hanswers _ 2 _ ?_, fun hd hyes ho => hanswers _ 3 _ ?_, fun hd hyes ho hw hst => ?_⟩
    · have hin : Within [.link] s { s.received with link := { s.received.link with dupCnt := satInc s.received.link.dupCnt 255 } } :=
        (received_within s).trans (within_set_link _ _)
      obtain ⟨hacks, hrx, href, hin⟩ := answered_of_taken seq k value (BitVec.ofNat 16 (target s k)) (code := 1) (by decide) hin rfl rfl rfl
      exact ⟨_, hset.trans (congrArg _ ((hdup hd).trans (duplicate_of_untold hu))), hacks, hrx, href, hin⟩
    · rw [hset, hnoauth hd hno]; rfl
    · rw [hset, (htaken hd hyes).1 ho]; rfl
    · obtain ⟨hacks, htgt, hrail, hother, hin⟩ :=
        targetTaken_of_received (targetTaken_acceptTarget (s := s.received) hs hw hst seq (flags.getLsbD 0) value)
      exact ⟨_, hset.trans (congrArg _ ((htaken hd hyes).2 ho)), hacks, htgt, hrail, hother, hin⟩
  · obtain ⟨hitem, hoff, hres⟩ := judgeQuery_of_item (s := s.received) (seq := seq) (flags := flags) hv
    refine ⟨fun hf ha => hanswers _ 0 _ ?_, fun hf ha => hanswers _ 5 0 ?_, fun hf => hanswers _ 4 0 ?_⟩
    · rw [hquery, hitem hf ha]; rfl
    · rw [hquery, hoff hf ha]; rfl
    · rw [hquery, hres hf]; rfl
  · rw [hping, judgePing_of_reserved hf]; rfl
  · rw [hquery, judgeQuery_of_no_item (s := s.received) hv]; rfl
  · refine congrArg Host.Outcome.next ((hjudge ty seq k flags value).trans ?_)
    rw [if_neg h11, if_neg h12, if_neg h13]
    rfl
  · obtain ⟨hstop, hcrc, hgood⟩ := linkFrameError_of_runs hr f
    refine ⟨?_, fun hne => ?_, fun heq => congrArg Host.Outcome.next (hgood heq)⟩
    · obtain ⟨hlink, hin⟩ := occur_quiet_link 0 { s.link with clkActive := true, frmCnt := satInc s.link.frmCnt 255 } hq145
      exact ⟨_, congrArg Host.Outcome.next hstop, hlink, hin⟩
    · obtain ⟨hlink, hin⟩ := occur_quiet_link (word (f.toNat % 256 + rawCrc f * 256))
        { s.link with clkActive := true, crcCnt := satInc s.link.crcCnt 255 } hq144
      exact ⟨_, congrArg Host.Outcome.next (hcrc hne), hlink, hin⟩

end

section
/-! SUPPORT. SYNC_IN and its locks: what an edge and a loss do to the input, and how the rails that may lock are judged (R157 to R159). -/

namespace Sys2Proof.Machine

/-! Rails that take no part: not set to lock, and FREE. -/

/-- Rail j is neither set to lock nor locked, so no edge and no loss concerns it. -/
def Unsynced (s : State) (j : RailId) : Prop := lockEn s j = false ∧ (s.rail j).ilv.lock = .free

theorem lockEn_congr {s t : State} (hset : t.settings = s.settings) (k : RailId) : lockEn t k = lockEn s k := by
  simp only [lockEn, loopW, setWord, hset]

theorem Unsynced.congr {s t : State} {j : RailId} (h : Unsynced s j) (hset : t.settings = s.settings) (hrail : t.rail j = s.rail j) :
    Unsynced t j := ⟨(lockEn_congr hset j).trans h.1, hrail ▸ h.2⟩

theorem Unsynced.of_within {s t : State} {ps : List Part} {j : RailId} (h : Unsynced s j) (hin : Within ps s t) (hset : Part.settings ∉ ps)
    (hrails : Part.rails ∉ ps) : Unsynced t j := h.congr (hin .settings hset) (hin.rail_eq hrails j)

theorem syncFree_of_free {s : State} {k : RailId} (hf : (s.rail k).ilv.lock = .free) : syncFree k s = s := if_pos hf

theorem syncJudge_of_unsynced (edge : Bool) {s : State} {j : RailId} (h : Unsynced s j) : syncJudge edge s j = s := by
  obtain ⟨hoff, hfree⟩ := h
  exact (if_pos (by simp [hoff])).trans (syncFree_of_free hfree)

theorem foldl_of_fixed {α : Type} {f : State → α → State} {s : State} {l : List α} (h : ∀ a ∈ l, f s a = s) : l.foldl f s = s := by
  induction l with
  | nil => rfl
  | cons a l ih =>
    rw [List.foldl_cons, h a List.mem_cons_self]
    exact ih fun b hb => h b (List.mem_cons_of_mem _ hb)

/-- A fold over the rails in which rail k alone has an effect. -/
theorem allRails_foldl_one {f : State → RailId → State} {s : State} (k : RailId) (hbefore : ∀ j, j ≠ k → f s j = s)
    (hafter : ∀ j, j ≠ k → f (f s k) j = f s k) : allRails.foldl f s = f s k := by
  obtain ⟨a, b, hsplit⟩ := List.append_of_mem (List.mem_finRange k)
  have hnodup := hsplit ▸ List.nodup_finRange 8
  obtain ⟨-, hb, hab⟩ := List.nodup_append.mp hnodup
  have ha : ∀ j ∈ a, j ≠ k := fun j hj => hab j hj k List.mem_cons_self
  have hb : ∀ j ∈ b, j ≠ k := fun j hj he => (List.nodup_cons.mp hb).1 (he ▸ hj)
  have hall : allRails = a ++ k :: b := hsplit
  rw [hall, List.foldl_append, foldl_of_fixed fun j hj => hbefore j (ha j hj), List.foldl_cons]
  exact foldl_of_fixed fun j hj => hafter j (hb j hj)

/-- With no rail concerned nothing is judged. -/
theorem judgeAll_of_unsynced (edge : Bool) {s : State} (h : ∀ j, Unsynced s j) : allRails.foldl (syncJudge edge) s = s :=
  foldl_of_fixed fun j _ => syncJudge_of_unsynced edge (h j)

/-- With one rail concerned that one is judged, where its judgement leaves the others alone. -/
theorem judgeAll_of_one {edge : Bool} {s t : State} {k : RailId} (h : ∀ j, j ≠ k → Unsynced s j) (ht : syncJudge edge s k = t)
    (hother : OtherRails k s t) : allRails.foldl (syncJudge edge) s = t := by
  have hset : t.settings = s.settings := ht ▸ within_syncJudge edge s k .settings (by decide)
  refine (allRails_foldl_one k (fun j hj => syncJudge_of_unsynced edge (h j hj)) fun j hj => ?_).trans ht
  rw [ht]
  exact syncJudge_of_unsynced edge ((h j hj).congr hset (hother j hj))

/-! A change of one rail's interleave. -/

theorem modIlv_ilv (s : State) (k : RailId) (f : Interleave → Interleave) : ((s.modIlv k f).rail k).ilv = f (s.rail k).ilv := by rw [modIlv_rail]
theorem modIlv_st (s : State) (k : RailId) (f : Interleave → Interleave) : railSt (s.modIlv k f) k = railSt s k := by
  unfold railSt
  rw [modIlv_rail]

/-! A rail that returns to FREE (R159). -/

theorem writePeriod_rail (k : RailId) (prd frac : Nat) (x : Int) (s : State) :
    (writePeriod k prd frac x s).rail k = { s.rail k with car := (s.rail k).car.give prd frac (nowI s) x } := modRail_rail ..
theorem writePeriod_other (k : RailId) (prd frac : Nat) (x : Int) (s : State) : OtherRails k s (writePeriod k prd frac x s) :=
  fun j hj => modRail_other _ k _ j hj

theorem setOrigin_ilv (k : RailId) (p16 : Nat) (s : State) :
    ((setOrigin k p16 s).rail k).ilv = { (s.rail k).ilv with originAt := originValley s k (nowI s), p16 := p16 } := modIlv_ilv s k _
theorem setOrigin_other (k : RailId) (p16 : Nat) (s : State) : OtherRails k s (setOrigin k p16 s) := modRail_other s k _

/-- Rail k is FREE, its period not yet written. -/
def State.freed (s : State) (k : RailId) : State := s.modIlv k fun i => { i with lock := .free, quiet := 0 }

theorem freed_lock (s : State) (k : RailId) : ((s.freed k).rail k).ilv.lock = .free :=
  congrArg Interleave.lock (modIlv_ilv s k _)
theorem freed_other (s : State) (k : RailId) : OtherRails k s (s.freed k) := modRail_other s k _

theorem syncFree_of_synced {s : State} {k : RailId} (hl : (s.rail k).ilv.lock ≠ .free) :
    syncFree k s = if ((s.freed k).rail k).car.running = true then
        writePeriod k (progPrd (s.freed k) k) 0 (periodAt (s.freed k) k) (s.freed k)
      else setOrigin k (16 * progPrd (s.freed k) k) (s.freed k) := if_neg hl

theorem syncFree_frees (s : State) (k : RailId) : ((syncFree k s).rail k).ilv.lock = .free ∧ OtherRails k s (syncFree k s) := by
  by_cases hf : (s.rail k).ilv.lock = .free
  · rw [syncFree_of_free hf]
    exact ⟨hf, fun _ _ => rfl⟩
  rw [syncFree_of_synced hf]
  split
  · rw [writePeriod_rail]
    exact ⟨freed_lock s k, fun j hj => (writePeriod_other k _ _ _ _ j hj).trans (freed_other s k j hj)⟩
  · rw [setOrigin_ilv]
    exact ⟨freed_lock s k, fun j hj => (setOrigin_other k _ _ j hj).trans (freed_other s k j hj)⟩

theorem syncJudge_of_absent (edge : Bool) {s : State} (k : RailId) (hp : s.sync.present = false) : syncJudge edge s k = syncFree k s := by
  unfold syncJudge
  simp [hp]

/-! SYNC_IN becomes absent (R157). -/

/-- The input once it is absent. -/
def Sync.absent (y : Sync) : Sync :=
  { y with present := false, lost := true, lossCnt := satInc y.lossCnt 255, period := 0, intervals := [], good := 0, bad := 0 }

def State.inputLost (s : State) : State := { s with sync := s.sync.absent }

theorem inputLost_within (s : State) : Within [.sync] s s.inputLost := within_set_sync s _

theorem anyLockEn_iff (s : State) : (allRails.any fun k => lockEn s k) = true ↔ ∃ k, lockEn s k = true := by
  simp [allRails, finList]

theorem syncAbsent_eq (s : State) : syncAbsent s = allRails.foldl (syncJudge false)
    (if (allRails.any fun k => lockEn s.inputLost k) = true then occur 112 0 s.inputLost else s.inputLost) := rfl

theorem syncAbsent_of_unsynced {s : State} (h : ∀ j, Unsynced s j) : syncAbsent s = s.inputLost := by
  have hlost : ∀ j, Unsynced s.inputLost j := h
  have hnone : ¬(allRails.any fun k => lockEn s.inputLost k) = true := fun hany => by
    obtain ⟨k, hk⟩ := (anyLockEn_iff _).mp hany
    exact Bool.noConfusion ((hlost k).1.symm.trans hk)
  rw [syncAbsent_eq, if_neg hnone]
  exact judgeAll_of_unsynced false hlost

/-- The loss of the input raises event 112 where a rail is set to lock, and frees that rail (R158, R159). -/
theorem syncAbsent_frees {s : State} {k : RailId} (h : ∀ j, j ≠ k → Unsynced s j) (hk : lockEn s k = true) (hq : Quiet s 112) :
    ((syncAbsent s).rail k).ilv.lock = .free ∧ OtherRails k s (syncAbsent s) ∧ (syncAbsent s).sync.present = false := by
  have hev : Within [.ev] s.inputLost (occur 112 0 s.inputLost) := occur_quiet 0 hq
  have hany : (allRails.any fun k => lockEn s.inputLost k) = true := (anyLockEn_iff _).mpr ⟨k, hk⟩
  have habsent : (occur 112 0 s.inputLost).sync.present = false := congrArg Sync.present (hev .sync (by decide))
  have hunsynced : ∀ j, j ≠ k → Unsynced (occur 112 0 s.inputLost) j := fun j hj =>
    Unsynced.of_within (s := s.inputLost) (h j hj) hev (by decide) (by decide)
  obtain ⟨hfree, hother⟩ := syncFree_frees (occur 112 0 s.inputLost) k
  rw [syncAbsent_eq, if_pos hany, judgeAll_of_one hunsynced (syncJudge_of_absent false k habsent) hother]
  exact ⟨hfree, fun j hj => (hother j hj).trans (hev.rail_eq (by decide) j),
    (congrArg Sync.present (within_syncFree k _ .sync (by decide))).trans habsent⟩

/-- `s` two periods after its last edge, at l ticks. -/
def State.twoPeriodsAfter (s : State) (l : Nat) : State := s.advance (16 * l + 2 * s.sync.period : Nat)

theorem twoPeriodsAfter_within (s : State) (l : Nat) : Within [.now] s (s.twoPeriodsAfter l) := within_State_advance s _
theorem twoPeriodsAfter_now (s : State) (l : Nat) : (s.twoPeriodsAfter l).now = max s.now (16 * l + 2 * s.sync.period) :=
  congrArg (max s.now) (Int.toNat_natCast _)

theorem syncInLoss_of_present {s : State} {l : Nat} (hl : s.sync.lastEdge = some l) (hp : s.sync.present = true) :
    syncInLoss s = syncAbsent (s.twoPeriodsAfter l) := by
  unfold syncInLoss
  rw [hl]
  exact if_pos hp

theorem syncInLoss_of_absent {s : State} (h : s.sync.present = false ∨ s.sync.lastEdge = none) : syncInLoss s = s := by
  unfold syncInLoss
  split
  case h_1 => rfl
  case h_2 l hl =>
    have hp : s.sync.present = false := h.resolve_right (by simp [hl])
    exact if_neg (by simp [hp])

/-! An edge of SYNC_IN (R157). -/

/-- An interval that counts as good: 18 to 131,070 ticks (R157). -/
def goodInterval (d : Nat) : Bool := decide (18 ≤ d) && decide (d ≤ 131070)

theorem goodInterval_iff {d : Nat} : goodInterval d = true ↔ 18 ≤ d ∧ d ≤ 131070 := by simp [goodInterval]

/-- Good intervals in a row, up to eight, after one more interval. -/
def Sync.goodAfter (y : Sync) (d : Nat) : Nat := if goodInterval d then min (y.good + 1) 8 else 0
/-- Bad intervals in a row after one more interval. -/
def Sync.badAfter (y : Sync) (d : Nat) : Nat := if goodInterval d then 0 else y.bad + 1
/-- The input is present after one more interval, unless that one makes it lost. -/
def Sync.presentAfter (y : Sync) (d : Nat) : Bool := y.present || decide (y.goodAfter d = 8)

theorem goodAfter_eq (y : Sync) (d : Nat) : y.goodAfter d = if 18 ≤ d ∧ d ≤ 131070 then min (y.good + 1) 8 else 0 := by
  unfold Sync.goodAfter
  simp only [goodInterval_iff]
theorem badAfter_eq (y : Sync) (d : Nat) : y.badAfter d = if 18 ≤ d ∧ d ≤ 131070 then 0 else y.bad + 1 := by
  unfold Sync.badAfter
  simp only [goodInterval_iff]
theorem presentAfter_of_present {y : Sync} (hp : y.present = true) (d : Nat) : y.presentAfter d = true := by simp [Sync.presentAfter, hp]

theorem presentAfter_eq (y : Sync) (d : Nat) : y.presentAfter d = (y.present || decide ((18 ≤ d ∧ d ≤ 131070) ∧ 7 ≤ y.good)) := by
  have height : y.goodAfter d = 8 ↔ (18 ≤ d ∧ d ≤ 131070) ∧ 7 ≤ y.good := by
    rw [goodAfter_eq]
    split <;> omega
  rw [Sync.presentAfter, decide_eq_decide.mpr height]

theorem lostBy_iff (y : Sync) (d : Nat) : (y.presentAfter d && decide (4 ≤ y.badAfter d)) = true
    ↔ y.present = true ∧ ¬(18 ≤ d ∧ d ≤ 131070) ∧ 3 ≤ y.bad := by
  rw [← goodInterval_iff]
  unfold Sync.presentAfter Sync.badAfter Sync.goodAfter
  cases goodInterval d <;> simp

/-- The input after an edge that ends an interval of d ticks, before a loss by that edge. -/
def Sync.measured (y : Sync) (tick d : Nat) : Sync :=
  { y with
    lastEdge := some tick, intervals := pushKeep 8 d y.intervals, good := y.goodAfter d, bad := y.badAfter d, present := y.presentAfter d
    period := if y.presentAfter d then (quotFree (16 * ((pushKeep 8 d y.intervals).sum : Nat)) (pushKeep 8 d y.intervals).length).toNat else 0 }

/-- `s` at the edge of a tick, its interval measured. -/
def State.measured (s : State) (tick d : Nat) : State := { s.advance (16 * tick) with sync := s.sync.measured tick d }

theorem measured_within (s : State) (tick d : Nat) : Within [.now, .sync] s (s.measured tick d) :=
  ((within_State_advance s _).mono (by decide)).step (within_set_sync _ _) (by decide)

theorem measured_now (s : State) (tick d : Nat) : (s.measured tick d).now = max s.now (16 * tick) :=
  congrArg (max s.now) (Int.toNat_natCast (16 * tick))

/-- `s` at its first edge, of a tick. -/
def State.firstEdge (s : State) (tick : Nat) : State := { s.advance (16 * tick) with sync := { s.sync with lastEdge := some tick } }

theorem firstEdge_within (s : State) (tick : Nat) : Within [.now, .sync] s (s.firstEdge tick) :=
  ((within_State_advance s _).mono (by decide)).step (within_set_sync _ _) (by decide)
theorem firstEdge_now (s : State) (tick : Nat) : (s.firstEdge tick).now = max s.now (16 * tick) :=
  congrArg (max s.now) (Int.toNat_natCast (16 * tick))

theorem syncInEdge_of_disabled {s : State} (hoff : siEn s = false) (tick : Nat) : syncInEdge tick s = s := if_neg (by simp [hoff])

section
variable {s : State} (hen : siEn s = true) (hup : s.pwr.phase = .up) (tick : Nat)
include hen hup

theorem syncInEdge_first (hl : s.sync.lastEdge = none) : syncInEdge tick s = s.firstEdge tick := by
  have hl' : (s.advance (16 * tick)).sync.lastEdge = none := hl
  refine (if_pos (by simp [hen, hup])).trans ?_
  dsimp only
  rw [hl']
  rfl

theorem syncInEdge_further {l : Nat} (hl : s.sync.lastEdge = some l) :
    syncInEdge tick s = if (s.sync.presentAfter (tick - l) && decide (4 ≤ s.sync.badAfter (tick - l))) = true then
        syncAbsent (s.measured tick (tick - l))
      else allRails.foldl (syncJudge true) (s.measured tick (tick - l)) := by
  have hl' : (s.advance (16 * tick)).sync.lastEdge = some l := hl
  refine (if_pos (by simp [hen, hup])).trans ?_
  dsimp only
  rw [hl']
  rfl

theorem syncInEdge_loses {l : Nat} (hl : s.sync.lastEdge = some l)
    (h : s.sync.present = true ∧ ¬(18 ≤ tick - l ∧ tick - l ≤ 131070) ∧ 3 ≤ s.sync.bad) :
    syncInEdge tick s = syncAbsent (s.measured tick (tick - l)) :=
  (syncInEdge_further hen hup tick hl).trans (if_pos ((lostBy_iff _ _).mpr h))

theorem syncInEdge_kept {l : Nat} (hl : s.sync.lastEdge = some l)
    (h : ¬(s.sync.present = true ∧ ¬(18 ≤ tick - l ∧ tick - l ≤ 131070) ∧ 3 ≤ s.sync.bad)) :
    syncInEdge tick s = allRails.foldl (syncJudge true) (s.measured tick (tick - l)) :=
  (syncInEdge_further hen hup tick hl).trans (if_neg (mt (lostBy_iff _ _).mp h))

end

/-! A FREE rail at an edge of a present input (R158, R159). -/

/-- P16* of rail k has been found in range. -/
def State.inRange (s : State) (k : RailId) : State := s.modIlv k fun i => { i with outOfRange := false }

theorem inRange_ilv (s : State) (k : RailId) : ((s.inRange k).rail k).ilv = { (s.rail k).ilv with outOfRange := false } := modIlv_ilv s k _
theorem inRange_st (s : State) (k : RailId) : railSt (s.inRange k) k = railSt s k := modIlv_st s k _
theorem inRange_other (s : State) (k : RailId) : OtherRails k s (s.inRange k) := modRail_other s k _

/-- Rail k leaves FREE at an edge: that edge is its selected one, from which edges, valleys and quiet periods count. -/
def State.leftFree (s : State) (k : RailId) : State :=
  s.modIlv k fun i => { i with edgeAt := nowI s, edgeNo := 0, valleyNo := 0, quiet := 0
                               lock := if railSt s k = .off then .locked else .acquiring }

theorem leftFree_ilv (s : State) (k : RailId) : ((s.leftFree k).rail k).ilv =
    { (s.rail k).ilv with edgeAt := nowI s, edgeNo := 0, valleyNo := 0, quiet := 0
                          lock := if railSt s k = .off then .locked else .acquiring } := modIlv_ilv s k _
theorem leftFree_st (s : State) (k : RailId) : railSt (s.leftFree k) k = railSt s k := modIlv_st s k _
theorem leftFree_other (s : State) (k : RailId) : OtherRails k s (s.leftFree k) := modRail_other s k _

theorem placeOrigin_ilv (k : RailId) (s : State) :
    ((placeOrigin k s).rail k).ilv = { (s.rail k).ilv with originAt := syncAim s k, p16 := p16Star s k } := modIlv_ilv s k _
theorem placeOrigin_other (k : RailId) (s : State) : OtherRails k s (placeOrigin k s) := modRail_other s k _

section
variable {s : State} {k : RailId} (hk : lockEn s k = true) (hp : s.sync.present = true) (hr : starInRange s k = true)
  (hf : (s.rail k).ilv.lock = .free)
include hk hp hr hf

theorem syncJudge_leavesFree : syncJudge true s k = if railSt ((s.inRange k).leftFree k) k = .off then
      occur 113 0 (placeOrigin k ((s.inRange k).leftFree k))
    else (s.inRange k).leftFree k := by
  have hlock : ((s.inRange k).rail k).ilv.lock = .free := (congrArg Interleave.lock (inRange_ilv s k)).trans hf
  have hstep : (s.modIlv k fun i => { i with outOfRange := false }) = s.inRange k := rfl
  unfold syncJudge
  simp only [hk, hp, hr, hstep, hlock, Bool.not_true, Bool.false_and, Bool.false_eq_true, if_false, if_true]
  rfl

end

/-- From s to t rail k has left FREE at an edge, and beside it only the event system has changed. -/
structure LeavesFree (k : RailId) (s t : State) : Prop where
  lock : (t.rail k).ilv.lock = if railSt s k = .off then .locked else .acquiring
  quiet : (t.rail k).ilv.quiet = 0
  edge : (t.rail k).ilv.edgeAt = nowI s
  others : OtherRails k s t
  frame : Within [.rails, .ev] s t

theorem leavesFree_leftFree (s : State) (k : RailId) : LeavesFree k s ((s.inRange k).leftFree k) where
  lock := by rw [leftFree_ilv, inRange_st]
  quiet := by rw [leftFree_ilv]
  edge := by rw [leftFree_ilv]; rfl
  others j hj := (leftFree_other _ k j hj).trans (inRange_other s k j hj)
  frame := Within.mono ((within_State_modIlv s k _).trans (within_State_modIlv _ k _)) (by decide)

theorem LeavesFree.placeOrigin {k : RailId} {s t : State} (h : LeavesFree k s t) : LeavesFree k s (placeOrigin k t) where
  lock := (congrArg Interleave.lock (placeOrigin_ilv k t)).trans h.lock
  quiet := (congrArg Interleave.quiet (placeOrigin_ilv k t)).trans h.quiet
  edge := (congrArg Interleave.edgeAt (placeOrigin_ilv k t)).trans h.edge
  others j hj := (placeOrigin_other k t j hj).trans (h.others j hj)
  frame := h.frame.step (within_State_modIlv t k _) (by decide)

theorem LeavesFree.event {k : RailId} {s t u : State} (h : LeavesFree k s t) (hev : Within [.ev] t u) : LeavesFree k s u where
  lock := (congrArg (fun r : Rail => r.ilv.lock) (hev.rail_eq (by decide) k)).trans h.lock
  quiet := (congrArg (fun r : Rail => r.ilv.quiet) (hev.rail_eq (by decide) k)).trans h.quiet
  edge := (congrArg (fun r : Rail => r.ilv.edgeAt) (hev.rail_eq (by decide) k)).trans h.edge
  others j hj := (hev.rail_eq (by decide) j).trans (h.others j hj)
  frame := h.frame.step hev (by decide)

/-- An occurrence of an enabled and latching source that stays inside the event system latches it. -/
theorem occur_latches {s : State} (e : SourceId) (d : Word) (hq : Quiet s e.val) (hn : occurredNow s e.val = false) (hen : evEn s e.val = true)
    (hlatch : evLatchEn s e.val = true) : ((occur e.val d s).source e.val).latch = true := by
  have hlatched : ((s.latched e.val d).source e.val).latch = true := by rw [latched_source, if_pos hen]; simp [hlatch]
  rw [occur_of_quiet d hq hn]
  split
  · rw [journaled_source]; exact hlatched
  · exact hlatched

section
variable {s : State} {k : RailId} (hk : lockEn s k = true) (hp : s.sync.present = true) (hr : starInRange s k = true)
  (hf : (s.rail k).ilv.lock = .free) (hq : Quiet s 113)
include hk hp hr hf hq

theorem leavesFree_syncJudge : LeavesFree k s (syncJudge true s k) := by
  have hleft := leavesFree_leftFree s k
  have hquiet : Quiet (placeOrigin k ((s.inRange k).leftFree k)) 113 := hq
  rw [syncJudge_leavesFree hk hp hr hf]
  split
  · exact hleft.placeOrigin.event (occur_quiet 0 hquiet)
  · exact hleft

/-- A rail in OFF is LOCKED at once, with event 113 (R159). -/
theorem syncJudge_latches (hen : evEn s 113 = true) (hlatch : evLatchEn s 113 = true) (hn : occurredNow s 113 = false)
    (hoff : railSt s k = .off) : ((syncJudge true s k).source 113).latch = true := by
  have hst : railSt ((s.inRange k).leftFree k) k = .off := ((leftFree_st _ k).trans (inRange_st s k)).trans hoff
  rw [syncJudge_leavesFree hk hp hr hf, if_pos hst]
  exact occur_latches (113 : SourceId) 0 hq hn hen hlatch

end

theorem starInRange_congr {s t : State} {k : RailId} (hset : t.settings = s.settings) (hmap : t.map = s.map) (hrail : t.rail k = s.rail k)
    (hperiod : t.sync.period = s.sync.period) : starInRange t k = starInRange s k := by
  have htwo : twoStar t k = twoStar s k := by simp only [twoStar, syncMult, loopW, setWord, hset, hperiod]
  have hprog : progPrd t k = progPrd s k := by simp only [progPrd, prdOf, hmap, hrail]
  unfold starInRange
  rw [htwo, hprog]

/-- P16* is judged with the mean of the latest intervals, the measured one among them. -/
theorem starInRange_measured {s : State} (hp : s.sync.present = true) (tick d : Nat) (k : RailId) :
    starInRange (s.measured tick d) k = starInRange { s with sync := { s.sync with
      period := (quotFree (16 * ((pushKeep 8 d s.sync.intervals).sum : Nat)) (pushKeep 8 d s.sync.intervals).length).toNat } } k :=
  starInRange_congr (t := s.measured tick d) rfl rfl rfl (if_pos (presentAfter_of_present hp d))

end Sys2Proof.Machine
end

section
/-! SUPPORT. SYNC_OUT: the valley that a pulse follows, and when it rises (R162). -/

namespace Sys2Proof.Machine

/-- The rounded quotient is within a half of the quotient. -/
theorem roundQ_near (n : Int) {d : Int} (hd : 0 < d) : 2 * n - d ≤ 2 * (d * roundQ n d) ∧ 2 * (d * roundQ n d) ≤ 2 * n + d := by
  have hmod := Int.emod_add_mul_ediv n d
  have hlow := Int.emod_nonneg n hd.ne'
  have hhigh := Int.emod_lt_of_pos n hd
  have hrest : n - n / d * d = n % d := by rw [Int.mul_comm]; omega
  have hup : d * (n / d + 1) = d * (n / d) + d := mul_add_one _ _
  unfold roundQ
  simp only [hd.ne', hd, if_false, if_true, hrest]
  split_ifs <;> omega

/-- The latest origin valley comes at x or less than a period before it. -/
theorem originValley_near {s : State} {k : RailId} (hp : 0 < originPeriod s k) (x : Int) :
    originValley s k x ≤ x ∧ x < originValley s k x + originPeriod s k := by
  have hdiv := Int.emod_add_mul_ediv (x - (s.rail k).ilv.originAt) (originPeriod s k)
  have hlow := Int.emod_nonneg (x - (s.rail k).ilv.originAt) hp.ne'
  have hhigh := Int.emod_lt_of_pos (x - (s.rail k).ilv.originAt) hp
  unfold originValley
  simp only [hp.ne', if_false, Int.mul_comm _ (originPeriod s k)]
  omega

theorem originValley_multiple (s : State) (k : RailId) (x : Int) :
    ∃ n : Int, originValley s k x = (s.rail k).ilv.originAt + n * originPeriod s k := by
  unfold originValley
  dsimp only
  split
  · exact ⟨0, by omega⟩
  · exact ⟨_, rfl⟩

/-- No pulse rises before this instant: the present one, or a step after the latest rise. -/
def State.outFrom (s : State) : Int := match s.sync.outRise with | some r => max (nowI s) (r + 1) | none => nowI s

/-- The rise that follows origin valley o: SO_PHASE after it, rounded to ticks. -/
def State.riseAfter (s : State) (o : Int) : Int := 16 * roundQ (o * 4096 + soPhase s * originPeriod s (soRail s)) 65536

/-- 4,096 times SO_PHASE, which is less than a period. -/
def State.outPhase (s : State) : Int := soPhase s * originPeriod s (soRail s)

theorem outPhase_lt {s : State} (hp : 0 < originPeriod s (soRail s)) : 0 ≤ s.outPhase ∧ s.outPhase < 4096 * originPeriod s (soRail s) := by
  have hlt : fld (setWord s .syncCfg) 27 16 < 4096 := fld_lt _ 27 16
  exact ⟨Int.mul_nonneg (Int.natCast_nonneg _) hp.le, Int.mul_lt_mul_of_pos_right (by unfold soPhase; omega) hp⟩

/-- The rise lies within half a tick of SO_PHASE after its valley. -/
theorem riseAfter_near (s : State) (o : Int) :
    4096 * o + s.outPhase ≤ 4096 * (s.riseAfter o + 8) ∧ 4096 * (s.riseAfter o - 8) ≤ 4096 * o + s.outPhase := by
  have hnear := roundQ_near (o * 4096 + s.outPhase) (d := 65536) (by decide)
  have hrise : s.riseAfter o = 16 * roundQ (o * 4096 + s.outPhase) 65536 := rfl
  omega

/-- The next rise of SYNC_OUT: that after the latest valley but one, the latest or the next, whichever is first in time. -/
def State.nextRise (s : State) : Int :=
  let p := originPeriod s (soRail s)
  let o := originValley s (soRail s) s.outFrom
  if s.outFrom ≤ s.riseAfter (o + -1 * p) then s.riseAfter (o + -1 * p)
  else if s.outFrom ≤ s.riseAfter (o + 0 * p) then s.riseAfter (o + 0 * p)
  else s.riseAfter (o + 1 * p)


theorem nextRise_valley (s : State) :
    ∃ n : Int, s.nextRise = s.riseAfter ((s.rail (soRail s)).ilv.originAt + n * originPeriod s (soRail s)) := by
  obtain ⟨q, hq⟩ := originValley_multiple s (soRail s) s.outFrom
  have hsum : ∀ m : Int, originValley s (soRail s) s.outFrom + m * originPeriod s (soRail s)
      = (s.rail (soRail s)).ilv.originAt + (q + m) * originPeriod s (soRail s) := fun m => by rw [hq, Int.add_assoc, ← Int.add_mul]
  unfold State.nextRise
  simp only [hsum]
  split_ifs <;> exact ⟨_, rfl⟩

/-- The next rise comes not more than half a tick early, and within a period and a tick. -/
theorem nextRise_bounds {s : State} (hp : 0 < originPeriod s (soRail s)) :
    s.outFrom - 8 ≤ s.nextRise ∧ s.nextRise < s.outFrom + originPeriod s (soRail s) + 16 := by
  obtain ⟨hle, hlt⟩ := originValley_near hp s.outFrom
  obtain ⟨hphase, hperiod⟩ := outPhase_lt hp
  have hbefore := riseAfter_near s (originValley s (soRail s) s.outFrom + -1 * originPeriod s (soRail s))
  have hlatest := riseAfter_near s (originValley s (soRail s) s.outFrom + 0 * originPeriod s (soRail s))
  have hnext := riseAfter_near s (originValley s (soRail s) s.outFrom + 1 * originPeriod s (soRail s))
  unfold State.nextRise
  dsimp only
  split_ifs <;> omega

/-- SYNC_OUT with its next pulse set. -/
def State.pulsed (s : State) : State :=
  { s.advance s.nextRise with sync := { s.sync with outRise := some s.nextRise, outFall := some (s.nextRise + 16 * soWidth s) } }

theorem pulsed_within (s : State) : Within [.now, .sync] s s.pulsed :=
  ((within_State_advance s _).mono (by decide)).step (within_set_sync _ _) (by decide)

theorem syncOutPulse_of_on {s : State} (hen : soEn s = true) (hc : coreOn s = true) (hp : 0 < originPeriod s (soRail s)) :
    syncOutPulse s = s.pulsed := if_pos (by simp [hen, hc, hp])

theorem syncOutPulse_of_disabled {s : State} (hoff : soEn s = false) : syncOutPulse s = s := if_neg (by simp [hoff])

end Sys2Proof.Machine
end

section
/-! PROOFS. The statements of 05_interleave_rotation_sync.md. -/

open Sys2Proof Sys2Proof.Machine

/-- Settles O42: rails that take no part are left alone, so an edge and a loss change the input and the one rail set to lock. -/
theorem synchronisationFollowsItsInput : Obligations.SynchronisationFollowsItsInput := by
  intro s
  refine ⟨fun hnone => ⟨fun tick hen hup => ⟨fun hl => ?_, fun l hl => ?_⟩, fun l hl hp => ?_⟩, fun hoff tick => ?_, fun hno => ?_,
    fun hen hc hp => ?_, fun k tick l hothers hk hen hup hp hl h18 hmax hq hr hf => ?_, fun k l hothers hk hp hl hq => ?_, fun hoff => ?_⟩
  · exact ⟨_, congrArg Host.Outcome.next (syncInEdge_first hen hup tick hl), rfl, firstEdge_now s tick, firstEdge_within s tick⟩
  · by_cases hlost : s.sync.present = true ∧ ¬(18 ≤ tick - l ∧ tick - l ≤ 131070) ∧ 3 ≤ s.sync.bad
    · have hrun := (syncInEdge_loses hen hup tick hl hlost).trans (syncAbsent_of_unsynced (s := s.measured tick (tick - l)) hnone)
      refine ⟨_, congrArg Host.Outcome.next hrun, measured_now s tick (tick - l), ?_, rfl, ?_⟩
      · exact (measured_within s tick (tick - l)).step (inputLost_within _) (by decide)
      · rw [if_pos hlost]
        exact ⟨rfl, rfl, rfl, rfl⟩
    · have hrun := (syncInEdge_kept hen hup tick hl hlost).trans (judgeAll_of_unsynced true (s := s.measured tick (tick - l)) hnone)
      refine ⟨_, congrArg Host.Outcome.next hrun, measured_now s tick (tick - l), measured_within s tick (tick - l), rfl, ?_⟩
      rw [if_neg hlost]
      exact ⟨goodAfter_eq .., badAfter_eq .., rfl, presentAfter_eq .., rfl⟩
  · have hrun := (syncInLoss_of_present hl hp).trans (syncAbsent_of_unsynced (s := s.twoPeriodsAfter l) hnone)
    refine ⟨_, congrArg Host.Outcome.next hrun, rfl, rfl, rfl, rfl, twoPeriodsAfter_now s l, ?_⟩
    exact ((twoPeriodsAfter_within s l).mono (by decide)).step (inputLost_within _) (by decide)
  · exact congrArg Host.Outcome.next (syncInEdge_of_disabled hoff tick)
  · exact congrArg Host.Outcome.next (syncInLoss_of_absent hno)
  · obtain ⟨n, hn⟩ := nextRise_valley s
    have hbounds := nextRise_bounds hp
    rw [hn] at hbounds
    exact ⟨_, congrArg Host.Outcome.next (syncOutPulse_of_on hen hc hp), pulsed_within s, n, congrArg some hn,
      congrArg (fun x => some (x + 16 * soWidth s)) hn, congrArg (fun x : Int => max s.now x.toNat) hn, fun _ => hbounds⟩
  · have hpresent : (s.measured tick (tick - l)).sync.present = true := presentAfter_of_present hp _
    have hrange := (starInRange_measured hp tick (tick - l) k).trans hr
    have hleft : LeavesFree k (s.measured tick (tick - l)) _ := leavesFree_syncJudge hk hpresent hrange hf hq
    have hnow := hleft.frame .now (by decide)
    have hrun : syncInEdge tick s = syncJudge true (s.measured tick (tick - l)) k :=
      (syncInEdge_kept hen hup tick hl fun h => h.2.1 ⟨h18, hmax⟩).trans (judgeAll_of_one hothers rfl hleft.others)
    refine ⟨_, congrArg Host.Outcome.next hrun, (congrArg Sync.present (hleft.frame .sync (by decide))).trans hpresent, hleft.others, hleft.lock,
      hleft.quiet, hleft.edge.trans (congrArg Nat.cast hnow.symm), fun hev hlatch hn hoff => ?_⟩
    refine syncJudge_latches hk hpresent hrange hf hq hev hlatch (beq_eq_false_iff_ne.mpr fun hcyc => hn (hcyc.trans ?_)) hoff
    exact congrArg (fun n => some (n / 128)) hnow.symm
  · obtain ⟨hfree, hother, habsent⟩ := syncAbsent_frees (s := s.twoPeriodsAfter l) hothers hk hq
    exact ⟨_, congrArg Host.Outcome.next (syncInLoss_of_present hl hp), habsent, hfree, hother⟩
  · exact congrArg Host.Outcome.next (syncOutPulse_of_disabled hoff)

end

section
/-! SUPPORT. The ends of a low pulse, by force and in diode emulation, and the end of READY (R191, R221, R242). -/

namespace Sys2Proof.Machine

/-! The forced low side of a released tile (R221) -/

/-- The current predicted at x for a tile that was released at r, in IC units with 16 fraction bits. -/
def Tile.releasedCurrent (ti : Tile) (r x : Int) : Int :=
  ti.leap.i0 * 65536 + ti.leap.qUp * ti.leap.onTotal - ti.leap.qDn * (x - r).tdiv 16

/-- The forced low side of tile u ends at a tick. -/
def State.lowForced (s : State) (u : TileId) (tick : Nat) : State :=
  (s.advance (16 * tick)).modTile u fun ti => { ti with edg := ti.edg.cutLow (16 * tick), leap := { ti.leap with lowFrom := none } }

theorem lowForced_tile (s : State) (u : TileId) (tick : Nat) : (s.lowForced u tick).tile u =
    { s.tile u with edg := (s.tile u).edg.cutLow (16 * tick), leap := { (s.tile u).leap with lowFrom := none } } := modTile_tile ..
theorem lowForced_other (s : State) (u : TileId) (tick : Nat) : OtherTiles u s (s.lowForced u tick) := fun v hv => modTile_other _ u _ v hv
theorem advance_tick_now (s : State) (tick : Nat) : (s.advance (16 * tick)).now = max s.now (16 * tick) := by
  rw [advance_now]; omega

theorem lowSideForceEnd_eq {s : State} {u : TileId} {r : Int} (tick : Nat) (hr : (s.tile u).leap.lowFrom = some r) : lowSideForceEnd u tick s =
    if (s.tile u).act = .ready ∧ (s.tile u).releasedCurrent r (16 * tick) ≤ 0 then s.lowForced u tick else s := by
  unfold lowSideForceEnd
  dsimp only
  rw [hr]
  rfl

/-! The low pulse in diode emulation (R242) -/

/-- The current predicted at x for tile u of rail k from the sample in force, in IC units with 16 fraction bits. -/
def emulatedCurrent (s : State) (k : RailId) (u : TileId) (x : Int) : Int :=
  (s.tile u).sen.inForce x * 65536
    - qDnOf s k u * ((x - (if (s.tile u).sen.icAt + 384 ≤ x then (s.tile u).sen.icAt else (s.tile u).sen.icPrevAt)) / 16)

/-- The low pulse of tile u that is on at a tick ends. -/
def State.lowEnded (s : State) (u : TileId) (tick : Nat) : State :=
  (s.advance (16 * tick)).modTile u fun ti => { ti with edg := ti.endLow (16 * tick) }

theorem lowEnded_tile (s : State) (u : TileId) (tick : Nat) : (s.lowEnded u tick).tile u =
    { s.tile u with edg := (s.tile u).endLow (16 * tick) } := modTile_tile ..
theorem lowEnded_other (s : State) (u : TileId) (tick : Nat) : OtherTiles u s (s.lowEnded u tick) := fun v hv => modTile_other _ u _ v hv

theorem deLowSideOff_eq {s : State} {u : TileId} {k : RailId} (tick : Nat) (hk : (s.tile u).rail = some k) : deLowSideOff u tick s =
    if ((s.tile u).emulating && isActive (s.tile u) && lowAt (s.tile u).edg (16 * tick) && decide (emulatedCurrent s k u (16 * tick) ≤ 0)) = true
    then s.lowEnded u tick else s := by
  unfold deLowSideOff
  dsimp only
  rw [hk]
  rfl

/-- Where no later pulse is settled, the low side is off from the end of the pulse on. -/
theorem endPulse_low {w : Wave} {n y : Int} (hw : ∀ p ∈ w, n ≤ p.1 → p.2 = false) (hy : n ≤ y) : Wave.at (Wave.endPulse w n) y = false := by
  have hnone : ((w.filter fun p => decide (n ≤ p.1)).reverse.dropWhile fun p => !p.2) = [] :=
    List.dropWhile_eq_nil_iff.mpr fun p hp => by
      obtain ⟨hmem, hn⟩ := List.mem_filter.mp (List.mem_reverse.mp hp)
      rw [hw p hmem (of_decide_eq_true hn)]; rfl
  rw [Wave.endPulse, hnone]
  exact wave_at_hold_false w hy

/-- A rising edge that is still to come keeps its dead time from the end of the low pulse. -/
theorem endLow_rise {ti : Tile} {x r : Int} (hr : (r, true) ∈ ti.edg.hi) (hx : x < r) :
    (max r ((Wave.last (Wave.endPulse ti.edg.lo (x + 16)) false (x + 16)).getD (x + 16) + dtr ti), true) ∈ (ti.endLow x).hi :=
  List.mem_map.mpr ⟨(r, true), hr, if_pos ⟨rfl, hx⟩⟩

/-! The end of READY (R191) -/

/-- READY_T of tile u on rail k has passed without its being admitted. -/
def ReadyOver (s : State) (k : RailId) (u : TileId) : Prop :=
  (s.tile u).act = .ready ∧ readyT s k ≠ 65535 ∧ (s.tile u).readyAt + ms (readyT s k) ≤ s.now ∧ (s.rail k).ilv.adding ≠ some u

theorem readyTimeout_of_over {s : State} {u : TileId} {k : RailId} (hk : (s.tile u).rail = some k) (hover : ReadyOver s k u) :
    readyTimeout u s = (leapRemove u s).modTile u fun ti => ti.leaveCold s.now 3 := by
  unfold readyTimeout
  dsimp only
  rw [hk]
  exact if_pos hover

theorem readyTimeout_of_not_over {s : State} {u : TileId} {k : RailId} (hk : (s.tile u).rail = some k) (hno : ¬ReadyOver s k u) :
    readyTimeout u s = s := by
  unfold readyTimeout
  dsimp only
  rw [hk]
  exact if_neg hno

/-- A tile that does not fade and that no exclusion waits for becomes COLD (R19, R293, R325). -/
theorem leaveCold_of_plain {ti : Tile} (hfade : ti.fade = .none) (hpend : ti.reqPend = false) (now reason : Nat) :
    ti.leaveCold now reason = ti.leave now .cold reason := by
  unfold Tile.leaveCold
  rw [hfade, hpend]
  rfl

end Sys2Proof.Machine
end

section
/-! SUPPORT. A start that enters PREPARE: its entry, its carriers and what they leave (R105, R147, R182, R194, R238). -/

namespace Sys2Proof.Machine

/-! Changes of one rail and of its tiles -/

theorem OtherRails.trans {k : RailId} {s t u : State} (h : OtherRails k s t) (h' : OtherRails k t u) : OtherRails k s u :=
  fun j hj => (h' j hj).trans (h j hj)
theorem OtherSets.trans {k : RailId} {s t u : State} (h : OtherSets k s t) (h' : OtherSets k t u) : OtherSets k s u := fun v hv =>
  (h' v (by rwa [h v hv])).trans (h v hv)
theorem Within.otherRails {ps : List Part} {s t : State} (h : Within ps s t) (hp : Part.rails ∉ ps) (k : RailId) : OtherRails k s t :=
  fun j _ => h.rail_eq hp j
theorem Within.otherSets {ps : List Part} {s t : State} (h : Within ps s t) (hp : Part.tiles ∉ ps) (k : RailId) : OtherSets k s t :=
  fun v _ => h.tile_eq hp v

theorem mem_tilesOf {s : State} {k : RailId} {u : TileId} : u ∈ tilesOf s k ↔ (s.tile u).rail = some k := by
  simp [tilesOf, allTiles, finList]

theorem mem_insertBy {α : Type} {key : α → Nat} {a b : α} {l : List α} (h : b ∈ insertBy key a l) : b = a ∨ b ∈ l := by
  induction l with
  | nil => simpa [insertBy] using h
  | cons c l ih =>
    rw [insertBy] at h
    split at h
    · simpa using h
    · rcases List.mem_cons.mp h with rfl | h
      · exact .inr List.mem_cons_self
      · exact (ih h).imp_right (List.mem_cons_of_mem _)

theorem mem_of_mem_sortBy {α : Type} {key : α → Nat} {b : α} {l : List α} (h : b ∈ sortBy key l) : b ∈ l := by
  have hfold : ∀ (l acc : List α), b ∈ l.foldl (fun acc a => insertBy key a acc) acc → b ∈ acc ∨ b ∈ l := by
    intro l
    induction l with
    | nil => exact fun acc h => .inl h
    | cons a l ih =>
      intro acc h
      rcases ih _ h with h | h
      · rcases mem_insertBy h with rfl | h
        · exact .inr List.mem_cons_self
        · exact .inl h
      · exact .inr (List.mem_cons_of_mem _ h)
  exact (hfold l [] h).resolve_left List.not_mem_nil

theorem startTiles_rail {s : State} {k : RailId} {u : TileId} (h : u ∈ startTiles s k) : (s.tile u).rail = some k :=
  mem_tilesOf.mp (List.mem_of_mem_filter (mem_of_mem_sortBy (List.mem_of_mem_take (mem_of_mem_sortBy h))))

theorem foldl_modTile_other (f : TileId → Tile → Tile) {l : List TileId} {u : TileId} (hu : u ∉ l) (s : State) :
    (l.foldl (fun s t => s.modTile t (f t)) s).tile u = s.tile u := by
  induction l generalizing s with
  | nil => rfl
  | cons a l ih =>
    obtain ⟨ha, hl⟩ := List.ne_and_not_mem_of_not_mem_cons hu
    exact (ih hl _).trans (modTile_other s a (f a) u ha)

/-! The steps after the entry is chosen (R88, R105, R113, R143) -/

/-- A step of a start that leaves the sequencer, the protection and the entry of rail k as they are, and every other rail and its tiles. -/
structure StartStep (k : RailId) (s t : State) : Prop where
  frame : Within [.tiles, .rails, .draw] s t
  rail : ∃ ilv car eng fe, t.rail k = { s.rail k with ilv := ilv, car := car, eng := eng, fe := fe }
  others : OtherRails k s t
  sets : OtherSets k s t

theorem StartStep.trans {k : RailId} {s t u : State} (h : StartStep k s t) (h' : StartStep k t u) : StartStep k s u where
  frame := h.frame.trans h'.frame
  rail := by
    obtain ⟨_, _, _, _, ht⟩ := h.rail
    obtain ⟨_, _, _, _, hu⟩ := h'.rail
    rw [hu, ht]
    exact ⟨_, _, _, _, rfl⟩
  others := h.others.trans h'.others
  sets := h.sets.trans h'.sets

/-- Half-period of a start: that of the chosen entry, or the one a lock has set (R160). -/
def startHalf (s : State) (k : RailId) : Nat := if (s.rail k).ilv.lock = .free then 16 * progPrd s k else (s.rail k).ilv.p16

/-- The tile in slot j of n as a start with half-period `p16` seats it, the origin valley being at `o` (R143, R147). -/
def Tile.seated (ti : Tile) (j n p16 : Nat) (o now : Int) : Tile :=
  { ti.enterActive 4 j with car := startCarrier (ti.enterActive 4 j).car o (p16 / 16) (p16 % 16) (phiOf j n) now }

/-- The starting tiles of rail k take their slots. -/
def State.seatTiles (s : State) (k : RailId) (p16 : Nat) : State :=
  (startTiles s k).foldl (fun x t => x.modTile t fun ti =>
    ti.seated (indexIn t (startTiles s k)) (startTiles s k).length p16 (originValley s k (nowI s)) (nowI s)) s

theorem seatTiles_within (s : State) (k : RailId) (p16 : Nat) : Within [.tiles] s (s.seatTiles k p16) :=
  within_foldl (fun x t => within_State_modTile x t _) _ s

theorem seatTiles_sets (s : State) (k : RailId) (p16 : Nat) : OtherSets k s (s.seatTiles k p16) := fun _ hu =>
  foldl_modTile_other (fun t ti => ti.seated (indexIn t (startTiles s k)) (startTiles s k).length p16 (originValley s k (nowI s)) (nowI s))
    (fun hmem => hu (startTiles_rail hmem)) s

theorem startCarriers_eq (k : RailId) (s : State) : startCarriers k s =
    let o := setOrigin k (startHalf s k) s
    (o.seatTiles k (startHalf s k)).modRail k fun r =>
      { r with car := startCarrier r.car (originValley o k (nowI o)) (startHalf s k / 16) (startHalf s k % 16) 0 (nowI o) } := rfl

theorem startCarriers_rail (k : RailId) (s : State) : ∃ ilv car, (startCarriers k s).rail k = { s.rail k with ilv := ilv, car := car }
    ∧ car.running = true := by
  rw [startCarriers_eq]
  dsimp only
  rw [modRail_rail, (seatTiles_within _ k _).rail_eq (by decide), setOrigin, modIlv_rail]
  exact ⟨_, _, rfl, rfl⟩

theorem startCarriers_step (k : RailId) (s : State) : StartStep k s (startCarriers k s) where
  frame := (within_startCarriers k s).mono (by decide)
  rail := by
    obtain ⟨ilv, car, h, -⟩ := startCarriers_rail k s
    exact ⟨ilv, car, (s.rail k).eng, (s.rail k).fe, h⟩
  others := ((modRail_other s k _).trans ((seatTiles_within _ k _).otherRails (by decide) k)).trans (modRail_other _ k _)
  sets := ((within_setOrigin k _ s).otherSets (by decide) k).trans (seatTiles_sets _ k _)

theorem feedforward_rail (k : RailId) (s : State) : ∃ e, (feedforward k s).rail k = { s.rail k with eng := e } := by
  unfold feedforward antiWindup
  dsimp only
  rw [modEng_rail, modEng_rail]
  exact ⟨_, rfl⟩

theorem feedforward_step (k : RailId) (s : State) : StartStep k s (feedforward k s) where
  frame := (within_feedforward k s).mono (by decide)
  rail := by
    obtain ⟨e, he⟩ := feedforward_rail k s
    exact ⟨(s.rail k).ilv, (s.rail k).car, e, (s.rail k).fe, he⟩
  others := (modRail_other s k _).trans (modRail_other _ k _)
  sets := (within_feedforward k s).otherSets (by decide) k

theorem askAutozero_rail (k : RailId) (b : Bool) (s : State) : ∃ f, (askAutozero k b s).rail k = { s.rail k with fe := f } := by
  unfold askAutozero
  split
  · split
    · exact ⟨_, modFe_rail s k _⟩
    · exact ⟨_, rfl⟩
  · exact ⟨_, ((within_askLeave _ _).rail_eq (by decide) k).trans (modFe_rail s k _)⟩
  · split
    · exact ⟨_, modFe_rail s k _⟩
    · exact ⟨_, rfl⟩

theorem askAutozero_other (k : RailId) (b : Bool) (s : State) : OtherRails k s (askAutozero k b s) := by
  unfold askAutozero
  split
  · split
    · exact modRail_other s k _
    · exact fun _ _ => rfl
  · exact (modRail_other s k _).trans ((within_askLeave _ _).otherRails (by decide) k)
  · split
    · exact modRail_other s k _
    · exact fun _ _ => rfl

theorem askAutozero_step (k : RailId) (b : Bool) (s : State) : StartStep k s (askAutozero k b s) where
  frame := (within_askAutozero k b s).mono (by decide)
  rail := by
    obtain ⟨f, hf⟩ := askAutozero_rail k b s
    exact ⟨(s.rail k).ilv, (s.rail k).car, (s.rail k).eng, f, hf⟩
  others := askAutozero_other k b s
  sets := (within_askAutozero k b s).otherSets (by decide) k

/-- The carriers run, the feedforward stands, and an autozero is asked for where the start wants one. -/
def State.setGoing (s : State) (k : RailId) (az : Bool) : State :=
  if az then askAutozero k true (feedforward k (startCarriers k s)) else feedforward k (startCarriers k s)

theorem setGoing_step (s : State) (k : RailId) (az : Bool) : StartStep k s (s.setGoing k az) ∧ ((s.setGoing k az).rail k).car.running = true := by
  obtain ⟨_, _, hcar, hrun⟩ := startCarriers_rail k s
  have hff := (startCarriers_step k s).trans (feedforward_step k _)
  have hffrun : ((feedforward k (startCarriers k s)).rail k).car.running = true := by
    obtain ⟨e, he⟩ := feedforward_rail k (startCarriers k s)
    rw [he, hcar]; exact hrun
  unfold State.setGoing
  split
  · refine ⟨hff.trans (askAutozero_step k true _), ?_⟩
    obtain ⟨f, hf⟩ := askAutozero_rail k true (feedforward k (startCarriers k s))
    rw [hf]; exact hffrun
  · exact ⟨hff, hffrun⟩

/-! The choice of the entry (R182, R194, R195) -/

/-- A step of the choice of an entry leaves all of rail k but its Moult state and its engine, every other rail, and every tile. -/
structure EntryStep (k : RailId) (s t : State) : Prop where
  frame : Within [.rails, .test, .map, .ev] s t
  rail : ∃ mo eng, t.rail k = { s.rail k with mo := mo, eng := eng }
  others : OtherRails k s t

theorem EntryStep.trans {k : RailId} {s t u : State} (h : EntryStep k s t) (h' : EntryStep k t u) : EntryStep k s u where
  frame := h.frame.trans h'.frame
  rail := by
    obtain ⟨_, _, ht⟩ := h.rail
    obtain ⟨_, _, hu⟩ := h'.rail
    rw [hu, ht]
    exact ⟨_, _, rfl⟩
  others := h.others.trans h'.others

theorem modMo_entryStep (s : State) (k : RailId) (f : Moult → Moult) : EntryStep k s (s.modMo k f) where
  frame := (within_State_modMo s k f).mono (by decide)
  rail := ⟨_, (s.rail k).eng, modMo_rail s k f⟩
  others := modRail_other s k _

theorem EntryStep.of_map {k : RailId} {s t : State} (h : Within [.test, .map, .ev] s t) : EntryStep k s t where
  frame := h.mono (by decide)
  rail := ⟨(s.rail k).mo, (s.rail k).eng, h.rail_eq (by decide) k⟩
  others := h.otherRails (by decide) k

/-- A map word has been marked bad, before its event (R194). -/
def State.mapMarked (s : State) (w : Nat) : State := { s with
  map := { s.map with bad := w :: s.map.bad, dbe := satInc s.map.dbe 255, dbeFlag := true, badWord := w, badValid := true }
  test := { s.test with dbe := satInc s.test.dbe 255 } }

section
variable {s : State}

theorem readMapWord_of_bad {w : Nat} (hbad : s.map.bad.contains w = true) (ecc : Ecc) : readMapWord w ecc s = s := if_pos hbad

theorem readMapWord_double {w : Nat} (hbad : s.map.bad.contains w = false) : readMapWord w .double s = occur 224 0 (s.mapMarked w) := by
  simp only [readMapWord, markMapBad, hbad, Bool.false_eq_true, if_false]
  rfl

theorem mapMarked_event (hq : Quiet s 224) (w : Nat) : Within [.ev] (s.mapMarked w) (occur 224 0 (s.mapMarked w)) :=
  occur_quiet 0 ((quiet_congr (s := s) (t := s.mapMarked w) rfl 224).mpr hq)

theorem readMapWord_within {ecc : Ecc} (he : ecc ≠ .double ∨ Quiet s 224) (w : Nat) : Within [.test, .map, .ev] s (readMapWord w ecc s) := by
  by_cases hd : ecc = .double
  · subst hd
    cases hbad : s.map.bad.contains w with
    | true => rw [readMapWord_of_bad hbad]; exact Within.refl
    | false =>
      rw [readMapWord_double hbad]
      exact ((within_set_test_map s _ _).mono (by decide)).step (mapMarked_event (he.resolve_left (· rfl)) w) (by decide)
  · rw [readMapWord_of_right w hd]
    exact within_ite ((within_set_map s _).mono (by decide)) Within.refl

theorem readMapWord_ok (w : Nat) : readMapWord w .ok s = s := by
  rw [readMapWord_of_right (ecc := .ok) w nofun]
  exact if_neg fun h => nomatch h.1

end

/-- The bins stand at their initial values (R182). -/
def State.binned (s : State) (k : RailId) : State := s.modMo k fun m =>
  { m with vbin := binInitial (vDim s k) (vinSlowShown s k), ibin := binInitial (iDim s k) 0, tbin := binInitial (tDim s k) (railTemp s k) }
/-- Their entry is looked up. -/
def State.lookedUp (s : State) (k : RailId) : State := (s.binned k).modMo k fun m => { m with entryIdx := entryIndex (s.binned k) k }
/-- The map word that holds it. -/
def State.entryWord (s : State) (k : RailId) : Nat := mapWord (entryIndex (s.binned k) k)
/-- What the present entry asks for stands at once, and no request arises (R184). -/
def State.entryStands (s : State) (k : RailId) : State :=
  let m := s.modMo k fun m =>
    { m with fcode := entFcode m.entry, mapSet := entCset m.entry, lset := entLset m.entry, freqPend := none, setWithFreq := none, freqGo := none
             ir := 0, addCnt := 0, shedCnt := 0 }
  m.modEng k fun e => { e with setAct := wantedSet m k, setForced := forceCset m k, setPend := none }

/-- Rail k takes an entry for its start. -/
def State.takesEntry (s : State) (k : RailId) (safe : Bool) (entry : Word) : State :=
  (s.modMo k fun m => { m with safe := safe, entry := entry }).entryStands k

section
variable (s : State) (k : RailId)

theorem lookedUp_within : Within [.rails] s (s.lookedUp k) := (within_State_modMo s k _).trans (within_State_modMo _ k _)

theorem lookedUp_step : EntryStep k s (s.lookedUp k) := (modMo_entryStep s k _).trans (modMo_entryStep _ k _)

theorem lookedUp_entryIdx : ((s.lookedUp k).rail k).mo.entryIdx = entryIndex (s.binned k) k := by rw [State.lookedUp, modMo_rail]

variable (safe : Bool) (entry : Word)

theorem takesEntry_within : Within [.rails] s (s.takesEntry k safe entry) :=
  ((within_State_modMo s k _).trans (within_State_modMo _ k _)).trans (within_State_modEng _ k _)

theorem takesEntry_rail : ∃ mo eng, (s.takesEntry k safe entry).rail k = { s.rail k with mo := mo, eng := eng }
    ∧ mo.safe = safe ∧ mo.entry = entry ∧ mo.entryIdx = (s.rail k).mo.entryIdx := by
  unfold State.takesEntry State.entryStands
  dsimp only
  rw [modEng_rail, modMo_rail, modMo_rail]
  exact ⟨_, _, rfl, rfl, rfl, rfl⟩

theorem takesEntry_step : EntryStep k s (s.takesEntry k safe entry) where
  frame := (takesEntry_within s k safe entry).mono (by decide)
  rail := by
    obtain ⟨mo, eng, h, -⟩ := takesEntry_rail s k safe entry
    exact ⟨mo, eng, h⟩
  others := ((modRail_other s k _).trans (modRail_other _ k _)).trans (modRail_other _ k _)

theorem takesEntry_mo : ((s.takesEntry k safe entry).rail k).mo.safe = safe ∧ ((s.takesEntry k safe entry).rail k).mo.entry = entry
    ∧ ((s.takesEntry k safe entry).rail k).mo.entryIdx = (s.rail k).mo.entryIdx := by
  obtain ⟨mo, eng, h, hmo⟩ := takesEntry_rail s k safe entry
  rw [h]; exact hmo

end

section
variable {s : State} {k : RailId}

theorem startEntry_of_unmapped (hen : rgEn s k = false) (ecc : Ecc) : startEntry k ecc s = s.takesEntry k false (safeEntry s k) := by
  unfold startEntry
  rw [if_neg (by simp [hen])]
  rfl

theorem startEntry_of_mapped (hen : rgEn s k = true) (ecc : Ecc) : startEntry k ecc s =
    let r := readMapWord (s.entryWord k) ecc (s.lookedUp k)
    if r.map.bad.contains (s.entryWord k) = true then r.takesEntry k true (safeEntry r k)
    else r.takesEntry k false (Store.get 0 r.map.mem (entryIndex (s.binned k) k)) := by
  unfold startEntry
  rw [if_pos hen]
  exact apply_ite (fun x => State.entryStands x k) _ _ _

theorem quiet_lookedUp {e : Nat} : Quiet (s.lookedUp k) e ↔ Quiet s e := quiet_congr rfl e

theorem startEntry_step {ecc : Ecc} (he : ecc ≠ .double ∨ Quiet s 224) : EntryStep k s (startEntry k ecc s) := by
  cases hen : rgEn s k with
  | false =>
    rw [startEntry_of_unmapped hen]
    exact takesEntry_step s k false _
  | true =>
    rw [startEntry_of_mapped hen]
    refine ((lookedUp_step s k).trans (EntryStep.of_map (readMapWord_within (he.imp_right quiet_lookedUp.mpr) (s.entryWord k)))).trans ?_
    dsimp only
    split
    · exact takesEntry_step _ k true _
    · exact takesEntry_step _ k false _

/-- A sound map word makes no event and no mark. -/
theorem startEntry_ok_within (s : State) (k : RailId) : Within [.rails] s (startEntry k .ok s) := by
  cases hen : rgEn s k with
  | false =>
    rw [startEntry_of_unmapped hen]
    exact takesEntry_within s k false _
  | true =>
    rw [startEntry_of_mapped hen, readMapWord_ok]
    exact (lookedUp_within s k).trans (within_ite (takesEntry_within _ k true _) (takesEntry_within _ k false _))

/-- The index of a start's entry is that of its bins. -/
theorem startEntry_entryIdx (hen : rgEn s k = true) {ecc : Ecc} (he : ecc ≠ .double ∨ Quiet s 224) :
    ((startEntry k ecc s).rail k).mo.entryIdx = entryIndex (s.binned k) k := by
  have hread := readMapWord_within (he.imp_right (quiet_lookedUp (k := k)).mpr) (s.entryWord k)
  have hidx : ((readMapWord (s.entryWord k) ecc (s.lookedUp k)).rail k).mo.entryIdx = entryIndex (s.binned k) k := by
    rw [hread.rail_eq (by decide), lookedUp_entryIdx]
  rw [startEntry_of_mapped hen]
  dsimp only
  split
  · obtain ⟨-, -, h⟩ := takesEntry_mo (readMapWord (s.entryWord k) ecc (s.lookedUp k)) k true _
    exact h.trans hidx
  · obtain ⟨-, -, h⟩ := takesEntry_mo (readMapWord (s.entryWord k) ecc (s.lookedUp k)) k false _
    exact h.trans hidx

/-- Two wrong bits in a word that is not marked: the rail takes its safe entry, and the word is marked (R194). -/
theorem startEntry_double (hen : rgEn s k = true) (hbad : s.map.bad.contains (s.entryWord k) = false) (hq : Quiet s 224) :
    ∃ r : State, startEntry k .double s = r.takesEntry k true (safeEntry s k) ∧ r.map.dbeFlag = true ∧ r.map.bad = s.entryWord k :: s.map.bad := by
  let r := occur 224 0 ((s.lookedUp k).mapMarked (s.entryWord k))
  have hmap : r.map = ((s.lookedUp k).mapMarked (s.entryWord k)).map := mapMarked_event (quiet_lookedUp.mpr hq) (s.entryWord k) .map (by decide)
  have hread : readMapWord (s.entryWord k) .double (s.lookedUp k) = r := readMapWord_double hbad
  have hin : r.map.bad.contains (s.entryWord k) = true := by rw [hmap]; simp [State.mapMarked]
  have hsafe : safeEntry r k = safeEntry s k := by rw [safeEntry, hmap]; rfl
  refine ⟨r, ?_, by rw [hmap]; rfl, by rw [hmap]; rfl⟩
  rw [startEntry_of_mapped hen, hread]
  exact (if_pos hin).trans (by rw [hsafe])

end

/-! The entry to PREPARE (R238, R278, R333) -/

/-- Rail k as PREPARE begins, at `now`; a start from OFF sets DTHR. -/
def Rail.preparing (r : Rail) (fromOff : Bool) (now dthr : Nat) : Rail :=
  { r with
    seq := { r.seq with state := .prepare, pbHigh := false, pbWaitDone := false, pbTold := false, pbDone := false, prepDone := none, prepFrom := now
                        shortFrom := none, stopWait := none, stopReached := false, deEnded := true, winFrom := none, winOut := 0 }
    fe := { r.fe with pbSum := 0, pbN := 0 }
    eng := { r.eng with aimed := false, preload := .none }
    prot := if fromOff then { r.prot with dthr := dthr, dthrSet := true } else r.prot }

def State.preparing (s : State) (k : RailId) : State := s.modRail k fun r => r.preparing (railSt s k == .off) s.now (dmax s k).toNat

theorem preparing_rail (s : State) (k : RailId) :
    (s.preparing k).rail k = (s.rail k).preparing (railSt s k == .off) s.now (dmax s k).toNat := modRail_rail ..
theorem preparing_other (s : State) (k : RailId) : OtherRails k s (s.preparing k) := modRail_other s k _
theorem preparing_st (s : State) (k : RailId) : railSt (s.preparing k) k = .prepare := by rw [railSt, preparing_rail]; rfl

/-- Some tile of rail k is COLD in a powered bank. -/
def canStart (s : State) (k : RailId) : Bool := (tilesOf s k).any fun t => (s.tile t).act == .cold && bankOn s t

theorem canStart_of_startOk {s : State} {k : RailId} (h : startOk s k = true) : canStart s k = true := by
  simp only [startOk, startBase, tilesReady, Bool.and_eq_true] at h
  exact h.1.2.2

theorem enterPrepare_eq (s : State) (k : RailId) (ecc : Ecc) : ∃ az, enterPrepare k ecc s =
    let c := (railPorts s k).foldl crossCheck (s.preparing k)
    if railSt c k ≠ .prepare then c
    else if (!canStart c k) = true then railToOut k .safe 7 2 c
    else (startEntry k ecc c).setGoing k az := ⟨_, rfl⟩

/-- The cross-check of a start finds nothing: every round reading of a port agrees with two neighbours or more, and none is marked broken. -/
def PortsAgree (s : State) (k : RailId) : Prop :=
  ∀ c ∈ railPorts s k, ∀ v, roundOf s c = some v → offMedian s c v = false ∧ 2 ≤ (neighbours s c).length ∧ (s.chan c).broken = false

theorem crossCheck_of_agreeing {s : State} {c : ChanId}
    (h : ∀ v, roundOf s c = some v → offMedian s c v = false ∧ 2 ≤ (neighbours s c).length ∧ (s.chan c).broken = false) : crossCheck s c = s := by
  unfold crossCheck
  cases hround : roundOf s c with
  | none => rfl
  | some v =>
    obtain ⟨hmed, hnear, hbroken⟩ := h v hround
    have hskip : ¬(neighbours s c).length < 2 := not_lt.mpr hnear
    simp [hmed, hskip, hbroken]

/-- Where the cross-check finds nothing and a tile can start, PREPARE chooses its entry and sets the carriers going. -/
theorem enterPrepare_of_agreeing {s : State} {k : RailId} (hagree : PortsAgree s k) (hcold : canStart s k = true) (ecc : Ecc) :
    ∃ az, enterPrepare k ecc s = (startEntry k ecc (s.preparing k)).setGoing k az := by
  have hcheck : (railPorts s k).foldl crossCheck (s.preparing k) = s.preparing k :=
    foldl_of_fixed fun c hc => crossCheck_of_agreeing (s := s.preparing k) (hagree c hc)
  have hcan : canStart (s.preparing k) k = true := hcold
  obtain ⟨az, haz⟩ := enterPrepare_eq s k ecc
  refine ⟨az, haz.trans ?_⟩
  rw [hcheck]
  dsimp only
  rw [if_neg (by simp [preparing_st]), if_neg (by simp [hcan])]

/-- What an entry to PREPARE leaves. -/
structure Prepares (k : RailId) (s t : State) : Prop where
  rail : ∃ mo eng ilv car fe, t.rail k =
    { (s.rail k).preparing (railSt s k == .off) s.now (dmax s k).toNat with mo := mo, eng := eng, ilv := ilv, car := car, fe := fe }
  running : (t.rail k).car.running = true
  others : OtherRails k s t
  sets : OtherSets k s t
  settings : t.settings = s.settings

theorem enterPrepare_prepares {s : State} {k : RailId} (hagree : PortsAgree s k) (hcold : canStart s k = true) {ecc : Ecc}
    (he : ecc ≠ .double ∨ Quiet s 224) : Prepares k s (enterPrepare k ecc s)
      ∧ StartStep k (startEntry k ecc (s.preparing k)) (enterPrepare k ecc s) := by
  obtain ⟨az, hrun⟩ := enterPrepare_of_agreeing hagree hcold ecc
  have hentry : EntryStep k (s.preparing k) (startEntry k ecc (s.preparing k)) :=
    startEntry_step (he.imp_right (quiet_congr (s := s) (t := s.preparing k) rfl 224).mpr)
  obtain ⟨hgo, hcar⟩ := setGoing_step (startEntry k ecc (s.preparing k)) k az
  obtain ⟨mo, eng, hmid⟩ := hentry.rail
  obtain ⟨ilv, car, eng', fe, hend⟩ := hgo.rail
  rw [hrun]
  refine ⟨{ rail := ⟨mo, eng', ilv, car, fe, ?_⟩, running := hcar, others := ?_, sets := ?_, settings := ?_ }, hgo⟩
  · rw [hend, hmid, preparing_rail]
  · exact ((preparing_other s k).trans hentry.others).trans hgo.others
  · exact (hentry.frame.otherSets (by decide) k).trans hgo.sets
  · exact (hgo.frame .settings (by decide)).trans (hentry.frame .settings (by decide))

section
variable {k : RailId} {s t : State} (h : Prepares k s t)
include h

theorem Prepares.state : railSt t k = .prepare := by
  obtain ⟨_, _, _, _, _, hrail⟩ := h.rail
  rw [railSt, hrail]; rfl

theorem Prepares.seq : (t.rail k).seq.prepFrom = s.now ∧ (t.rail k).seq.prepDone = none ∧ (t.rail k).seq.pbDone = false
    ∧ (t.rail k).seq.retry = (s.rail k).seq.retry := by
  obtain ⟨_, _, _, _, _, hrail⟩ := h.rail
  rw [hrail]; exact ⟨rfl, rfl, rfl, rfl⟩

theorem Prepares.dthr (hoff : railSt s k = .off) : (t.rail k).prot.dthr = (dmax s k).toNat := by
  obtain ⟨_, _, _, _, _, hrail⟩ := h.rail
  rw [hrail, hoff]; rfl

end

/-- A sound map word makes a start pass without an event. -/
theorem enterPrepare_ok_ev {s : State} {k : RailId} (hagree : PortsAgree s k) (hcold : canStart s k = true) :
    (enterPrepare k .ok s).ev = s.ev := by
  obtain ⟨-, hgo⟩ := enterPrepare_prepares hagree hcold (ecc := .ok) (.inl nofun)
  exact (hgo.frame .ev (by decide)).trans (startEntry_ok_within (s.preparing k) k .ev (by decide))

/-- Two wrong bits in the map word of a start's entry make it a start on the safe entry, and mark the word (R194). -/
theorem enterPrepare_double {s : State} {k : RailId} (hagree : PortsAgree s k) (hcold : canStart s k = true) (hq : Quiet s 224)
    (hen : rgEn s k = true) :
    let t := enterPrepare k .double s
    s.map.bad.contains (mapWord (t.rail k).mo.entryIdx) = false → (t.rail k).mo.safe = true ∧ (t.rail k).mo.entry = safeEntry s k
      ∧ t.map.dbeFlag = true ∧ t.map.bad = mapWord (t.rail k).mo.entryIdx :: s.map.bad := by
  obtain ⟨-, hgo⟩ := enterPrepare_prepares hagree hcold (ecc := .double) (.inr hq)
  have hq' : Quiet (s.preparing k) 224 := (quiet_congr rfl 224).mpr hq
  have hidx := startEntry_entryIdx (s := s.preparing k) (k := k) hen (ecc := .double) (.inr hq')
  obtain ⟨_, _, _, _, hrail⟩ := hgo.rail
  have hmo : ((enterPrepare k .double s).rail k).mo = ((startEntry k .double (s.preparing k)).rail k).mo := by rw [hrail]
  have hmap : (enterPrepare k .double s).map = (startEntry k .double (s.preparing k)).map := hgo.frame .map (by decide)
  dsimp only
  rw [hmo, hmap, hidx]
  intro hbad
  obtain ⟨r, hstart, hflag, hmarked⟩ := startEntry_double (s := s.preparing k) hen hbad hq'
  obtain ⟨hsafe, hentry, -⟩ := takesEntry_mo r k true (safeEntry (s.preparing k) k)
  have hr : (r.takesEntry k true (safeEntry (s.preparing k) k)).map = r.map := takesEntry_within r k true _ .map (by decide)
  rw [hstart, hr]
  exact ⟨hsafe, hentry, hflag, hmarked⟩

end Sys2Proof.Machine
end

section
/-! SUPPORT. A start whose cross-check finds a port's sensor broken: the port's COLD tiles leave the rail's set, and with none left the rail
enters SAFE (R285, R325, R326, R330, R333). -/

namespace Sys2Proof.Machine

/-! The sensor (R325, R330) -/

theorem modChan_chan (s : State) (c : ChanId) (f : HkChannel → HkChannel) : (s.modChan c f).chan c = f (s.chan c) := modVec_get_same ..
theorem Within.chan_eq {ps : List Part} {s t : State} (h : Within ps s t) (hp : Part.hk ∉ ps) (c : ChanId) : t.chan c = s.chan c :=
  congrArg (fun x : Housekeeping => x.ch.get c) (h .hk hp)

/-- A cross-check has marked channel c broken. -/
structure SensorBroken (c : ChanId) (s t : State) : Prop where
  frame : Within [.hk, .ev] s t
  broken : (t.chan c).broken = true
  cause : (t.chan c).bcause = 3

theorem markBroken_breaks {s : State} {c : ChanId} (hwhole : (s.chan c).broken = false) (hq : Quiet s 95) :
    SensorBroken c s (markBroken c 3 s) := by
  let b := s.modChan c fun h => { h with broken := true, bcause := 3 }
  have hrun : markBroken c 3 s = occur 95 (chDetail b c 3) b := by simp [markBroken, hwhole, b]
  have hev : Within [.ev] b (occur 95 (chDetail b c 3) b) := occur_quiet _ ((quiet_congr (s := s) (t := b) rfl 95).mpr hq)
  rw [hrun]
  exact {
    frame := ((within_State_modChan s c _).mono (by decide)).step hev (by decide)
    broken := by rw [hev.chan_eq (by decide), modChan_chan]
    cause := by rw [hev.chan_eq (by decide), modChan_chan] }

/-- A broken stage sensor counts as being at its shutdown level: its event occurs, and its port's tiles leave (R325, R331). -/
theorem reactCh_of_broken {s : State} {c : ChanId} (hstage : isStage c = true) (hbroken : (s.chan c).broken = true) : ∃ warn g d,
    reactCh c true s = portOut c (occur (chSource c) d
      (updateTherm ((s.modChan c fun h => { h with warn := warn, shut := true }).modChan c fun h => { h with g := g }))) := by
  have hc : c.val < 24 := of_decide_eq_true hstage
  have hshut : decide (chShut s c ≤ effTemp s c) = true := by simp [effTemp, hbroken]
  have hdie : isDie c = false := by simp only [isDie, Bool.and_eq_false_iff, decide_eq_false_iff_not]; omega
  have haux : isAux c = false := by simp only [isAux, Bool.and_eq_false_iff, decide_eq_false_iff_not]; omega
  unfold reactCh
  dsimp only
  simp only [hshut, hdie, haux, hstage, Bool.not_false, Bool.and_true, Bool.or_true, Bool.false_eq_true, if_false, if_true]
  exact ⟨_, _, _, rfl⟩

/-- The cross-check finds the whole sensor c of a stage port off its neighbours: it is marked broken, and its port's tiles leave. -/
theorem crossCheck_breaks {s : State} {c : ChanId} {v : Int} (hstage : isStage c = true) (hround : roundOf s c = some v)
    (hoff : offMedian s c v = true) (hwhole : (s.chan c).broken = false) (hq : Quiet s 95) (hqc : Quiet s (chSource c)) :
    ∃ y, crossCheck s c = portOut c y ∧ SensorBroken c s y := by
  have hnear : ¬(neighbours s c).length < 2 := by
    simp only [offMedian, Bool.and_eq_true, decide_eq_true_eq] at hoff
    exact not_lt.mpr hoff.1
  have hrun : crossCheck s c = reactCh c true (markBroken c 3 s) := by
    simp only [crossCheck, hround, isTemp, hstage, hnear, hoff, hwhole, Bool.true_or, Bool.not_true, Bool.false_eq_true, if_false, if_true,
      Bool.not_false]
  obtain ⟨hmark, hbroken, hcause⟩ := markBroken_breaks hwhole hq
  obtain ⟨warn, g, d, hreact⟩ := reactCh_of_broken hstage hbroken
  have hlim : Within [.hk] (markBroken c 3 s) (updateTherm (((markBroken c 3 s).modChan c fun h =>
      { h with warn := warn, shut := true }).modChan c fun h => { h with g := g })) :=
    ((within_State_modChan _ c _).trans (within_State_modChan _ c _)).trans (within_updateTherm _)
  have hev := occur_quiet d ((quiet_congr ((hmark.step hlim (by decide)) .settings (by decide)) (chSource c)).mpr hqc)
  have hchan : ∀ x : State, (updateTherm x).chan c = x.chan c := fun x => rfl
  refine ⟨_, hrun.trans hreact, (hmark.step hlim (by decide)).step hev (by decide), ?_, ?_⟩
  · rw [hev.chan_eq (by decide), hchan, modChan_chan, modChan_chan]; exact hbroken
  · rw [hev.chan_eq (by decide), hchan, modChan_chan, modChan_chan]; exact hcause

/-! A COLD tile leaves its rail's set (R225, R283, R325) -/

/-- A tile of rail k has been taken out of a Leap, which may have ended by that: tiles change in their Leap part alone, the rail in its Leap
and its engine. -/
structure OutOfLeap (k : RailId) (s t : State) : Prop where
  frame : Within [.tiles, .rails] s t
  tile : ∀ v, ∃ l, t.tile v = { s.tile v with leap := l }
  sets : OtherSets k s t
  rail : ∃ l e, t.rail k = { s.rail k with leap := l, eng := e }
  others : OtherRails k s t

theorem endLeap_outOfLeap (k : RailId) (cause : Option Nat) (s : State) : OutOfLeap k s (endLeap k cause s) where
  frame := within_endLeap k cause s
  tile v := by
    rw [endLeap, modTilesOf_tile, modRail_tile]
    split
    · exact ⟨_, rfl⟩
    · exact ⟨(s.tile v).leap, rfl⟩
  sets v hv := by rw [endLeap, modTilesOf_tile, modRail_tile, if_neg (by simpa using hv)]
  rail := ⟨_, _, modRail_rail s k _⟩
  others := modRail_other s k _

theorem outOfLeap_outOfLeap {s : State} {u : TileId} {k : RailId} (hu : (s.tile u).rail = some k) : OutOfLeap k s (s.outOfLeap u) where
  frame := (within_State_modTile s u _).mono (by decide)
  tile v := by
    by_cases hv : v = u
    · subst hv; exact ⟨_, modTile_tile s v _⟩
    · exact ⟨(s.tile v).leap, modTile_other s u _ v hv⟩
  sets v hv := modTile_other s u _ v fun h => hv (h ▸ hu)
  rail := ⟨(s.rail k).leap, (s.rail k).eng, rfl⟩
  others := fun _ _ => rfl

theorem OutOfLeap.refl (k : RailId) (s : State) : OutOfLeap k s s :=
  ⟨Within.refl, fun v => ⟨(s.tile v).leap, rfl⟩, fun _ _ => rfl, ⟨(s.rail k).leap, (s.rail k).eng, rfl⟩, fun _ _ => rfl⟩

theorem OutOfLeap.trans {k : RailId} {s t u : State} (h : OutOfLeap k s t) (h' : OutOfLeap k t u) : OutOfLeap k s u where
  frame := h.frame.trans h'.frame
  tile v := by
    obtain ⟨l, hl⟩ := h.tile v
    obtain ⟨l', hl'⟩ := h'.tile v
    exact ⟨l', by rw [hl', hl]⟩
  sets := h.sets.trans h'.sets
  rail := by
    obtain ⟨_, _, ht⟩ := h.rail
    obtain ⟨_, _, hu⟩ := h'.rail
    rw [hu, ht]
    exact ⟨_, _, rfl⟩
  others := h.others.trans h'.others

/-- With no stop that waits, nothing but the end of a Leap follows. -/
theorem leapRemove_outOfLeap {s : State} {u : TileId} {k : RailId} (hu : (s.tile u).rail = some k) (hstop : (s.rail k).seq.stopWait = none) :
    OutOfLeap k s (leapRemove u s) := by
  have hcheck : OutOfLeap k s (leapCheck k (some 3) (s.outOfLeap u)) := by
    refine (outOfLeap_outOfLeap hu).trans ?_
    unfold leapCheck
    split
    · exact endLeap_outOfLeap k (some 3) _
    · exact OutOfLeap.refl k _
  have hresume : resumeStop occur k (leapCheck k (some 3) (s.outOfLeap u)) = leapCheck k (some 3) (s.outOfLeap u) := by
    obtain ⟨_, _, hrail⟩ := hcheck.rail
    unfold resumeStop
    rw [hrail, hstop]
  have hrun : leapRemove u s = if (s.tile u).leap.under = true then resumeStop occur k (leapCheck k (some 3) (s.outOfLeap u)) else s := by
    unfold leapRemove
    rw [hu]
    rfl
  rw [hrun, hresume]
  split
  · exact hcheck
  · exact OutOfLeap.refl k s

/-- A COLD tile u of rail k has left the rail's set for EXCLUDED with a reason; what is left of the rail is not judged yet. -/
structure ColdExcluded (u : TileId) (k : RailId) (reason : Nat) (s t : State) : Prop where
  frame : Within [.tiles, .rails] s t
  tile : (t.tile u).act = .excluded ∧ (t.tile u).reason = reason
  acts : ∀ v, v ≠ u → (t.tile v).act = (s.tile v).act ∧ (t.tile v).reason = (s.tile v).reason
  rails : ∀ v, (t.tile v).rail = (s.tile v).rail
  sets : OtherSets k s t
  seq : (t.rail k).seq = (s.rail k).seq
  link : (t.rail k).link = (s.rail k).link
  others : OtherRails k s t

theorem closeSlot_sets (k : RailId) (j : Option Nat) (s : State) : OtherSets k s (closeSlot k j s) := fun v hv => by
  unfold closeSlot
  cases j with
  | none => rfl
  | some j => exact (modTilesOf_tile s k _ v).trans (if_neg (by simpa using hv))

theorem removed_sets {s : State} {u : TileId} {k : RailId} (hu : (s.tile u).rail = some k) (a : TileAct) (reason : Nat) :
    OtherSets k s (settleChange k (s.unslotted u k a reason)) := by
  have hunset : OtherSets k s (s.unset u a reason) := fun v hv => modTile_other s u _ v fun h => hv (h ▸ hu)
  have hilv : OtherSets k (closeSlot k (s.tile u).slot (s.unset u a reason)) (s.unslotted u k a reason) := fun _ _ => rfl
  exact ((hunset.trans (closeSlot_sets k _ _)).trans hilv).trans ((within_settleChange k _).otherSets (by decide) k)

/-- The removal of a COLD tile, as far as the judgement of what is left of its rail. -/
theorem removeTile_of_cold {s : State} {u : TileId} {k : RailId} (reason : Nat) (hu : (s.tile u).rail = some k) (hcold : (s.tile u).act = .cold)
    (hleap : OutOfLeap k s (leapRemove u s)) : removeTile u .excluded reason s
      = noTileLeft k 7 (settleChange k ((leapRemove u s).unslotted u k .excluded reason)) := by
  obtain ⟨_, htile⟩ := hleap.tile u
  have hwas : ((leapRemove u s).tile u).keepWas (cycleOf (leapRemove u s)) = (s.tile u).keepWas (cycleOf s) := by
    rw [htile]; simp [Tile.keepWas, hcold]
  have hslot : ((leapRemove u s).tile u).slot = (s.tile u).slot := by rw [htile]
  have hrail : (((leapRemove u s).unset u .excluded reason).tile u).rail = some k := by
    obtain ⟨_, hleave⟩ := leave_eq ((leapRemove u s).tile u) (leapRemove u s).now .excluded reason
    rw [unset_tile, hleave, htile]; exact hu
  rw [State.unset, hwas] at hrail
  unfold removeTile
  dsimp only
  rw [hrail, ← hwas, ← hslot]
  rfl

theorem removeTile_coldExcluded {s : State} {u : TileId} {k : RailId} (reason : Nat) (hu : (s.tile u).rail = some k)
    (hcold : (s.tile u).act = .cold) (hstop : (s.rail k).seq.stopWait = none) :
    ∃ x, removeTile u .excluded reason s = noTileLeft k 7 x ∧ ColdExcluded u k reason s x := by
  have hleap := leapRemove_outOfLeap hu hstop
  refine ⟨_, removeTile_of_cold reason hu hcold hleap, ?_⟩
  obtain ⟨hframe, htile, hsets, ⟨_, _, hrail⟩, hothers⟩ := hleap
  generalize leapRemove u s = p at hframe htile hsets hrail hothers ⊢
  obtain ⟨_, hpu⟩ := htile u
  have hx : Within [.tiles, .rails] p (settleChange k (p.unslotted u k .excluded reason)) :=
    (((within_State_modTile p u _).mono (by decide)).step (within_closeSlot k _ _) (by decide)
      |>.step (within_State_modIlv _ k _) (by decide)).step (within_settleChange k _) (by decide)
  obtain ⟨_, hleave⟩ := leave_eq (p.tile u) p.now .excluded reason
  have hxu := (removed_tile p u k .excluded reason).trans (unset_tile p u .excluded reason)
  rw [hleave] at hxu
  obtain ⟨_, _, hxk⟩ := removed_rail p u k .excluded reason
  have hother : ∀ v, v ≠ u → ∃ n l, (settleChange k (p.unslotted u k .excluded reason)).tile v = { s.tile v with slot := n, leap := l } :=
    fun v hv => by
      obtain ⟨n, hn⟩ := removed_tile_other p u k .excluded reason hv
      obtain ⟨l, hl⟩ := htile v
      exact ⟨n, l, by rw [hn, hl]⟩
  exact {
    frame := hframe.trans hx
    tile := by rw [hxu]; exact ⟨rfl, rfl⟩
    acts := fun v hv => by
      obtain ⟨_, _, hv'⟩ := hother v hv
      rw [hv']; exact ⟨rfl, rfl⟩
    rails := fun v => by
      by_cases hv : v = u
      · subst hv; rw [hxu, hpu]; rfl
      · obtain ⟨_, _, hv'⟩ := hother v hv
        rw [hv']
    sets := hsets.trans (removed_sets (hpu ▸ hu) .excluded reason)
    seq := by rw [hxk, hrail]
    link := by rw [hxk, hrail]
    others := hothers.trans (removed_other p u k .excluded reason) }

theorem thermalOut_coldExcluded {s : State} {u : TileId} {k : RailId} (hu : (s.tile u).rail = some k) (hcold : (s.tile u).act = .cold)
    (hstop : (s.rail k).seq.stopWait = none) : ∃ x, thermalOut u s = noTileLeft k 7 x ∧ ColdExcluded u k 14 s x := by
  have hrun : thermalOut u s = removeTile u .excluded 14 s := by
    unfold thermalOut
    dsimp only
    rw [hu, hcold]
  rw [hrun]
  exact removeTile_coldExcluded 14 hu hcold hstop

/-! The port (R5, R325) and the rail with no tile left (R276, R285, R326) -/

/-- A stage port carries two tiles. -/
theorem portTiles (c : ChanId) (hstage : isStage c = true) :
    allTiles.filter (fun t => (portOf t).val == c.val) = [tileOf (2 * c.val), tileOf (2 * c.val + 1)]
      ∧ tileOf (2 * c.val + 1) ≠ tileOf (2 * c.val) := by
  revert c
  decide

theorem qOf_eq_zero {s : State} {k : RailId} (h : ∀ u, (s.tile u).rail = some k → (s.tile u).act = .excluded) : qOf s k = 0 := by
  have hnone : (tilesOf s k).filter (fun t => (s.tile t).act != .dropped && (s.tile t).act != .excluded) = [] :=
    List.filter_eq_nil_iff.mpr fun u hu => by simp [h u (mem_tilesOf.mp hu)]
  rw [qOf, hnone]; rfl

theorem noTileLeft_of_none {s : State} {k : RailId} (hq : qOf s k = 0) (hst : railSt s k = .prepare) (cause : Nat) :
    noTileLeft k cause s = enterOut occur k .safe cause 2 s := by
  have hin : railOut (railSt s k) = false := by rw [hst]; rfl
  have hsafe : safeNow occur k cause s = enterOut occur k .safe cause 2 s := by
    unfold safeNow; rw [hst]
  exact (if_pos ⟨hq, .inl hin⟩).trans hsafe

theorem ColdExcluded.noWatch {u : TileId} {k : RailId} {reason : Nat} {s t : State} (h : ColdExcluded u k reason s t) (hw : NoWatch s k) :
    NoWatch t k := by
  have hnow : t.now = s.now := h.frame .now (by decide)
  unfold NoWatch cycleOf at *
  rwa [h.link, hnow]

theorem ColdExcluded.noStop {u : TileId} {k : RailId} {reason : Nat} {s t : State} (h : ColdExcluded u k reason s t) (hs : NoStopWaits s) :
    NoStopWaits t := fun j => by
  by_cases hj : j = k
  · subst hj; rw [h.seq]; exact hs j
  · rw [h.others j hj]; exact hs j

/-- All of rail k's tiles were COLD and are EXCLUDED, and the rail is in SAFE with cause 7. -/
structure PortLost (k : RailId) (s t : State) : Prop where
  frame : Within [.tiles, .rails, .bus, .settings] s t
  state : railSt t k = .safe
  cause : (t.rail k).seq.cause = 7
  tiles : ∀ u, (s.tile u).rail = some k → (t.tile u).act = .excluded ∧ (t.tile u).reason = 14
  sets : OtherSets k s t
  others : ∀ j, j ≠ k → railSt t j = railSt s j

/-- The rail enters SAFE after both tiles of its port have left. -/
theorem portLost_of_steps {s x y t : State} {k : RailId} {a b : TileId} (hab : a ≠ b) (hmem : ∀ u, (s.tile u).rail = some k → u = a ∨ u = b)
    (hxa : ColdExcluded a k 14 s x) (hyb : ColdExcluded b k 14 x y) (hout : (∀ u, (y.tile u).rail = some k → (y.tile u).act = .excluded) →
      EnteredOut k .safe 7 y t) : PortLost k s t := by
  have hrails : ∀ u, (y.tile u).rail = (s.tile u).rail := fun u => (hyb.rails u).trans (hxa.rails u)
  have hgone : ∀ u, (y.tile u).rail = some k → (y.tile u).act = .excluded ∧ (y.tile u).reason = 14 := fun u hu => by
    rcases hmem u (hrails u ▸ hu) with rfl | rfl
    · obtain ⟨hact, hreason⟩ := hyb.acts u hab
      exact ⟨hact.trans hxa.tile.1, hreason.trans hxa.tile.2⟩
    · exact hyb.tile
  have hout := hout fun u hu => (hgone u hu).1
  exact {
    frame := ((hxa.frame.trans hyb.frame).mono (by decide)).step hout.frame (by decide)
    state := hout.state
    cause := hout.cause_eq
    tiles := fun u hu => by
      rw [← hrails] at hu
      obtain ⟨hact, hreason⟩ := hgone u hu
      rw [hout.tiles u, if_pos (by simpa using hu), if_neg (by rw [hact]; nofun)]
      exact ⟨hact, hreason⟩
    sets := (hxa.sets.trans hyb.sets).trans hout.otherSets
    others := fun j hj => by
      rw [hout.others j hj, railSt, hyb.others j hj, hxa.others j hj]; rfl }

/-- A port that carries all tiles of a rail in PREPARE, COLD: as they leave, the rail enters SAFE. -/
theorem portOut_loses {s : State} {k : RailId} {c : ChanId} (hstage : isStage c = true)
    (hport : ∀ u, (portOf u).val = c.val ↔ (s.tile u).rail = some k) (hcold : ∀ u, (s.tile u).rail = some k → (s.tile u).act = .cold)
    (hst : railSt s k = .prepare) (hs : NoStopWaits s) (hw : NoWatch s k) : PortLost k s (portOut c s) := by
  obtain ⟨hlist, hne⟩ := portTiles c hstage
  generalize tileOf (2 * c.val) = a at hlist hne
  generalize tileOf (2 * c.val + 1) = b at hlist hne
  have hmem : ∀ u, (s.tile u).rail = some k ↔ u = a ∨ u = b := fun u => by
    have hfilter : (portOf u).val = c.val ↔ u ∈ allTiles.filter fun t => (portOf t).val == c.val := by simp [allTiles, finList]
    rw [← hport, hfilter, hlist]; simp
  have hra := (hmem a).mpr (.inl rfl)
  have hrb := (hmem b).mpr (.inr rfl)
  obtain ⟨x, hx, hxa⟩ := thermalOut_coldExcluded hra (hcold a hra) (hs k)
  have hrb' : (x.tile b).rail = some k := (hxa.rails b).trans hrb
  have hcb' : (x.tile b).act = .cold := (hxa.acts b hne).1.trans (hcold b hrb)
  obtain ⟨y, hy, hyb⟩ := thermalOut_coldExcluded hrb' hcb' (hxa.noStop hs k)
  refine portLost_of_steps hne.symm (fun u hu => (hmem u).mp hu) hxa hyb fun hgone => ?_
  have hfirst : thermalOut a s = x := hx.trans (noTileLeft_of_tiles (qOf_ne_zero hrb' (by rw [hcb']; nofun) (by rw [hcb']; nofun)) 7)
  have hsty : railSt y k = .prepare := by rw [railSt, hyb.seq, hxa.seq]; exact hst
  have hsecond : thermalOut b x = enterOut occur k .safe 7 2 y := hy.trans (noTileLeft_of_none (qOf_eq_zero hgone) hsty 7)
  rw [portOut, hlist, List.foldl_cons, List.foldl_cons, List.foldl_nil, hfirst, hsecond]
  exact enterOut_enters occur .safe 7 2 (hyb.noStop (hxa.noStop hs)) (hyb.noWatch (hxa.noWatch hw))

theorem portChan_mem {s : State} {k : RailId} {u : TileId} (hu : (s.tile u).rail = some k) :
    ∃ c ∈ railPorts s k, c.val = (portOf u).val := by
  have hval : (chanOf (portOf u).val).val = (portOf u).val := Nat.mod_eq_of_lt (by omega)
  refine ⟨chanOf (portOf u).val, List.mem_filter.mpr ⟨List.mem_finRange _, ?_⟩, hval⟩
  have hstage : isStage (chanOf (portOf u).val) = true := decide_eq_true (by omega)
  rw [hstage, Bool.true_and]
  exact List.any_eq_true.mpr ⟨u, mem_tilesOf.mpr hu, beq_iff_eq.mpr hval.symm⟩

theorem preparing_noStop {s : State} (hs : NoStopWaits s) (k : RailId) : NoStopWaits (s.preparing k) := fun j => by
  by_cases hj : j = k
  · subst hj; rw [preparing_rail]; rfl
  · rw [preparing_other s k j hj]; exact hs j

theorem preparing_noWatch {s : State} {k : RailId} (hw : NoWatch s k) : NoWatch (s.preparing k) k := by
  unfold NoWatch at *
  rw [preparing_rail]
  exact hw

/-- A start whose only port has a sensor that the cross-check finds broken loses the port's tiles, and ends in SAFE (R326, R333). -/
theorem enterPrepare_of_brokenPort {s : State} {k : RailId} {c : ChanId} {v : Int} (hports : railPorts s k = [c])
    (hall : ∀ u, (portOf u).val = c.val → (s.tile u).rail = some k) (hcold : ∀ u, (s.tile u).rail = some k → (s.tile u).act = .cold)
    (hround : roundOf s c = some v) (hoff : offMedian s c v = true) (hwhole : (s.chan c).broken = false)
    (hq : Quiet s 95) (hqc : Quiet s (chSource c)) (hs : NoStopWaits s) (hw : NoWatch s k) (ecc : Ecc) :
    ∃ y, SensorBroken c (s.preparing k) y ∧ PortLost k y (enterPrepare k ecc s) := by
  have hstage : isStage c = true := by
    have hmem : c ∈ railPorts s k := by rw [hports]; exact List.mem_singleton_self c
    have hon := (List.mem_filter.mp hmem).2
    exact (Bool.and_eq_true_iff.mp hon).1
  have hport : ∀ u, (portOf u).val = c.val ↔ (s.tile u).rail = some k := fun u => ⟨hall u, fun hu => by
    obtain ⟨d, hd, hval⟩ := portChan_mem hu
    rw [hports, List.mem_singleton] at hd
    rw [← hval, hd]⟩
  obtain ⟨y, hcheck, hbroken⟩ := crossCheck_breaks (s := s.preparing k) hstage hround hoff hwhole ((quiet_congr rfl 95).mpr hq)
    ((quiet_congr rfl (chSource c)).mpr hqc)
  have hrail := hbroken.frame.rail_eq (by decide)
  have htile : ∀ u, y.tile u = s.tile u := hbroken.frame.tile_eq (by decide)
  have hnow : y.now = s.now := hbroken.frame .now (by decide)
  have hlost : PortLost k y (portOut c y) := portOut_loses hstage (fun u => by rw [htile]; exact hport u)
    (fun u => by rw [htile]; exact hcold u) (by rw [railSt, hrail]; exact preparing_st s k)
    (fun j => by rw [hrail]; exact preparing_noStop hs k j)
    (by have hw' := preparing_noWatch hw; unfold NoWatch cycleOf at *; rwa [hrail, hnow])
  obtain ⟨az, hrun⟩ := enterPrepare_eq s k ecc
  have hout : railSt (portOut c y) k ≠ .prepare := by rw [hlost.state]; nofun
  refine ⟨y, hbroken, ?_⟩
  rw [hrun, hports, List.foldl_cons, List.foldl_nil, hcheck]
  exact (if_pos hout).symm ▸ hlost

/-! RAIL_START and HICCUP_RETRY (R237, R248) -/

theorem railStart_of_ok {s : State} {k : RailId} (hoff : railSt s k = .off) (hok : startOk s k = true) (ecc : Ecc) :
    railStart k ecc s = enterPrepare k ecc s := if_pos ⟨hoff, hok⟩

theorem hiccupRetry_of_ok {s : State} {k : RailId} (hst : railSt s k = .hiccup) (hdue : (s.rail k).seq.hiccupFrom + ms (hiccupT s k) ≤ s.now)
    (hok : startOk s k = true) (ecc : Ecc) : hiccupRetry k ecc s = enterPrepare k ecc s := if_pos ⟨hst, decide_eq_true hdue, hok⟩

end Sys2Proof.Machine
end

section
/-! PROOFS. The statements of 06_moult_operating_map.md. -/

open Sys2Proof Sys2Proof.Machine

/-- Settles O24: the cross-check either finds nothing, and the choice of the entry and the carriers follow, or it empties the rail's set. -/
theorem startAndRetryEnterPrepare : Obligations.StartAndRetryEnterPrepare := by
  intro k s
  refine ⟨fun hagree hok => ⟨fun hoff => ?_, fun hst hdue => ?_, fun hoff hq => ?_⟩,
    fun c v hports hall hcold hround hmed hwhole hq hqc hs hw hoff hok => ?_, fun ecc => ⟨fun hno => ?_, fun hno => ?_⟩⟩
  · have hcan := canStart_of_startOk hok
    obtain ⟨h, -⟩ := enterPrepare_prepares hagree hcan (ecc := .ok) (.inl nofun)
    obtain ⟨hfrom, hdone, hpb, -⟩ := h.seq
    exact ⟨_, congrArg Host.Outcome.next (railStart_of_ok hoff hok .ok), h.state, hfrom, hdone, hpb, h.running, h.dthr hoff, h.others, h.sets,
      h.settings, enterPrepare_ok_ev hagree hcan⟩
  · have hcan := canStart_of_startOk hok
    obtain ⟨h, -⟩ := enterPrepare_prepares hagree hcan (ecc := .ok) (.inl nofun)
    obtain ⟨hfrom, -, -, hretry⟩ := h.seq
    exact ⟨_, congrArg Host.Outcome.next (hiccupRetry_of_ok hst hdue hok .ok), h.state, hfrom, hretry, h.running, h.others, h.sets, h.settings,
      enterPrepare_ok_ev hagree hcan⟩
  · have hcan := canStart_of_startOk hok
    obtain ⟨h, -⟩ := enterPrepare_prepares hagree hcan (ecc := .double) (.inr hq)
    exact ⟨_, congrArg Host.Outcome.next (railStart_of_ok hoff hok .double), h.state, fun hen => enterPrepare_double hagree hcan hq hen, h.others,
      h.sets, h.settings⟩
  · obtain ⟨y, hbroken, hlost⟩ := enterPrepare_of_brokenPort hports hall hcold hround hmed hwhole hq hqc hs hw .ok
    have htile : ∀ u, y.tile u = s.tile u := hbroken.frame.tile_eq (by decide)
    have hchan : (enterPrepare k .ok s).chan c = y.chan c := hlost.frame.chan_eq (by decide) c
    refine ⟨_, congrArg Host.Outcome.next (railStart_of_ok hoff hok .ok), hlost.state, hlost.cause, hchan ▸ hbroken.broken, hchan ▸ hbroken.cause,
      fun u hu => hlost.tiles u (by rw [htile]; exact hu), fun u hu => ?_, fun j hj => ?_⟩
    · rw [hlost.sets u (by rw [htile]; exact hu), htile]
    · rw [hlost.others j hj, railSt, hbroken.frame.rail_eq (by decide), preparing_other s k j hj]; rfl
  · exact congrArg Host.Outcome.next (if_neg hno)
  · exact congrArg Host.Outcome.next (if_neg fun h => hno ⟨h.1, of_decide_eq_true h.2.1, h.2.2⟩)

/-- Settles O32: each of the three commands acts where its time has come, and changes one tile; else it answers the state itself. -/
theorem lowSideAndReadyTilesEndInTime : Obligations.LowSideAndReadyTilesEndInTime := by
  intro u s
  refine ⟨fun tick r hr => ⟨fun hact hzero => ?_, fun hpos => ?_⟩,
    fun k tick hk => ⟨fun hemu hact hlow hlater hzero => ?_, fun hno => ?_⟩,
    fun k hk => ⟨fun hact hlimit hdue hadd hunder hpend hfade => ?_, fun hno => ?_⟩⟩
  · have hrun := (lowSideForceEnd_eq tick hr).trans (if_pos ⟨hact, hzero⟩)
    refine ⟨_, congrArg Host.Outcome.next hrun, fun x hx => ?_, ?_, ?_, advance_tick_now s tick, lowForced_other s u tick, ?_⟩
    · rw [lowForced_tile]; exact cutLow_lowOff _ _ x hx
    · rw [lowForced_tile]
    · rw [lowForced_tile]; exact hact
    · exact hrun ▸ within_lowSideForceEnd u tick s
  · exact congrArg Host.Outcome.next ((lowSideForceEnd_eq tick hr).trans (if_neg fun h => absurd h.2 (not_le.mpr hpos)))
  · have hrun := (deLowSideOff_eq tick hk).trans (if_pos (by
      have hz : emulatedCurrent s k u (16 * tick) ≤ 0 := hzero
      simp [hemu, isActive, hact, hlow, hz]))
    refine ⟨_, congrArg Host.Outcome.next hrun, fun y hy => ?_, fun r hmem hx => ?_, ?_, advance_tick_now s tick, lowEnded_other s u tick, ?_⟩
    · rw [lowEnded_tile]; exact endPulse_low hlater hy
    · rw [lowEnded_tile]; exact endLow_rise hmem hx
    · rw [lowEnded_tile]
    · exact hrun ▸ within_deLowSideOff u tick s
  · refine congrArg Host.Outcome.next ((deLowSideOff_eq tick hk).trans (if_neg fun h => ?_))
    simp only [Bool.and_eq_true, decide_eq_true_eq] at h
    obtain ⟨⟨⟨hemu, -⟩, hlow⟩, hzero⟩ := h
    rcases hno with hno | hno | hno
    · exact absurd hemu (by simp [hno])
    · exact absurd hlow (by simp [hno])
    · exact absurd hzero (not_le.mpr hno)
  · have hrun := readyTimeout_of_over hk ⟨hact, hlimit, hdue, hadd⟩
    rw [leapRemove_of_not_under hunder] at hrun
    have htile : (s.modTile u fun ti => ti.leaveCold s.now 3).tile u = (s.tile u).leave s.now .cold 3 :=
      (modTile_tile ..).trans (leaveCold_of_plain hfade hpend s.now 3)
    obtain ⟨l, hleave⟩ := leave_eq (s.tile u) s.now .cold 3
    refine ⟨_, congrArg Host.Outcome.next hrun, ?_, ?_, ?_, fun x hx => ?_, ?_, fun v hv => modTile_other s u _ v hv, within_State_modTile s u _⟩
    · rw [htile, hleave]; rfl
    · rw [htile, hleave]; rfl
    · rw [htile, hleave]
      exact if_neg fun h => absurd (h.trans hact) nofun
    · rw [htile, leave_edg]; exact halt_low _ (nextTick_le s.now hx)
    · rw [htile, hleave]; rfl
  · refine congrArg Host.Outcome.next (readyTimeout_of_not_over hk fun ⟨hact, hlimit, hdue, hadd⟩ => ?_)
    rcases hno with hno | hno | hno | hno
    · exact hno hact
    · exact hlimit hno
    · exact absurd hdue (not_le.mpr hno)
    · exact hadd hno

end

section
/-! SUPPORT. REQ = OFF: a stop that begins at once, one that waits, and what the other states do (R225, R236, R249, R250, R255). -/

namespace Sys2Proof.Machine

/-! The entry to STOPPING (R250) -/

/-- What the entry of rail k to STOPPING toward OFF or SAFE leaves: PGOOD low, its ACTIVE tiles in diode emulation, and every other rail in its
state and every other tile as it was. -/
structure StopBegun (k : RailId) (toSafe : Bool) (cause : Nat) (s t : State) : Prop where
  frame : Within [.bus, .settings, .rails, .tiles] s t
  state : railSt t k = .stopping
  toward : (t.rail k).seq.stopSafe = toSafe
  cause_eq : (t.rail k).seq.stopCause = cause
  pgood : (t.rail k).seq.pgood = false
  endPoint : (t.rail k).seq.stopEnd = min (stopFloor s k) (refCode s k)
  emulates : ∀ u, (s.tile u).rail = some k → (s.tile u).act = .active → (t.tile u).emulating = true
  others : ∀ j, j ≠ k → railSt t j = railSt s j
  sets : OtherSets k s t

/-- A rail that changes and keeps its link has no settle watch open afterwards if it had none before. -/
theorem noWatch_modRail {s : State} {k : RailId} (hw : NoWatch s k) {f : Rail → Rail} (hlink : (f (s.rail k)).link = (s.rail k).link) :
    NoWatch (s.modRail k f) k := by
  unfold NoWatch at hw ⊢
  rw [modRail_rail, hlink]
  exact hw

theorem beginStopping_begins {s : State} {k : RailId} (raise : Raise) (toSafe : Bool) (cause : Nat) (hw : NoWatch s k) :
    StopBegun k toSafe cause s (beginStopping raise k toSafe cause s) := by
  have hrail := setPgood_rail k false s
  have htile := (within_setPgood k false s).tile_eq (by decide)
  obtain ⟨_, _, _, _, hk, hpgood⟩ := hrail k
  unfold beginStopping
  dsimp only
  generalize hx : (setPgood k false s).modTilesOf k _ = x
  have hxin : Within [.rails, .tiles] s x :=
    hx ▸ ((within_setPgood k false s).mono (by decide)).step (within_State_modTilesOf _ k _) (by decide)
  have hxrail : ∀ j, x.rail j = (setPgood k false s).rail j := fun j => hx ▸ modTilesOf_rail ..
  have hxtile : ∀ u, x.tile u = if (s.tile u).rail == some k then
      (if (s.tile u).act = .active then { s.tile u with emulating := true } else s.tile u) else s.tile u := fun u => by
    rw [← hx, modTilesOf_tile, htile]
  have hxref : refCode x k = refCode s k := by rw [refCode, hxrail, hk]; rfl
  have hxfloor : stopFloor x k = stopFloor s k := congrArg (fld · 15 0) (hxin.setWord_eq (by decide) _)
  have hxw : NoWatch x k := by
    have hnow : x.now = s.now := hxin .now (by decide)
    unfold NoWatch cycleOf
    rw [hxrail, hk, hnow]
    exact hw
  rw [abandonWatch, closeWatch_of_noWatch (noWatch_modRail hxw rfl)]
  exact {
    frame := (hxin.mono (by decide)).step (within_State_modRail x k _) (by decide)
    state := by rw [railSt, modRail_rail]
    toward := by rw [modRail_rail]
    cause_eq := by rw [modRail_rail]
    pgood := by rw [modRail_rail, hxrail, hk]; exact hpgood rfl
    endPoint := by rw [modRail_rail, hxref, hxfloor]
    emulates := fun u hu hact => by rw [modRail_tile, hxtile, if_pos (by simpa using hu), if_pos hact]
    others := fun j hj => by
      obtain ⟨_, _, _, _, hj', -⟩ := hrail j
      rw [railSt, modRail_other x k _ j hj, hxrail, hj']; rfl
    sets := fun u hu => by rw [modRail_tile, hxtile, if_neg (by simpa using hu)] }

/-! The orderly stop of a rail that switches (R225, R249, R255) -/

/-- The stop of rail k waits, and of the rails and tiles nothing else has changed. -/
structure StopHeld (k : RailId) (cause : Nat) (s t : State) : Prop where
  frame : Within [.bus, .settings, .rails] s t
  rail : t.rail k = { s.rail k with seq := { (s.rail k).seq with stopWait := some (false, cause) } }
  others : OtherRails k s t

section
variable {k : RailId} {cause : Nat} {s t : State} (h : StopHeld k cause s t)
include h

theorem StopHeld.state : railSt t k = railSt s k := by rw [railSt, h.rail]; rfl
theorem StopHeld.waits : (t.rail k).seq.stopWait = some (false, cause) := by rw [h.rail]

end

/-- SOFTSTART, REGULATE or SLEW: the states of which an orderly stop asks what holds it. -/
def RailState.Runs (st : RailState) : Prop := st = .softstart ∨ st = .regulate ∨ st = .slew

section
variable {s : State} {k : RailId} (raise : Raise) (cause : Nat) (hruns : (railSt s k).Runs)
include hruns

theorem orderlyOff_begins (hw : NoWatch s k) (hfree : leapActive s k = false ∧ stopDepOk s k = true) :
    StopBegun k false cause s (orderlyOff raise k cause s) := by
  have hrun : orderlyOff raise k cause s = beginStopping raise k false cause s := by
    have hgo : ¬(leapActive s k || !stopDepOk s k) = true := by simp [hfree]
    unfold orderlyOff
    rcases hruns with hst | hst | hst <;> rw [hst] <;> exact if_neg hgo
  rw [hrun]
  exact beginStopping_begins raise false cause hw

/-- Where a Leap or the dependency holds it, the stop waits. -/
theorem orderlyOff_waits (hnone : (s.rail k).seq.stopWait = none) (hheld : ¬(leapActive s k = false ∧ stopDepOk s k = true)) :
    StopHeld k cause s (orderlyOff raise k cause s) := by
  have hrun : ∃ f, orderlyOff raise k cause s = s.modSeq k f
      ∧ f (s.rail k).seq = { (s.rail k).seq with stopWait := some (false, cause) } := by
    have hstay : (leapActive s k || !stopDepOk s k) = true := by
      by_cases hleap : leapActive s k = true
      · simp [hleap]
      · simpa [hleap] using hheld
    unfold orderlyOff
    rcases hruns with hst | hst | hst <;> rw [hst] <;> exact ⟨_, if_pos hstay, by rw [hnone]⟩
  obtain ⟨f, hrun, hf⟩ := hrun
  rw [hrun]
  exact {
    frame := (within_State_modSeq s k f).mono (by decide)
    rail := by rw [modSeq_rail, hf]
    others := modRail_other s k _ }

end

/-! A word of CMD that changes the request -/

/-- From `s` to `t` the bus and the CMD registers alone may have changed. -/
structure CmdPut (s t : State) : Prop where
  frame : Within [.bus, .settings] s t
  word : ∀ (j : RailId) (r : LoopReg), r ≠ .cmd → loopW t j r = loopW s j r

theorem setReq_cmdPut {s b : State} (hb : Within [.bus] s b) (k : RailId) (req : Nat) : CmdPut s (setReq k req b) where
  frame := (hb.mono (by decide)).step (within_setReq k req b) (by decide)
  word j r hr := (setWord_putWord_other b _ fun h => hr (Reg.loop.inj h).2).trans (hb.setWord_eq (by decide) _)

section
variable {s t : State} (h : CmdPut s t)
include h

theorem CmdPut.rail (j : RailId) : t.rail j = s.rail j := h.frame.rail_eq (by decide) j
theorem CmdPut.tile (u : TileId) : t.tile u = s.tile u := h.frame.tile_eq (by decide) u
theorem CmdPut.state (j : RailId) : railSt t j = railSt s j := congrArg (·.seq.state) (h.rail j)
theorem CmdPut.sets (k : RailId) : OtherSets k s t := h.frame.otherSets (by decide) k
theorem CmdPut.noStopWaits (hs : NoStopWaits s) : NoStopWaits t := fun j => by rw [h.rail]; exact hs j
theorem CmdPut.noWatch {k : RailId} (hw : NoWatch s k) : NoWatch t k := by
  have hnow : t.now = s.now := h.frame .now (by decide)
  unfold NoWatch cycleOf
  rw [h.rail, hnow]
  exact hw
/-- What holds a stop, and where it ends, is not in CMD. -/
theorem CmdPut.free (k : RailId) : (leapActive t k = false ∧ stopDepOk t k = true) ↔ leapActive s k = false ∧ stopDepOk s k = true := by
  simp only [leapActive, stopDepOk, tdepEn, stopDep, h.word k .seq nofun, h.state, h.rail]
theorem CmdPut.endPoint (k : RailId) : min (stopFloor t k) (refCode t k) = min (stopFloor s k) (refCode s k) := by
  simp only [stopFloor, refCode, h.word k .floor nofun, h.rail]

/-- A stop that begins, or waits, after the word is one that does so from the state before it. -/
theorem StopBegun.after {x : State} {k : RailId} {toSafe : Bool} {cause : Nat} (hx : StopBegun k toSafe cause t x) :
    StopBegun k toSafe cause s x where
  frame := (h.frame.mono (by decide)).trans hx.frame
  state := hx.state
  toward := hx.toward
  cause_eq := hx.cause_eq
  pgood := hx.pgood
  endPoint := hx.endPoint.trans (h.endPoint k)
  emulates u hu hact := hx.emulates u (by rwa [h.tile]) (by rwa [h.tile])
  others j hj := (hx.others j hj).trans (h.state j)
  sets := (h.sets k).trans hx.sets

theorem StopHeld.after {x : State} {k : RailId} {cause : Nat} (hx : StopHeld k cause t x) : StopHeld k cause s x where
  frame := (h.frame.mono (by decide)).trans hx.frame
  rail := by rw [hx.rail, h.rail]
  others j hj := (hx.others j hj).trans (h.rail j)

end

/-! REQ = OFF by the state of the rail (R236, R249) -/

theorem orderlyOff_of_prepare {s : State} {k : RailId} (raise : Raise) (cause : Nat) (hst : railSt s k = .prepare) :
    orderlyOff raise k cause s = enterOut raise k .off cause 6 s := by
  unfold orderlyOff
  rw [hst]

/-- Whatever the rail does, its request reads OFF afterwards. -/
theorem doReq_off_reqOn {s : State} (hs : Store.wf 0 s.settings = true) (k : RailId) : reqOn (doReq k 0 s) k = false := by
  have hin : Within [.tiles, .rails, .ev, .link, .rcd] (setReq k 0 s) (doReq k 0 s) :=
    within_ite (within_railToOut k .off 1 8 _) (within_orderlyOff occur k 1 _ within_occur)
  rw [reqOn, loopW, hin.setWord_eq (by decide)]
  exact reqOn_setReq hs k 0

section
variable {s b : State} {k : RailId} (hb : Within [.bus] s b)
include hb

theorem doReq_off_of_not_hiccup (hst : railSt s k ≠ .hiccup) : doReq k 0 b = orderlyOff occur k 1 (setReq k 0 b) :=
  if_neg (by rwa [(setReq_cmdPut hb k 0).state])

/-- A rail in HICCUP or PREPARE enters OFF with cause 1. -/
theorem doReq_off_enters (hstop : NoStopWaits s) (hw : NoWatch s k) (hst : railSt s k = .hiccup ∨ railSt s k = .prepare) :
    EnteredOut k .off 1 s (doReq k 0 b) := by
  have hput := setReq_cmdPut hb k 0
  have henter : EnteredOut k .off 1 (setReq k 0 b) (doReq k 0 b) := by
    rcases hst with hst | hst
    · have hrun : doReq k 0 b = railToOut k .off 1 8 (setReq k 0 b) := if_pos (by rwa [hput.state])
      exact hrun ▸ railToOut_enters (hput.noStopWaits hstop) (hput.noWatch hw) .off 1 8
    · rw [doReq_off_of_not_hiccup hb (by rw [hst]; nofun), orderlyOff_of_prepare occur 1 (by rwa [hput.state])]
      exact enterOut_enters occur .off 1 6 (hput.noStopWaits hstop) (hput.noWatch hw)
  exact henter.around hput.frame Within.refl

variable (hruns : (railSt s k).Runs)
include hruns

theorem doReq_off_of_runs : doReq k 0 b = orderlyOff occur k 1 (setReq k 0 b) :=
  doReq_off_of_not_hiccup hb (by rcases hruns with hst | hst | hst <;> rw [hst] <;> nofun)

theorem doReq_off_begins (hw : NoWatch s k) (hfree : leapActive s k = false ∧ stopDepOk s k = true) :
    StopBegun k false 1 s (doReq k 0 b) := by
  have hput := setReq_cmdPut hb k 0
  rw [doReq_off_of_runs hb hruns]
  exact (orderlyOff_begins occur 1 (by rwa [hput.state]) (hput.noWatch hw) ((hput.free k).mpr hfree)).after hput

theorem doReq_off_waits (hstop : NoStopWaits s) (hheld : ¬(leapActive s k = false ∧ stopDepOk s k = true)) :
    StopHeld k 1 s (doReq k 0 b) := by
  have hput := setReq_cmdPut hb k 0
  rw [doReq_off_of_runs hb hruns]
  exact (orderlyOff_waits occur 1 (by rwa [hput.state]) (hput.noStopWaits hstop k) (hheld ∘ (hput.free k).mp)).after hput

end

end Sys2Proof.Machine
end

section
/-! SUPPORT. The release of a tile from a Leap or a Leap-back, and the end of the response (R219 to R224, R228). -/

namespace Sys2Proof.Machine

/-! What a release leaves of the tile (R221, R228) -/

/-- When the high side of a tile released at x ends (R221). -/
def Tile.releaseFall (ti : Tile) (x : Int) : Int :=
  if highAt ti.edg (x + 15) = true then
    max (x + 16) (match Wave.last ti.edg.hi true (x + 15) with | some r => r + minp ti | none => x + 16)
  else x + 16

/-- A tile has been released: it is the tile it was but for its outputs and its part in the response, which is over. -/
structure Released (ti tj : Tile) : Prop where
  eq : ∃ l e, tj = { ti with leap := l, edg := e }
  out : tj.leap.under = false

theorem Released.act {ti tj : Tile} (h : Released ti tj) : tj.act = ti.act := by
  obtain ⟨_, _, rfl⟩ := h.eq; rfl

/-- The tile released at x with its high side ended at `fall`; its low side is not set yet. -/
def Tile.highEnded (ti : Tile) (x fall : Int) : Tile :=
  { ti with
    edg := ti.edg.cutHigh fall
    leap := { ti.leap with
      under := false, waiting := true
      lowFrom := if ti.act = .ready then some x else ti.leap.lowFrom
      onTotal := if ti.act = .ready then ({ ti with edg := ti.edg.cutHigh fall }.forcedTicks false fall).toNat else ti.leap.onTotal } }

theorem releaseHigh_eq (ti : Tile) (x : Int) : ti.releaseHigh x =
    let tj := ti.highEnded x (ti.releaseFall x)
    if highAt ti.edg (x + 15) = true then { tj with edg := tj.turnLowOn (ti.releaseFall x + dtf ti) }
    else if (ti.trip.lowHeld || ti.trip.resume) = true then tj else { tj with edg := tj.complement (x + 16) } := by
  have hlast : x + 16 - 1 = x + 15 := by omega
  unfold Tile.releaseHigh Tile.releaseFall
  dsimp only
  rw [hlast]
  rfl

/-- Whatever the low side does, the high side ends as R221 says. -/
theorem releaseHigh_releases (ti : Tile) (x : Int) :
    Released ti (ti.releaseHigh x) ∧ (ti.releaseHigh x).edg.HighOffFrom (ti.releaseFall x) := by
  have hoff : ∀ e : Edges, e.hi = (ti.edg.cutHigh (ti.releaseFall x)).hi → e.HighOffFrom (ti.releaseFall x) := fun e he y hy => by
    rw [highAt, he]; exact cutHigh_highOff ti.edg _ y hy
  rw [releaseHigh_eq]
  dsimp only
  split_ifs
  · exact ⟨⟨⟨_, _, rfl⟩, rfl⟩, hoff _ (turnLowOn_hi ..)⟩
  · exact ⟨⟨⟨_, _, rfl⟩, rfl⟩, hoff _ rfl⟩
  · exact ⟨⟨⟨_, _, rfl⟩, rfl⟩, hoff _ (complement_hi ..)⟩

/-- The tile as its release from a Leap-back, or from a Leap, at x leaves it. -/
def Tile.offLeap (ti : Tile) (back : Bool) (x : Int) : Tile :=
  if back then { ti with edg := ti.edg.cutLow (x + 16), leap := { ti.leap with under := false, waiting := true } } else ti.releaseHigh x

theorem offLeap_releases (ti : Tile) (back : Bool) (x : Int) : Released ti (ti.offLeap back x) := by
  cases back with
  | true => exact ⟨⟨_, _, rfl⟩, rfl⟩
  | false => exact (releaseHigh_releases ti x).1

theorem offLeap_back_low (ti : Tile) (x : Int) : (ti.offLeap true x).edg.LowOffFrom (x + 16) := cutLow_lowOff ti.edg (x + 16)
theorem offLeap_leap_high (ti : Tile) (x : Int) : (ti.offLeap false x).edg.HighOffFrom (ti.releaseFall x) := (releaseHigh_releases ti x).2

/-! The end of the response (R222, R223) -/

theorem mem_underTiles {s : State} {k : RailId} {u : TileId} : u ∈ underTiles s k ↔ (s.tile u).rail = some k ∧ (s.tile u).leap.under = true := by
  rw [underTiles, List.mem_filter, mem_tilesOf]

theorem leapCheck_of_some {s : State} {k : RailId} {u : TileId} (hu : u ∈ underTiles s k) (cause : Option Nat) : leapCheck k cause s = s :=
  if_neg fun h => List.ne_nil_of_mem hu (List.isEmpty_iff.mp (Bool.and_eq_true_iff.mp h).2)

theorem leapCheck_of_none {s : State} {k : RailId} (hact : leapActive s k = true) (hnone : ∀ u, u ∉ underTiles s k) (cause : Option Nat) :
    leapCheck k cause s = endLeap k cause s :=
  if_pos (by rw [hact, List.eq_nil_iff_forall_not_mem.mpr hnone]; rfl)

/-- With no tile under it, the end of a response changes no tile. -/
theorem endLeap_tile_of_none {s : State} {k : RailId} (hnone : ∀ u, u ∉ underTiles s k) (cause : Option Nat) (u : TileId) :
    (endLeap k cause s).tile u = s.tile u := by
  rw [endLeap, modTilesOf_tile, modRail_tile]
  split
  · next hu =>
    have hout : (s.tile u).leap.under = false := by
      simpa [mem_underTiles, beq_iff_eq.mp hu] using hnone u
    rw [← hout]
  · rfl

theorem leapCheck_tile (k : RailId) (cause : Option Nat) (s : State) (u : TileId) : (leapCheck k cause s).tile u = s.tile u := by
  unfold leapCheck
  split
  · next h => exact endLeap_tile_of_none (List.eq_nil_iff_forall_not_mem.mp (List.isEmpty_iff.mp (Bool.and_eq_true_iff.mp h).2)) cause u
  · rfl

theorem leapCheck_outOfLeap (k : RailId) (cause : Option Nat) (s : State) : OutOfLeap k s (leapCheck k cause s) := by
  unfold leapCheck
  split
  · exact endLeap_outOfLeap k cause s
  · exact OutOfLeap.refl k s

theorem endLeap_rail (k : RailId) (cause : Option Nat) (s : State) : (endLeap k cause s).rail k =
    { s.rail k with
      leap := { (s.rail k).leap with
        state := .holdoff, cause := cause.getD (s.rail k).leap.cause, errRelease := none, holdoffFrom := s.now, missedNow := false
        tmaxHit := (s.rail k).leap.tmaxHit || (s.rail k).leap.tmaxSeen }
      eng := { (s.rail k).eng with preload := .leap } } := modRail_rail s k _

theorem resumeStop_of_none {s : State} {k : RailId} (h : (s.rail k).seq.stopWait = none) (raise : Raise) : resumeStop raise k s = s := by
  unfold resumeStop
  rw [h]

/-! LEAP_TILE_RELEASE (R219) -/

/-- Time has come to a tick and tile u of rail k has been released there with its cause; the response is not judged yet. -/
def State.released (s : State) (u : TileId) (k : RailId) (tick c : Nat) : State :=
  ((s.advance (16 * tick)).modTile u fun ti => ti.offLeap ((s.rail k).leap.state == .leapBack) (16 * tick)).modLeap k fun l =>
    { l with tmaxSeen := l.tmaxSeen || decide (c = 2) }

section
variable (s : State) (u : TileId) (k : RailId) (tick c : Nat)

theorem released_within : Within [.now, .rails, .tiles] s (s.released u k tick c) :=
  (((within_State_advance s _).mono (by decide)).step (within_State_modTile _ u _) (by decide)).step (within_State_modLeap _ k _) (by decide)

theorem released_now : (s.released u k tick c).now = max s.now (16 * tick) := advance_tick_now s tick

theorem released_tile : (s.released u k tick c).tile u = (s.tile u).offLeap ((s.rail k).leap.state == .leapBack) (16 * tick) := modTile_tile ..

theorem released_tile_other : OtherTiles u s (s.released u k tick c) := fun v hv => modTile_other _ u _ v hv

theorem released_rail : (s.released u k tick c).rail k =
    { s.rail k with leap := { (s.rail k).leap with tmaxSeen := (s.rail k).leap.tmaxSeen || decide (c = 2) } } := modLeap_rail ..

theorem released_rail_other : OtherRails k s (s.released u k tick c) := fun j hj => modRail_other _ k _ j hj

/-- Only a release by TMAX marks the rail for it. -/
theorem released_eq : s.released u k tick c =
    let y := (s.advance (16 * tick)).modTile u fun ti => ti.offLeap ((s.rail k).leap.state == .leapBack) (16 * tick)
    if c = 2 then y.modLeap k fun l => { l with tmaxSeen := true } else y := by
  unfold State.released
  dsimp only
  split
  · next hc => simp [hc]
  · next hc => exact modRail_of_fixed (by simp [hc])

theorem released_leapActive : leapActive (s.released u k tick c) k = leapActive s k := by simp only [leapActive, released_rail]

/-- The tiles left under the response are those that were under it, but for the released one. -/
theorem mem_underTiles_released {v : TileId} : v ∈ underTiles (s.released u k tick c) k ↔ v ≠ u ∧ v ∈ underTiles s k := by
  by_cases hv : v = u
  · subst hv
    have hout := (offLeap_releases (s.tile v) ((s.rail k).leap.state == .leapBack) (16 * tick)).out
    simp [mem_underTiles, released_tile, hout]
  · simp [mem_underTiles, released_tile_other s u k tick c v hv, hv]

end

section
variable {s : State} {u : TileId} {k : RailId} {tick : Nat} (hk : (s.tile u).rail = some k)
include hk

theorem leapTileRelease_eq {c : Nat} (hu : (s.tile u).leap.under = true) (hact : leapActive s k = true)
    (hdue : (s.rail k).leap.detAt + 112 ≤ 16 * (tick : Int)) (hc : releaseCause s k (s.tile u) (16 * tick) = some c)
    (hstop : (s.rail k).seq.stopWait = none) : leapTileRelease u tick s = leapCheck k (some c) (s.released u k tick c) := by
  have hgo : ((s.tile u).leap.under && leapActive s k && decide ((s.rail k).leap.detAt + 112 ≤ 16 * (tick : Int))) = true := by
    simp [hu, hact, hdue]
  have hrun : leapTileRelease u tick s = resumeStop occur k (leapCheck k (some c) (s.released u k tick c)) := by
    unfold leapTileRelease
    dsimp only
    rw [hk]
    dsimp only
    rw [if_pos hgo, hc, released_eq]
    rfl
  obtain ⟨_, _, hrail⟩ := (leapCheck_outOfLeap k (some c) (s.released u k tick c)).rail
  exact hrun.trans (resumeStop_of_none (by rw [hrail, released_rail]; exact hstop) occur)

/-- A tile that nothing releases stays as it is, and so does all else. -/
theorem leapTileRelease_of_held (h : (s.tile u).leap.under = false ∨ leapActive s k = false ∨ 16 * (tick : Int) < (s.rail k).leap.detAt + 112
    ∨ releaseCause s k (s.tile u) (16 * tick) = none) : leapTileRelease u tick s = s := by
  unfold leapTileRelease
  dsimp only
  rw [hk]
  dsimp only
  split
  · next hgo =>
    simp only [Bool.and_eq_true, decide_eq_true_eq] at hgo
    obtain ⟨⟨hu, hact⟩, hdue⟩ := hgo
    rcases h with h | h | h | h
    · exact absurd hu (by simp [h])
    · exact absurd hact (by simp [h])
    · exact absurd hdue (not_le.mpr h)
    · rw [h]
  · rfl

end

/-! LEAP_HOLDOFF_EXPIRY (R224) -/

theorem leapHoldoffExpiry_of_holdoff {s : State} {k : RailId} (h : (s.rail k).leap.state = .holdoff) : leapHoldoffExpiry k s =
    (s.advance ((s.rail k).leap.holdoffFrom + 16 * leapHoldoff s k)).modLeap k fun l => { l with state := .idle } := if_pos h

theorem leapHoldoffExpiry_of_not_holdoff {s : State} {k : RailId} (h : (s.rail k).leap.state ≠ .holdoff) : leapHoldoffExpiry k s = s := if_neg h

end Sys2Proof.Machine
end

section
/-! PROOFS. The statements of 07_leap_response.md. -/

open Sys2Proof Sys2Proof.Machine

/-- Settles O22: by the state of the rail, REQ = OFF clears the request alone, enters OFF, begins the stop or lets it wait. -/
theorem offRequestStopsInOrder : Obligations.OffRequestStopsInOrder := by
  intro h k s hs hl hstop hw
  have hrun : writeAt h (.loop k .cmd) 0 s = doReq k 0 (s.opened h (Reg.loop k .cmd).addr) := writeAt_of_lands hl
  have hb := opened_within s h (Reg.loop k .cmd).addr
  refine ⟨_, congrArg Host.Outcome.next hrun, doReq_off_reqOn (settings_wf_of_bus hb hs) k, ?_⟩
  cases hst : railSt s k with
  | off | safe | stopping =>
    have hput := setReq_cmdPut hb k 0
    rw [doReq_off_of_rest (by simp [railSt_of_bus hb, hst])]
    exact ⟨fun j _ => hput.state j, hput.sets k, hput.frame.mono (by decide), hput.frame .rails (by decide), hput.frame .tiles (by decide)⟩
  | hiccup | prepare =>
    have hout := doReq_off_enters hb hstop hw (by simp [hst])
    exact ⟨hout.others, hout.otherSets, hout.frame, hout.state, hout.cause_eq⟩
  | softstart | regulate | slew =>
    have hruns : (railSt s k).Runs := by simp [RailState.Runs, hst]
    by_cases hfree : leapActive s k = false ∧ stopDepOk s k = true
    · have hbegun := doReq_off_begins hb hruns hw hfree
      refine ⟨hbegun.others, hbegun.sets, hbegun.frame, ?_⟩
      rw [if_pos hfree]
      exact ⟨hbegun.state, hbegun.toward, hbegun.cause_eq, hbegun.pgood, hbegun.endPoint, hbegun.emulates⟩
    · have hheld := doReq_off_waits hb hruns hstop hfree
      refine ⟨fun j hj => congrArg (·.seq.state) (hheld.others j hj), hheld.frame.otherSets (by decide) k, hheld.frame.mono (by decide), ?_⟩
      rw [if_neg hfree]
      exact ⟨hheld.state.trans hst, hheld.waits⟩

/-- Settles O41: the released tile leaves the response, which goes on while another tile is under it and else ends in HOLDOFF. -/
theorem leapReleaseAndHoldoff : Obligations.LeapReleaseAndHoldoff := by
  intro s
  refine ⟨fun u k tick hk => ⟨fun c hu hact hdue hc hstop => ?_, fun hheld => congrArg Host.Outcome.next (leapTileRelease_of_held hk hheld)⟩,
    fun k => ⟨fun hst => ?_, fun hst => congrArg Host.Outcome.next (leapHoldoffExpiry_of_not_holdoff hst)⟩⟩
  · have hrun := leapTileRelease_eq hk hu hact hdue hc hstop
    have hcheck := leapCheck_outOfLeap k (some c) (s.released u k tick c)
    have hnow : (leapCheck k (some c) (s.released u k tick c)).now = (s.released u k tick c).now := hcheck.frame .now (by decide)
    have hin := released_within s u k tick c
    have htile : (leapCheck k (some c) (s.released u k tick c)).tile u
        = (s.tile u).offLeap ((s.rail k).leap.state == .leapBack) (16 * tick) :=
      (leapCheck_tile ..).trans (released_tile s u k tick c)
    have hout := offLeap_releases (s.tile u) ((s.rail k).leap.state == .leapBack) (16 * tick)
    refine ⟨_, congrArg Host.Outcome.next hrun, ?_, ?_, ?_, fun v hv => ?_, ?_, ?_, fun hback => ?_, fun hleap => ?_, ?_⟩
    · rw [htile]; exact hout.out
    · rw [hnow]; exact released_now s u k tick c
    · rw [htile]; exact hout.act
    · rw [leapCheck_tile]; exact released_tile_other s u k tick c v hv
    · exact (released_rail_other s u k tick c).trans hcheck.others
    · exact hin.step hcheck.frame (by decide)
    · rw [htile, hback]
      exact offLeap_back_low (s.tile u) (16 * tick)
    · rw [htile, hleap]
      exact offLeap_leap_high (s.tile u) (16 * tick)
    · have hrail := released_rail s u k tick c
      split
      · next hleft =>
        obtain ⟨v, hv⟩ := hleft
        rw [leapCheck_of_some ((mem_underTiles_released s u k tick c).mpr hv), hrail]
        exact ⟨rfl, rfl⟩
      · next hnone =>
        have hempty : ∀ v, v ∉ underTiles (s.released u k tick c) k := fun v hv =>
          hnone ⟨v, (mem_underTiles_released s u k tick c).mp hv⟩
        rw [leapCheck_of_none (by rwa [released_leapActive]) hempty, endLeap_rail, hrail]
        exact ⟨rfl, rfl, rfl, rfl, (Bool.or_assoc ..).symm⟩
  · have hrun := leapHoldoffExpiry_of_holdoff hst
    refine ⟨_, congrArg Host.Outcome.next hrun, ?_, ?_, modRail_other _ k _, ?_⟩
    · rw [modLeap_rail, advance_rail]
    · exact advance_now s _
    · exact ((within_State_advance s _).mono (by decide)).step (within_State_modLeap _ k _) (by decide)

end

section
/-! SUPPORT. The timed commands of the sequencer: when each is due, and what it does then (R240, R247, R252, R255). -/

namespace Sys2Proof.Machine

section
variable {s : State} {k : RailId}

/-! The start dependency (R255) -/

theorem seqDelayExpiry_of_wait {f : Nat} (hf : (s.rail k).seq.depFrom = some f) : seqDelayExpiry k s =
    if sdepEn s k = true ∧ (s.rail (startDep s k)).seq.pgood = true ∧ f + us (10 * seqDly s k) ≤ s.now
      then s.modSeq k fun q => { q with depMet := true } else s := by
  unfold seqDelayExpiry
  rw [hf]

theorem seqDelayExpiry_of_no_wait (hf : (s.rail k).seq.depFrom = none) : seqDelayExpiry k s = s := by
  unfold seqDelayExpiry
  rw [hf]

/-! The wait for the pre-bias (R240) -/

/-- The rail waits for its pre-bias to decay, has not told of it, and has waited 100 ms. -/
def PrebiasWaitOver (s : State) (k : RailId) : Prop :=
  (s.rail k).seq.state = .prepare ∧ (s.rail k).seq.pbHigh = true ∧ (s.rail k).seq.pbTold = false ∧ (s.rail k).seq.pbWaitFrom + ms 100 ≤ s.now

/-- The rail will not tell of its wait again. -/
def State.waitTold (s : State) (k : RailId) : State := s.modSeq k fun q => { q with pbTold := true }

theorem prebiasWaitTimeout_of_over (hover : PrebiasWaitOver s k) :
    prebiasWaitTimeout k s = occur (48 + k.val) (loopDetail s k 7) (s.waitTold k) := if_pos hover

theorem prebiasWaitTimeout_of_not_over (hno : ¬PrebiasWaitOver s k) : prebiasWaitTimeout k s = s := if_neg hno

/-- Where event 48 + k stays inside the event system, only the mark of the rail and the event's own record change. -/
theorem occur_waitTold_within (hq : Quiet s (48 + k.val)) (d : Word) : Within [.ev] (s.waitTold k) (occur (48 + k.val) d (s.waitTold k)) :=
  occur_quiet d ((quiet_congr rfl _).mpr hq)

theorem occur_waitTold_latches (hq : Quiet s (48 + k.val)) (d : Word) (hen : evEn s (48 + k.val) = true) (hlatch : evLatchEn s (48 + k.val) = true)
    (hn : occurredNow s (48 + k.val) = false) : ((occur (48 + k.val) d (s.waitTold k)).source (48 + k.val)).latch = true :=
  occur_latches (s := s.waitTold k) ⟨48 + k.val, by omega⟩ d ((quiet_congr rfl _).mpr hq) hn hen hlatch

/-! RETRY (R247) -/

theorem retryClear_eq : retryClear k s =
    if steady (railSt s k) = true ∧ (s.rail k).seq.steadyFrom + ms (hiccupT s k) ≤ s.now
      then s.modSeq k fun q => { q with retry := 0 } else s := by
  unfold retryClear
  simp only [Bool.and_eq_true, decide_eq_true_eq]

/-! PGOOD (R252) -/

/-- The rail, in REGULATE or SLEW with PGOOD low, has been in window for PG_DLY. -/
def PgoodDue (s : State) (k : RailId) : Prop :=
  ∃ f, (s.rail k).seq.winFrom = some f ∧ steady (railSt s k) = true ∧ (s.rail k).seq.pgood = false ∧ f + us (10 * pgDly s k) ≤ s.now

theorem pgoodAssert_of_due (hdue : PgoodDue s k) :
    pgoodAssert k s = (setPgood k true s).modSeq k fun q => { q with deEnded := q.deEnded || deEnd s k } := by
  obtain ⟨f, hf, hst, hlow, hlong⟩ := hdue
  have hst' : steady (s.rail k).seq.state = true := hst
  unfold pgoodAssert
  simp only [hf, hst', hlow, hlong, Bool.not_false, Bool.and_true, decide_true, if_true]

theorem pgoodAssert_of_not_due (hno : ¬PgoodDue s k) : pgoodAssert k s = s := by
  unfold pgoodAssert
  dsimp only
  split
  · rfl
  · next f hf =>
    refine if_neg fun hcond => hno ⟨f, hf, ?_⟩
    simpa [railSt, and_assoc] using hcond

theorem not_pgoodDue (h : (s.rail k).seq.winFrom = none ∨ (∃ f, (s.rail k).seq.winFrom = some f ∧ s.now < f + us (10 * pgDly s k))
    ∨ steady (railSt s k) = false ∨ (s.rail k).seq.pgood = true) : ¬PgoodDue s k := by
  rintro ⟨f, hf, hst, hlow, hlong⟩
  rcases h with hnone | ⟨g, hg, hshort⟩ | hother | hhigh
  · exact nomatch hf.symm.trans hnone
  · obtain rfl : f = g := Option.some.inj (hf.symm.trans hg)
    exact absurd hlong (Nat.not_le.mpr hshort)
  · exact nomatch hst.symm.trans hother
  · exact nomatch hlow.symm.trans hhigh

/-- PGOOD is high, diode emulation has ended where DE_END says so, and every rail keeps its state. -/
theorem pgoodAssert_asserts (hdue : PgoodDue s k) : ((pgoodAssert k s).rail k).seq.pgood = true
    ∧ ((pgoodAssert k s).rail k).seq.deEnded = ((s.rail k).seq.deEnded || deEnd s k) ∧ ∀ j, railSt (pgoodAssert k s) j = railSt s j := by
  have hrail := setPgood_rail k true s
  obtain ⟨_, _, _, _, hk, hpgood⟩ := hrail k
  rw [pgoodAssert_of_due hdue]
  refine ⟨?_, ?_, fun j => ?_⟩
  · rw [modSeq_rail, hk]; exact hpgood rfl
  · rw [modSeq_rail, hk]
  · obtain ⟨_, _, _, _, hj, -⟩ := hrail j
    by_cases hjk : j = k
    · subst hjk; rw [railSt, modSeq_rail, hj]; rfl
    · rw [railSt, State.modSeq, modRail_other _ k _ j hjk, hj]; rfl

end

end Sys2Proof.Machine
end

section
/-! SUPPORT. The entry to SOFTSTART at V1 (R238, R239, R241). -/

namespace Sys2Proof.Machine

/-! A tile at V1: its duty and its pulse change, its diode emulation stays. -/

theorem takeDuty_emulating (ti : Tile) (x : Int) : (ti.takeDuty x).emulating = ti.emulating := by
  unfold Tile.takeDuty Tile.late
  dsimp only
  split_ifs <;> rfl

theorem settlePeak_emulating (ti : Tile) (p v : Int) : (ti.settlePeak p v).emulating = ti.emulating := by
  unfold Tile.settlePeak
  dsimp only
  split_ifs <;> rfl

theorem startPulse_emulating (ti : Tile) (v1 : Int) : (ti.startPulse v1).emulating = ti.emulating := by
  have hduty : (if ti.car.waits v1 then ti else ti.takeDuty v1).emulating = ti.emulating := by
    split
    · rfl
    · exact takeDuty_emulating ti v1
  unfold Tile.startPulse
  dsimp only
  generalize (if ti.car.waits v1 then ti else ti.takeDuty v1) = taken at hduty ⊢
  split
  · rw [settlePeak_emulating, hduty]
  · exact hduty

/-! The rail at V1 -/

/-- The reference valley at which the update of a rail in PREPARE is aimed: V1 (R239). -/
def valleyOne (s : State) (k : RailId) : Int :=
  if (s.rail k).car.atPeak = true then (s.rail k).car.nextValley else ((s.rail k).car.toPeak true).nextValley

/-- The pre-bias lies above the target and may be discharged, so that no tile emulates a diode (R240). -/
def discharges (s : State) (k : RailId) : Bool := pbDisch s k && decide (target s k < (s.rail k).seq.pb)

/-- At V1 rail k is in SOFTSTART with its reference at the pre-bias. -/
def State.softStarted (s : State) (k : RailId) : State :=
  setRef k ((s.rail k).seq.pb * 65536) (valleyOne s k) ((s.advance (valleyOne s k)).modSeq k fun q =>
    { q with state := .softstart, v1 := valleyOne s k, trackMax := 0, shortFrom := none, deEnded := discharges s k, prepDone := none })

/-- An ACTIVE tile of a rail that enters SOFTSTART at v. -/
def Tile.softStarted (ti : Tile) (emulate : Bool) (v : Int) : Tile :=
  if isActive ti then { ti with emulating := emulate, lowed := false }.startPulse v else ti

section
variable {s : State} {k : RailId}

theorem softStarted_rail : (s.softStarted k).rail k = { s.rail k with
    seq := { (s.rail k).seq with
      state := .softstart, v1 := valleyOne s k, trackMax := 0, shortFrom := none, deEnded := discharges s k, prepDone := none }
    eng := { (s.rail k).eng with ref := (s.rail k).seq.pb * 65536 }
    fe := { (s.rail k).fe with
      refs := pushKeep 12 (valleyOne s k, ((s.rail k).seq.pb * 65536 + 0x8000) / 65536) (s.rail k).fe.refs } } := by
  rw [State.softStarted, setRef, modRail_rail, modSeq_rail, advance_rail]

theorem softStarted_other : OtherRails k s (s.softStarted k) := (modRail_other (s.advance _) k _).trans (modRail_other _ k _)

theorem softstartEntry_of_not_due (hno : ¬((s.rail k).seq.state = .prepare ∧ (s.rail k).eng.aimed = true)) : softstartEntry k s = s := if_neg hno

variable (hst : (s.rail k).seq.state = .prepare) (haimed : (s.rail k).eng.aimed = true)
include hst haimed

/-- The rail goes to V1, then its tiles, and its starts counter counts (R381). -/
theorem softstartEntry_eq : softstartEntry k s =
    lifeInc (finOf 73 (by decide) (8 + k.val))
      ((s.softStarted k).modTilesOf k fun ti => ti.softStarted (!discharges s k) (valleyOne s k)) := if_pos ⟨hst, haimed⟩

theorem softstartEntry_rail (j : RailId) : (softstartEntry k s).rail j = (s.softStarted k).rail j := by
  rw [softstartEntry_eq hst haimed]
  rfl

theorem softstartEntry_tile (u : TileId) : (softstartEntry k s).tile u =
    if (s.tile u).rail == some k then (s.tile u).softStarted (!discharges s k) (valleyOne s k) else s.tile u := by
  rw [softstartEntry_eq hst haimed]
  exact modTilesOf_tile (s.softStarted k) k _ u

end

theorem softStarted_emulating {ti : Tile} (hact : ti.act = .active) (emulate : Bool) (v : Int) :
    (ti.softStarted emulate v).emulating = emulate := by
  have hactive : isActive ti = true := by rw [isActive, hact]; rfl
  rw [Tile.softStarted, if_pos hactive, startPulse_emulating]

end Sys2Proof.Machine
end

section
/-! SUPPORT. A state at which a statement on failed starts fails. -/

namespace Sys2Proof.Machine

/-- Rail 0 is in SOFTSTART with its output short of the reference since time 0 for longer than TRACK_T = 1 µs; RETRY_N is 1, RETRY is 0, and
CMD.REQ reads OFF. -/
def startFailing : State :=
  let s := putWord (putWord claimedRun (.loop 0 .track) 0x00010000) (.loop 0 .hiccup) 0x00010000
  { s.modSeq 0 fun q => { q with state := .softstart, shortFrom := some 0 } with now := us 2 }

end Sys2Proof.Machine
end

section
/-! PROOFS. The statements of 08_rail_start_stop.md. -/

open Sys2Proof Sys2Proof.Machine

/-- Settles O25: each command by whether it is due. -/
theorem railTimersActWhenDue : Obligations.RailTimersActWhenDue := by
  intro k s
  refine ⟨fun f hf => congrArg Host.Outcome.next (seqDelayExpiry_of_wait hf), fun hf => congrArg Host.Outcome.next (seqDelayExpiry_of_no_wait hf),
    fun hq hst hhigh htold hlong => ?_, fun hno => congrArg Host.Outcome.next (prebiasWaitTimeout_of_not_over ?_),
    congrArg Host.Outcome.next retryClear_eq, fun f hf hst hlow hlong => ?_,
    fun hno => congrArg Host.Outcome.next (pgoodAssert_of_not_due (not_pgoodDue hno))⟩
  · have hev := occur_waitTold_within hq (loopDetail s k 7)
    have hrun := prebiasWaitTimeout_of_over ⟨hst, hhigh, htold, hlong⟩
    refine ⟨_, congrArg Host.Outcome.next hrun, ?_, ?_, ?_, fun hen hlatch hn => occur_waitTold_latches hq _ hen hlatch hn⟩
    · rw [hev.rail_eq (by decide), State.waitTold, modSeq_rail]
    · exact OtherRails.trans (modRail_other s k _) (hev.otherRails (by decide) k)
    · exact ((within_State_modSeq s k _).mono (by decide)).step hev (by decide)
  · rintro ⟨hst, hhigh, htold, hlong⟩
    rcases hno with h | h | h | h
    · exact h hst
    · exact nomatch h.symm.trans hhigh
    · exact nomatch h.symm.trans htold
    · exact absurd hlong (Nat.not_le.mpr h)
  · obtain ⟨hpgood, hended, hstates⟩ := pgoodAssert_asserts ⟨f, hf, hst, hlow, hlong⟩
    exact ⟨_, rfl, hpgood, hended, hstates, within_pgoodAssert k s⟩

/-- Settles O26: a rail in PREPARE with its update aimed goes to V1, and its tiles with it; any other stays. -/
theorem softstartBeginsAtThePreloadedValley : Obligations.SoftstartBeginsAtThePreloadedValley := by
  intro k s
  refine ⟨fun hst haimed => ⟨softstartEntry k s, rfl, ?_⟩, fun hno => congrArg Host.Outcome.next (softstartEntry_of_not_due hno)⟩
  have hrun := softstartEntry_eq hst haimed
  have hrail := (softstartEntry_rail hst haimed k).trans softStarted_rail
  refine ⟨?_, ?_, ?_, ?_, ?_, ?_, fun u hu hact => ?_, ?_, ?_, fun u hu => ?_, (within_softstartEntry k s).mono (by decide)⟩
  · rw [railSt, hrail]
  · rw [hrail]
  · rw [hrail]
  · rw [hrail]
  · rw [hrail]; rfl
  · rw [hrail, hrun]; rfl
  · rw [softstartEntry_tile hst haimed, if_pos (by simpa using hu)]
    exact softStarted_emulating hact _ _
  · rw [hrun]; exact modVec_get_same ..
  · exact fun j hj => (softstartEntry_rail hst haimed j).trans (softStarted_other j hj)
  · rw [softstartEntry_tile hst haimed, if_neg (by simpa using hu)]

/-- Refutes O27: its clause on a failed start asks neither for CMD.REQ = ON nor for a device that stays in RUN. With REQ = OFF the rail goes on
from HICCUP to OFF at once (R236, R238), so that it is in OFF after the failure with RETRY 1 within RETRY_N. -/
theorem not_failedAndFinishedRailsTurnOff : ¬ Obligations.FailedAndFinishedRailsTurnOff := by
  intro hall
  obtain ⟨hfail, -⟩ := hall 0 startFailing (by decide +kernel) (by decide +kernel)
  obtain ⟨t, hrun, -, -, -, hends⟩ := hfail 0 (by decide +kernel) (by decide +kernel) (by decide +kernel) (by decide +kernel) (by decide +kernel)
  obtain rfl : trackFailure 0 startFailing = t := Host.Outcome.next.inj hrun
  have hwithin : ¬(retryN startFailing 0 < satInc (startFailing.rail 0).seq.retry 255 ∧ retryN startFailing 0 ≠ 255) := by decide +kernel
  have hoff : railSt (trackFailure 0 startFailing) 0 = .off := by decide +kernel
  obtain ⟨hhiccup, -⟩ := (if_neg hwithin).mp hends
  exact nomatch hoff.symm.trans hhiccup

end

section
/-! SUPPORT. A record entry in the event queue, the request for the fault summary, and the class bits that a word with CLASS_CLR clears (R27,
R271, R499, R507, R529). -/

namespace Sys2Proof.Machine

/-! Frames of one tile -/

theorem OtherTiles.trans {u : TileId} {s t x : State} (h : OtherTiles u s t) (h' : OtherTiles u t x) : OtherTiles u s x :=
  fun v hv => (h' v hv).trans (h v hv)
theorem Within.otherTiles {ps : List Part} {s t : State} (h : Within ps s t) (hp : Part.tiles ∉ ps) (u : TileId) : OtherTiles u s t :=
  fun v _ => h.tile_eq hp v

/-! The queues (R27, R499, R529) -/

/-- A record entry enters the event queue where it has room. -/
theorem recordEntry_length {s : State} (hroom : s.ev.queue.length < 512) (code : Nat) (detail : Word) (h : HostId) :
    (recordEntry code detail h s).ev.queue.length = s.ev.queue.length + 1 := by
  unfold recordEntry enqueue
  rw [if_neg (Nat.not_le.mpr hroom)]
  exact placeEntry_length _ _

@[simp] theorem nvmAsk_nvm (s : State) : (nvmAsk s).nvm = s.nvm := within_nvmAsk s .nvm (by decide)

/-- The steps of a carry write HIGH records, never the fault summary (R510). -/
theorem jobRecord_counter_ne (c : Nat) : ∀ step, jobRecord (.counter c step) ≠ some 1
  | 0 => nofun
  | 1 => fun heq => absurd (Option.some.inj heq) (by omega)
  | _ + 2 => nofun

/-- A write of the fault summary takes the place of a waiting request that writes the same record (R499). -/
theorem jobMerged_summary {old : NvmJob} (hold : jobRecord old = some 1) : jobMerged old (.record 1 false) = .record 1 false := by
  cases old with
  | counter c step => exact absurd hold (jobRecord_counter_ne c step)
  | _ => rfl

/-- A change of a class bit asks for the fault summary, where the NVM queue has room. -/
theorem fsumChanged_asks {s : State} (hroom : nvmFill s.nvm < 16) : NvmJob.record 1 false ∈ (fsumChanged s).nvm.queue := by
  unfold fsumChanged nvmRequest
  by_cases hwaits : s.nvm.queue.contains (NvmJob.record 1 false) = true
  · rw [if_pos hwaits]
    simpa using hwaits
  · rw [if_neg hwaits]
    split
    · next old hfind =>
      have hmem := List.mem_of_find?_eq_some hfind
      have hrec : jobRecord old = some 1 := by simpa [jobRecord] using List.find?_some hfind
      rw [nvmAsk_nvm]
      exact List.mem_map.mpr ⟨old, hmem, (if_pos rfl).trans (jobMerged_summary hrec)⟩
    · rw [if_pos hroom, nvmAsk_nvm]
      exact List.mem_append_right _ List.mem_cons_self

/-! Class bits (R271) -/

/-- What a change of class bits tells, where one changes: a record entry, and a request for the fault summary. -/
def ClassTold (same : Prop) [Decidable same] (s t : State) : Prop :=
  if same then t.ev = s.ev ∧ t.nvm = s.nvm
  else (s.ev.queue.length < 512 → t.ev.queue.length = s.ev.queue.length + 1)
    ∧ (nvmFill s.nvm < 16 → NvmJob.record 1 false ∈ t.nvm.queue)

/-- From `x` to `y` class bits become those that `keep` keeps: where one is lost, that is told. -/
def State.classStep (x y : State) (cls keep : BitVec 5) (detail : Word) (h : HostId) : State :=
  if cls &&& ~~~keep = 0 then x else recordEntry 1 detail h (fsumChanged y)

/-- None is lost where all are kept. -/
theorem none_lost_iff {n : Nat} (cls keep : BitVec n) : cls &&& ~~~keep = 0 ↔ cls &&& keep = cls := by
  simp only [BitVec.eq_of_getLsbD_eq_iff, BitVec.getLsbD_and, BitVec.getLsbD_not]
  refine forall₂_congr fun i hi => ?_
  cases cls.getLsbD i <;> cases keep.getLsbD i <;> simp [hi]

section
variable {s x y : State} {cls keep : BitVec 5} (detail : Word) (h : HostId)

theorem classStep_within (hsame : cls &&& keep = cls → y = x) : Within [.ev, .nvm, .draw] y (x.classStep y cls keep detail h) := by
  unfold State.classStep
  split
  · next hnone => rw [hsame ((none_lost_iff _ _).mp hnone)]; exact Within.refl
  · exact ((within_fsumChanged y).mono (by decide)).step (within_recordEntry _ _ _ _) (by decide)

theorem classStep_told (hx : Within [.bus, .rails, .tiles] s x) (hy : Within [.rails, .tiles] x y) :
    ClassTold (cls &&& keep = cls) s (x.classStep y cls keep detail h) := by
  have hxev : x.ev = s.ev := hx .ev (by decide)
  have hxnvm : x.nvm = s.nvm := hx .nvm (by decide)
  unfold ClassTold State.classStep
  by_cases hkept : cls &&& keep = cls
  · rw [if_pos hkept, if_pos ((none_lost_iff _ _).mpr hkept)]
    exact ⟨hxev, hxnvm⟩
  · have hev : (fsumChanged y).ev = s.ev := (within_fsumChanged y .ev (by decide)).trans ((hy .ev (by decide)).trans hxev)
    have hnvm : y.nvm = s.nvm := (hy .nvm (by decide)).trans hxnvm
    rw [if_neg hkept, if_neg fun hnone => hkept ((none_lost_iff _ _).mp hnone)]
    refine ⟨fun hroom => ?_, fun hroom => ?_⟩
    · rw [recordEntry_length (by rwa [hev]), hev]
    · rw [show (recordEntry 1 detail h (fsumChanged y)).nvm = (fsumChanged y).nvm from within_recordEntry _ _ _ _ .nvm (by decide)]
      exact fsumChanged_asks (by rwa [hnvm])

end

/-! Of a rail (R306) -/

section
variable (h : HostId) (k : RailId) (x : State)

/-- Rail k keeps the class bits that have a cause bit. -/
def State.railClassKept : State := x.modProt k fun p => { p with cls := p.cls &&& BitVec.ofNat 5 (x.rail k).prot.fault.toNat }

theorem clearRailClass_eq : ∃ detail, clearRailClass h k x
    = x.classStep (x.railClassKept k) (x.rail k).prot.cls (BitVec.ofNat 5 (x.rail k).prot.fault.toNat) detail h := ⟨_, rfl⟩

theorem clearRailClass_within : Within [.ev, .nvm, .draw] (x.railClassKept k) (clearRailClass h k x) := by
  obtain ⟨detail, heq⟩ := clearRailClass_eq h k x
  rw [heq]
  exact classStep_within detail h fun hsame => modRail_of_fixed (congrArg (fun c => { x.rail k with prot := { (x.rail k).prot with cls := c } }) hsame)

theorem clearRailClass_rail : (clearRailClass h k x).rail k =
    { x.rail k with prot := { (x.rail k).prot with cls := (x.rail k).prot.cls &&& BitVec.ofNat 5 (x.rail k).prot.fault.toNat } } :=
  ((clearRailClass_within h k x).rail_eq (by decide) k).trans (modProt_rail ..)
theorem clearRailClass_other : OtherRails k x (clearRailClass h k x) :=
  OtherRails.trans (modRail_other x k _) ((clearRailClass_within h k x).otherRails (by decide) k)

theorem clearRailClass_told {s : State} (hx : Within [.bus, .rails, .tiles] s x) :
    ClassTold ((x.rail k).prot.cls &&& BitVec.ofNat 5 (x.rail k).prot.fault.toNat = (x.rail k).prot.cls) s (clearRailClass h k x) := by
  obtain ⟨detail, heq⟩ := clearRailClass_eq h k x
  rw [heq]
  exact classStep_told detail h hx ((within_State_modProt x k _).mono (by decide))

end

/-! Of a tile (R312) -/

section
variable (h : HostId) (u : TileId) (x : State)

/-- Tile u keeps the class bits that have a cause bit. -/
def State.tileClassKept : State := x.modTile u fun ti => { ti with prot := { ti.prot with cls := ti.prot.cls &&& tileKeep (x.tile u).prot.fault } }

theorem clearTileClass_eq : ∃ detail, clearTileClass h u x
    = x.classStep (x.tileClassKept u) (x.tile u).prot.cls (tileKeep (x.tile u).prot.fault) detail h := ⟨_, rfl⟩

theorem clearTileClass_within : Within [.ev, .nvm, .draw] (x.tileClassKept u) (clearTileClass h u x) := by
  obtain ⟨detail, heq⟩ := clearTileClass_eq h u x
  rw [heq]
  exact classStep_within detail h fun hsame => modTile_of_fixed (congrArg (fun c => { x.tile u with prot := { (x.tile u).prot with cls := c } }) hsame)

theorem clearTileClass_tile : (clearTileClass h u x).tile u =
    { x.tile u with prot := { (x.tile u).prot with cls := (x.tile u).prot.cls &&& tileKeep (x.tile u).prot.fault } } :=
  ((clearTileClass_within h u x).tile_eq (by decide) u).trans (modTile_tile ..)
theorem clearTileClass_other : OtherTiles u x (clearTileClass h u x) :=
  OtherTiles.trans (modTile_other x u _) ((clearTileClass_within h u x).otherTiles (by decide) u)

theorem clearTileClass_told {s : State} (hx : Within [.bus, .rails, .tiles] s x) :
    ClassTold ((x.tile u).prot.cls &&& tileKeep (x.tile u).prot.fault = (x.tile u).prot.cls) s (clearTileClass h u x) := by
  obtain ⟨detail, heq⟩ := clearTileClass_eq h u x
  rw [heq]
  exact classStep_told detail h hx ((within_State_modTile x u _).mono (by decide))

end

/-! The word with CLASS_CLR: the cause bits that it names clear first (log 111). -/

theorem bitOf_or_of_right {v : Word} {i : Nat} (hv : bitOf v i = true) (w : Word) : bitOf (w ||| v) i = true := by
  rw [bitOf, BitVec.toNat_or, Nat.testBit_or]
  exact Bool.or_eq_true_iff.mpr (.inr hv)

theorem armOpen_of_within {ps : List Part} {s t : State} (h : Within ps s t) (hp : Part.ka ∉ ps) : armOpen t = armOpen s :=
  congrArg (fun ka => ka.armUntil.isSome) (h .ka hp)

section
variable {s : State} {h : HostId} {r : Reg} {bit : Nat} {clear : State → State} {data : Word} (hbit : bitOf data bit = true)
include hbit

theorem classClear_of_arm (harm : armOpen (clearW1c r data s) = true) : classClear h r bit clear data s = clear (clearW1c r data s) :=
  (if_pos hbit).trans (if_pos harm)

theorem classClear_of_no_arm (harm : armOpen (clearW1c r data s) = false) : classClear h r bit clear data s = refuse h (clearW1c r data s) :=
  (if_pos hbit).trans (if_neg (by simp [harm]))

end

/-- The opened transaction of a word at RAIL_FAULT, with the cause bits clear that the word names. -/
def State.railCauseCleared (s : State) (h : HostId) (k : RailId) (data : Word) : State :=
  clearW1c (.loop k .railFault) data (s.opened h (Reg.loop k .railFault).addr)

section
variable (s : State) (h : HostId) (k : RailId) (data : Word)

theorem railCauseCleared_rail : (s.railCauseCleared h k data).rail k =
    { s.rail k with prot := { (s.rail k).prot with fault := (s.rail k).prot.fault &&& ~~~(BitVec.ofNat 7 data.toNat) } } :=
  (modProt_rail ..).trans (by rw [opened_rail])
theorem railCauseCleared_within : Within [.bus, .rails] s (s.railCauseCleared h k data) :=
  opened_frame (by decide) ((within_State_modProt _ k _).mono (by decide))
theorem railCauseCleared_refCnt : ((s.railCauseCleared h k data).host h).refCnt = (s.host h).refCnt :=
  (congrArg HostRegs.refCnt ((within_State_modProt _ k _).host_eq (by decide) h)).trans (opened_refCnt ..)
theorem railCauseCleared_other : OtherRails k s (s.railCauseCleared h k data) :=
  ((opened_within s h _).otherRails (by decide) k).trans (modRail_other _ k _)

/-- Under an arm the class bits follow the cause bits, and no other rail changes. -/
theorem railCauseCleared_classes :
    let fault := (s.rail k).prot.fault &&& ~~~(BitVec.ofNat 7 data.toNat)
    let t := clearRailClass h k (s.railCauseCleared h k data)
    OtherRails k s t ∧ Within [.bus, .rails, .nvm, .draw, .ev] s t
      ∧ t.rail k = { s.rail k with prot := { (s.rail k).prot with fault := fault, cls := (s.rail k).prot.cls &&& BitVec.ofNat 5 fault.toNat } }
      ∧ ClassTold ((t.rail k).prot.cls = (s.rail k).prot.cls) s t := by
  have hcauses := railCauseCleared_within s h k data
  have hrail := railCauseCleared_rail s h k data
  have hcls := (clearRailClass_rail h k _).trans (by rw [hrail])
  have htold := clearRailClass_told h k _ (hcauses.mono (by decide))
  refine ⟨(railCauseCleared_other s h k data).trans (clearRailClass_other h k _), ?_, hcls, ?_⟩
  · exact (hcauses.mono (by decide)).step (within_clearRailClass h k _) (by decide)
  · rw [hrail] at htold
    rw [hcls]
    exact htold

/-- Without one the refusal is counted, and only the cause bits change. -/
theorem railCauseCleared_refused :
    let t := refuse h (s.railCauseCleared h k data)
    OtherRails k s t ∧ Within [.bus, .rails] s t
      ∧ t.rail k = { s.rail k with prot := { (s.rail k).prot with fault := (s.rail k).prot.fault &&& ~~~(BitVec.ofNat 7 data.toNat) } }
      ∧ (t.host h).refCnt = satInc (s.host h).refCnt 65535 := by
  have hrefuse := within_refuse h (s.railCauseCleared h k data)
  refine ⟨(railCauseCleared_other s h k data).trans (hrefuse.otherRails (by decide) k), ?_, ?_, ?_⟩
  · exact (railCauseCleared_within s h k data).step hrefuse (by decide)
  · exact (hrefuse.rail_eq (by decide) k).trans (railCauseCleared_rail s h k data)
  · rw [refuse_refCnt, railCauseCleared_refCnt]

variable {s h k data} (hl : WordLands s h (.loop k .railFault) data) (hbit : bitOf data 31 = true)
include hl hbit

theorem writeAt_railFault_of_arm (harm : armOpen s = true) :
    writeAt h (.loop k .railFault) data s = clearRailClass h k (s.railCauseCleared h k data) :=
  (writeAt_of_lands hl).trans
    (classClear_of_arm hbit ((armOpen_of_within (railCauseCleared_within s h k data) (by decide)).trans harm))
theorem writeAt_railFault_of_no_arm (harm : armOpen s = false) :
    writeAt h (.loop k .railFault) data s = refuse h (s.railCauseCleared h k data) :=
  (writeAt_of_lands hl).trans
    (classClear_of_no_arm hbit ((armOpen_of_within (railCauseCleared_within s h k data) (by decide)).trans harm))

end

/-- The opened transaction of a word at FAULT, with the cause bits clear that the word names. -/
def State.tileCauseCleared (s : State) (h : HostId) (u : TileId) (data : Word) : State :=
  clearW1c (.tile u .fault) data (s.opened h (Reg.tile u .fault).addr)

section
variable (s : State) (h : HostId) (u : TileId) (data : Word)

theorem tileCauseCleared_tile : (s.tileCauseCleared h u data).tile u =
    { s.tile u with prot := { (s.tile u).prot with fault := (s.tile u).prot.fault &&& ~~~(BitVec.ofNat 8 data.toNat) } } :=
  (modTile_tile ..).trans (by rw [opened_tile])
theorem tileCauseCleared_within : Within [.bus, .tiles] s (s.tileCauseCleared h u data) :=
  opened_frame (by decide) ((within_State_modTile _ u _).mono (by decide))
theorem tileCauseCleared_refCnt : ((s.tileCauseCleared h u data).host h).refCnt = (s.host h).refCnt :=
  (congrArg HostRegs.refCnt ((within_State_modTile _ u _).host_eq (by decide) h)).trans (opened_refCnt ..)
theorem tileCauseCleared_other : OtherTiles u s (s.tileCauseCleared h u data) :=
  ((opened_within s h _).otherTiles (by decide) u).trans (modTile_other _ u _)

/-- Under an arm the class bits follow the cause bits, and no other tile changes. -/
theorem tileCauseCleared_classes :
    let fault := (s.tile u).prot.fault &&& ~~~(BitVec.ofNat 8 data.toNat)
    let t := clearTileClass h u (s.tileCauseCleared h u data)
    OtherTiles u s t ∧ Within [.bus, .tiles, .nvm, .draw, .ev] s t
      ∧ t.tile u = { s.tile u with prot := { (s.tile u).prot with fault := fault, cls := (s.tile u).prot.cls &&& tileKeep fault } }
      ∧ ClassTold ((t.tile u).prot.cls = (s.tile u).prot.cls) s t := by
  have hcauses := tileCauseCleared_within s h u data
  have htile := tileCauseCleared_tile s h u data
  have hcls := (clearTileClass_tile h u _).trans (by rw [htile])
  have htold := clearTileClass_told h u _ (hcauses.mono (by decide))
  refine ⟨(tileCauseCleared_other s h u data).trans (clearTileClass_other h u _), ?_, hcls, ?_⟩
  · exact (hcauses.mono (by decide)).step (within_clearTileClass h u _) (by decide)
  · rw [htile] at htold
    rw [hcls]
    exact htold

/-- Without one the refusal is counted, and only the cause bits change. -/
theorem tileCauseCleared_refused :
    let t := refuse h (s.tileCauseCleared h u data)
    OtherTiles u s t ∧ Within [.bus, .tiles] s t
      ∧ t.tile u = { s.tile u with prot := { (s.tile u).prot with fault := (s.tile u).prot.fault &&& ~~~(BitVec.ofNat 8 data.toNat) } }
      ∧ (t.host h).refCnt = satInc (s.host h).refCnt 65535 := by
  have hrefuse := within_refuse h (s.tileCauseCleared h u data)
  refine ⟨(tileCauseCleared_other s h u data).trans (hrefuse.otherTiles (by decide) u), ?_, ?_, ?_⟩
  · exact (tileCauseCleared_within s h u data).step hrefuse (by decide)
  · exact (hrefuse.tile_eq (by decide) u).trans (tileCauseCleared_tile s h u data)
  · rw [refuse_refCnt, tileCauseCleared_refCnt]

variable {s h u data} (hl : WordLands s h (.tile u .fault) data) (hbit : bitOf data 15 = true)
include hl hbit

theorem writeAt_tileFault_of_arm (harm : armOpen s = true) :
    writeAt h (.tile u .fault) data s = clearTileClass h u (s.tileCauseCleared h u data) :=
  (writeAt_of_lands hl).trans
    (classClear_of_arm hbit ((armOpen_of_within (tileCauseCleared_within s h u data) (by decide)).trans harm))
theorem writeAt_tileFault_of_no_arm (harm : armOpen s = false) :
    writeAt h (.tile u .fault) data s = refuse h (s.tileCauseCleared h u data) :=
  (writeAt_of_lands hl).trans
    (classClear_of_no_arm hbit ((armOpen_of_within (tileCauseCleared_within s h u data) (by decide)).trans harm))

end

end Sys2Proof.Machine
end

section
/-! SUPPORT. Conditional ADMIT and EXCLUDE: when each is allowed, and what each does to the tile (R291 to R294). -/

namespace Sys2Proof.Machine

/-! The word of ADMISSION (R291, R315) -/

theorem admission_fields (gen : BitVec 16) {action : Nat} (ha : action < 4) :
    BitVec.ofNat 16 (word (gen.toNat + action * 0x10000)).toNat = gen ∧ fld (word (gen.toNat + action * 0x10000)) 17 16 = action := by
  have hgen := gen.isLt
  have hword : (word (gen.toNat + action * 0x10000)).toNat = gen.toNat + action * 0x10000 := by
    rw [word, BitVec.toNat_ofNat]
    omega
  rw [fld, nfld, hword, Nat.shiftRight_eq_div_pow]
  refine ⟨BitVec.eq_of_toNat_eq ?_, by omega⟩
  rw [BitVec.toNat_ofNat]
  omega

section
variable {s : State} {h : HostId} {u : TileId} {gen : BitVec 16} {action : Nat}

theorem writeAt_admission (hl : WordLands s h (.tile u .admission) (word (gen.toNat + action * 0x10000))) (ha : action < 4) :
    writeAt h (.tile u .admission) (word (gen.toNat + action * 0x10000)) s
      = admitWrite h u gen action (s.opened h (Reg.tile u .admission).addr) := by
  obtain ⟨hgen, haction⟩ := admission_fields gen ha
  have hrun : writeAt h (.tile u .admission) (word (gen.toNat + action * 0x10000)) s
      = admitWrite h u (BitVec.ofNat 16 (word (gen.toNat + action * 0x10000)).toNat) (fld (word (gen.toNat + action * 0x10000)) 17 16)
          (s.opened h (Reg.tile u .admission).addr) := writeAt_of_lands hl
  rw [hrun, hgen, haction]

/-! What the write does (R291 to R293) -/

/-- With another generation the write is refused and counted at the tile as well, whichever action it asks for. -/
theorem admitWrite_of_stale (ha : action = 1 ∨ action = 2) (hgen : gen ≠ (s.tile u).gen) :
    admitWrite h u gen action s = refuse h (s.modTile u fun ti => { ti with cref := satInc ti.cref 255 }) :=
  (if_neg (by omega)).trans (if_pos hgen)

variable (hgen : gen = (s.tile u).gen)
include hgen

theorem admitWrite_admits (hok : admitAllowed s u = true) :
    admitWrite h u gen 1 s = recordEntry 0 (word (u.val + 256 + gen.toNat * 65536)) h (readmit u s) :=
  (if_neg (by omega)).trans ((if_neg (not_not.mpr hgen)).trans ((if_pos rfl).trans (if_pos hok)))

theorem admitWrite_admit_refused (hno : admitAllowed s u = false) : admitWrite h u gen 1 s = refuse h s :=
  (if_neg (by omega)).trans ((if_neg (not_not.mpr hgen)).trans ((if_pos rfl).trans (if_neg (by simp [hno]))))

theorem admitWrite_excludes (hok : excludeAllowed s u = true) :
    admitWrite h u gen 2 s = recordEntry 0 (word (u.val + 512 + gen.toNat * 65536)) h (excludeTile u s) :=
  (if_neg (by omega)).trans ((if_neg (not_not.mpr hgen)).trans ((if_neg (by omega)).trans (if_pos hok)))

theorem admitWrite_exclude_refused (hno : excludeAllowed s u = false) : admitWrite h u gen 2 s = refuse h s :=
  (if_neg (by omega)).trans ((if_neg (not_not.mpr hgen)).trans ((if_neg (by omega)).trans (if_neg (by simp [hno]))))

end

/-! When it is allowed (R292) -/

@[simp] theorem admitAllowed_opened (s : State) (h : HostId) (a : Nat) (u : TileId) : admitAllowed (s.opened h a) u = admitAllowed s u := by
  cases h <;> rfl
@[simp] theorem excludeAllowed_opened (s : State) (h : HostId) (a : Nat) (u : TileId) : excludeAllowed (s.opened h a) u = excludeAllowed s u := by
  cases h <;> rfl

/-- ADMIT is for a tile that is out of its rail's set. -/
theorem out_of_admitAllowed {s : State} {u : TileId} (hok : admitAllowed s u = true) : (s.tile u).act = .dropped ∨ (s.tile u).act = .excluded := by
  unfold admitAllowed at hok
  cases hact : (s.tile u).act with
  | dropped => exact .inl rfl
  | excluded => exact .inr rfl
  | active | ready | cold => simp [hact] at hok

/-- EXCLUDE is for an assigned tile. -/
theorem assigned_of_excludeAllowed {s : State} {u : TileId} (hok : excludeAllowed s u = true) : ∃ k, (s.tile u).rail = some k := by
  cases hrail : (s.tile u).rail with
  | none => simp [excludeAllowed, hrail] at hok
  | some k => exact ⟨k, rfl⟩

/-! The tile (R290, R293, R294) -/

theorem leave_act (ti : Tile) (now : Nat) (a : TileAct) (reason : Nat) : (ti.leave now a reason).act = a := by
  obtain ⟨l, heq⟩ := leave_eq ti now a reason
  rw [heq]; rfl
theorem leave_reason (ti : Tile) (now : Nat) (a : TileAct) (reason : Nat) : (ti.leave now a reason).reason = reason := by
  obtain ⟨l, heq⟩ := leave_eq ti now a reason
  rw [heq]; rfl
/-- The generation counts a change of ACT. -/
theorem leave_gen {ti : Tile} {a : TileAct} (ha : a ≠ ti.act) (now reason : Nat) : (ti.leave now a reason).gen = ti.gen + 1 := by
  obtain ⟨l, heq⟩ := leave_eq ti now a reason
  rw [heq]
  exact if_neg ha

/-- A tile that ADMIT brings back to its rail's set, with estimates that start at `lEst` and `rEst` (R288, R294). -/
def Tile.readmitted (ti : Tile) (now : Nat) (lEst rEst : Rat) : Tile :=
  let ti := ti.leave now .cold 7
  { ti with
    reqOut := false, reqPend := false
    prot := { ti.prot with ocHi := 0, ocLo := 0, ocPresent := false, openCnt := 0, rangeCnt := 0, flatCnt := 0 }
    trip := { ti.trip with run := 0, fired := false }
    hea := { lEst := lEst, rEst := rEst } }

/-- A tile that EXCLUDE takes out of its rail's set at once (R293). -/
def Tile.excludedByHost (ti : Tile) (now : Nat) : Tile := { ti.leave now .excluded 6 with reqOut := true, reqPend := false }

section
variable (ti : Tile) (now : Nat) (lEst rEst : Rat)

theorem readmitted_act : (ti.readmitted now lEst rEst).act = .cold := leave_act ti now .cold 7
theorem readmitted_reason : (ti.readmitted now lEst rEst).reason = 7 := leave_reason ti now .cold 7
theorem readmitted_gen (hout : ti.act = .dropped ∨ ti.act = .excluded) : (ti.readmitted now lEst rEst).gen = ti.gen + 1 :=
  leave_gen (a := .cold) (by rcases hout with hout | hout <;> simp [hout]) now 7

theorem excludedByHost_act : (ti.excludedByHost now).act = .excluded := leave_act ti now .excluded 6
theorem excludedByHost_reason : (ti.excludedByHost now).reason = 6 := leave_reason ti now .excluded 6
theorem excludedByHost_gen (hin : ti.act = .cold ∨ ti.act = .ready ∨ ti.act = .dropped) : (ti.excludedByHost now).gen = ti.gen + 1 :=
  leave_gen (a := .excluded) (by rcases hin with hin | hin | hin <;> simp [hin]) now 6

end

section
variable {s : State} {u : TileId}

theorem readmit_tile (s : State) (u : TileId) : ∃ lEst rEst, (readmit u s).tile u = (s.tile u).readmitted s.now lEst rEst := by
  unfold readmit restartHealth
  exact ⟨_, _, by rw [modTile_tile, modTile_tile]; rfl⟩
theorem readmit_other (s : State) (u : TileId) : OtherTiles u s (readmit u s) := OtherTiles.trans (modTile_other s u _) (modTile_other _ u _)

/-- An ACTIVE tile keeps running, with the request pending. -/
theorem excludeTile_of_active (hact : (s.tile u).act = .active) :
    excludeTile u s = s.modTile u fun ti => { ti with reqOut := true, reqPend := true } := by
  unfold excludeTile
  rw [hact]

/-- A DROPPED tile holds no place in its rail's set. -/
theorem excludeTile_of_dropped (hact : (s.tile u).act = .dropped) : excludeTile u s = s.modTile u fun ti => ti.excludedByHost s.now := by
  unfold excludeTile
  rw [hact]
  rfl

/-- With a COLD or READY tile that is under no Leap, an add of it ends, and with it the rail's change where nothing else is left. -/
theorem excludeTile_of_member {k : RailId} (hact : (s.tile u).act = .cold ∨ (s.tile u).act = .ready) (hrail : (s.tile u).rail = some k)
    (hunder : (s.tile u).leap.under = false) :
    excludeTile u s = settleChange k ((s.modTile u fun ti => ti.excludedByHost s.now).modIlv k fun i =>
      { i with adding := if i.adding = some u then none else i.adding }) := by
  unfold excludeTile
  rcases hact with hact | hact <;>
    rw [hact, hrail, leapRemove_of_not_under hunder] <;> rfl

/-- An exclusion at once stops the tile, and touches none other. -/
theorem excludeTile_out {k : RailId} (hact : (s.tile u).act = .cold ∨ (s.tile u).act = .ready ∨ (s.tile u).act = .dropped)
    (hrail : (s.tile u).rail = some k) (hunder : (s.tile u).leap.under = false) :
    (excludeTile u s).tile u = (s.tile u).excludedByHost s.now ∧ OtherTiles u s (excludeTile u s) ∧ Within [.tiles, .rails] s (excludeTile u s) := by
  have hleft := within_State_modTile s u fun ti => ti.excludedByHost s.now
  rw [← or_assoc] at hact
  rcases hact with hmember | hdropped
  · have hrest : Within [.rails] (s.modTile u fun ti => ti.excludedByHost s.now) (excludeTile u s) := by
      rw [excludeTile_of_member hmember hrail hunder]
      exact (within_State_modIlv _ k _).trans (within_settleChange k _)
    exact ⟨(hrest.tile_eq (by decide) u).trans (modTile_tile ..), OtherTiles.trans (modTile_other s u _) (hrest.otherTiles (by decide) u),
      (hleft.mono (by decide)).step hrest (by decide)⟩
  · rw [excludeTile_of_dropped hdropped]
    exact ⟨modTile_tile .., modTile_other s u _, hleft.mono (by decide)⟩

end

/-! The words' effects, in the opened transaction `o` of state `s` -/

section
variable {s o : State} {h : HostId} {u : TileId}

/-- A write with another generation changes the tile's CREF and the refused count alone. -/
theorem stale_refused (ho : Within [.bus] s o) (hcnt : (o.host h).refCnt = (s.host h).refCnt) :
    let t := refuse h (o.modTile u fun ti => { ti with cref := satInc ti.cref 255 })
    t.tile u = { s.tile u with cref := satInc (s.tile u).cref 255 } ∧ OtherTiles u s t
      ∧ (t.host h).refCnt = satInc (s.host h).refCnt 65535 ∧ Within [.bus, .tiles] s t := by
  have hcref := within_State_modTile o u fun ti => { ti with cref := satInc ti.cref 255 }
  have hrefuse := within_refuse h (o.modTile u fun ti => { ti with cref := satInc ti.cref 255 })
  refine ⟨?_, ?_, ?_, ((ho.mono (by decide)).step hcref (by decide)).step hrefuse (by decide)⟩
  · rw [hrefuse.tile_eq (by decide), modTile_tile, ho.tile_eq (by decide)]
  · exact ((ho.otherTiles (by decide) u).trans (modTile_other o u _)).trans (hrefuse.otherTiles (by decide) u)
  · rw [refuse_refCnt, hcref.host_eq (by decide), hcnt]

variable (detail : Word) (ho : Within [.bus] s o)
include ho

/-- A record entry after a change of tile u leaves the tile and what the change leaves, and enters the queue where it has room. -/
theorem recorded_change {ps : List Part} {x : State} (hother : OtherTiles u o x) (hx : Within ps o x) (hev : Part.ev ∉ ps) :
    (recordEntry 0 detail h x).tile u = x.tile u ∧ OtherTiles u s (recordEntry 0 detail h x)
      ∧ Within (.bus :: .ev :: ps) s (recordEntry 0 detail h x)
      ∧ (s.ev.queue.length < 512 → (recordEntry 0 detail h x).ev.queue.length = s.ev.queue.length + 1) := by
  have hrec := within_recordEntry 0 detail h x
  have hxev : x.ev = s.ev := (hx .ev hev).trans (ho .ev (by decide))
  refine ⟨hrec.tile_eq (by decide) u, ?_, ?_, fun hroom => ?_⟩
  · exact ((ho.otherTiles (by decide) u).trans hother).trans (hrec.otherTiles (by decide) u)
  · exact (ho.mono (by simp)).trans ((hx.mono (by simp +contextual)).trans (hrec.mono (by simp)))
  · rw [recordEntry_length (by rwa [hxev]), hxev]

theorem readmit_recorded (hact : (s.tile u).act = .dropped ∨ (s.tile u).act = .excluded) :
    let t := recordEntry 0 detail h (readmit u o)
    (t.tile u).act = .cold ∧ (t.tile u).reason = 7 ∧ (t.tile u).gen = (s.tile u).gen + 1 ∧ (t.tile u).reqOut = false
      ∧ (t.tile u).prot.ocHi = 0 ∧ (t.tile u).prot.openCnt = 0 ∧ (t.tile u).hea.lUpd = 0 ∧ OtherTiles u s t ∧ Within [.bus, .tiles, .ev] s t
      ∧ (s.ev.queue.length < 512 → t.ev.queue.length = s.ev.queue.length + 1) := by
  obtain ⟨hu, hother, hwithin, hroom⟩ := recorded_change (h := h) detail ho (readmit_other o u) (within_readmit u o) (by decide)
  obtain ⟨lEst, rEst, hback⟩ := readmit_tile o u
  rw [hback, ho.tile_eq (by decide)] at hu
  dsimp only
  rw [hu]
  exact ⟨readmitted_act .., readmitted_reason .., readmitted_gen _ _ _ _ hact, rfl, rfl, rfl, rfl, hother, hwithin.mono (by decide), hroom⟩

theorem excludeTile_active_recorded (hact : (s.tile u).act = .active) :
    let t := recordEntry 0 detail h (excludeTile u o)
    t.tile u = { s.tile u with reqOut := true, reqPend := true } ∧ OtherTiles u s t ∧ Within [.bus, .tiles, .ev] s t
      ∧ (s.ev.queue.length < 512 → t.ev.queue.length = s.ev.queue.length + 1) := by
  have htile : o.tile u = s.tile u := ho.tile_eq (by decide) u
  rw [excludeTile_of_active (by rwa [htile])]
  obtain ⟨hu, hother, hwithin, hroom⟩ := recorded_change (h := h) detail ho (modTile_other o u _) (within_State_modTile o u _) (by decide)
  exact ⟨by rw [hu, modTile_tile, htile], hother, hwithin.mono (by decide), hroom⟩

theorem excludeTile_out_recorded {k : RailId} (hact : (s.tile u).act = .cold ∨ (s.tile u).act = .ready ∨ (s.tile u).act = .dropped)
    (hrail : (s.tile u).rail = some k) (hunder : (s.tile u).leap.under = false) :
    let t := recordEntry 0 detail h (excludeTile u o)
    (t.tile u).act = .excluded ∧ (t.tile u).reason = 6 ∧ (t.tile u).reqOut = true ∧ (t.tile u).gen = (s.tile u).gen + 1 ∧ OtherTiles u s t
      ∧ Within [.bus, .tiles, .rails, .ev] s t ∧ (s.ev.queue.length < 512 → t.ev.queue.length = s.ev.queue.length + 1) := by
  have htile : o.tile u = s.tile u := ho.tile_eq (by decide) u
  obtain ⟨hout, houtOther, houtWithin⟩ := excludeTile_out (s := o) (by rwa [htile]) (by rwa [htile]) (by rwa [htile])
  obtain ⟨hu, hother, hwithin, hroom⟩ := recorded_change (h := h) detail ho houtOther houtWithin (by decide)
  rw [hout, htile] at hu
  dsimp only
  rw [hu]
  exact ⟨excludedByHost_act .., excludedByHost_reason .., rfl, excludedByHost_gen _ _ hact, hother, hwithin.mono (by decide), hroom⟩

end

end Sys2Proof.Machine
end

section
/-! PROOFS. The statements of 09_protection_tail_drop.md. -/

open Sys2Proof Sys2Proof.Machine

/-- Settles O28: each word by its generation and by whether the tile's state allows its action. -/
theorem admitAndExcludeAreConditional : Obligations.AdmitAndExcludeAreConditional := by
  intro h u gen s
  have ho := opened_within s h (Reg.tile u .admission).addr
  have htile := opened_tile s h (Reg.tile u .admission).addr u
  have hcnt := opened_refCnt s h (Reg.tile u .admission).addr
  have hadmits := admitAllowed_opened s h (Reg.tile u .admission).addr u
  have hexcludes := excludeAllowed_opened s h (Reg.tile u .admission).addr u
  refine ⟨fun hl => ?_, fun hl hgen => ?_⟩
  · have hrun := writeAt_admission (action := 1) hl (by decide)
    generalize s.opened h (Reg.tile u .admission).addr = o at *
    refine ⟨fun hstale => ?_, fun hgen hok => ?_, fun hgen hno => ?_⟩
    · have hwrite := admitWrite_of_stale (h := h) (.inl rfl) (htile ▸ hstale)
      exact ⟨_, congrArg Host.Outcome.next (hrun.trans hwrite), stale_refused ho hcnt⟩
    · have hwrite := admitWrite_admits (h := h) (htile ▸ hgen) (hadmits.trans hok)
      subst hgen
      exact ⟨_, congrArg Host.Outcome.next (hrun.trans hwrite), readmit_recorded _ ho (out_of_admitAllowed hok)⟩
    · exact congrArg Host.Outcome.next (hrun.trans (admitWrite_admit_refused (htile ▸ hgen) (hadmits.trans hno)))
  · have hrun := writeAt_admission (action := 2) hl (by decide)
    generalize s.opened h (Reg.tile u .admission).addr = o at *
    have hgen' : gen = (o.tile u).gen := htile ▸ hgen
    refine ⟨fun hok hact => ?_, fun hok hact hunder => ?_, fun hno => ?_⟩
    · have hwrite := admitWrite_excludes (h := h) hgen' (hexcludes.trans hok)
      exact ⟨_, congrArg Host.Outcome.next (hrun.trans hwrite), excludeTile_active_recorded _ ho hact⟩
    · have hwrite := admitWrite_excludes (h := h) hgen' (hexcludes.trans hok)
      obtain ⟨k, hrail⟩ := assigned_of_excludeAllowed hok
      subst hgen
      exact ⟨_, congrArg Host.Outcome.next (hrun.trans hwrite), excludeTile_out_recorded _ ho hact hrail hunder⟩
    · exact congrArg Host.Outcome.next (hrun.trans (admitWrite_exclude_refused hgen' (hexcludes.trans hno)))

/-- Settles O29: the cause bits clear first; then the class bits do under an arm, and without one the write is refused. -/
theorem classBitsClearOnlyUnderAnArm : Obligations.ClassBitsClearOnlyUnderAnArm := by
  intro h s
  refine ⟨fun k w hl => ?_, fun u w hl => ?_⟩
  · have hbit : bitOf (w ||| 0x80000000#32) 31 = true := bitOf_or_of_right (by decide) w
    exact ⟨fun harm => ⟨_, congrArg Host.Outcome.next (writeAt_railFault_of_arm hl hbit harm), railCauseCleared_classes s h k _⟩,
      fun harm => ⟨_, congrArg Host.Outcome.next (writeAt_railFault_of_no_arm hl hbit harm), railCauseCleared_refused s h k _⟩⟩
  · have hbit : bitOf (w ||| 0x8000#32) 15 = true := bitOf_or_of_right (by decide) w
    exact ⟨fun harm => ⟨_, congrArg Host.Outcome.next (writeAt_tileFault_of_arm hl hbit harm), tileCauseCleared_classes s h u _⟩,
      fun harm => ⟨_, congrArg Host.Outcome.next (writeAt_tileFault_of_no_arm hl hbit harm), tileCauseCleared_refused s h u _⟩⟩

end

section
/-! SUPPORT. One channel's judgement leaves the others: what marking a channel broken and reacting to its reading change in the channels
(R322, R325, R327, R330). -/

namespace Sys2Proof.Machine

theorem modChan_other (s : State) {c d : ChanId} (f : HkChannel → HkChannel) (hd : d ≠ c) : (s.modChan c f).chan d = s.chan d :=
  modVec_get_other _ _ hd

/-- A die shutdown changes no reading and no mark. -/
theorem dieShut_ch (fresh : Bool) (s : State) : (dieShut fresh s).hk.ch = s.hk.ch := by
  have hreq : ∀ x : State, (allRails.foldl (fun s k => setReq k 0 s) x).hk = x.hk := fun x =>
    within_foldl (ps := [.settings]) (fun x k => within_setReq k 0 x) allRails x .hk (by decide)
  have hstop : ∀ (fast : Bool) (x : State), (allRails.foldl (tsdRail fast) x).hk = x.hk := fun fast x =>
    within_foldl (fun x k => within_tsdRail fast x k) allRails x .hk (by decide)
  unfold dieShut
  split
  · rw [within_dieRate _ .hk (by decide)]
    split <;> rfl
  · dsimp only
    rw [hstop, hreq]

theorem ite_ch {b : Prop} [Decidable b] {x y : State} (h : x.hk.ch = y.hk.ch) : (if b then x else y).hk.ch = y.hk.ch := by
  split
  · exact h
  · rfl

/-- What follows the limits of a reading (the die shutdown, its event and its port's tiles) changes no channel. -/
theorem reactCh_chan (c : ChanId) (broke : Bool) (s : State) : ∃ warn shut g, ∀ d, (reactCh c broke s).chan d
    = ((s.modChan c fun h => { h with warn := warn, shut := shut }).modChan c fun h => { h with g := g }).chan d := by
  have hdie : ∀ (fresh shut : Bool) (x : State), (if shut = true then dieShut fresh x else dieRate x).hk.ch = x.hk.ch := fun fresh shut x => by
    split
    · exact dieShut_ch fresh x
    · exact congrArg Housekeeping.ch (within_dieRate x .hk (by decide))
  unfold reactCh
  dsimp only
  exact ⟨_, _, _, fun d => congrArg (Vector.get · d) ((ite_ch (congrArg Housekeeping.ch (within_portOut c _ .hk (by decide)))).trans
    ((ite_ch (congrArg Housekeeping.ch (within_occur _ _ _ .hk (by decide)))).trans (ite_ch (hdie _ _ _))))⟩

theorem reactCh_marks (c : ChanId) (broke : Bool) (s : State) :
    ((reactCh c broke s).chan c).broken = (s.chan c).broken ∧ ((reactCh c broke s).chan c).bcause = (s.chan c).bcause := by
  obtain ⟨_, _, _, hchan⟩ := reactCh_chan c broke s
  rw [hchan, modChan_chan, modChan_chan]
  exact ⟨rfl, rfl⟩

theorem reactCh_other {c d : ChanId} (hd : d ≠ c) (broke : Bool) (s : State) : (reactCh c broke s).chan d = s.chan d := by
  obtain ⟨_, _, _, hchan⟩ := reactCh_chan c broke s
  rw [hchan, modChan_other _ _ hd, modChan_other _ _ hd]

theorem markBroken_chan (c : ChanId) (cause : Nat) (s : State) (d : ChanId) : (markBroken c cause s).chan d
    = (if (s.chan c).broken = true then s else s.modChan c fun h => { h with broken := true, bcause := cause }).chan d :=
  (within_occur _ _ _).chan_eq (by decide) d

theorem markBroken_marks {s : State} {c : ChanId} (hwhole : (s.chan c).broken = false) (cause : Nat) :
    ((markBroken c cause s).chan c).broken = true ∧ ((markBroken c cause s).chan c).bcause = cause := by
  rw [markBroken_chan, if_neg (by simp [hwhole]), modChan_chan]
  exact ⟨rfl, rfl⟩

theorem markBroken_other {c d : ChanId} (hd : d ≠ c) (cause : Nat) (s : State) : (markBroken c cause s).chan d = s.chan d := by
  rw [markBroken_chan]
  split
  · rfl
  · exact modChan_other s _ hd

end Sys2Proof.Machine
end

section
/-! SUPPORT. The self-test: a channel that agrees with its neighbours, one that does not, and the sweep over all of them (R332, R333, R364). -/

namespace Sys2Proof.Machine

/-! One cross-check (R332) -/

/-- Channel c is not judged, or is whole and agrees with the median of two or more neighbours. -/
def Agrees (s : State) (c : ChanId) : Prop :=
  ∀ v, roundOf s c = some v → isTemp s c = true → offMedian s c v = false ∧ 2 ≤ (neighbours s c).length ∧ (s.chan c).broken = false

theorem crossCheck_of_agrees {s : State} {c : ChanId} (h : Agrees s c) : crossCheck s c = s := by
  unfold crossCheck
  cases hround : roundOf s c with
  | none => rfl
  | some v =>
    cases htemp : isTemp s c with
    | false => rfl
    | true =>
      obtain ⟨hin, hnear, hwhole⟩ := h v hround htemp
      simp [hin, hwhole, Nat.not_lt.mpr hnear]

theorem xchkFails_of_agrees {s : State} {c : ChanId} (h : Agrees s c) : xchkFails s c = false := by
  unfold xchkFails
  cases hround : roundOf s c with
  | none => rfl
  | some v =>
    cases htemp : isTemp s c with
    | false => rfl
    | true => exact (h v hround htemp).1

/-- A whole channel off the median of its neighbours. -/
def Disagrees (s : State) (c : ChanId) : Prop :=
  ∃ v, roundOf s c = some v ∧ isTemp s c = true ∧ offMedian s c v = true ∧ (s.chan c).broken = false

theorem xchkFails_of_disagrees {s : State} {c : ChanId} (h : Disagrees s c) : xchkFails s c = true := by
  obtain ⟨v, hround, htemp, hoff, -⟩ := h
  simp [xchkFails, hround, htemp, hoff]

/-- Channel c is marked broken by a cross-check. -/
def MarkedOff (s : State) (c : ChanId) : Prop := (s.chan c).broken = true ∧ (s.chan c).bcause = 3

theorem crossCheck_marks {s : State} {c : ChanId} (h : Disagrees s c) : MarkedOff (crossCheck s c) c := by
  obtain ⟨v, hround, htemp, hoff, hwhole⟩ := h
  have hnear : ¬(neighbours s c).length < 2 := by
    simp only [offMedian, Bool.and_eq_true, decide_eq_true_eq] at hoff
    exact not_lt.mpr hoff.1
  have hrun : crossCheck s c = reactCh c true (markBroken c 3 s) := by
    simp [crossCheck, hround, htemp, hoff, hwhole, hnear]
  obtain ⟨hbroken, hcause⟩ := markBroken_marks hwhole 3
  obtain ⟨hkeepBroken, hkeepCause⟩ := reactCh_marks c true (markBroken c 3 s)
  exact hrun ▸ ⟨hkeepBroken.trans hbroken, hkeepCause.trans hcause⟩

/-- XCHK_SKIP is set for a channel with fewer than two neighbours (R332). -/
def State.skipTold (s : State) (c : ChanId) : State :=
  if (neighbours s c).length < 2 then { s with hk := { s.hk with xchkSkip := true } } else s

/-- A cross-check judges nothing, marks its channel, clears its mark, or leaves the mark as it is. -/
theorem crossCheck_cases (s : State) (c : ChanId) : crossCheck s c = s
    ∨ (∃ broke, crossCheck s c = reactCh c broke (markBroken c 3 (s.skipTold c)))
    ∨ crossCheck s c = reactCh c false ((s.skipTold c).modChan c fun h => { h with broken := false })
    ∨ crossCheck s c = s.skipTold c := by
  unfold crossCheck
  split
  · exact .inl rfl
  split
  · exact .inl rfl
  dsimp only
  rw [← State.skipTold]
  split
  · exact .inr (.inl ⟨_, rfl⟩)
  split
  · exact .inr (.inr (.inl rfl))
  · exact .inr (.inr (.inr rfl))

/-- A cross-check changes the channel that it judges alone. -/
theorem crossCheck_other {c d : ChanId} (hd : d ≠ c) (s : State) : (crossCheck s c).chan d = s.chan d := by
  have hskip : (s.skipTold c).chan d = s.chan d := by unfold State.skipTold; split <;> rfl
  rcases crossCheck_cases s c with h | ⟨_, h⟩ | h | h <;> rw [h]
  · rw [reactCh_other hd, markBroken_other hd, hskip]
  · rw [reactCh_other hd, modChan_other _ _ hd, hskip]
  · exact hskip

theorem chCfgW_congr {s t : State} (hset : t.settings = s.settings) : chCfgW t = chCfgW s := by
  funext c
  unfold chCfgW setWord
  rw [hset]

theorem roundOf_congr {s t : State} (hset : t.settings = s.settings) (hhk : t.hk = s.hk) : roundOf t = roundOf s := by
  funext c
  unfold roundOf chEn State.chan
  rw [chCfgW_congr hset, hhk]

theorem isTemp_congr {s t : State} (hset : t.settings = s.settings) : isTemp t = isTemp s := by
  funext c
  unfold isTemp
  rw [chCfgW_congr hset]

theorem neighbours_congr {s t : State} (hset : t.settings = s.settings) (hhk : t.hk = s.hk) : neighbours t = neighbours s := by
  funext c
  unfold neighbours State.chan
  rw [roundOf_congr hset hhk, hhk]

theorem offMedian_congr {s t : State} (hset : t.settings = s.settings) (hhk : t.hk = s.hk) : offMedian t = offMedian s := by
  funext c v
  unfold offMedian xchkBand setWord
  rw [neighbours_congr hset hhk, hset]

section
variable {s t : State} {c : ChanId} (hset : t.settings = s.settings) (hhk : t.hk = s.hk)
include hset hhk

theorem Agrees.congr (h : Agrees s c) : Agrees t c := by
  unfold Agrees State.chan at *
  rwa [roundOf_congr hset hhk, isTemp_congr hset, offMedian_congr hset hhk, neighbours_congr hset hhk, hhk]

theorem Disagrees.congr (h : Disagrees s c) : Disagrees t c := by
  unfold Disagrees State.chan at *
  rwa [roundOf_congr hset hhk, isTemp_congr hset, offMedian_congr hset hhk, hhk]

end

/-! The cross-check of every channel -/

/-- The sweep's step at channel c: its cross-check, and whether one has failed so far. -/
def sweepStep (p : State × Bool) (c : ChanId) : State × Bool := (crossCheck p.1 c, p.2 || xchkFails p.1 c)

theorem sweepChecks_eq (s : State) : sweepChecks s = allChans.foldl sweepStep (s, false) := rfl

theorem sweepStep_of_agrees {s : State} {c : ChanId} (h : Agrees s c) : sweepStep (s, false) c = (s, false) := by
  rw [sweepStep, crossCheck_of_agrees h, xchkFails_of_agrees h]; rfl

theorem sweepSteps_of_agree {s : State} {l : List ChanId} (h : ∀ c ∈ l, Agrees s c) : l.foldl sweepStep (s, false) = (s, false) :=
  List.foldlRecOn l sweepStep (motive := (· = (s, false))) rfl fun _ hp c hc => hp ▸ sweepStep_of_agrees (h c hc)

theorem sweepChecks_of_agree {s : State} (h : ∀ c, Agrees s c) : sweepChecks s = (s, false) := sweepSteps_of_agree fun c _ => h c

/-- The channels in ascending order, around channel c. -/
theorem allChans_around (c : ChanId) : ∃ before after, allChans = before ++ c :: after ∧ (∀ d ∈ before, d < c) ∧ ∀ d ∈ after, d ≠ c := by
  obtain ⟨before, after, hsplit⟩ := List.append_of_mem (List.mem_finRange c)
  have hsorted := hsplit ▸ List.pairwise_lt_finRange 64
  obtain ⟨-, hafter, hbefore⟩ := List.pairwise_append.mp hsorted
  exact ⟨before, after, hsplit, fun d hd => hbefore d hd c List.mem_cons_self, fun d hd => ((List.pairwise_cons.mp hafter).1 d hd).ne'⟩

/-- The sweep has marked channel c and has failed by it. -/
def SweepFound (c : ChanId) (p : State × Bool) : Prop := MarkedOff p.1 c ∧ p.2 = true

theorem sweepStep_finds {s : State} {c : ChanId} (h : Disagrees s c) (b : Bool) : SweepFound c (sweepStep (s, b) c) :=
  ⟨crossCheck_marks h, by rw [sweepStep, xchkFails_of_disagrees h, Bool.or_true]⟩

theorem sweepStep_keeps {c d : ChanId} (hd : d ≠ c) {p : State × Bool} (h : SweepFound c p) : SweepFound c (sweepStep p d) := by
  obtain ⟨hmarked, hbad⟩ := h
  refine ⟨?_, by rw [sweepStep, hbad, Bool.true_or]⟩
  unfold MarkedOff sweepStep
  rw [crossCheck_other hd.symm]
  exact hmarked

/-- The first channel that disagrees is marked, stays so, and fails the sweep. -/
theorem sweepChecks_of_disagrees {s : State} {c : ChanId} (hbefore : ∀ d, d < c → Agrees s d) (hc : Disagrees s c) :
    SweepFound c (sweepChecks s) := by
  obtain ⟨before, after, hsplit, hlt, hne⟩ := allChans_around c
  rw [sweepChecks_eq, hsplit, List.foldl_append, List.foldl_cons, sweepSteps_of_agree fun d hd => hbefore d (hlt d hd)]
  exact List.foldlRecOn after sweepStep (sweepStep_finds hc false) fun _ hp d hd => sweepStep_keeps (hne d hd) hp

/-! BIST_CMD.START (R364) -/

theorem leaveWaits_askLeave (u : DrawUser) (s : State) : leaveWaits (askLeave u s) u = true := by
  unfold askLeave
  split
  · assumption
  · simp [leaveWaits]

theorem writeAt_bistStart {s : State} {h : HostId} (hl : WordLands s h .bistCmd 1) :
    writeAt h .bistCmd 1 s = bistAsk h (s.opened h Reg.bistCmd.addr) := by
  have hrun : writeAt h .bistCmd 1 s
      = if bitOf 1 0 = true then bistAsk h (s.opened h Reg.bistCmd.addr) else s.opened h Reg.bistCmd.addr := writeAt_of_lands hl
  exact hrun.trans (if_pos (by decide))

theorem bistAsk_of_idle {s : State} (h : HostId) (hb : s.test.busy = false) :
    bistAsk h s = askLeave .bist { s with test := { s.test with busy := true } } := if_neg (by simp [hb])

theorem bistAsk_of_busy {s : State} (h : HostId) (hb : s.test.busy = true) : bistAsk h s = refuse h s := if_pos hb

theorem bistAsk_asks {s o : State} (h : HostId) (ho : Within [.bus] s o) (hb : s.test.busy = false) :
    (bistAsk h o).test = { s.test with busy := true } ∧ leaveWaits (bistAsk h o) .bist = true ∧ Within [.bus, .test, .draw] s (bistAsk h o) := by
  have htest : o.test = s.test := ho .test (by decide)
  have hask := within_askLeave .bist { o with test := { o.test with busy := true } }
  rw [bistAsk_of_idle h (htest ▸ hb)]
  refine ⟨(hask .test (by decide)).trans ?_, leaveWaits_askLeave .bist _, ?_⟩
  · exact congrArg (fun x : Test => { x with busy := true }) htest
  · exact ((ho.mono (by decide)).step (within_set_test o _) (by decide)).step hask (by decide)

/-! BIST_SWEEP (R333, R364) -/

/-- The sweep has begun and has read the reference channels. -/
def State.sweepBegun (s : State) (refs : Vector (BitVec 12) 14) : State :=
  { s with test := { s.test with running := true, failCh := (refFail refs).getD 0, sweepBad := (refFail refs).isSome } }

/-- A reference channel outside its limits has been told (event 229). -/
def State.refsTold (s : State) (refs : Vector (BitVec 12) 14) : State :=
  if (refFail refs).isSome = true then occur 229 0 (s.sweepBegun refs) else s.sweepBegun refs

/-- The sweep's result so far, and the scrub pass that it still has to read (log 87). -/
def Test.passDue (t : Test) (off : Bool) : Test :=
  { t with sweepBad := t.sweepBad || off, passMap := mapWords, passRing := ringWords, passRec := recWords, passImg := Config.shadowWords }

/-- The sweep has made its checks, and a die shutdown ends where the dies allow it (R329). -/
def State.swept (p : State × Bool) : State := { tsdClear p.1 with test := (tsdClear p.1).test.passDue p.2 }

theorem refsTold_within (s : State) (refs : Vector (BitVec 12) 14) : Within [.test, .tiles, .rails, .ev, .link, .rcd] s (s.refsTold refs) := by
  have hbegun : Within [.test, .tiles, .rails, .ev, .link, .rcd] s (s.sweepBegun refs) := (within_set_test s _).mono (by decide)
  exact within_ite (hbegun.step (within_occur 229 0 _) (by decide)) hbegun

theorem refsTold_quiet {s : State} (hq : Quiet s 229) (refs : Vector (BitVec 12) 14) : Within [.test, .ev] s (s.refsTold refs) := by
  have hbegun : Within [.test, .ev] s (s.sweepBegun refs) := (within_set_test s _).mono (by decide)
  exact within_ite (hbegun.step (occur_quiet 0 ((quiet_congr (s := s) rfl 229).mpr hq)) (by decide)) hbegun

theorem refsTold_test (s : State) (refs : Vector (BitVec 12) 14) : (s.refsTold refs).test = (s.sweepBegun refs).test := by
  unfold State.refsTold
  split
  · exact within_occur 229 0 _ .test (by decide)
  · rfl

theorem refsTold_agrees {s : State} {c : ChanId} (h : Agrees s c) (refs : Vector (BitVec 12) 14) : Agrees (s.refsTold refs) c :=
  h.congr (refsTold_within s refs .settings (by decide)) (refsTold_within s refs .hk (by decide))

theorem refsTold_disagrees {s : State} {c : ChanId} (h : Disagrees s c) (refs : Vector (BitVec 12) 14) : Disagrees (s.refsTold refs) c :=
  h.congr (refsTold_within s refs .settings (by decide)) (refsTold_within s refs .hk (by decide))

theorem bistSweep_of_leave {s : State} (refs : Vector (BitVec 12) 14) (hbusy : s.test.busy = true) (hidle : s.test.running = false)
    (hleave : leaveHeld s .bist = true) : bistSweep refs s = State.swept (sweepChecks (s.refsTold refs)) := by
  have hgo : (s.test.busy && !s.test.running && leaveHeld s .bist) = true := by rw [hbusy, hidle, hleave]; rfl
  unfold bistSweep
  rw [if_pos hgo]
  unfold State.refsTold State.sweepBegun
  dsimp only
  generalize sweepChecks _ = p
  rfl

theorem swept_test (s : State) (refs : Vector (BitVec 12) 14) :
    (State.swept (sweepChecks (s.refsTold refs))).test = (s.sweepBegun refs).test.passDue (sweepChecks (s.refsTold refs)).2 := by
  have htest : (tsdClear (sweepChecks (s.refsTold refs)).1).test = (s.sweepBegun refs).test :=
    ((within_tsdClear _ .test (by decide)).trans (within_sweepChecks _ .test (by decide))).trans (refsTold_test s refs)
  exact congrArg (Test.passDue · _) htest

theorem bistSweep_of_no_leave {s : State} (refs : Vector (BitVec 12) 14) (h : leaveHeld s .bist = false ∨ s.test.running = true) :
    bistSweep refs s = s := if_neg (by rcases h with h | h <;> simp [h])

/-- The end of a die shutdown is all that TSD's judgement can change (R329). -/
theorem tsdClear_hk (s : State) : (tsdClear s).hk = { s.hk with tsd := (tsdClear s).hk.tsd } := by
  unfold tsdClear; dsimp only; split <;> rfl

theorem tsdClear_of_no_tsd {s : State} (h : s.hk.tsd = false) : (tsdClear s).hk = s.hk := by
  unfold tsdClear; dsimp only
  split
  · rw [← h]
  · rfl

/-- With every channel agreeing the sweep tells of the reference channels alone. -/
theorem bistSweep_agreeing {s : State} (refs : Vector (BitVec 12) 14) (hbusy : s.test.busy = true) (hidle : s.test.running = false)
    (hleave : leaveHeld s .bist = true) (hq : Quiet s 229) (hall : ∀ c, Agrees s c) :
    (bistSweep refs s).test = (s.sweepBegun refs).test.passDue false
      ∧ (bistSweep refs s).hk = { s.hk with tsd := (bistSweep refs s).hk.tsd } ∧ (s.hk.tsd = false → (bistSweep refs s).hk = s.hk)
      ∧ Within [.test, .hk, .ev] s (bistSweep refs s) := by
  have hchecks := sweepChecks_of_agree fun c => refsTold_agrees (hall c) refs
  have htest := swept_test s refs
  have htold := refsTold_quiet hq refs
  have hhk : (s.refsTold refs).hk = s.hk := htold .hk (by decide)
  rw [hchecks] at htest
  rw [bistSweep_of_leave refs hbusy hidle hleave, hchecks]
  refine ⟨htest, ?_, fun hoff => ?_, ?_⟩
  · rw [← hhk]; exact tsdClear_hk _
  · exact (tsdClear_of_no_tsd (hhk ▸ hoff)).trans hhk
  · exact ((htold.mono (by decide)).step (within_tsdClear _) (by decide)).step (within_set_test _ _) (by decide)

/-- The first channel that disagrees is marked with cause 3 and fails the sweep. -/
theorem bistSweep_disagreeing {s : State} {c : ChanId} (refs : Vector (BitVec 12) 14) (hbusy : s.test.busy = true)
    (hidle : s.test.running = false) (hleave : leaveHeld s .bist = true) (hbefore : ∀ d, d < c → Agrees s d) (hc : Disagrees s c) :
    (bistSweep refs s).test = (s.sweepBegun refs).test.passDue true ∧ MarkedOff (bistSweep refs s) c := by
  obtain ⟨hmarked, hbad⟩ := sweepChecks_of_disagrees (fun d hd => refsTold_agrees (hbefore d hd) refs) (refsTold_disagrees hc refs)
  have htest := swept_test s refs
  rw [hbad] at htest
  rw [bistSweep_of_leave refs hbusy hidle hleave]
  generalize sweepChecks (s.refsTold refs) = p at hmarked htest ⊢
  have hchan : (State.swept p).chan c = p.1.chan c := by rw [State.chan, State.swept, tsdClear_hk]; rfl
  unfold MarkedOff
  rw [hchan]
  exact ⟨htest, hmarked⟩

/-! BIST_SWEEP_END (R364) -/

/-- The test is over: no longer busy, its result shown and counted, its leave returned. -/
def State.testEnded (s : State) : State :=
  releaseLeave .bist { s with test := { s.test with busy := false, running := false, fail := s.test.sweepBad, runs := satInc s.test.runs 65535 } }

theorem testEnded_within (s : State) : Within [.test, .draw] s s.testEnded :=
  ((within_set_test s _).mono (by decide)).step (within_releaseLeave _ _) (by decide)

theorem bistSweepEnd_of_done {s : State} (hrun : s.test.running = true) (hpass : passDone s.test = true) :
    bistSweepEnd s = if s.test.sweepBad = true then occur 228 0 s.testEnded else s.testEnded := if_pos (by rw [hrun, hpass]; rfl)

theorem bistSweepEnd_of_not_done {s : State} (h : s.test.running = false ∨ passDone s.test = false) : bistSweepEnd s = s :=
  if_neg (by rcases h with h | h <;> simp [h])

theorem bistSweepEnd_within {s : State} (hrun : s.test.running = true) (hpass : passDone s.test = true) (hq : Quiet s 228) :
    Within [.ev] s.testEnded (bistSweepEnd s) := by
  rw [bistSweepEnd_of_done hrun hpass]
  exact within_ite (occur_quiet 0 ((quiet_congr (testEnded_within s .settings (by decide)) 228).mpr hq)) Within.refl

/-! HOUR_COUNT (R381, R382) -/

/-- Whole seconds of RUN not yet in a counted hour. -/
def runSeconds (s : State) : Nat := s.ka.hourSec + (s.now - s.pwr.runFrom) / secs 1

/-- An hour has been counted: the seconds left over are carried, and RUN is timed from the last whole second (log 142). -/
def State.hourCounted (s : State) : State :=
  lifeInc 24 { s with
    ka := { s.ka with hourSec := runSeconds s - 3600 }
    pwr := { s.pwr with runFrom := s.pwr.runFrom + (s.now - s.pwr.runFrom) / secs 1 * secs 1 } }

theorem inRun_iff (s : State) : inRun s = true ↔ s.pwr.phase = .up ∧ s.pwr.state = .run := by simp [inRun]

theorem runSettle_of_run {s : State} (h : inRun s = true) : runSettle s = { s with
    ka := { s.ka with hourSec := runSeconds s }
    pwr := { s.pwr with runFrom := s.pwr.runFrom + (s.now - s.pwr.runFrom) / secs 1 * secs 1 } } := if_pos h

theorem hourCount_of_full {s : State} (h : inRun s = true) (hn : 3600 ≤ runSeconds s) : hourCount s = s.hourCounted := by
  unfold hourCount
  rw [runSettle_of_run h]
  exact if_pos (by simp [h, hn])

theorem hourCount_of_not_full {s : State} (h : s.pwr.state ≠ .run ∨ runSeconds s < 3600) : hourCount s = s := by
  unfold hourCount
  refine if_neg fun hgo => ?_
  obtain ⟨hin, hfull⟩ := Bool.and_eq_true_iff.mp hgo
  rw [runSettle_of_run hin] at hfull
  rcases h with h | h
  · exact h ((inRun_iff s).mp hin).2
  · exact absurd (of_decide_eq_true hfull) (Nat.not_le.mpr h)

theorem hourCounted_pend (s : State) (c : Fin 73) : s.hourCounted.ka.pend.get c = s.ka.pend.get c + if c = 24 then 1 else 0 := by
  by_cases hc : c = 24
  · subst hc; exact (modVec_get_same ..).trans (by rw [if_pos rfl])
  · exact (modVec_get_other _ _ hc).trans (by rw [if_neg hc]; rfl)

end Sys2Proof.Machine
end

section
/-! SUPPORT. States at which a statement on housekeeping and one on the supply fail. -/

namespace Sys2Proof.Machine

/-- The NTC of stage port 0 is enabled and in the fast lane with WARN = 0.5 °C above SHUT = 0.0 °C, which R319 keeps out of an image; its table
holds 0 throughout, and THROTTLE_MIN is 0. -/
def warnAboveShut : State := (putWord claimedRun (.chCfg 0) 0x800001).modChan 0 fun h => { h with inFast := true }

/-- The VSUP warning holds while a recorder page is staged that the memory has not begun; the one entry of the ring has waited 50 ms for the
journal of the memory, and its burst holds leave. -/
def journalWaitsForVsup : State :=
  let s := putWord (putWord claimedRun .xmCfg 1) .xmJrg 0x10000
  { s with
    now := ms 50
    pwr := { s.pwr with warn := true }
    jrn := { s.jrn with ring := [{ no := 0, sec := 0, frac := 0, flags := 0, id := 0, seq := 0, detail := 0, snap := 0, writtenAt := 0,
                                   inXmem := false }] }
    xm := { s.xm with present := true, jready := true, bursts := [.recorder 0 [] false] }
    draw := { s.draw with active := [{ user := .xmJournal, cost := 0, since := 0 }] } }

end Sys2Proof.Machine
end

section
/-! PROOFS. The statements of 10_thermal_housekeeping.md. -/

open Sys2Proof Sys2Proof.Machine

/-- Refutes O43: its clause on a reading at or above SHUT does not ask for WARN < SHUT, which R319 asks of an image. With WARN above SHUT a
reading between them lies below WARN, where R322 forms no factor but 256. -/
theorem not_housekeepingConvertsAndPublishes : ¬ Obligations.HousekeepingConvertsAndPublishes := by
  intro hall
  obtain ⟨hpowered, -⟩ := hall warnAboveShut
  obtain ⟨-, -, hfast⟩ := hpowered (by decide +kernel)
  obtain ⟨-, hshuts, -⟩ := hfast (Vector.replicate 64 1000) 0 0 (by decide +kernel) (by decide +kernel) (by decide +kernel) (by decide +kernel)
    (by decide +kernel)
  obtain ⟨t, hrun, -, hfloor, -⟩ := hshuts (by decide +kernel) (by decide +kernel) (by decide +kernel) (by decide +kernel) (by decide +kernel)
  obtain rfl : fastLaneTimer (Vector.replicate 64 1000) 0 warnAboveShut = t := Host.Outcome.next.inj hrun
  have hfull : ((fastLaneTimer (Vector.replicate 64 1000) 0 warnAboveShut).chan 0).g = 256 := by decide +kernel
  have hmin : (throttleMin warnAboveShut).toNat = 0 := by decide +kernel
  exact absurd (hfull.symm.trans (hfloor.trans hmin)) nofun

/-- Refutes O44: its clause on the burst that waits asks that the journal has no free grant while the warning still holds, when no grant is
free (R346). At the warning's end a ready journal burst that holds leave takes the credit first (R536), and the staged one goes on waiting. -/
theorem not_graceEndsAndSupplyWarns : ¬ Obligations.GraceEndsAndSupplyWarns := by
  intro hall
  obtain ⟨-, -, -, hends, -⟩ := hall journalWaitsForVsup
  obtain ⟨t, hrun, -, -, -, -, hbegins⟩ := hends (by decide +kernel) (by decide +kernel) (by decide +kernel)
  obtain rfl : vsupWarningClear journalWaitsForVsup = t := Host.Outcome.next.inj hrun
  have hwaits : (vsupWarningClear journalWaitsForVsup).xm.began = none := by decide +kernel
  exact nomatch hwaits.symm.trans (hbegins (by decide +kernel) (by decide +kernel) (by decide +kernel))

/-- Settles O48: the start by whether a test is under way, the sweep by its first channel that disagrees, its end by the scrub pass, and the
hour by the whole seconds of RUN. -/
theorem selfTestSweepAndRunHours : Obligations.SelfTestSweepAndRunHours := by
  intro s
  refine ⟨fun h hl => ⟨fun hidle => ?_, fun hbusy => ?_⟩, fun refs hbusy hidle hleave hq hagree _ => ?_,
    fun refs c v hbusy hidle hleave hbefore hround htemp hoff hwhole => ?_, fun refs hno => congrArg Host.Outcome.next (bistSweep_of_no_leave refs hno),
    fun hrun hpass hq => ?_, fun hno => congrArg Host.Outcome.next (bistSweepEnd_of_not_done hno), fun hup hst hfull => ?_,
    fun hno => congrArg Host.Outcome.next (hourCount_of_not_full hno)⟩
  · exact ⟨_, congrArg Host.Outcome.next (writeAt_bistStart hl), bistAsk_asks h (opened_within s h _) hidle⟩
  · have htest : (s.opened h Reg.bistCmd.addr).test = s.test := opened_within s h _ .test (by decide)
    exact congrArg Host.Outcome.next ((writeAt_bistStart hl).trans (bistAsk_of_busy h (htest ▸ hbusy)))
  · obtain ⟨htest, hhk⟩ := bistSweep_agreeing refs hbusy hidle hleave hq hagree
    exact ⟨_, rfl, by rw [htest, Test.passDue, Bool.or_false]; rfl, hhk⟩
  · obtain ⟨htest, hbroken, hcause⟩ := bistSweep_disagreeing refs hbusy hidle hleave (fun d hd x => hbefore d x hd) ⟨v, hround, htemp, hoff, hwhole⟩
    refine ⟨_, rfl, ?_, ?_, ?_, hbroken, hcause⟩ <;> rw [htest, Test.passDue]
    · rfl
    · exact Bool.or_true _
    · rfl
  · have hend := bistSweepEnd_within hrun hpass hq
    exact ⟨_, rfl, hend .test (by decide), hend .draw (by decide), ((testEnded_within s).mono (by decide)).step hend (by decide)⟩
  · have hcount := hourCount_of_full ((inRun_iff s).mpr ⟨hup, hst⟩) hfull
    exact ⟨_, congrArg Host.Outcome.next hcount, hcount ▸ (within_hourCount s).mono (by decide), rfl, rfl, hourCounted_pend s⟩

end

section
/-! SUPPORT. The queue of the commands that wait: no command reaches it. -/

namespace Sys2Proof.Machine

theorem Within.pending_eq {ps : List Part} {s t : State} (h : Within ps s t) (hp : Part.pending ∉ ps := by decide) : t.pending = s.pending :=
  h .pending hp

/-- Every command answers a state in which the same commands wait: an access of the bus as its transaction does, each other command as
its own operation. -/
theorem exec_keepsPending : ∀ (c : Instr) (s : State), ∃ t, exec c s = .next t ∧ t.pending = s.pending
  | .rstCmd .., s | .tileSettingWrite .., s | .autozeroRequest .., s | .snsCalWrite .., s | .icalWrite .., s | .targetWrite .., s
  | .csetWrite .., s | .moultCtlWrite .., s | .mapDataWrite .., s | .railOn .., s | .railOff .., s | .railKill .., s | .railClear .., s
  | .railClassClear .., s | .tileClassClear .., s | .tileAdmit .., s | .tileExclude .., s | .xchkReq .., s | .pwrKeepalive .., s
  | .bistStart .., s | .pkClr .., s | .evLatchClear .., s | .heartbeatWrite .., s | .claimTake .., s | .claimRelease .., s
  | .linkAuthWrite .., s | .imgDataWrite .., s | .imgCommit .., s | .imgAbort .., s | .nvmProgram .., s | .calSave .., s | .recErase .., s
  | .flush .., s | .journalMoveOldest .., s | .journalMoveNewest .., s | .xmemPrefetch .., s | .recArm .., s | .recTrig .., s
  | .recStop .., s | .recRelease .., s | .rtcSet .., s | .clrFault .., s | .svcClose .., s | .brumationArm .., s | .brumDisarm .., s =>
    ⟨_, rfl, (within_writeAt _ _ _ s).pending_eq⟩
  | .pwrStandby .., s | .pwrReady .., s | .pwrRun .., s | .domCtlWrite .., s =>
    ⟨_, rfl, (within_writeAt _ _ _ _).pending_eq.trans (within_State_withVxio s _).pending_eq⟩
  | .mapDataRead .., s | .evDcntRead .., s | .journalLoad .., s | .journalPop .., s | .xmemWindowAdvance .., s | .recBdataRead .., s
  | .rtcRead .., s => ⟨_, rfl, (within_readAt _ _ _ s).pending_eq⟩
  | .coefDataAccess _ _ (some _) _, s | .nvmDataAccess _ (some _), s => ⟨_, rfl, (within_writeAt _ _ _ s).pending_eq⟩
  | .coefDataAccess _ _ none _, s | .nvmDataAccess _ none, s => ⟨_, rfl, (within_readAt _ _ _ s).pending_eq⟩
  | .imgBegin .., s => ⟨_, rfl, (within_busWrite1 _ _ _ _ s).pending_eq⟩
  | .nvmOperationDone _, s => ⟨_, rfl, (within_afterHold _).pending_eq.trans (within_nvmOperationDone _ s).pending_eq⟩
  | .boot .., s => ⟨_, rfl, (within_boot _ s).pending_eq⟩
  | .resetNLow .., s => ⟨_, rfl, (within_resetNLow _ s).pending_eq⟩
  | .vsupReset .., s => ⟨_, rfl, (within_vsupReset _ s).pending_eq⟩
  | .vioReset .., s => ⟨_, rfl, (within_vioReset _ s).pending_eq⟩
  | .coreSupplyReset .., s => ⟨_, rfl, (within_coreSupplyReset _ s).pending_eq⟩
  | .clockFault .., s => ⟨_, rfl, (within_clockFault _ _ s).pending_eq⟩
  | .keepaliveWake .., s => ⟨_, rfl, (within_keepaliveWake s).pending_eq⟩
  | .carrierPeak .., s => ⟨_, rfl, (within_carrierPeak _ s).pending_eq⟩
  | .carrierValley .., s => ⟨_, rfl, (within_carrierValley _ s).pending_eq⟩
  | .tripRecognised .., s => ⟨_, rfl, (within_tripRecognised _ _ s).pending_eq⟩
  | .tripLatchClear .., s => ⟨_, rfl, (within_tripLatchClear _ _ _ _ s).pending_eq⟩
  | .lowSideForceEnd .., s => ⟨_, rfl, (within_lowSideForceEnd _ _ s).pending_eq⟩
  | .deLowSideOff .., s => ⟨_, rfl, (within_deLowSideOff _ _ s).pending_eq⟩
  | .windowSample .., s => ⟨_, rfl, (within_windowSample _ _ s).pending_eq⟩
  | .leapTileRelease .., s => ⟨_, rfl, (within_leapTileRelease _ _ s).pending_eq⟩
  | .leapHoldoffExpiry .., s => ⟨_, rfl, (within_leapHoldoffExpiry _ s).pending_eq⟩
  | .coarseConversion .., s => ⟨_, rfl, (within_coarseConversion _ _ s).pending_eq⟩
  | .likConversion .., s => ⟨_, rfl, (within_likConversion _ _ s).pending_eq⟩
  | .prebiasReading .., s => ⟨_, rfl, (within_prebiasReading _ s).pending_eq⟩
  | .tileCurrentSample .., s => ⟨_, rfl, (within_tileCurrentSample _ _ _ s).pending_eq⟩
  | .autozeroStart .., s => ⟨_, rfl, (within_autozeroStart _ s).pending_eq⟩
  | .autozeroDone .., s => ⟨_, rfl, (within_autozeroDone _ _ s).pending_eq⟩
  | .autozeroTimeout .., s => ⟨_, rfl, (within_autozeroTimeout _ s).pending_eq⟩
  | .loopUpdate .., s => ⟨_, rfl, (within_loopUpdate _ s).pending_eq⟩
  | .referenceValley .., s => ⟨_, rfl, (within_referenceValley _ _ s).pending_eq⟩
  | .readyTimeout .., s => ⟨_, rfl, (within_readyTimeout _ s).pending_eq⟩
  | .scrubWord .., s => ⟨_, rfl, (within_scrubWord _ _ s).pending_eq⟩
  | .syncInEdge .., s => ⟨_, rfl, (within_syncInEdge _ s).pending_eq⟩
  | .syncInLoss, s => ⟨_, rfl, (within_syncInLoss s).pending_eq⟩
  | .syncOutPulse, s => ⟨_, rfl, (within_syncOutPulse s).pending_eq⟩
  | .railStart .., s => ⟨_, rfl, (within_railStart _ _ s).pending_eq⟩
  | .seqDelayExpiry .., s => ⟨_, rfl, (within_seqDelayExpiry _ s).pending_eq⟩
  | .softstartEntry .., s => ⟨_, rfl, (within_softstartEntry _ s).pending_eq⟩
  | .prebiasWaitTimeout .., s => ⟨_, rfl, (within_prebiasWaitTimeout _ s).pending_eq⟩
  | .trackFailure .., s => ⟨_, rfl, (within_trackFailure _ s).pending_eq⟩
  | .hiccupRetry .., s => ⟨_, rfl, (within_hiccupRetry _ _ s).pending_eq⟩
  | .retryClear .., s => ⟨_, rfl, (within_retryClear _ s).pending_eq⟩
  | .stoppingComplete .., s => ⟨_, rfl, (within_stoppingComplete _ s).pending_eq⟩
  | .pgoodAssert .., s => ⟨_, rfl, (within_pgoodAssert _ s).pending_eq⟩
  | .lenChange .., s => ⟨_, rfl, (within_lenChange _ _ s).pending_eq⟩
  | .hkConversion .., s => ⟨_, rfl, (within_hkConversion _ s).pending_eq⟩
  | .hkRoundEnd, s => ⟨_, rfl, (within_hkRoundEnd s).pending_eq⟩
  | .fastLaneTimer .., s => ⟨_, rfl, (within_fastLaneTimer _ _ s).pending_eq⟩
  | .tsdGraceExpiry, s => ⟨_, rfl, (within_tsdGraceExpiry s).pending_eq⟩
  | .vsupWarning, s => ⟨_, rfl, (within_vsupWarning s).pending_eq⟩
  | .vsupWarningClear, s => ⟨_, rfl, (within_vsupWarningClear s).pending_eq⟩
  | .powerFail, s => ⟨_, rfl, (within_powerFail s).pending_eq⟩
  | .snapshotComplete .., s => ⟨_, rfl, (within_snapshotComplete _ s).pending_eq⟩
  | .vioWarning, s => ⟨_, rfl, (within_vioWarning s).pending_eq⟩
  | .preregFault, s => ⟨_, rfl, (within_preregFault s).pending_eq⟩
  | .refPpmWindow .., s => ⟨_, rfl, (within_refPpmWindow _ s).pending_eq⟩
  | .powerTransitionComplete, s => ⟨_, rfl, (within_powerTransitionComplete s).pending_eq⟩
  | .bankPowerUp .., s => ⟨_, rfl, (within_bankPowerUp _ s).pending_eq⟩
  | .bankPowerUpDone .., s => ⟨_, rfl, (within_bankPowerUpDone _ s).pending_eq⟩
  | .bistSweep .., s => ⟨_, rfl, (within_bistSweep _ s).pending_eq⟩
  | .bistSweepEnd, s => ⟨_, rfl, (within_bistSweepEnd s).pending_eq⟩
  | .telemetrySample, s => ⟨_, rfl, (within_telemetrySample s).pending_eq⟩
  | .telemetryWindowEnd, s => ⟨_, rfl, (within_telemetryWindowEnd s).pending_eq⟩
  | .telemetrySwap, s => ⟨_, rfl, (within_telemetrySwap s).pending_eq⟩
  | .peakClearingRead .., s | .clearingRead .., s => ⟨_, rfl, (within_busRead _ _ s).pending_eq⟩
  | .hourCount, s => ⟨_, rfl, (within_hourCount s).pending_eq⟩
  | .journalWrite, s => ⟨_, rfl, (within_journalWrite s).pending_eq⟩
  | .registerWrite .., s => ⟨_, rfl, (within_registerWrite _ _ _ _ s).pending_eq⟩
  | .busInterrupt .., s => ⟨_, rfl, (within_busInterrupt _ _ s).pending_eq⟩
  | .busTimeout .., s => ⟨_, rfl, (within_busTimeout _ s).pending_eq⟩
  | .sdaRelease .., s => ⟨_, rfl, (within_sdaRelease _ s).pending_eq⟩
  | .heartbeatLapse .., s => ⟨_, rfl, (within_heartbeatLapse _ s).pending_eq⟩
  | .setTarget .., s | .query .., s | .ping .., s | .badFrame .., s => ⟨_, rfl, (within_judgeFrame _ _ _ _ _ s).pending_eq⟩
  | .linkFrameError .., s => ⟨_, rfl, (within_linkFrameError _ _ s).pending_eq⟩
  | .glClkStop .., s => ⟨_, rfl, (within_glClkStop _ _ s).pending_eq⟩
  | .ack, s => ⟨_, rfl, (within_sendAck s).pending_eq⟩
  | .settled, s => ⟨_, rfl, (within_sendSettled s).pending_eq⟩
  | .settleTimeout .., s => ⟨_, rfl, (within_settleTimeout _ s).pending_eq⟩
  | .loadLapse, s => ⟨_, rfl, (within_loadLapse s).pending_eq⟩
  | .eepromPageWrite .., s => ⟨_, rfl, (within_eepromPageWrite _ _ s).pending_eq⟩
  | .replacementCheckDone .., s => ⟨_, rfl, (within_replacementCheckDone _ _ s).pending_eq⟩
  | .nvmOperationStart, s => ⟨_, rfl, (within_nvmOperationStart s).pending_eq⟩
  | .counterCommit .., s => ⟨_, rfl, (within_counterCommit _ s).pending_eq⟩
  | .recordRetry .., s => ⟨_, rfl, (within_recordRetry _ s).pending_eq⟩
  | .marginRead .., s => ⟨_, rfl, (within_marginRead _ s).pending_eq⟩
  | .xmemDiscovery .., s => ⟨_, rfl, (within_xmemDiscovery _ s).pending_eq⟩
  | .journalHeadSearch, s => ⟨_, rfl, (within_journalHeadSearch s).pending_eq⟩
  | .journalBurst .., s => ⟨_, rfl, (within_journalBurst _ s).pending_eq⟩
  | .xmemBurstDone, s => ⟨_, rfl, (within_xmemBurstDone s).pending_eq⟩
  | .xmemStall, s => ⟨_, rfl, (within_xmemStall s).pending_eq⟩
  | .xmemRecovery, s => ⟨_, rfl, (within_xmemRecovery s).pending_eq⟩
  | .recorderFrame, s => ⟨_, rfl, (within_recorderFrame s).pending_eq⟩
  | .recorderBurst .., s => ⟨_, rfl, (within_recorderBurst _ s).pending_eq⟩
  | .drawArbiterSample .., s => ⟨_, rfl, (within_drawArbiterSample _ s).pending_eq⟩
  | .leaveWaitLong .., s => ⟨_, rfl, (within_leaveWaitLong _ s).pending_eq⟩
  | .kaMonitorRun .., s => ⟨_, rfl, (within_kaMonitorRun _ s).pending_eq⟩
  | .kaSourceLoss, s => ⟨_, rfl, (within_kaSourceLoss s).pending_eq⟩
  | .kaSourceQualified, s => ⟨_, rfl, (within_kaSourceQualified s).pending_eq⟩
  | .cellCutoff, s => ⟨_, rfl, (within_cellCutoff s).pending_eq⟩
  | .rtcTrimInterval, s => ⟨_, rfl, (within_rtcTrim s).pending_eq⟩
  | .serviceKeyRelease, s => ⟨_, rfl, (within_keyRelease s).pending_eq⟩
  | .serviceArmExpiry, s => ⟨_, rfl, (within_armExpiry s).pending_eq⟩
  | .residueHourlyWrite, s => ⟨_, rfl, (within_residueHourly s).pending_eq⟩
  | .brumationWake .., s => ⟨_, rfl, (within_brumationWake _ s).pending_eq⟩
  | .keepaliveDomainPowerUp .., s => ⟨_, rfl, (within_kaPowerUp _ s).pending_eq⟩
  | .kaSourceReturn, s => ⟨_, rfl, (within_kaSourceReturn s).pending_eq⟩
  | .transactionEnd .., s => ⟨_, rfl, (within_transactionEnd _ _ _ _ s).pending_eq⟩
  | .commitHoldLimit, s => ⟨_, rfl, (within_commitHoldLimit s).pending_eq⟩
  | .serviceKeyPress, s => ⟨_, rfl, (within_keyPress s).pending_eq⟩
  | .testAccessPortInstruction .., s => ⟨_, rfl, (within_tapLoad _ _ s).pending_eq⟩

end Sys2Proof.Machine
end

section
/-! PROOFS. The statements of 01_architecture.md on steps and the queue, and of 13_management_bus.md on table words. -/

open Sys2Proof Sys2Proof.Machine

/-- Settles O1: a step looks at the queue alone. -/
theorem stepRunsFrontCommand : Obligations.StepRunsFrontCommand := by
  intro c rest s hq
  unfold step
  rw [hq]

/-- Settles O2: with nothing waiting a step is `idle`. -/
theorem idleStepPassesOneTick : Obligations.IdleStepPassesOneTick := by
  intro s hq
  have hidle : step s = .next (idle s) := by
    unfold step
    rw [hq]
  exact hidle

/-- Settles O4: every store and queue of the state after reset is empty. -/
theorem resetIsCanonical : Obligations.ResetIsCanonical := by
  refine ⟨⟨rfl, rfl, rfl, rfl, rfl, rfl, rfl⟩, ?_, ⟨?_, ?_⟩, ?_, ?_, ?_, List.nodup_nil⟩ <;> exact Nat.zero_le _

/-- Settles O5: the next state of each command is the one that its soundness is about. -/
theorem noCommandStopsTheBlock : Obligations.NoCommandStopsTheBlock := fun c s =>
  let ⟨t, hrun, _⟩ := exec_keepsSound c s
  ⟨t, hrun⟩

/-- Settles O7: the next state is the one of `exec_keepsPending`. -/
theorem commandLeavesTheQueue : Obligations.CommandLeavesTheQueue := by
  intro c s t hrun
  obtain ⟨u, hu, hpending⟩ := exec_keepsPending c s
  obtain rfl := Host.Outcome.next.inj (hu.symm.trans hrun)
  exact hpending

/-- Settles O8: the table gives no word a command. -/
theorem noTableWordSpellsACommand : Obligations.NoTableWordSpellsACommand := fun _ _ _ => ⟨rfl, rfl⟩

end

section
/-! SUPPORT. A source of reset with nothing under way: what the device, the keep-alive domain and the memories hold after it (R361, R362). -/

namespace Sys2Proof.Machine

/-- No snapshot, NVM operation or memory burst is under way, which a reset would cut off. -/
structure NothingUnderWay (s : State) : Prop where
  snapshot : s.pwr.pfCommitted = false
  operation : s.nvm.op = none
  bursts : s.xm.bursts = []

theorem opCut_of_none {s : State} (hop : s.nvm.op = none) : opCut s = s := by
  unfold opCut opScatter
  rw [hop]
  rfl

/-- The whole seconds in RUN are the only thing that a reset takes along from outside the keep-alive domain. -/
theorem runSettle_eq (s : State) : ∃ n r, runSettle s = { s with ka := { s.ka with hourSec := n }, pwr := { s.pwr with runFrom := r } } := by
  unfold runSettle
  split
  · exact ⟨_, _, rfl⟩
  · exact ⟨s.ka.hourSec, s.pwr.runFrom, rfl⟩

/-- With nothing under way a reset cuts nothing off. -/
theorem snapshotReset_of_nothing {s : State} (hn : NothingUnderWay s) (cause : Nat) :
    snapshotReset cause (burstCut (runSettle s)) = runSettle s := by
  obtain ⟨n, r, hrun⟩ := runSettle_eq s
  have hbursts : (runSettle s).xm.bursts = [] := by rw [hrun]; exact hn.bursts
  have hsnapshot : (runSettle s).pwr.pfCommitted = false := by rw [hrun]; exact hn.snapshot
  have hop : (runSettle s).nvm.op = none := by rw [hrun]; exact hn.operation
  rw [burstCut_of_read (.inl hbursts)]
  exact (if_pos hsnapshot).trans (opCut_of_none hop)

/-- The cause that a source leaves: in reset still, the lower of the two (R361; log 85). -/
def causeLeft (s : State) (cause : Nat) : Nat := if inReset s = true then min s.ka.cause cause else cause

/-- When the reset ends for a source that acts for `held` fine steps (R361). -/
def outOfReset (s : State) (held : Nat) : Nat :=
  if s.pwr.phase = .inReset then max s.pwr.outAt (s.now + held + us 100) else s.now + held + us 100

/-- Every setting, rail, tile and queue is at its reset value, and of the keep-alive domain and the memories what R362 keeps is kept. -/
structure ResetFrom (s : State) (cause held : Nat) (t : State) : Prop where
  cause : t.ka.cause = cause
  pwr : t.pwr = { phase := .inReset, outAt := outOfReset s held, vxio := s.pwr.vxio, warn := s.pwr.warn, pfArmed := s.pwr.pfArmed }
  settings : t.settings = []
  rails : t.rails = State.reset.rails
  tiles : t.tiles = State.reset.tiles
  rtcBase : t.ka.rtcBase = s.ka.rtcBase
  rtcAt : t.ka.rtcAt = s.ka.rtcAt
  pend : t.ka.pend = s.ka.pend
  arm : t.ka.armUntil = none
  owner : t.bus.owner = none
  events : t.ev.queue = []
  requests : t.nvm.queue = []
  nvm : t.nvm.mem = s.nvm.mem
  eeprom : t.eeprom = s.eeprom
  xmem : t.xm.mem = s.xm.mem
  now : t.now = s.now
  pending : t.pending = s.pending

theorem resetDevice_resets {s : State} (hb : s.ka.brum = false) (hn : NothingUnderWay s) (cause held : Nat) :
    ResetFrom s (causeLeft s cause) held (resetDevice cause held s) := by
  obtain ⟨n, r, hrun⟩ := runSettle_eq s
  have heq : resetDevice cause held s
      = { clearDevice .inReset { runSettle s with ka := (runSettle s).ka.reset (causeLeft s cause) } with
          pwr := { phase := .inReset, outAt := outOfReset s held, vxio := s.pwr.vxio, warn := s.pwr.warn, pfArmed := s.pwr.pfArmed } } := by
    unfold resetDevice
    dsimp only
    rw [snapshotReset_of_nothing hn, hrun, if_neg (by simp [hb])]
    rfl
  rw [heq, hrun]
  constructor <;> rfl

/-- With Brumation armed the rest of the device follows the keep-alive domain, which keeps all but the carried seconds (R580). -/
theorem resetDevice_of_brum {s : State} (hb : s.ka.brum = true) (hn : NothingUnderWay s) (cause held : Nat) :
    resetDevice cause held s = inBrumation (runSettle s) := by
  obtain ⟨n, r, hrun⟩ := runSettle_eq s
  unfold resetDevice
  dsimp only
  rw [snapshotReset_of_nothing hn, hrun, if_pos hb]

theorem deviceOn_of_core {s : State} (hc : coreOn s = true) : deviceOn s = true := by
  unfold coreOn at hc
  unfold deviceOn
  revert hc
  cases s.pwr.phase <;> simp

theorem phase_of_core {s : State} (hc : coreOn s = true) : s.pwr.phase ≠ .keepAlive ∧ s.pwr.phase ≠ .inReset := by
  unfold coreOn at hc
  constructor <;> intro h <;> simp [h] at hc

/-- A device out of reset records the source's own code. -/
theorem causeLeft_of_out {s : State} (hp : s.pwr.phase ≠ .inReset) (cause : Nat) : causeLeft s cause = cause := by
  unfold causeLeft inReset
  rw [if_neg (by simp [hp])]

/-- The monitors, the clock and RESET_N reset a device that has power and is not in KEEPALIVE, each with its code. -/
theorem monitorReset_of_on {s : State} (hon : deviceOn s = true) (cause held : Nat) : monitorReset cause held s = resetDevice cause held s :=
  if_pos hon

theorem pinReset_of_on {s : State} (hon : deviceOn s = true) (hk : s.pwr.phase ≠ .keepAlive) (held : Nat) :
    pinReset held s = resetDevice 2 held s := by
  unfold pinReset
  rw [if_neg hk, monitorReset_of_on hon]

theorem resetNLow_of_acts {s : State} {ns : Nat} (ha : 200 ≤ ns ∨ s.tap.resetLow = true) :
    resetNLow ns s = { pinReset (ofNs ns) s with tap := { (pinReset (ofNs ns) s).tap with resetLow := false } } := by
  have hacts : (pulseActs ns || s.tap.resetLow) = true := by
    rcases ha with hns | hlow
    · have hnot : ¬ns < 150 := by omega
      simp [pulseActs, hns, hnot]
    · simp [hlow]
  unfold resetNLow
  simp only [hacts, if_true]

theorem clockFault_of_on {s : State} (hon : deviceOn s = true) (hk : s.pwr.phase ≠ .keepAlive) (kind : ClockFault) (held : Nat) :
    ∃ k, clockFault kind held s = { resetDevice 4 (ofNs held) s with ka := { (resetDevice 4 (ofNs held) s).ka with clockFault := k } } := by
  unfold clockFault
  rw [if_neg (by simp [hk, hon])]
  dsimp only
  split
  · exact ⟨some kind, rfl⟩
  · exact ⟨(resetDevice 4 (ofNs held) s).ka.clockFault, rfl⟩

/-- The level of RESET_N and the kind of a clock fault are not among what a reset leaves. -/
theorem ResetFrom.with_tap {s t : State} {cause held : Nat} (h : ResetFrom s cause held t) (x : Tap) : ResetFrom s cause held { t with tap := x } :=
  { h with }
theorem ResetFrom.with_clockFault {s t : State} {cause held : Nat} (h : ResetFrom s cause held t) (k : Option ClockFault) :
    ResetFrom s cause held { t with ka := { t.ka with clockFault := k } } := { h with }

/-- A reset clears the bus, so what it leaves is the same from a transaction that is open. -/
theorem ResetFrom.of_bus {s s' t : State} {cause held : Nat} (h : ResetFrom s' cause held t) (hb : Within [.bus] s s') : ResetFrom s cause held t := by
  have hka : s'.ka = s.ka := hb .ka (by decide)
  have hpwr : s'.pwr = s.pwr := hb .pwr (by decide)
  have hnow : s'.now = s.now := hb .now (by decide)
  have hnvm : s'.nvm = s.nvm := hb .nvm (by decide)
  have hxm : s'.xm = s.xm := hb .xm (by decide)
  have hout : outOfReset s' held = outOfReset s held := by simp only [outOfReset, hpwr, hnow]
  exact { h with
    pwr := by rw [h.pwr, hout, hpwr]
    rtcBase := by rw [h.rtcBase, hka]
    rtcAt := by rw [h.rtcAt, hka]
    pend := by rw [h.pend, hka]
    nvm := by rw [h.nvm, hnvm]
    eeprom := h.eeprom.trans (hb .eeprom (by decide))
    xmem := by rw [h.xmem, hxm]
    now := h.now.trans hnow
    pending := h.pending.trans (hb .pending (by decide)) }

theorem resetNLow_of_short {s : State} {ns : Nat} (hns : ns < 150) (hlow : s.tap.resetLow = false) : resetNLow ns s = s := by
  have hidle : (pulseActs ns || s.tap.resetLow) = false := by simp [pulseActs, hns, hlow]
  have htap : ({ s.tap with resetLow := false } : Tap) = s.tap := by rw [← hlow]
  unfold resetNLow
  rw [if_neg (by simp [hidle])]
  exact congrArg (fun x : Tap => { s with tap := x }) htap

/-- Outputs are driven only while the device is up. -/
theorem outputsLow_of_phase {t : State} (hp : t.pwr.phase = .inReset ∨ t.pwr.phase = .brumation) (u : TileId) :
    outHigh t u = false ∧ outLow t u = false := by
  unfold outHigh outLow
  rcases hp with hp | hp <;> simp [hp]

end Sys2Proof.Machine
end

section
/-! PROOFS. The statements of 11_supply_clocks_power_states.md on resets. -/

open Sys2Proof Sys2Proof.Machine

/-- Settles O45: each source is one `resetDevice` with its code, and with nothing under way that cuts nothing off. -/
theorem resetsClearAllButWhatIsKept : Obligations.ResetsClearAllButWhatIsKept := by
  intro s clears
  have hclears : ∀ {c : Instr} {cause held : Nat} {t : State}, exec c s = .next t → ResetFrom s cause held t → clears c cause held :=
    fun hrun hr => ⟨_, hrun, hr.cause, hr.pwr, hr.settings, fun k => congrArg (Vector.get · k) hr.rails, fun u => congrArg (Vector.get · u) hr.tiles,
      outputsLow_of_phase (.inl (by rw [hr.pwr])), hr.rtcBase, hr.rtcAt, hr.pend, hr.arm, hr.owner, hr.events, hr.requests, hr.nvm, hr.eeprom, hr.xmem,
      hr.now, hr.pending⟩
  have hmonitors : deviceOn s = true → s.pwr.phase ≠ .keepAlive → s.ka.brum = false → NothingUnderWay s → ∀ ns : Nat,
      (200 ≤ ns ∨ s.tap.resetLow = true → clears (.resetNLow ns) (causeLeft s 2) (ofNs ns)) ∧ clears (.vsupReset ns) (causeLeft s 1) (ofNs ns)
        ∧ clears (.vioReset ns) (causeLeft s 5) (ofNs ns) ∧ clears (.coreSupplyReset ns) (causeLeft s 6) (ofNs ns)
        ∧ ∀ kind : ClockFault, clears (.clockFault kind ns) (causeLeft s 4) (ofNs ns) := by
    intro hon hk hb hn ns
    refine ⟨fun ha => hclears (congrArg Host.Outcome.next (resetNLow_of_acts ha)) ?_, hclears (congrArg Host.Outcome.next (monitorReset_of_on hon 1 _)) ?_,
      hclears (congrArg Host.Outcome.next (monitorReset_of_on hon 5 _)) ?_,
      hclears (congrArg Host.Outcome.next ((if_neg hk).trans (monitorReset_of_on hon 6 _))) ?_, fun kind => ?_⟩
    · rw [pinReset_of_on hon hk]
      exact (resetDevice_resets hb hn 2 _).with_tap _
    · exact resetDevice_resets hb hn 1 _
    · exact resetDevice_resets hb hn 5 _
    · exact resetDevice_resets hb hn 6 _
    · obtain ⟨k, hrun⟩ := clockFault_of_on hon hk kind ns
      exact hclears (congrArg Host.Outcome.next hrun) ((resetDevice_resets hb hn 4 _).with_clockFault k)
  refine ⟨fun hc hb hpf hop hx => ?_, fun h d hl hd => ?_, fun ns hns hlow => ?_, fun hc hb hpf hop hx ns => ?_, fun hk hb hpf hop hx => ?_,
    fun hp hb hpf hop hx ns => ?_, fun hk b => congrArg Host.Outcome.next (if_neg hk)⟩
  · have hn : NothingUnderWay s := ⟨hpf, hop, hx⟩
    obtain ⟨hkeep, hout⟩ := phase_of_core hc
    have hall := hmonitors (deviceOn_of_core hc) hkeep hb hn
    simp only [causeLeft_of_out hout] at hall
    refine ⟨fun ns => (hall ns).1, fun ns => (hall ns).2, fun h d hl hd => ?_⟩
    have hrun : writeAt h .rstCmd d s = resetDevice 3 (us 10) (s.opened h Reg.rstCmd.addr) := (writeAt_of_lands hl).trans (if_pos hd)
    have ho := opened_within s h Reg.rstCmd.addr
    have hno : NothingUnderWay (s.opened h Reg.rstCmd.addr) :=
      ⟨by rw [opened_pwr, hpf], by rw [ho .nvm (by decide), hop], by rw [ho .xm (by decide), hx]⟩
    have hr := (resetDevice_resets (by rw [opened_ka, hb]) hno 3 (us 10)).of_bus ho
    rw [causeLeft_of_out (by rw [opened_pwr]; exact hout)] at hr
    exact hclears (congrArg Host.Outcome.next hrun) hr
  · exact congrArg Host.Outcome.next ((writeAt_of_lands hl).trans (if_neg hd))
  · exact congrArg Host.Outcome.next (resetNLow_of_short hns hlow)
  · have hrun : vsupReset ns s = inBrumation (runSettle s) :=
      (monitorReset_of_on (deviceOn_of_core hc) 1 _).trans (resetDevice_of_brum hb ⟨hpf, hop, hx⟩ 1 _)
    obtain ⟨n, r, hsettle⟩ := runSettle_eq s
    rw [hsettle] at hrun
    exact ⟨_, congrArg Host.Outcome.next hrun, rfl, rfl, rfl, outputsLow_of_phase (.inr rfl), rfl, rfl, rfl⟩
  · have hn : NothingUnderWay s := ⟨hpf, hop, hx⟩
    have hout : s.pwr.phase ≠ .inReset := by rw [hk]; nofun
    have hreset := resetDevice_resets hb hn 7
    simp only [causeLeft_of_out hout] at hreset
    refine ⟨fun b => hclears (congrArg Host.Outcome.next (if_pos hk)) (hreset 0), fun ns ha => ?_,
      fun ns => ⟨congrArg Host.Outcome.next (if_pos hk), fun kind =>
      congrArg Host.Outcome.next (if_pos (.inl hk))⟩⟩
    refine hclears (congrArg Host.Outcome.next (resetNLow_of_acts ha)) ?_
    rw [show pinReset (ofNs ns) s = resetDevice 7 (ofNs ns) s from if_pos hk]
    exact (hreset _).with_tap _
  · exact hmonitors (by simp [deviceOn, hp]) (by rw [hp]; nofun) hb ⟨hpf, hop, hx⟩ ns

end

section
/-! SUPPORT. CLAIM and the heartbeats: which of their words land, what a change of owner leaves, and when a heartbeat lapses (R415 to R418). -/

namespace Sys2Proof.Machine

/-- A field whose bits a write may change holds what the written word has there. -/
theorem fld_merge {old data mask : Word} {hi lo : Nat} (hm : ∀ i, i < hi + 1 - lo → mask.getLsbD (lo + i) = true) :
    fld (merge old data mask) hi lo = fld data hi lo := by
  refine Nat.eq_of_testBit_eq fun i => ?_
  simp only [fld, nfld, Nat.testBit_mod_two_pow, Nat.testBit_shiftRight, BitVec.testBit_toNat, merge, BitVec.getLsbD_or, BitVec.getLsbD_and]
  by_cases hi' : i < hi + 1 - lo
  · have hbit := hm i hi'
    have hnot : (~~~mask).getLsbD (lo + i) = false := by rw [BitVec.getLsbD_not, hbit]; simp
    simp [hbit, hnot]
  · simp [hi']

/-- A register of CORE that SAFE-IDLE keeps works wherever CORE does (R478). -/
theorem regLive_of_safeIdle {s : State} {r : Reg} (hc : coreOn s = true) (hd : domainOn s r = true) (hi : safeIdleReg r = true) :
    regLive s r = true := by
  have hphase : s.pwr.phase = .up ∨ s.pwr.phase = .safeIdle := by simpa [coreOn] using hc
  unfold regLive
  rcases hphase with hp | hp <;> rw [hp]
  · exact hd
  · exact hi

theorem claim_lands {s : State} {h : HostId} {w : Word} (hc : coreOn s = true) (hh : s.bus.holdFrom = none) (hw : fld w 9 8 = 1 ∨ fld w 9 8 = 2) :
    WordLands s h .claim w := by
  have hfld : fld (candidate s .claim w) 9 8 = fld w 9 8 := fld_merge fun i hi => by
    have hi' : i < 2 := hi
    interval_cases i <;> rfl
  refine ⟨hc, hh, .inl rfl, regLive_of_safeIdle hc rfl rfl, ?_⟩
  show (fld (candidate s .claim w) 9 8 == 1 || fld (candidate s .claim w) 9 8 == 2) = true
  rw [hfld]
  simpa using hw

theorem hbReg_lands {s : State} {h g : HostId} (w : Word) (hc : coreOn s = true) (hh : s.bus.holdFrom = none) (ho : g = h ∨ s.bus.owner = some h) :
    WordLands s h (hbReg g) w := by
  refine ⟨hc, hh, ho.imp (fun e => ?_) id, ?_, ?_⟩
  · subst e; cases g <;> rfl
  · cases g <;> exact regLive_of_safeIdle hc rfl rfl
  · cases g <;> rfl

/-- A host that does not hold the claim is refused a register that needs it, and the index of a data register steps on all the same. -/
theorem writeAt_unclaimed {s : State} {h : HostId} {r : Reg} (data : Word) (hc : coreOn s = true) (hh : s.bus.holdFrom = none)
    (hf : freeOfClaim h r = false) (ho : s.bus.owner ≠ some h) :
    writeAt h r data s = indexStep h r (claimRefuse h r.addr (s.opened h r.addr)) := by
  have hcore : coreOn (s.opened h r.addr) = true := (coreOn_congr (opened_pwr s h _)).trans hc
  rw [writeAt_eq h r data s (busAnswers_of_core hc hh)]
  unfold busWord
  rw [hcore, if_neg (by decide), decodeAddr_addr]
  exact congrArg (indexStep h r) (if_pos (by simp [hf, ho]))

/-- Events, their settings and the time are those of the state in which the transaction opened. -/
theorem opened_quiet {s : State} {e : Nat} (h : HostId) (a : Nat) (hq : Quiet s e) : Quiet (s.opened h a) e :=
  (quiet_congr (opened_settings s h a) e).mpr hq
theorem opened_occurredNow (s : State) (h : HostId) (a e : Nat) : occurredNow (s.opened h a) e = occurredNow s e := by
  simp only [occurredNow, cycleOf, opened_ev, opened_now]

/-! The claim (R418) -/

/-- From `s` to `t` the claim has passed to `o`, counted and journaled by event `e` while the queue has room. -/
structure OwnerChanged (o : Option HostId) (e detail : Nat) (s t : State) : Prop where
  bus : t.bus = { s.bus with owner := o, chgCnt := satInc s.bus.chgCnt 255 }
  entry : s.ev.queue.length < 512 → ∃ q ∈ t.ev.queue, q.id = e ∧ q.detail = word detail
  frame : Within [.bus, .ev] s t

theorem replBusy_congr {s t : State} (h : t.ldr = s.ldr) : replBusy t = replBusy s := by simp only [replBusy, h]
theorem replAbort_of_idle {s : State} (hr : replBusy s = false) : replAbort s = s := if_neg (by simp [hr])

theorem setOwner_changes {s : State} (o : Option HostId) (e : SourceId) (detail : Nat) (hq : Quiet s e.val) (hn : occurredNow s e.val = false)
    (ha : alwaysJournaled e.val = true) (hr : replBusy s = false) : OwnerChanged o e.val detail s (setOwner o e.val detail s) := by
  let y : State := { s with bus := { s.bus with owner := o, chgCnt := satInc s.bus.chgCnt 255 } }
  have hy : Within [.bus] s y := within_set_bus s _
  have hqy : Quiet y e.val := (quiet_congr rfl e.val).mpr hq
  have hev : Within [.ev] y (occur e.val (word detail) y) := occur_quiet _ hqy
  have hrun : setOwner o e.val detail s = occur e.val (word detail) y :=
    replAbort_of_idle ((replBusy_congr (hev .ldr (by decide))).trans hr)
  rw [hrun]
  refine ⟨hev .bus (by decide), fun hroom => ?_, (hy.mono (by decide)).step hev (by decide)⟩
  rw [occur_of_quiet _ hqy hn, ha, Bool.or_true, if_pos rfl]
  obtain ⟨-, q, hmem, hid, hdetail, -⟩ := journaled_room (y.latched e.val (word detail)) e (word detail) (by rw [latched_queue]; exact hroom)
  exact ⟨q, hmem, hid, hdetail⟩

/-- The same from the state in which the word's transaction opened. -/
theorem OwnerChanged.of_opened {o : Option HostId} {e detail : Nat} {s t : State} {h : HostId} {a : Nat} (hx : OwnerChanged o e detail (s.opened h a) t) :
    t.bus.owner = o ∧ t.bus.chgCnt = satInc s.bus.chgCnt 255
      ∧ (s.ev.queue.length < 512 → ∃ q ∈ t.ev.queue, q.id = e ∧ q.detail = word detail) ∧ Within [.bus, .ev] s t := by
  refine ⟨by rw [hx.bus], by rw [hx.bus]; exact congrArg (satInc · 255) (opened_chgCnt s h a), fun hroom => hx.entry ?_, opened_frame (by decide) hx.frame⟩
  rwa [opened_ev]

section
variable {s : State} {h : HostId} {w : Word} (hw : fld w 9 8 = 1)
include hw

theorem claimWrite_of_free (ho : s.bus.owner = none) : claimWrite h w s = setOwner (some h) 132 (hostCode h) s := by
  unfold claimWrite
  rw [if_pos hw, ho]

theorem claimWrite_of_own (ho : s.bus.owner = some h) : claimWrite h w s = s := by
  unfold claimWrite
  rw [if_pos hw, ho]
  exact if_pos rfl

variable {o : HostId} (ho : s.bus.owner = some o) (hne : o ≠ h)
include ho hne

theorem claimWrite_of_taken (hfree : (s.host o).alive = false ∨ armOpen s = true) :
    claimWrite h w s = setOwner (some h) 133 (hostCode h + if (s.host o).alive = false then 0 else 2) s := by
  unfold claimWrite
  rw [if_pos hw, ho]
  dsimp only
  rw [if_neg hne]
  by_cases halive : (s.host o).alive = false
  · rw [if_pos halive, if_pos halive, Nat.add_zero]
  · rw [if_neg halive, if_neg halive, if_pos (hfree.resolve_left halive)]

theorem claimWrite_of_held (halive : (s.host o).alive = true) (harm : armOpen s = false) : claimWrite h w s = claimRefuse h Reg.claim.addr s := by
  unfold claimWrite
  rw [if_pos hw, ho]
  dsimp only
  rw [if_neg hne, if_neg (by simp [halive]), if_neg (by simp [harm])]

end

theorem claimWrite_of_release {s : State} {h : HostId} {w : Word} (hw : fld w 9 8 = 2) :
    claimWrite h w s = if s.bus.owner = some h then setOwner none 134 (hostCode h) s else refuse h s :=
  if_neg (by rw [hw]; decide)

/-- Whose heartbeat has lapsed does not change as a transaction opens. -/
theorem opened_alive (s : State) (h : HostId) (a : Nat) (g : HostId) : ((s.opened h a).host g).alive = (s.host g).alive := by
  by_cases hg : g = h
  · rw [hg, opened_host]
  · rw [opened_host_other s a hg]

end Sys2Proof.Machine
end

section
/-! PROOFS. The statements of 13_management_bus.md on the claim. -/

open Sys2Proof Sys2Proof.Machine

/-- Settles O12: the word lands, and each case of the claim is one branch of its write. -/
theorem claimTakenAndReleased : Obligations.ClaimTakenAndReleased := by
  intro h s hc hh hev hrepl
  have hquiet : ∀ e ∈ [132, 133, 134, 137], Quiet (s.opened h Reg.claim.addr) e ∧ occurredNow (s.opened h Reg.claim.addr) e = false := fun e he =>
    ⟨opened_quiet h _ (hev e he).1, (opened_occurredNow ..).trans (hev e he).2⟩
  have hidle : replBusy (s.opened h Reg.claim.addr) = false := by unfold replBusy; rw [opened_ldr]; exact hrepl
  have harm : armOpen (s.opened h Reg.claim.addr) = armOpen s := by unfold armOpen; rw [opened_ka]
  have hchange := fun (o : Option HostId) (e : SourceId) (he : e.val ∈ [132, 133, 134, 137]) (ha : alwaysJournaled e.val = true) detail =>
    (setOwner_changes o e detail (hquiet e.val he).1 (hquiet e.val he).2 ha hidle).of_opened
  have howner : ∀ {x}, s.bus.owner = x → (s.opened h Reg.claim.addr).bus.owner = x := fun ho => (opened_owner ..).trans ho
  have hrun : ∀ w : Word, fld w 9 8 = 1 ∨ fld w 9 8 = 2 → writeAt h .claim w s = claimWrite h w (s.opened h Reg.claim.addr) := fun w hw =>
    writeAt_of_lands (claim_lands hc hh hw)
  have htake : fld 0x100#32 9 8 = 1 := by decide
  have hrelease : fld 0x200#32 9 8 = 2 := by decide
  refine ⟨⟨_, congrArg Host.Outcome.next (hrun _ (.inl htake)), ?_⟩, ⟨_, congrArg Host.Outcome.next (hrun _ (.inr hrelease)), ?_⟩⟩
  · cases ho : s.bus.owner with
    | none =>
      rw [claimWrite_of_free htake (howner ho)]
      obtain ⟨hto, hcnt, hentry, hframe⟩ := hchange (some h) 132 (by decide) rfl (hostCode h)
      exact ⟨hframe, hto, hcnt, hentry⟩
    | some o =>
      dsimp only
      by_cases hself : o = h
      · rw [if_pos hself, claimWrite_of_own htake (howner (hself ▸ ho))]
        exact ⟨(opened_within s h _).mono (by decide), rfl⟩
      · rw [if_neg hself]
        by_cases hfree : (s.host o).alive = false ∨ armOpen s = true
        · rw [if_pos hfree, claimWrite_of_taken htake (howner ho) hself (by rwa [opened_alive, harm]), opened_alive]
          obtain ⟨hto, hcnt, hentry, hframe⟩ := hchange (some h) 133 (by decide) rfl (hostCode h + if (s.host o).alive = false then 0 else 2)
          exact ⟨hframe, hto, hcnt, hentry⟩
        · obtain ⟨halive, hclosed⟩ := not_or.mp hfree
          rw [if_neg hfree, claimWrite_of_held htake (howner ho) hself (by rw [opened_alive]; simpa using halive) (by rw [harm]; simpa using hclosed)]
          have hcounted := (claimRefuse_host h Reg.claim.addr (s.opened h Reg.claim.addr) h).trans (claimCounted_host h _)
          rw [opened_host] at hcounted
          refine ⟨opened_frame (by decide) (claimRefuse_quiet (hquiet 137 (by decide)).1 _), ?_, by rw [hcounted], by rw [hcounted]⟩
          rw [claimRefuse_bus]
          exact (by cases h <;> rfl : _ = (s.opened h Reg.claim.addr).bus.owner).trans (howner ho)
  · rw [claimWrite_of_release hrelease, opened_owner]
    by_cases ho : s.bus.owner = some h
    · rw [if_pos ho, if_pos ho]
      obtain ⟨hto, hcnt, hentry, hframe⟩ := hchange none 134 (by decide) rfl (hostCode h)
      exact ⟨hframe, hto, hcnt, hentry⟩
    · rw [if_neg ho, if_neg ho]
      refine ⟨opened_frame (by decide) ((within_refuse h _).mono (by decide)), ?_, ?_, ?_⟩
      · exact (by cases h <;> rfl : _ = (s.opened h Reg.claim.addr).bus.owner).trans (opened_owner ..)
      · rw [refuse_refCnt, opened_refCnt]
      · rw [refuse_host, opened_host]; rfl

end

section
/-! SUPPORT. Heartbeats: what a refreshing write and a lapse leave, the fall-back of the link among it (R417, R446). -/

namespace Sys2Proof.Machine

/-- An occurrence of one source leaves the bookkeeping of every other. -/
theorem occur_source_other {s : State} {e f : SourceId} (d : Word) (hq : Quiet s e.val) (hf : f ≠ e) :
    (occur e.val d s).source f.val = s.source f.val := by
  by_cases hn : occurredNow s e.val = true
  · rw [occur_of_occurred d hn]
  · rw [occur_of_quiet d hq (by simpa using hn)]
    split
    · exact (journaled_source_other _ e d hf).trans (latched_source_other s e d hf)
    · exact latched_source_other s e d hf

/-- From `s` to `t` a source has occurred, once or more, and stayed inside the event system. -/
structure OnlyEvent (e : SourceId) (s t : State) : Prop where
  frame : Within [.ev] s t
  others : ∀ f : SourceId, f ≠ e → t.source f.val = s.source f.val

theorem OnlyEvent.refl (e : SourceId) (s : State) : OnlyEvent e s s := ⟨Within.refl, fun _ _ => rfl⟩
theorem OnlyEvent.trans {e : SourceId} {s t u : State} (h : OnlyEvent e s t) (h' : OnlyEvent e t u) : OnlyEvent e s u :=
  ⟨h.frame.trans h'.frame, fun f hf => (h'.others f hf).trans (h.others f hf)⟩
theorem onlyEvent_occur {e : SourceId} {s : State} (d : Word) (hq : Quiet s e.val) : OnlyEvent e s (occur e.val d s) :=
  ⟨occur_quiet d hq, fun _ hf => occur_source_other d hq hf⟩

/-- The occurrences of one source for some of the entries of a list. -/
theorem onlyEvent_foldl {α : Type} (e : SourceId) (p : α → Bool) (d : α → Word) (l : List α) {s : State} (hq : Quiet s e.val) :
    OnlyEvent e s (l.foldl (fun x a => if p a then occur e.val (d a) x else x) s) := by
  induction l generalizing s with
  | nil => exact OnlyEvent.refl e s
  | cons a l ih =>
    rw [List.foldl_cons]
    split
    · have h1 := onlyEvent_occur (d a) hq
      exact h1.trans (ih ((quiet_congr (h1.frame .settings (by decide)) e.val).mpr hq))
    · exact ih hq

/-- Changes of authority latch event 148 alone. -/
theorem authorityEvents_quiet (cause : Bool → Nat) (s0 : State) {s : State} (hq : Quiet s 148) : OnlyEvent 148 s (authorityEvents cause s0 s) :=
  onlyEvent_foldl 148 (fun k => linkAuth s k != linkAuth s0 k) (fun k => word (k.val + atB (linkAuth s k) 3 + at_ (cause (linkAuth s k)) 2 4)) allRails hq

/-- Fall-back begins or ends, with nothing else but the events of the rails whose authority it changes. -/
theorem setFallback_quiet (b : Bool) {s : State} (hq : Quiet s 148) :
    (setFallback b s).link = { s.link with fallback := b } ∧ OnlyEvent 148 { s with link := { s.link with fallback := b } } (setFallback b s) := by
  unfold setFallback
  split
  · next hb => subst hb; exact ⟨rfl, OnlyEvent.refl 148 s⟩
  · have hev := authorityEvents_quiet (fun _ => if b then 1 else 2) s (s := { s with link := { s.link with fallback := b } }) ((quiet_congr rfl 148).mpr hq)
    exact ⟨hev.frame .link (by decide), hev⟩

theorem setFallback_within (b : Bool) {s : State} (hq : Quiet s 148) : Within [.link, .ev] s (setFallback b s) :=
  ((within_set_link s _).mono (by decide)).step (setFallback_quiet b hq).2.frame (by decide)
theorem setFallback_host (b : Bool) {s : State} (hq : Quiet s 148) (g : HostId) : (setFallback b s).host g = s.host g :=
  (setFallback_within b hq).host_eq (by decide) g
theorem setFallback_source (b : Bool) {s : State} (hq : Quiet s 148) {f : SourceId} (hf : f ≠ 148) : (setFallback b s).source f.val = s.source f.val :=
  (setFallback_quiet b hq).2.others f hf

/-- A refreshed heartbeat (R417). -/
def HostRegs.beat (r : HostRegs) (data : Word) (now : Nat) : HostRegs := { r with hbCount := BitVec.ofNat 8 data.toNat, hbAt := some now, alive := true }

theorem hbWrite_own (h : HostId) (data : Word) (s : State) : hbWrite h h data s = setFallback false (s.modHost h fun r => r.beat data s.now) := if_pos rfl
theorem hbWrite_other {h g : HostId} (hg : g ≠ h) (data : Word) (s : State) : hbWrite h g data s = refuse h s := if_neg (Ne.symm hg)

theorem writeReg_hbReg (h g : HostId) (data : Word) (s : State) : indexStep h (hbReg g) (writeReg true h (hbReg g) data s) = hbWrite h g data s := by
  cases g <;> rfl

/-- The source of a host's heartbeat lapse (R421). -/
def lapseSource : HostId → SourceId
  | .a => 135 | .b => 136

/-- The heartbeat of a host has been missed for longer than HOST_WDT (R417). -/
def HeartbeatMissed (s : State) (g : HostId) (at' : Nat) : Prop :=
  coreOn s = true ∧ (s.host g).hbAt = some at' ∧ (s.host g).alive = true ∧ hostWdt s ≠ 0 ∧ at' + ms (hostWdt s) < s.now

/-- The state in which the lapse of a host's heartbeat has been reported (R421). -/
def State.lapsed (s : State) (g : HostId) : State :=
  occur (lapseSource g).val (word (atB (s.bus.owner == some g) 0)) (s.modHost g fun r => { r with alive := false })

theorem heartbeatLapse_of_missed {s : State} {g : HostId} {at' : Nat} (hm : HeartbeatMissed s g at') :
    heartbeatLapse g s = if (s.lapsed g).bus.hostA.alive || (s.lapsed g).bus.hostB.alive then s.lapsed g else setFallback true (s.lapsed g) := by
  obtain ⟨hc, hat, halive, hwdt, hlate⟩ := hm
  unfold heartbeatLapse
  dsimp only
  rw [hat]
  dsimp only
  rw [if_pos (by simp [hc, halive, hwdt, hlate])]
  cases g <;> rfl

section
variable {s : State} {g : HostId} (hq : Quiet s (lapseSource g).val)
include hq

theorem lapsed_event : Within [.ev] (s.modHost g fun r => { r with alive := false }) (s.lapsed g) :=
  occur_quiet _ ((quiet_congr (within_State_modHost s g _ .settings (by decide)) _).mpr hq)
theorem lapsed_within : Within [.bus, .ev] s (s.lapsed g) := ((within_State_modHost s g _).mono (by decide)).step (lapsed_event hq) (by decide)
theorem lapsed_host : (s.lapsed g).host g = { s.host g with alive := false } := ((lapsed_event hq).host_eq (by decide) g).trans (modHost_host ..)
theorem lapsed_host_other {f : HostId} (hf : f ≠ g) : (s.lapsed g).host f = s.host f :=
  ((lapsed_event hq).host_eq (by decide) f).trans (modHost_other s _ hf)
theorem lapsed_latches (hn : occurredNow s (lapseSource g).val = false) (hen : evEn s (lapseSource g).val = true)
    (hlatch : evLatchEn s (lapseSource g).val = true) : ((s.lapsed g).source (lapseSource g).val).latch = true := by
  cases g <;> exact occur_latches _ _ ((quiet_congr rfl _).mpr hq) hn hen hlatch

/-- The lapse is reported, and the fall-back that may begin with it leaves the hosts and the other sources alone. -/
theorem heartbeatLapse_reports {at' : Nat} (hm : HeartbeatMissed s g at') (hq148 : Quiet s 148) :
    (∀ f, (heartbeatLapse g s).host f = (s.lapsed g).host f)
      ∧ (∀ f : SourceId, f ≠ 148 → (heartbeatLapse g s).source f.val = (s.lapsed g).source f.val)
      ∧ Within [.bus, .link, .ev] s (heartbeatLapse g s) := by
  have hin := lapsed_within hq
  have hq' : Quiet (s.lapsed g) 148 := (quiet_congr (hin .settings (by decide)) 148).mpr hq148
  rw [heartbeatLapse_of_missed hm]
  split
  · exact ⟨fun _ => rfl, fun _ _ => rfl, hin.mono (by decide)⟩
  · exact ⟨setFallback_host true hq', fun f hf => setFallback_source true hq' hf, (hin.mono (by decide)).step (setFallback_within true hq') (by decide)⟩

end

theorem heartbeatLapse_of_not_due {s : State} {g : HostId}
    (hn : hostWdt s = 0 ∨ ∃ at', (s.host g).hbAt = some at' ∧ s.now ≤ at' + ms (hostWdt s)) : heartbeatLapse g s = s := by
  unfold heartbeatLapse
  dsimp only
  rcases hn with hzero | ⟨at', hat, hlate⟩
  · split
    · rfl
    · exact if_neg (by simp [hzero])
  · rw [hat]
    exact if_neg (by simp [Nat.not_lt.mpr hlate])

end Sys2Proof.Machine
end

section
/-! PROOFS. The statements of 13_management_bus.md on the heartbeats. -/

open Sys2Proof Sys2Proof.Machine

/-- Settles O13: a host's own word refreshes and ends the fall-back, the other's is refused, and a missed heartbeat is reported. -/
theorem heartbeatKeptAndLapsed : Obligations.HeartbeatKeptAndLapsed := by
  intro h s hc hh hev
  refine ⟨fun w => ?_, fun g w hg => ?_, fun at' hat halive hwdt hlate => ?_, fun hn => congrArg Host.Outcome.next (heartbeatLapse_of_not_due hn)⟩
  · let o := s.opened h (hbReg h).addr
    let x := o.modHost h fun r => r.beat w o.now
    have hx : Within [.bus] s x := (opened_within s h _).trans (within_State_modHost _ h _)
    have hq : Quiet x 148 := (quiet_congr (hx .settings (by decide)) 148).mpr (hev 148 (by decide))
    have hrun : writeAt h (hbReg h) w s = setFallback false x :=
      (writeAt_of_lands (hbReg_lands w hc hh (.inl rfl))).trans ((writeReg_hbReg ..).trans (hbWrite_own ..))
    have hself : (setFallback false x).host h = (o.host h).beat w o.now := (setFallback_host false hq h).trans (modHost_host ..)
    refine ⟨_, congrArg Host.Outcome.next hrun, by rw [hself]; rfl, ?_, by rw [hself]; rfl, fun g hg => ?_, ?_, ?_⟩
    · rw [hself]; exact congrArg some (opened_now s h _)
    · rw [setFallback_host false hq g]
      exact (modHost_other o _ hg).trans (opened_host_other s _ hg)
    · rw [(setFallback_quiet false hq).1]
    · exact (hx.mono (by decide)).trans ((setFallback_within false hq).mono (by decide))
  · let o := s.opened h (hbReg g).addr
    have hother : o.host g = s.host g := opened_host_other s _ hg
    by_cases ho : s.bus.owner = some h
    · have hrun : writeAt h (hbReg g) w s = refuse h o :=
        (writeAt_of_lands (hbReg_lands w hc hh (.inr ho))).trans ((writeReg_hbReg ..).trans (hbWrite_other hg w o))
      have hself : (refuse h o).host h = (o.host h).refuse := refuse_host h o
      rw [opened_host] at hself
      refine ⟨_, congrArg Host.Outcome.next hrun, (refuse_host_other o hg).trans hother, by rw [hself]; rfl, by rw [hself]; rfl, by rw [hself]; rfl,
        by rw [hself]; rfl, opened_frame (by decide) ((within_refuse h o).mono (by decide))⟩
    · have hrun : writeAt h (hbReg g) w s = claimRefuse h (hbReg g).addr o :=
        (writeAt_unclaimed w hc hh (by cases g <;> cases h <;> first | rfl | exact absurd rfl hg) ho).trans (by cases g <;> rfl)
      have hcounted := claimRefuse_host h (hbReg g).addr o
      have hself := (hcounted h).trans (claimCounted_host h o)
      rw [opened_host] at hself
      refine ⟨_, congrArg Host.Outcome.next hrun, ?_, by rw [hself], by rw [hself], by rw [hself], by rw [hself],
        opened_frame (by decide) (claimRefuse_quiet (opened_quiet h _ (hev 137 (by decide))) _)⟩
      exact (hcounted g).trans ((claimCounted_host_other o hg).trans hother)
  · have hq : Quiet s (lapseSource h).val := hev _ (by cases h <;> decide)
    have hq148 : Quiet s 148 := hev 148 (by decide)
    obtain ⟨hhost, hsource, hframe⟩ := heartbeatLapse_reports hq ⟨hc, hat, halive, hwdt, hlate⟩ hq148
    refine ⟨_, rfl, by rw [hhost, lapsed_host hq], fun g hg => (hhost g).trans (lapsed_host_other hq hg), fun e he hn hen hlatch => ?_, hframe⟩
    have hsrc : e = (lapseSource h).val := he.trans (by cases h <;> rfl)
    subst hsrc
    rw [hsource _ (by cases h <;> decide)]
    exact lapsed_latches hq hn hen hlatch

end

section
/-! SUPPORT. Writes that commit no word (R405 to R407). -/

namespace Sys2Proof.Machine

theorem coreOn_of_pecOn {s : State} (hp : pecOn s = true) : coreOn s = true := by
  have hup : (s.pwr.phase == .up) = true := (Bool.and_eq_true_iff.mp hp).1
  simp [coreOn, hup]

theorem registerWrite_coded {s : State} (hp : pecOn s = true) (hh : s.bus.holdFrom = none) (h : HostId) (a : Addr) (words : List Word)
    (pec : Option Byte) : registerWrite h a words pec s = writeCoded h a.toNat words pec s := by
  unfold registerWrite
  rw [if_neg (by simp [busAnswers_of_core (coreOn_of_pecOn hp) hh]), if_pos hp]

/-- The address bytes of an access move the pointer of its host alone. -/
theorem addressPhase_host (h g : HostId) (a n : Nat) (s : State) :
    ((addressPhase h a n s).host g) = { s.host g with ptr := ((addressPhase h a n s).host g).ptr } := by
  cases h <;> cases g <;> rfl
theorem addressPhase_owner (h : HostId) (a n : Nat) (s : State) : (addressPhase h a n s).bus.owner = s.bus.owner := by cases h <;> rfl
theorem addressPhase_pecCnt (h : HostId) (a n : Nat) (s : State) : (addressPhase h a n s).bus.pecCnt = s.bus.pecCnt := by cases h <;> rfl
theorem pecOf_addressPhase (h : HostId) (a n b : Nat) (words : List Word) (s : State) :
    pecOf (addressPhase h a n s) h b words = pecOf s h b words := by cases h <;> rfl

theorem writeCoded_of_long {words : List Word} (hl : 16 < words.length) (h : HostId) (a : Nat) (pec : Option Byte) (s : State) :
    ∃ b, writeCoded h a words pec s = { addressPhase h a (min words.length 16) s with bus := b }
      ∧ b = { (addressPhase h a (min words.length 16) s).bus with nak := true, codeAt := 0 } := ⟨_, if_pos hl, rfl⟩

theorem writeCoded_of_missing {words : List Word} (hl : words.length ≤ 16) (h : HostId) (a : Nat) (s : State) :
    ∃ b, writeCoded h a words none s = { addressPhase h a (min words.length 16) s with bus := b }
      ∧ b = { (addressPhase h a (min words.length 16) s).bus with nak := false, codeAt := 0 } := ⟨_, if_neg (Nat.not_lt.mpr hl), rfl⟩

theorem writeCoded_of_wrong {words : List Word} (hl : words.length ≤ 16) {h : HostId} {a : Nat} {p : Byte} {s : State}
    (hp : p.toNat ≠ pecOf s h a words) :
    ∃ d b, writeCoded h a words (some p) s = occur 129 d { addressPhase h a (min words.length 16) s with bus := b }
      ∧ b = { (addressPhase h a (min words.length 16) s).bus with
                nak := true, codeAt := 4 * words.length + 1, pecCnt := satInc s.bus.pecCnt 255
                stat := (addressPhase h a (min words.length 16) s).bus.stat ||| 2 } := by
  refine ⟨_, _, ((if_neg (Nat.not_lt.mpr hl)).trans (if_neg (by rwa [pecOf_addressPhase]))), ?_⟩
  rw [addressPhase_pecCnt]

/-- What a bus unit that differs from an opened access's in neither host says of the hosts and the claim. -/
theorem hosts_of_addressPhase {h : HostId} {a n : Nat} {s t : State} (hA : t.bus.hostA = (addressPhase h a n s).bus.hostA)
    (hB : t.bus.hostB = (addressPhase h a n s).bus.hostB) (g : HostId) : t.host g = { s.host g with ptr := (t.host g).ptr } := by
  have hg : t.host g = (addressPhase h a n s).host g := by
    cases g
    · exact hA
    · exact hB
  rw [hg]
  exact addressPhase_host h g a n s

end Sys2Proof.Machine
end

section
/-! PROOFS. The statement of 13_management_bus.md on the code of a write. -/

open Sys2Proof Sys2Proof.Machine

/-- Settles O14: none of the three writes reaches a word, so only the transaction, its pointer and the error's event change. -/
theorem wrongCodeCommitsNoWord : Obligations.WrongCodeCommitsNoWord := by
  intro h a words s hp hh hq
  have hopen := within_addressPhase h a.toNat (min words.length 16) s
  refine ⟨fun p hl hwrong => ?_, fun hl => ?_, fun pec hl => ?_⟩
  · obtain ⟨d, b, hrun, hb⟩ := writeCoded_of_wrong hl hwrong
    let x : State := { addressPhase h a.toNat (min words.length 16) s with bus := b }
    have hx : Within [.bus] s x := hopen.trans (within_set_bus _ b)
    have hev : Within [.ev] x (occur 129 d x) := occur_quiet d ((quiet_congr (hx .settings (by decide)) 129).mpr hq)
    have hbus : (occur 129 d x).bus = b := hev .bus (by decide)
    refine ⟨_, congrArg Host.Outcome.next ((registerWrite_coded hp hh ..).trans hrun), ?_, ?_, ?_,
      hosts_of_addressPhase (h := h) (a := a.toNat) (n := min words.length 16) ?_ ?_, ?_,
      (hx.mono (by decide)).step hev (by decide)⟩
    · rw [hbus, hb]
    · rw [hbus, hb]
    · rw [hbus, hb]; simp
    · rw [hbus, hb]
    · rw [hbus, hb]
    · rw [hbus, hb]; exact addressPhase_owner h a.toNat (min words.length 16) s
  · obtain ⟨b, hrun, rfl⟩ := writeCoded_of_missing hl h a.toNat s
    exact ⟨_, congrArg Host.Outcome.next ((registerWrite_coded hp hh ..).trans hrun), rfl,
      hosts_of_addressPhase (h := h) (a := a.toNat) (n := min words.length 16) rfl rfl, addressPhase_owner h a.toNat (min words.length 16) s,
      hopen.trans (within_set_bus _ _)⟩
  · obtain ⟨b, hrun, rfl⟩ := writeCoded_of_long hl h a.toNat pec s
    exact ⟨_, congrArg Host.Outcome.next ((registerWrite_coded hp hh ..).trans hrun), rfl,
      hosts_of_addressPhase (h := h) (a := a.toNat) (n := min words.length 16) rfl rfl, addressPhase_owner h a.toNat (min words.length 16) s,
      hopen.trans (within_set_bus _ _)⟩

end

section
/-! SUPPORT. The ends of a transaction: what each counts, and the window that is published then (R403 to R414, R378). -/

namespace Sys2Proof.Machine

/-! The window that waits for the end (R378) -/

theorem telBusy_of_closed {s : State} (ht : s.bus.txn = none) : telBusy s = false := by simp [telBusy, ht]

theorem telemetrySwap_of_none {s : State} (hw : s.tel.wait = none) : telemetrySwap s = s := by simp [telemetrySwap, hw]

theorem telemetrySwap_of_busy {s : State} (hb : telBusy s = true) : telemetrySwap s = s := if_pos hb

theorem telemetrySwap_of_waiting {s : State} {w : TelWindow} (hb : telBusy s = false) (hw : s.tel.wait = some w) :
    telemetrySwap s = publish w w.seq s := by simp [telemetrySwap, hb, hw]

/-- With no transaction in the block no window waits after the swap. -/
theorem telemetrySwap_wait {s : State} (hb : telBusy s = false) : (telemetrySwap s).tel.wait = none := by
  cases hw : s.tel.wait with
  | none => rw [telemetrySwap_of_none hw, hw]
  | some w => rw [telemetrySwap_of_waiting hb hw]; rfl

/-- The open transaction is over. -/
def Bus.closed (b : Bus) : Bus := { b with txn := none, codeAt := 0, surplus := false, rest := none }

@[simp] theorem closeTxn_bus (s : State) : (closeTxn s).bus = s.bus.closed := within_telemetrySwap _ .bus (by decide)
@[simp] theorem closeTxn_wait (s : State) : (closeTxn s).tel.wait = none := telemetrySwap_wait (telBusy_of_closed rfl)
theorem closeTxn_tel {s : State} (hw : s.tel.wait = none) : (closeTxn s).tel = s.tel := by
  have h : closeTxn s = { s with bus := s.bus.closed } := telemetrySwap_of_none (s := { s with bus := s.bus.closed }) hw
  rw [h]

/-! The one protocol error (R421) -/

/-- The interface with one protocol error more. -/
def Bus.errored (b : Bus) : Bus := { b with protoCnt := satInc b.protoCnt 255, stat := b.stat ||| 1 }

/-- The occurrence of a source that stays inside the event system, after a change of the bus interface alone. -/
theorem occur_after_bus {s : State} {e : Nat} (hq : Quiet s e) (d : Word) (b : Bus) :
    Within [.bus, .ev] s (occur e d { s with bus := b }) ∧ (occur e d { s with bus := b }).bus = b :=
  have hev : Within [.ev] { s with bus := b } (occur e d { s with bus := b }) := occur_quiet d hq
  ⟨((within_set_bus s b).mono (by decide)).step hev (by decide), hev .bus (by decide)⟩

theorem within_protoError_quiet {s : State} (hq : Quiet s 128) (h : HostId) (n : Nat) : Within [.bus, .ev] s (protoError h n s) :=
  (occur_after_bus hq _ _).1
theorem protoError_bus {s : State} (hq : Quiet s 128) (h : HostId) (n : Nat) : (protoError h n s).bus = s.bus.errored :=
  (occur_after_bus hq _ _).2

theorem Bus.errored_stat (b : Bus) : b.errored.stat.getLsbD 0 = true := by simp [Bus.errored]

/-- Both hosts' registers and the claim stand in `c` as in `b`. -/
def Bus.SameHosts (b c : Bus) : Prop := c.hostA = b.hostA ∧ c.hostB = b.hostB ∧ c.owner = b.owner

theorem Bus.SameHosts.host_eq {s t : State} (hb : s.bus.SameHosts t.bus) (g : HostId) : t.host g = s.host g := by
  obtain ⟨hA, hB, -⟩ := hb
  cases g
  · exact hA
  · exact hB

/-! The surplus bytes of the transaction that is cut short (R403, R404, R407) -/

/-- The open transaction stands past its last byte, and its error has not been counted. -/
def SurplusUncounted (n : Nat) (s : State) : Prop :=
  s.bus.txn ≠ none ∧ s.bus.surplus = false ∧ pastMost s s.bus.shape.write (n - 1 - s.bus.shape.lead) = true

/-- The interface after the surplus bytes of the open transaction have made their error. -/
def Bus.surplusErrored (b : Bus) : Bus := { b with nak := b.nak || b.shape.write, surplus := true }.errored

theorem countSurplus_of_counted {n : Nat} {s : State} (hc : ¬ SurplusUncounted n s) : countSurplus n s = s := by
  unfold countSurplus
  cases ht : s.bus.txn with
  | none => rfl
  | some p =>
    refine if_neg fun hpast => hc ?_
    rw [Bool.and_eq_true, Bool.not_eq_true'] at hpast
    exact ⟨by simp [ht], hpast.2, hpast.1⟩

theorem countSurplus_of_uncounted {n : Nat} {s : State} (hc : SurplusUncounted n s) (hq : Quiet s 128) :
    Within [.bus, .ev] s (countSurplus n s) ∧ (countSurplus n s).bus = s.bus.surplusErrored := by
  obtain ⟨ht, hsur, hpast⟩ := hc
  obtain ⟨p, hp⟩ := Option.ne_none_iff_exists'.mp ht
  unfold countSurplus
  rw [hp]
  simp only [hpast, hsur, Bool.not_false, Bool.and_true, if_true]
  exact occur_after_bus hq _ s.bus.surplusErrored

/-- Counting the surplus bytes adds one protocol error where they had made none, and leaves the hosts, the claim and the telemetry. -/
theorem countSurplus_counts (n : Nat) {s : State} (hq : Quiet s 128) :
    Within [.bus, .ev] s (countSurplus n s) ∧ s.bus.SameHosts (countSurplus n s).bus
      ∧ (SurplusUncounted n s → (countSurplus n s).bus.protoCnt = satInc s.bus.protoCnt 255)
      ∧ (¬ SurplusUncounted n s → (countSurplus n s).bus.protoCnt = s.bus.protoCnt)
      ∧ (countSurplus n s).bus.toutCnt = s.bus.toutCnt ∧ (countSurplus n s).bus.relCnt = s.bus.relCnt := by
  by_cases hc : SurplusUncounted n s
  · obtain ⟨hW, hb⟩ := countSurplus_of_uncounted hc hq
    rw [hb]
    exact ⟨hW, ⟨rfl, rfl, rfl⟩, fun _ => rfl, fun hn => absurd hc hn, rfl, rfl⟩
  · rw [countSurplus_of_counted hc]
    exact ⟨Within.refl, ⟨rfl, rfl, rfl⟩, fun hs => absurd hs hc, fun _ => rfl, rfl, rfl⟩

/-! The end of a transaction -/

theorem transactionEnd_of_clean {s : State} {write : Bool} {bytes : Nat} (hb : busAnswers s = true) (he : endError s write bytes = false)
    (h : HostId) (position : Byte) :
    transactionEnd h write position bytes s = closeTxn { s with bus := { s.bus with nak := s.bus.nak || endNak s write bytes } } := by
  simp [transactionEnd, hb, he]

theorem transactionEnd_of_error {s : State} {write : Bool} {bytes : Nat} (hb : busAnswers s = true) (he : endError s write bytes = true)
    (h : HostId) (position : Byte) :
    transactionEnd h write position bytes s
      = protoError h position.toNat (closeTxn { s with bus := { s.bus with nak := s.bus.nak || endNak s write bytes } }) := by
  simp [transactionEnd, hb, he]

/-- What the end of a transaction that made an error leaves. -/
theorem transactionEnd_counts {s : State} {write : Bool} {bytes : Nat} (hb : busAnswers s = true) (hq : Quiet s 128)
    (he : endError s write bytes = true) (h : HostId) (position : Byte) :
    ∃ t, exec (.transactionEnd h write position bytes) s = .next t ∧ t.bus.protoCnt = satInc s.bus.protoCnt 255 ∧ t.bus.txn = none
      ∧ (∀ g, t.host g = s.host g) ∧ t.tel.wait = none ∧ (s.tel.wait = none → t.tel = s.tel) ∧ Within [.bus, .tel, .ev] s t := by
  let x : State := { s with bus := { s.bus with nak := s.bus.nak || endNak s write bytes } }
  have hx : Within [.bus, .tel] s (closeTxn x) := ((within_set_bus s x.bus).mono (by decide)).step (within_closeTxn x) (by decide)
  have hqx : Quiet (closeTxn x) 128 := (quiet_congr (hx .settings (by decide)) 128).mpr hq
  have hW := within_protoError_quiet hqx h position.toNat
  have hbus : (protoError h position.toNat (closeTxn x)).bus = x.bus.closed.errored := by rw [protoError_bus hqx, closeTxn_bus]
  have htel : (protoError h position.toNat (closeTxn x)).tel = (closeTxn x).tel := hW .tel (by decide)
  refine ⟨_, congrArg Host.Outcome.next (transactionEnd_of_error hb he h position), ?_, ?_, ?_, ?_, ?_,
    (hx.mono (by decide)).step hW (by decide)⟩
  · rw [hbus]; rfl
  · rw [hbus]; rfl
  · exact Bus.SameHosts.host_eq (by rw [hbus]; exact ⟨rfl, rfl, rfl⟩)
  · rw [htel, closeTxn_wait]
  · exact fun hw => htel.trans (closeTxn_tel (s := x) hw)

/-- What the end of a transaction without an error leaves, where its last byte was acknowledged or had been answered N before. -/
theorem transactionEnd_closes {s : State} {write : Bool} {bytes : Nat} (hb : busAnswers s = true) (he : endError s write bytes = false)
    (hn : endNak s write bytes = true → s.bus.nak = true) (h : HostId) (position : Byte) :
    ∃ t, exec (.transactionEnd h write position bytes) s = .next t ∧ t.bus = s.bus.closed ∧ t.tel.wait = none
      ∧ (s.tel.wait = none → t.tel = s.tel) ∧ Within [.bus, .tel] s t := by
  have hnak : (s.bus.nak || endNak s write bytes) = s.bus.nak := by
    cases hc : endNak s write bytes
    · exact Bool.or_false _
    · rw [hn hc]; rfl
  have hrun : exec (.transactionEnd h write position bytes) s = .next (closeTxn s) := by
    refine congrArg Host.Outcome.next ((transactionEnd_of_clean hb he h position).trans ?_)
    rw [hnak]
  exact ⟨_, hrun, closeTxn_bus s, closeTxn_wait s, closeTxn_tel, (within_closeTxn s).mono (by decide)⟩

theorem pastMost_write (s : State) (bytes : Nat) :
    pastMost s true bytes = (if coded s = true then decide (s.bus.codeAt ≠ 0 ∧ s.bus.codeAt < bytes) else decide (64 < bytes)) := by
  cases hc : coded s <;> simp [pastMost, mostBytes, hc, Nat.pos_iff_ne_zero]

theorem pastMost_read (s : State) (bytes : Nat) : pastMost s false bytes = (if coded s = true then decide (65 < bytes) else decide (64 < bytes)) := by
  cases hc : coded s <;> simp [pastMost, mostBytes, hc]

/-- The reset of a hung interface, under the cause's own counter and event. -/
theorem hungReset_leaves {e n : Nat} {s : State} (d : Word) (b : Bus → Bus) (hq : Quiet s 128) (hqe : Quiet s e)
    (hb : ∀ c : Bus, c.SameHosts (b c) ∧ (b c).protoCnt = c.protoCnt) :
    let r := interfaceReset { countSurplus n s with bus := b (countSurplus n s).bus }
    Within [.bus, .tel, .ev] s (occur e d r) ∧ (occur e d r).bus = r.bus ∧ (occur e d r).tel.wait = none ∧ s.bus.SameHosts r.bus
      ∧ r.bus.protoCnt = (countSurplus n s).bus.protoCnt ∧ r.bus.txn = none ∧ r.bus.holdFrom = none
      ∧ r.bus.toutCnt = (b (countSurplus n s).bus).toutCnt ∧ r.bus.relCnt = (b (countSurplus n s).bus).relCnt := by
  intro r
  obtain ⟨hW, ⟨hA, hB, hO⟩, -⟩ := countSurplus_counts n hq
  obtain ⟨⟨hA', hB', hO'⟩, hp⟩ := hb (countSurplus n s).bus
  have hr : Within [.bus, .tel, .ev] s r :=
    (((hW.trans ((within_set_bus (countSurplus n s) _).mono (by decide))).mono (by decide)).step (within_interfaceReset _) (by decide))
  have hev : Within [.ev] r (occur e d r) := occur_quiet d ((quiet_congr (hr .settings (by decide)) e).mpr hqe)
  have htel : (occur e d r).tel = r.tel := hev .tel (by decide)
  have hrb : r.bus = { b (countSurplus n s).bus with holdFrom := none, nak := false, stat := (b (countSurplus n s).bus).stat ||| 4 }.closed :=
    closeTxn_bus _
  refine ⟨hr.step hev (by decide), hev .bus (by decide), htel ▸ closeTxn_wait _, ?_, ?_, ?_, ?_, ?_, ?_⟩
  · rw [hrb]; exact ⟨hA'.trans hA, hB'.trans hB, hO'.trans hO⟩
  all_goals first | (rw [hrb]; exact hp) | (rw [hrb]; rfl)

theorem commitHoldLimit_of_early {s : State} {t : Nat} (hh : s.bus.holdFrom = some t) (hlt : s.now < t + ms 13) : commitHoldLimit s = s := by
  simp [commitHoldLimit, hh, Nat.not_le.mpr hlt]

theorem commitHoldLimit_of_due {s : State} {t : Nat} (hh : s.bus.holdFrom = some t) (hle : t + ms 13 ≤ s.now) :
    commitHoldLimit s = afterHold { s with bus := { s.bus with holdFrom := none } } := by
  simp [commitHoldLimit, hh, hle]

end Sys2Proof.Machine
end

section
/-! PROOFS. The statements of 13_management_bus.md on the ends of a transaction and on a hung bus. -/

open Sys2Proof Sys2Proof.Machine

/-- Settles O15: an end closes the transaction after its error, if it makes one; `endError` is judged branch by branch. -/
theorem brokenTransactionCountsOneError : Obligations.BrokenTransactionCountsOneError := by
  intro h position s hb hq
  refine ⟨?_, fun bytes hbad => ?_, fun bytes hlong hsur => ?_, fun bytes hok => ?_, fun bytes hok => ?_⟩
  · obtain ⟨hW, hhost, hcounted, hkept, -, -⟩ := countSurplus_counts position.toNat hq
    have hx : Within [.bus, .tel, .ev] s (closeTxn (countSurplus position.toNat s)) := (hW.mono (by decide)).step (within_closeTxn _) (by decide)
    have hqx : Quiet (closeTxn (countSurplus position.toNat s)) 128 := (quiet_congr (hx .settings (by decide)) 128).mpr hq
    have hbus : (protoError h position.toNat (closeTxn (countSurplus position.toNat s))).bus
        = (countSurplus position.toNat s).bus.closed.errored := by rw [protoError_bus hqx, closeTxn_bus]
    have hWp := within_protoError_quiet hqx h position.toNat
    have htel : (protoError h position.toNat (closeTxn (countSurplus position.toNat s))).tel = (closeTxn (countSurplus position.toNat s)).tel :=
      hWp .tel (by decide)
    refine ⟨_, congrArg Host.Outcome.next (if_pos hb), ?_, ?_, ?_, ?_, ?_, fun hw => ?_, hx.step hWp (by decide)⟩
    · rw [hbus]; rfl
    · rw [hbus]
      by_cases hc : SurplusUncounted position.toNat s
      · exact (congrArg (satInc · 255) (hcounted hc)).trans (if_pos hc).symm
      · exact (congrArg (satInc · 255) (hkept hc)).trans (if_neg hc).symm
    · rw [hbus]; exact Bus.errored_stat _
    · exact Bus.SameHosts.host_eq (by rw [hbus]; exact hhost)
    · rw [htel, closeTxn_wait]
    · have hkeep : (countSurplus position.toNat s).tel = s.tel := hW .tel (by decide)
      rw [htel, closeTxn_tel (hkeep ▸ hw), hkeep]
  · refine transactionEnd_counts hb hq ?_ h position
    rw [endError, pastMost_write]
    cases hc : coded s
    · rw [hc, if_neg Bool.false_ne_true] at hbad
      obtain ⟨hle, hpart⟩ | ⟨hlt, hs⟩ := hbad
      · simp [Nat.not_lt.mpr hle, hpart]
      · simp [hlt, hs]
    · rw [hc, if_pos rfl] at hbad
      obtain hno | ⟨hlt, hs⟩ := hbad
      · simp [hno]
      · by_cases hno : s.bus.codeAt = 0 <;> simp [hno, hlt, hs]
  · have he : endError s false bytes = true := by
      rw [endError, pastMost_read]
      cases hc : coded s <;> simp [hc] at hlong ⊢ <;> simp [hlong, hsur]
    obtain ⟨t, hrun, hcnt, htxn, hhost, -, -, hW⟩ := transactionEnd_counts hb hq he h position
    exact ⟨t, hrun, hcnt, htxn, hhost, hW⟩
  · have he : endError s false bytes = false := by
      rw [endError, pastMost_read]
      obtain hle | hs := hok
      · cases hc : coded s <;> simp [hc] at hle ⊢ <;> omega
      · simp [hs]
    obtain ⟨t, hrun, hbus, -, -, hW⟩ := transactionEnd_closes hb he (by simp [endNak]) h position
    exact ⟨t, hrun, hbus, hW⟩
  · have hpast : pastMost s true bytes = true → s.bus.surplus = true ∧ s.bus.nak = true := by
      rw [pastMost_write]
      cases hc : coded s
      · rw [hc, if_neg Bool.false_ne_true] at hok
        obtain ⟨hle, -⟩ | ⟨-, hs⟩ := hok
        · exact fun hlt => absurd (of_decide_eq_true hlt) (Nat.not_lt.mpr hle)
        · exact fun _ => hs
      · rw [hc, if_pos rfl] at hok
        obtain ⟨-, hle | hs⟩ := hok
        · exact fun hlt => absurd (of_decide_eq_true hlt).2 (Nat.not_lt.mpr hle)
        · exact fun _ => hs
    have hwhole : pastMost s true bytes = false → (if coded s then s.bus.codeAt == 0 else bytes % 4 != 0) = false := by
      rw [pastMost_write]
      cases hc : coded s
      · rw [hc, if_neg Bool.false_ne_true] at hok
        obtain ⟨-, hmod⟩ | ⟨hlt, -⟩ := hok
        · simp [hmod]
        · simp [hlt]
      · rw [hc, if_pos rfl] at hok
        simp [hok.1]
    refine transactionEnd_closes hb ?_ (fun hn => (hpast ((Bool.and_eq_true_iff.mp hn).2)).2) h position
    rw [endError]
    cases hp : pastMost s true bytes
    · exact hwhole hp
    · simp [(hpast hp).1]

/-- Settles O16: both causes count the surplus bytes, reset the interface and report; the hold's end is judged by its age alone. -/
theorem hungBusResetsTheInterface : Obligations.HungBusResetsTheInterface := by
  intro position s hstep hq hq130 hq131 uncounted
  obtain ⟨-, -, hcounted, hkept, htout, hrel⟩ := countSurplus_counts position.toNat hq
  have hcount : (countSurplus position.toNat s).bus.protoCnt = (if uncounted then satInc s.bus.protoCnt 255 else s.bus.protoCnt) := by
    by_cases hc : SurplusUncounted position.toNat s
    · exact (hcounted hc).trans (if_pos hc).symm
    · exact (hkept hc).trans (if_neg hc).symm
  refine ⟨?_, ?_, fun from' hfrom => ⟨fun hearly => ?_, fun hdue hrest => ?_, fun h a left ws hdue hrest => ?_⟩⟩
  · obtain ⟨hW, hbus, hwait, hhost, hproto, htxn, hhold, ht, -⟩ :=
      hungReset_leaves (n := position.toNat) 0 (fun b => { b with toutCnt := satInc b.toutCnt 255 }) hq hq130 fun c => ⟨⟨rfl, rfl, rfl⟩, rfl⟩
    refine ⟨_, congrArg Host.Outcome.next (if_pos hstep), ?_, ?_, ?_, ?_, ?_, ?_, hwait, hW⟩
    · exact (congrArg Bus.toutCnt hbus).trans (ht.trans (congrArg (satInc · 255) htout))
    · exact (congrArg Bus.txn hbus).trans htxn
    · exact (congrArg Bus.holdFrom hbus).trans hhold
    · exact (congrArg Bus.protoCnt hbus).trans (hproto.trans hcount)
    · exact Bus.SameHosts.host_eq (hbus ▸ hhost)
    · exact (congrArg Bus.owner hbus).trans hhost.2.2
  · obtain ⟨hW, hbus, hwait, hhost, hproto, htxn, hhold, -, hr⟩ :=
      hungReset_leaves (n := position.toNat) 0 (fun b => { b with relCnt := satInc b.relCnt 255, stat := b.stat ||| 8 }) hq hq131
        fun c => ⟨⟨rfl, rfl, rfl⟩, rfl⟩
    refine ⟨_, congrArg Host.Outcome.next (if_pos hstep), ?_, ?_, ?_, ?_, ?_, ?_, hwait, hW⟩
    · exact (congrArg Bus.relCnt hbus).trans (hr.trans (congrArg (satInc · 255) hrel))
    · exact (congrArg Bus.txn hbus).trans htxn
    · exact (congrArg Bus.holdFrom hbus).trans hhold
    · exact (congrArg Bus.protoCnt hbus).trans (hproto.trans hcount)
    · exact Bus.SameHosts.host_eq (hbus ▸ hhost)
    · exact (congrArg Bus.owner hbus).trans hhost.2.2
  · exact congrArg Host.Outcome.next (commitHoldLimit_of_early hfrom hearly)
  · refine congrArg Host.Outcome.next ((commitHoldLimit_of_due hfrom hdue).trans ?_)
    simp [afterHold, hrest]
  · refine congrArg Host.Outcome.next ((commitHoldLimit_of_due hfrom hdue).trans ?_)
    simp [afterHold, hrest]

end

section
/-! SUPPORT. Telemetry: what a sample sums, what a window's end and a swap publish, and the clears of latches and peaks (R375 to R386). -/

namespace Sys2Proof.Machine

/-! The sample (R375) -/

/-- The energy of a sample is taken into the accumulators and the lifetime counters alone. -/
theorem addEnergy_tel (k : RailId) (p : Int) (s : State) : (addEnergy k p s).tel = { s.tel with energy := (addEnergy k p s).tel.energy } := by
  have hlife : ∀ (l : List Nat) (x : State), (l.foldl (fun x _ => lifeInc (finOf 73 (by decide) k.val) x) x).tel = x.tel := fun l x =>
    within_foldl (ps := [.ka]) (fun y _ => within_lifeInc _ y) l x .tel (by decide)
  unfold addEnergy
  rw [hlife]

/-- Over any list of rails the energy leaves the sums, the published window and the peaks. -/
theorem addEnergies_tel (take : State → RailId → Bool) (p : State → RailId → Int) (l : List RailId) (s : State) :
    (l.foldl (fun s k => if take s k then addEnergy k (p s k) s else s) s).tel
      = { s.tel with energy := (l.foldl (fun s k => if take s k then addEnergy k (p s k) s else s) s).tel.energy } := by
  induction l generalizing s with
  | nil => rfl
  | cons k l ih =>
    simp only [List.foldl_cons]
    rw [ih]
    by_cases ht : take s k = true
    · rw [if_pos ht, addEnergy_tel]
    · rw [if_neg ht]

/-- The window's sums of rail k after one sample. -/
def railSampled (s : State) (k : RailId) (w : RailWindow) : RailWindow :=
  if groupOn s k then
    { w with n := w.n + 1, v := w.v + (s.rail k).fe.vout, vin := w.vin + (s.rail k).fe.vinFast, i := w.i + telCurrent s k
             p := w.p + ashr ((s.rail k).fe.vout * telCurrent s k) 16 }
  else w

/-- The window's sums of tile t after one sample. -/
def tileSampled (s : State) (t : TileId) (w : TileWindow) : TileWindow :=
  if ((s.tile t).act == .active || (s.tile t).act == .ready) && (s.tile t).sen.valid then { w with n := w.n + 1, i := w.i + (s.tile t).sen.itile }
  else w

/-- The state with one sample in the sums of its running window. -/
def State.windowSummed (s : State) : State :=
  { s with tel := { s.tel with
      cur := { s.tel.cur with rails := mapVec (fun i w => railSampled s (railOf i) w) s.tel.cur.rails
                              tiles := mapVec (fun i w => tileSampled s (tileOf i) w) s.tel.cur.tiles }
      samples := s.tel.samples + 1 } }

theorem telSample_eq (s : State) :
    telSample s = allRails.foldl (fun s k => if groupOn s k && decide (0 < ashr ((s.rail k).fe.vout * telCurrent s k) 16)
      then addEnergy k (ashr ((s.rail k).fe.vout * telCurrent s k) 16) s else s) s.windowSummed := rfl

theorem telSample_tel (s : State) : (telSample s).tel = { s.windowSummed.tel with energy := (telSample s).tel.energy } := by
  rw [telSample_eq]
  exact addEnergies_tel _ _ allRails _

theorem telSample_rail (s : State) (k : RailId) : (telSample s).tel.cur.rails.get k = railSampled s k (s.tel.cur.rails.get k) := by
  rw [telSample_tel]
  simp only [State.windowSummed]
  rw [mapVec_get, railOf_val]

theorem telSample_tile (s : State) (t : TileId) : (telSample s).tel.cur.tiles.get t = tileSampled s t (s.tel.cur.tiles.get t) := by
  rw [telSample_tel]
  simp only [State.windowSummed]
  rw [mapVec_get, tileOf_val]

/-! The window's end (R377, R378) -/

theorem telBusy_of_tel (s : State) (x : Telemetry) : telBusy { s with tel := x } = telBusy s := rfl

/-- The state with the running window begun anew. -/
def State.windowBegun (s : State) : State := { s with tel := { s.tel with cur := {}, samples := 0 } }

theorem telemetryWindowEnd_of_free {s : State} (hup : s.pwr.phase = .up) (h0 : 0 < windowLen s) (hlen : windowLen s ≤ s.tel.samples)
    (hb : telBusy s = false) : telemetryWindowEnd s = publish (telemetrySwap s).tel.cur 1 (telemetrySwap s).windowBegun := by
  have hb' : telBusy (telemetrySwap s).windowBegun = false := by
    have hbus : (telemetrySwap s).bus = s.bus := within_telemetrySwap s .bus (by decide)
    simp only [telBusy, State.windowBegun, hbus]
    exact hb
  unfold telemetryWindowEnd
  rw [if_pos ⟨hup, hlen, h0⟩]
  exact if_neg (by rw [Bool.not_eq_true]; exact hb')

theorem telemetryWindowEnd_of_busy {s : State} (hup : s.pwr.phase = .up) (h0 : 0 < windowLen s) (hlen : windowLen s ≤ s.tel.samples)
    (hb : telBusy s = true) :
    (s.tel.wait = none → telemetryWindowEnd s
        = { s with tel := { s.tel with cur := {}, samples := 0, wait := some { s.tel.cur with seq := 1 } } })
      ∧ ∀ w, s.tel.wait = some w → telemetryWindowEnd s
        = { s with tel := { s.tel with cur := {}, samples := 0, wait := some { s.tel.cur with seq := w.seq + 1 }, skip := satInc s.tel.skip 255 } } := by
  have hrun : telemetryWindowEnd s = match s.tel.wait with
      | none => { s with tel := { s.tel with cur := {}, samples := 0, wait := some { s.tel.cur with seq := 1 } } }
      | some w => { s with tel := { s.tel with cur := {}, samples := 0, wait := some { s.tel.cur with seq := w.seq + 1 }
                                               skip := satInc s.tel.skip 255 } } := by
    unfold telemetryWindowEnd
    rw [if_pos ⟨hup, hlen, h0⟩, telemetrySwap_of_busy hb]
    exact if_pos hb
  refine ⟨fun hw => ?_, fun w hw => ?_⟩ <;> rw [hrun, hw]

theorem telemetryWindowEnd_samples {s : State} (hup : s.pwr.phase = .up) (h0 : 0 < windowLen s) (hlen : windowLen s ≤ s.tel.samples) :
    (telemetryWindowEnd s).tel.samples = 0 := by
  cases hb : telBusy s with
  | false => rw [telemetryWindowEnd_of_free hup h0 hlen hb]; rfl
  | true =>
    obtain ⟨hnone, hsome⟩ := telemetryWindowEnd_of_busy hup h0 hlen hb
    cases hw : s.tel.wait with
    | none => rw [hnone hw]
    | some w => rw [hsome w hw]

theorem telemetryWindowEnd_of_early {s : State} (h : windowLen s = 0 ∨ s.tel.samples < windowLen s) : telemetryWindowEnd s = s :=
  if_neg fun ⟨_, hle, hpos⟩ => by omega

/-! Reads and clears of the block (R380, R391) -/

theorem coreOn_of_up {s : State} (hup : s.pwr.phase = .up) : coreOn s = true := by simp [coreOn, hup]
theorem regLive_of_up {s : State} {r : Reg} (hup : s.pwr.phase = .up) : regLive s r = domainOn s r := by simp [regLive, hup]

theorem readReg_trVpeak_congr {s t : State} (hp : t.pwr = s.pwr) (ht : t.tel = s.tel) (h : HostId) (k : RailId) :
    readReg t h (.trVpeak k) = readReg s h (.trVpeak k) := by
  simp only [readReg, regLive_congr hp, readAny, ht]
theorem readReg_trPower_congr {s t : State} (hp : t.pwr = s.pwr) (ht : t.tel = s.tel) (h : HostId) (k : RailId) :
    readReg t h (.trPower k) = readReg s h (.trPower k) := by
  simp only [readReg, regLive_congr hp, readAny, ht]

@[simp] theorem readDone_tel (s : State) (h : HostId) (a : Nat) (code : Option Byte) : (s.readDone h a code).tel = s.tel :=
  readDone_within s h a code .tel (by decide)
@[simp] theorem opened_tel (s : State) (h : HostId) (a : Nat) : (s.opened h a).tel = s.tel := opened_within s h a .tel (by decide)

/-- A field of 32 bits at bit 0 holds the integer itself. -/
theorem word_atI_full (v : Int) : word (atI v 32 0) = BitVec.ofInt 32 v := by
  apply BitVec.eq_of_toNat_eq
  simp [word, atI, wrap]
  omega

/-! Latches (R385, R386) -/

theorem openBits_evLatch (s : State) (i : Fin 8) : openBits s (.evLatch i) = 0 := by
  simp [openBits, rtBits, armBits, imgBits, Reg.access]
theorem lockedBits_evLatch (s : State) (i : Fin 8) : lockedBits s (.evLatch i) = 0 := by
  simp [lockedBits, imgBits, Reg.access]

theorem plainWrite_evLatch (h : HostId) (i : Fin 8) (w : Word) (s : State) : plainWrite h (.evLatch i) w s = clearW1c (.evLatch i) w s := by
  have hbad : (heldWord s (.evLatch i) ^^^ w) &&& word (lockedBits s (.evLatch i)) = 0 := by
    rw [lockedBits_evLatch]; exact BitVec.and_zero
  unfold plainWrite
  simp only [openBits_evLatch, if_true, hbad]

theorem holdAlert_src (s : State) : (holdAlert s).ev.src = s.ev.src := by unfold holdAlert; split <;> rfl
theorem holdAlert_queue (s : State) : (holdAlert s).ev.queue = s.ev.queue := by unfold holdAlert; split <;> rfl

/-- What a written 1 clears of source e's latch. -/
theorem clearW1c_evLatch_source (i : Fin 8) (w : Word) (s : State) (e : SourceId) :
    (clearW1c (.evLatch i) w s).source e.val =
      if e.val / 32 = i.val ∧ bitOf w (e.val % 32) = true ∧ latchedNow s e.val (s.source e.val) = false then { s.source e.val with latch := false }
      else s.source e.val := by
  have hnow : ∀ (n : Nat) (x : EventSource), latchedNow (holdAlert s) n x = latchedNow s n x := fun n x => by unfold holdAlert; split <;> rfl
  have hval : finOf 256 (by decide) e.val = e := Fin.ext (Nat.mod_eq_of_lt e.isLt)
  simp only [State.source, clearW1c, mapVec_get, hval, hnow, holdAlert_src]

theorem within_clearW1c_evLatch (i : Fin 8) (w : Word) (s : State) : Within [.ev] s (clearW1c (.evLatch i) w s) :=
  (within_holdAlert s).trans (within_set_ev _ _)

theorem alertN_of_held {s : State} (hup : s.pwr.phase = .up) (hc : s.ev.alertCyc = some (cycleOf s)) : alertN s = false := by
  simp [alertN, hup, hc]

theorem clearW1c_evLatch_alert {s : State} (i : Fin 8) (w : Word) (hup : s.pwr.phase = .up) (ha : alerts s = true) :
    alertN (clearW1c (.evLatch i) w s) = false := by
  have hheld : holdAlert s = { s with ev := { s.ev with alertCyc := some (cycleOf s) } } := if_pos ha
  refine alertN_of_held ?_ ?_ <;> simp only [clearW1c, hheld]
  · exact hup
  · rfl

end Sys2Proof.Machine
end

section
/-! PROOFS. The statements of 12_telemetry_events.md on latches, peaks and windows. -/

open Sys2Proof Sys2Proof.Machine

/-- Settles O18: the written word reaches its W1C bits alone, and each clear of a peak acts on the block's own sums. -/
theorem latchesAndPeaksClear : Obligations.LatchesAndPeaksClear := by
  intro h s
  refine ⟨fun i w hl => ?_, fun hl => ?_, fun k hup hh => ?_⟩
  · have hrun : writeAt h (.evLatch i) w s = clearW1c (.evLatch i) w (s.opened h (Reg.evLatch i).addr) :=
      (writeAt_of_lands hl).trans (plainWrite_evLatch ..)
    refine ⟨_, congrArg Host.Outcome.next hrun, fun e => ?_, ?_, fun hup ha => ?_, ?_⟩
    · rw [clearW1c_evLatch_source]
      simp [latchedNow, State.source, cycleOf, evEn, evLatchEn, evByte, setWord]
    · simp [clearW1c, holdAlert_queue]
    · exact clearW1c_evLatch_alert i w (by simpa using hup) (by simpa [alerts, alertSrc, evLatchEn, evAlert, evByte, setWord] using ha)
    · exact ((opened_within s h _).mono (by decide)).step (within_clearW1c_evLatch i w _) (by decide)
  · have hrun : writeAt h .telCtl 1 s = clearPeaks (s.opened h Reg.telCtl.addr) := writeAt_of_lands hl
    refine ⟨_, congrArg Host.Outcome.next hrun, fun k => ?_, fun u => ?_, ?_, ?_⟩
    · simp [clearPeaks, mapVec_get]
    · simp [clearPeaks, mapVec_get]
    · simp [clearPeaks]
    · exact ((opened_within s h _).mono (by decide)).step (within_clearPeaks _) (by decide)
  · obtain ⟨x, code, hrun, hx, -, hdata⟩ := readAt_commits (h := h) (r := .trVpeak k) (coreOn_of_up hup) hh (regLive_of_up hup) nofun (fun _ => rfl)
      (fun y lead => readReg_trVpeak_congr (reading_pwr ..) (reading_within y h _ lead .tel (by decide)) h k) (fun _ _ => rfl)
    have htel : x.tel = s.tel := hx .tel (by decide)
    refine ⟨_, congrArg Host.Outcome.next hrun, hdata, ?_, fun j hj => ?_, ?_,
      readDone_frame h _ code (by decide) hx ((within_set_tel x _).mono (by decide))⟩
    · rw [readDone_tel, ← htel]
      exact congrArg RailPeaks.v (modVec_get_same ..)
    · rw [readDone_tel, ← htel]
      exact modVec_get_other _ _ hj
    · rw [readDone_tel, ← htel]; rfl

/-- Settles O19: the window's end and the swap branch on the transaction, the sample sums rail by rail and tile by tile. -/
theorem telemetryWindowsPublishWhole : Obligations.TelemetryWindowsPublishWhole := by
  intro s hup
  refine ⟨?_, fun h0 hlen => ?_, fun hearly => ?_, fun w hw => ?_, fun h k hh => ?_⟩
  · have hrun : telemetrySample s = telSample s := if_pos hup
    refine ⟨_, congrArg Host.Outcome.next hrun, ?_, ?_, fun k => ?_, fun u hact hval => ?_, ?_⟩
    · rw [telSample_tel]; rfl
    · rw [telSample_tel]; rfl
    · rw [telSample_rail, railSampled]
      split <;> simp
    · rw [telSample_tile, tileSampled, if_pos]
      simpa [hval] using hact
    · exact (within_telSample s).mono (by decide)
  · refine ⟨_, rfl, ?_, fun hb => ?_, fun hb => ?_, within_telemetryWindowEnd s⟩
    · exact telemetryWindowEnd_samples hup h0 hlen
    · rw [telemetryWindowEnd_of_free hup h0 hlen hb]
      refine ⟨rfl, rfl, fun hw => ?_, fun w hw => ?_⟩
      · rw [telemetrySwap_of_none hw]; rfl
      · rw [telemetrySwap_of_waiting hb hw]; rfl
    · obtain ⟨hnone, hsome⟩ := telemetryWindowEnd_of_busy hup h0 hlen hb
      cases hw : s.tel.wait with
      | none => rw [hnone hw]; exact ⟨rfl, rfl, fun _ => ⟨rfl, rfl⟩, nofun⟩
      | some w => rw [hsome w hw]; exact ⟨rfl, rfl, nofun, fun w' he => Option.some.inj he ▸ ⟨rfl, rfl⟩⟩
  · exact congrArg Host.Outcome.next (telemetryWindowEnd_of_early hearly)
  · refine ⟨_, rfl, within_telemetrySwap s, ?_⟩
    by_cases hb : telBusy s = true
    · rw [if_pos hb, telemetrySwap_of_busy hb]
    · rw [if_neg hb, telemetrySwap_of_waiting (Bool.eq_false_iff.mpr hb) hw]
      exact ⟨rfl, rfl⟩
  · obtain ⟨x, code, hrun, hx, -, hdata⟩ := readAt_commits (h := h) (r := .trPower k) (coreOn_of_up hup) hh (regLive_of_up hup) nofun (fun _ => rfl)
      (fun y lead => readReg_trPower_congr (reading_pwr ..) (reading_within y h _ lead .tel (by decide)) h k) (fun _ _ => rfl)
    refine ⟨_, congrArg Host.Outcome.next hrun, readDone_frame h _ code (by decide) hx Within.refl, ?_⟩
    rw [hdata, readReg, regLive_of_up hup]
    exact word_atI_full _

end

section
/-! SUPPORT. What every occurrence leaves of the link's answers: the ACKs that wait and the frame counters (R438, R443). -/

namespace Sys2Proof.Machine

/-- The ACKs that wait and the counts of frames stand in `t` as in `s`. -/
def KeepsAnswers (s t : State) : Prop := t.link.acks = s.link.acks ∧ t.link.rxCnt = s.link.rxCnt ∧ t.link.refCnt = s.link.refCnt

theorem KeepsAnswers.refl (s : State) : KeepsAnswers s s := ⟨rfl, rfl, rfl⟩
theorem KeepsAnswers.trans {s t u : State} (h : KeepsAnswers s t) (h' : KeepsAnswers t u) : KeepsAnswers s u :=
  ⟨h'.1.trans h.1, h'.2.1.trans h.2.1, h'.2.2.trans h.2.2⟩

theorem keepsAnswers_of_within {ps : List Part} {s t : State} (h : Within ps s t) (hp : Part.link ∉ ps) : KeepsAnswers s t := by
  have hl : t.link = s.link := h .link hp
  exact ⟨congrArg Link.acks hl, congrArg Link.rxCnt hl, congrArg Link.refCnt hl⟩

theorem keepsAnswers_ite {c : Prop} [Decidable c] {s t u : State} (ht : KeepsAnswers s t) (hu : KeepsAnswers s u) :
    KeepsAnswers s (if c then t else u) := by
  split
  · exact ht
  · exact hu

theorem keepsAnswers_foldl {α : Type} {f : State → α → State} (hf : ∀ x a, KeepsAnswers x (f x a)) (l : List α) (s : State) :
    KeepsAnswers s (l.foldl f s) := by
  induction l generalizing s with
  | nil => exact .refl s
  | cons a l ih => exact (hf s a).trans (ih (f s a))

section
variable {raise : Raise} (hr : ∀ e d x, KeepsAnswers x (raise e d x))
include hr

theorem keepsAnswers_pushSettled (f : LinkFrame) (s : State) : KeepsAnswers s (pushSettled raise f s) := by
  unfold pushSettled
  split
  · split
    · exact KeepsAnswers.trans ⟨rfl, rfl, rfl⟩ (hr _ _ _)
    · exact ⟨rfl, rfl, rfl⟩
  · exact ⟨rfl, rfl, rfl⟩

omit hr in
theorem keepsAnswers_recloseWatch (k : RailId) (flags : BitVec 5) (value : BitVec 16) (s : State) :
    KeepsAnswers s (recloseWatch k flags value s) := by
  unfold recloseWatch
  split
  · exact .refl s
  · dsimp only
    split
    · exact ⟨rfl, rfl, rfl⟩
    · exact .refl s

theorem keepsAnswers_closeWatch (k : RailId) (flags : BitVec 5) (value : BitVec 16) (s : State) :
    KeepsAnswers s (closeWatch raise k flags value s) := by
  unfold closeWatch
  split
  · exact (keepsAnswers_of_within (within_State_modRail s k _) (by decide)).trans (keepsAnswers_pushSettled hr _ _)
  · exact keepsAnswers_recloseWatch k flags value s

theorem keepsAnswers_beginStopping (k : RailId) (toSafe : Bool) (cause : Nat) (s : State) :
    KeepsAnswers s (beginStopping raise k toSafe cause s) := by
  refine KeepsAnswers.trans ?_ (keepsAnswers_closeWatch hr ..)
  refine KeepsAnswers.trans ?_ (keepsAnswers_of_within (within_State_modRail _ k _) (by decide))
  refine KeepsAnswers.trans ?_ (keepsAnswers_of_within (within_State_modTilesOf _ k _) (by decide))
  exact keepsAnswers_of_within (within_setPgood k false s) (by decide)

theorem keepsAnswers_resumeStop (k : RailId) (s : State) : KeepsAnswers s (resumeStop raise k s) := by
  unfold resumeStop
  split
  · exact .refl s
  · split
    · exact keepsAnswers_beginStopping hr ..
    · exact .refl s

theorem keepsAnswers_resumeStops (s : State) : KeepsAnswers s (resumeStops raise s) :=
  keepsAnswers_foldl (fun x k => keepsAnswers_resumeStop hr k x) allRails s

theorem keepsAnswers_abandonWatch (k : RailId) (s : State) : KeepsAnswers s (abandonWatch raise k s) := keepsAnswers_closeWatch hr ..

theorem keepsAnswers_enterOut (k : RailId) (st : RailState) (cause row : Nat) (s : State) : KeepsAnswers s (enterOut raise k st cause row s) := by
  unfold enterOut
  dsimp only
  refine KeepsAnswers.trans ?_ (keepsAnswers_resumeStops hr _)
  refine KeepsAnswers.trans ?_ (keepsAnswers_abandonWatch hr k _)
  refine KeepsAnswers.trans ?_ (keepsAnswers_of_within (within_State_modRail _ k _) (by decide))
  refine KeepsAnswers.trans ?_ (keepsAnswers_of_within (within_setPgood k false _) (by decide))
  exact keepsAnswers_of_within (within_State_modTilesOf s k _) (by decide)

theorem keepsAnswers_safeNow (k : RailId) (cause : Nat) (s : State) : KeepsAnswers s (safeNow raise k cause s) := by
  unfold safeNow
  split
  · exact .refl s
  · split
    · exact keepsAnswers_enterOut hr ..
    · exact .refl s
  · exact keepsAnswers_enterOut hr ..

theorem keepsAnswers_orderlySafe (k : RailId) (cause : Nat) (s : State) : KeepsAnswers s (orderlySafe raise k cause s) := by
  have hseq : ∀ f, KeepsAnswers s (s.modSeq k f) := fun f => keepsAnswers_of_within (within_State_modSeq s k f) (by decide)
  have hout : ∀ row, KeepsAnswers s (enterOut raise k .safe cause row s) := fun row => keepsAnswers_enterOut hr ..
  have hstop := keepsAnswers_beginStopping hr k true cause s
  unfold orderlySafe
  cases railSt s k with
  | prepare => exact hout 4
  | hiccup => exact keepsAnswers_ite (.refl s) (hout 8)
  | softstart => exact keepsAnswers_ite (hseq _) hstop
  | regulate => exact keepsAnswers_ite (hseq _) hstop
  | slew => exact keepsAnswers_ite (hseq _) hstop
  | stopping => exact hseq _
  | off => exact keepsAnswers_ite (hout 4) (.refl s)
  | safe => exact .refl s

theorem keepsAnswers_respAction (code : Nat) (s : State) : KeepsAnswers s (respAction raise code s) := by
  unfold respAction
  split
  · refine keepsAnswers_foldl (fun x k => ?_) allRails s
    split
    · exact .refl x
    · exact keepsAnswers_orderlySafe hr k 6 x
  · split
    · exact keepsAnswers_foldl (fun x k => keepsAnswers_safeNow hr k 6 x) allRails s
    · exact .refl s

end

theorem keepsAnswers_occurF (n : Nat) (cls : Bool) (e : Nat) (d : Word) (s : State) : KeepsAnswers s (occurF n cls e d s) := by
  induction n generalizing cls e d s with
  | zero => exact .refl s
  | succ n ih =>
    unfold occurF
    dsimp only
    refine keepsAnswers_ite (keepsAnswers_ite (keepsAnswers_of_within (within_journalClass e d s) (by decide)) (.refl s)) (KeepsAnswers.trans ?_
      (keepsAnswers_ite (keepsAnswers_respAction (fun e d x => ih false e d x) _ _) (.refl _)))
    refine KeepsAnswers.trans ?_ (keepsAnswers_ite (keepsAnswers_ite
      ((keepsAnswers_of_within (within_startCapture e false _) (by decide)).trans (ih false 180 _ _))
      (keepsAnswers_of_within (within_set_rcd _ _) (by decide))) (.refl _))
    refine KeepsAnswers.trans ?_ (keepsAnswers_ite ((keepsAnswers_of_within (within_markJrn e _) (by decide)).trans
      (keepsAnswers_of_within (within_enqueue _ _) (by decide))) (.refl _))
    exact (keepsAnswers_of_within (within_markSrc e s) (by decide)).trans
      (keepsAnswers_ite (keepsAnswers_of_within (within_latchSrc e d _) (by decide)) (.refl _))

/-- No occurrence reaches the ACKs that wait or the counts of frames. -/
theorem keepsAnswers_occur (e : Nat) (d : Word) (s : State) : KeepsAnswers s (occur e d s) := keepsAnswers_occurF 4 false e d s

/-- A frame that is accepted while the link runs leaves the ACKs that wait and counts as received. -/
theorem frameAccepted_keeps (s : State) :
    (frameAccepted s).link.acks = s.link.acks ∧ (frameAccepted s).link.rxCnt = satInc s.link.rxCnt 65535
      ∧ (frameAccepted s).link.refCnt = s.link.refCnt ∧ (frameAccepted s).settings = s.settings
      ∧ (Quiet s 147 → Within [.link, .ev] s (frameAccepted s)) := by
  let x : State := { s with link := { s.link with rxCnt := satInc s.link.rxCnt 65535, rxAt := some s.now, alive := true } }
  have hx : Within [.link] s x := within_set_link s x.link
  by_cases hback : (!s.link.alive && s.link.everLapsed) = true
  · have hrun : frameAccepted s = occur 147 0 x := if_pos hback
    obtain ⟨hacks, hrx, href⟩ := keepsAnswers_occur 147 0 x
    rw [hrun]
    exact ⟨hacks, hrx, href, within_occur 147 0 x .settings (by decide), fun hq => (occur_quiet_link 0 x.link hq).2⟩
  · have hrun : frameAccepted s = x := if_neg hback
    rw [hrun]
    exact ⟨rfl, rfl, rfl, rfl, fun _ => hx.mono (by decide)⟩

/-- An accepted PING echoes its VALUE, whatever its rail (R442). -/
theorem judgeFrame_ping {s : State} (hr : linkRuns s = true) (seq : Byte) (k : RailId) (value : BitVec 16) :
    judgeFrame 0x13 seq k 0 value s = pushAck seq k 0 value (frameAccepted (clkRuns s)) := by
  have hrun : linkRuns (clkRuns s) = true := by
    rw [show clkRuns s = { s with link := { s.link with clkActive := true } } from if_pos (coreOn_of_linkRuns hr)]
    exact hr
  unfold judgeFrame
  dsimp only
  rw [if_pos hrun]
  rfl

end Sys2Proof.Machine
end

section
/-! PROOFS. The statement of 14_gulsan_load_link.md on PING. -/

open Sys2Proof Sys2Proof.Machine

/-- Settles O49: the frame counts, its ACK joins the queue, and the one event it can cause reaches neither. -/
theorem pingIsAnsweredWhateverItsRail : Obligations.PingIsAnsweredWhateverItsRail := by
  intro seq k value s hr
  have hclk : clkRuns s = { s with link := { s.link with clkActive := true } } := if_pos (coreOn_of_linkRuns hr)
  have hin : Within [.link] s (clkRuns s) := hclk ▸ within_set_link s _
  obtain ⟨hacks, hrx, href, hset, hquiet⟩ := frameAccepted_keeps (clkRuns s)
  have hclkLink : (clkRuns s).link = { s.link with clkActive := true } := by rw [hclk]
  rw [hclkLink] at hacks hrx href
  refine ⟨_, congrArg Host.Outcome.next (judgeFrame_ping hr seq k value), congrArg (· ++ [_]) hacks, hrx, href,
    hset.trans (hin .settings (by decide)), fun hq => ?_⟩
  have hq' : Quiet (clkRuns s) 147 := (quiet_congr (hin .settings (by decide)) 147).mpr hq
  exact ((hin.mono (by decide)).trans (hquiet hq')).step (within_set_link _ _) (by decide)

end


section
/-! SUPPORT. What the link sends, and the watch that runs out (R443 to R445). -/

namespace Sys2Proof.Machine

theorem linkRuns_of_link (s : State) (l : Link) : linkRuns { s with link := l } = linkRuns s := rfl

/-! Sending (R443, R444) -/

theorem sendAck_of_none {s : State} (ha : s.link.acks = []) : sendAck s = s := by simp [sendAck, ha]
theorem sendAck_of_waiting {s : State} {f : LinkFrame} {rest : List LinkFrame} (hr : linkRuns s = true) (ha : s.link.acks = f :: rest) :
    sendAck s = { s with link := { s.link with acks := rest, sent := some f, clkActive := true } } := by simp [sendAck, ha, hr]

theorem sendSettled_of_none {s : State} (h : s.link.acks ≠ [] ∨ s.link.settled = []) : sendSettled s = s := by
  unfold sendSettled
  split
  · next ha hs => simp [ha, hs] at h
  · rfl

/-- The link's record of a rail once the SETTLED frame f has been sent (R440). -/
def LinkRail.telling (l : LinkRail) (f : LinkFrame) : LinkRail :=
  { l with told := l.told || decide (l.seq = f.seq ∧ l.outcome = some (f.flags, f.value)) }

theorem sendSettled_of_waiting {s : State} {f : LinkFrame} {rest : List LinkFrame} (hr : linkRuns s = true) (ha : s.link.acks = [])
    (hs : s.link.settled = f :: rest) :
    sendSettled s = { s with link := { s.link with settled := rest, sent := some f, clkActive := true } }.modRail f.rail fun r =>
      { r with link := r.link.telling f } := by
  have htell : (fun r : Rail => if r.link.seq == f.seq && r.link.outcome == some (f.flags, f.value) then
      { r with link := { r.link with told := true } } else r) = fun r => { r with link := r.link.telling f } := by
    funext r
    by_cases hm : r.link.seq = f.seq ∧ r.link.outcome = some (f.flags, f.value)
    · simp [LinkRail.telling, hm]
    · rw [if_neg (by simpa using hm)]
      simp [LinkRail.telling, hm]
  unfold sendSettled
  rw [ha, hs]
  simp only [hr, if_true]
  rw [htell]

/-! The watch (R445) -/

theorem pushSettled_of_room {s : State} (raise : Raise) (f : LinkFrame) (hroom : s.link.settled.length < 16) :
    pushSettled raise f s = { s with link := { s.link with settled := s.link.settled ++ [f] } } := by
  unfold pushSettled
  split
  · exact if_neg (Nat.not_le.mpr hroom)
  · next he => rw [he]; rfl

/-- A watch that closes with room in the queue leaves its frame there and its outcome with the rail. -/
theorem closeWatch_of_room {s : State} {k : RailId} {w : Watch} (raise : Raise) (flags : BitVec 5) (value : BitVec 16)
    (hw : (s.rail k).link.watch = some w) (hroom : s.link.settled.length < 16) :
    closeWatch raise k flags value s =
      { s.modRail k fun r => { r with link := { r.link.report w (cycleOf s) flags value with watch := none } } with
        link := { s.link with settled := s.link.settled ++ [settledFrame k w flags value] } } := by
  unfold closeWatch
  rw [hw]
  exact pushSettled_of_room raise _ hroom

theorem report_told (l : LinkRail) (w : Watch) (cycle : Nat) (flags : BitVec 5) (value : BitVec 16) :
    (l.report w cycle flags value).told = (l.told && !(l.valid && w.seq == l.seq)) := by
  unfold LinkRail.report
  by_cases h : (l.valid && w.seq == l.seq) = true <;> simp [h]

theorem report_outcome (l : LinkRail) (w : Watch) (cycle : Nat) (flags : BitVec 5) (value : BitVec 16) :
    (l.report w cycle flags value).outcome = (if l.valid = true ∧ w.seq = l.seq then some (flags, value) else l.outcome) := by
  unfold LinkRail.report
  by_cases h : l.valid = true ∧ w.seq = l.seq <;> simp [h]

theorem settleTimeout_of_due {s : State} {k : RailId} {w : Watch} (hw : (s.rail k).link.watch = some w) (h0 : setTmo s k ≠ 0)
    (hdue : w.openedAt + ms (setTmo s k) ≤ s.now) :
    ∃ d, settleTimeout k s = closeWatch occur k 3 (BitVec.ofNat 16 (s.rail k).fe.vout) (occur 150 d s) := by
  refine ⟨word (k.val + w.seq.toNat * 256 + (BitVec.ofNat 16 (s.rail k).fe.vout).toNat * 65536), ?_⟩
  unfold settleTimeout
  rw [hw]
  exact if_pos ⟨h0, hdue⟩

theorem settleTimeout_of_early {s : State} {k : RailId} {w : Watch} (hw : (s.rail k).link.watch = some w)
    (he : setTmo s k = 0 ∨ s.now < w.openedAt + ms (setTmo s k)) : settleTimeout k s = s := by
  unfold settleTimeout
  rw [hw]
  exact if_neg fun ⟨h0, hle⟩ => he.elim h0 (fun hlt => absurd hle (Nat.not_le.mpr hlt))

/-! A write of LINK_AUTH (R447) -/

theorem quiet_of_words {s t : State} (h : ∀ i, setWord t (.evCfg i) = setWord s (.evCfg i)) (e : Nat) : Quiet t e ↔ Quiet s e := by
  simp only [Quiet, evEn, evRec, evResp, evByte, h]

theorem setWord_of_settings {s t : State} (h : t.settings = s.settings) (r : Reg) : setWord t r = setWord s r := by simp only [setWord, h]

end Sys2Proof.Machine
end

section
/-! PROOFS. The statement of 14_gulsan_load_link.md on what the link sends, its watches and its lapse. -/

open Sys2Proof Sys2Proof.Machine

/-- Settles O51: each command has one branch that acts, and the events it raises stay inside the event system. -/
theorem linkSendsSettlesAndLapses : Obligations.LinkSendsSettlesAndLapses := by
  intro s
  refine ⟨fun hr => ⟨fun f rest ha => ?_, fun f rest ha hs => ?_, fun hq => ?_⟩, fun hr seq k flags value => ?_, fun ha => ?_, fun h => ?_, ?_,
    fun k w hw => ⟨fun h0 hdue hroom hq => ?_, fun he => ?_⟩, fun r hrx halive hwdt hup => ⟨fun hlate hq => ?_, fun hin => ?_⟩,
    fun h data hs hl hq => ?_⟩
  · exact congrArg Host.Outcome.next (sendAck_of_waiting hr ha)
  · refine ⟨_, congrArg Host.Outcome.next (sendSettled_of_waiting hr ha hs), rfl, ?_, fun j hj => modRail_other _ _ _ j hj,
      ((within_set_link s _).mono (by decide)).step (within_State_modRail _ _ _) (by decide)⟩
    rw [modRail_rail]; rfl
  · obtain ⟨hlink, hin⟩ := occur_quiet_link 1 { s.link with clkActive := false, frmCnt := satInc s.link.frmCnt 255 } hq
    exact ⟨_, congrArg Host.Outcome.next (if_pos hr), hlink, hin⟩
  · refine congrArg Host.Outcome.next ?_
    have hstop : linkRuns (clkRuns s) ≠ true := by
      unfold clkRuns
      split <;> simp [linkRuns_of_link, hr]
    exact if_neg hstop
  · exact congrArg Host.Outcome.next (sendAck_of_none ha)
  · exact congrArg Host.Outcome.next (sendSettled_of_none h)
  · rfl
  · obtain ⟨d, hrun⟩ := settleTimeout_of_due hw h0 hdue
    have hev : Within [.ev] s (occur 150 d s) := occur_quiet d hq
    have hrail : ∀ j, (occur 150 d s).rail j = s.rail j := hev.rail_eq (by decide)
    have hlink : (occur 150 d s).link = s.link := hev .link (by decide)
    rw [closeWatch_of_room occur 3 _ (by rw [hrail]; exact hw) (by rwa [hlink])] at hrun
    have hk := modRail_rail (occur 150 d s) k fun r => { r with
      link := { r.link.report w (cycleOf (occur 150 d s)) 3 (BitVec.ofNat 16 (s.rail k).fe.vout) with watch := none } }
    rw [hrail] at hk
    refine ⟨_, congrArg Host.Outcome.next hrun, ?_, ?_, ?_, ?_, fun j hj => (modRail_other _ k _ j hj).trans (hrail j), ?_⟩
    · exact congrArg (fun r : Rail => r.link.watch) hk
    · exact (congrArg (fun r : Rail => r.link.told) hk).trans (report_told ..)
    · show ({ (occur 150 d s).link with settled := (occur 150 d s).link.settled ++ _ } : Link) = _
      rw [hlink]; rfl
    · exact (congrArg (fun r : Rail => r.link.outcome) hk).trans (report_outcome ..)
    · exact ((hev.mono (by decide)).step (within_State_modRail _ k _) (by decide)).step (within_set_link _ _) (by decide)
  · exact congrArg Host.Outcome.next (settleTimeout_of_early hw he)
  · have hrun : loadLapse s = occur 146 0 { s with link := { s.link with alive := false, everLapsed := true } } := by
      unfold loadLapse
      rw [hrx]
      exact if_pos ⟨halive, hwdt, hlate, hup⟩
    obtain ⟨hlink, hin⟩ := occur_quiet_link 0 { s.link with alive := false, everLapsed := true } hq
    exact ⟨_, congrArg Host.Outcome.next hrun, hlink, hin⟩
  · refine congrArg Host.Outcome.next ?_
    show loadLapse s = s
    unfold loadLapse
    rw [hrx]
    exact if_neg fun ⟨_, _, hlate, _⟩ => absurd hin (Nat.not_le.mpr hlate)
  · have hrun : writeAt h .linkAuth data s = linkAuthSet data (s.opened h Reg.linkAuth.addr) := writeAt_of_lands hl
    have hput := putWord_opened_within s h Reg.linkAuth.addr .linkAuth (data &&& 0xFF#32)
    have hother : ∀ r, r ≠ .linkAuth → setWord (putWord (s.opened h Reg.linkAuth.addr) .linkAuth (data &&& 0xFF#32)) r = setWord s r :=
      fun r hne => putWord_opened_other s h _ _ hne
    have hev := (authorityEvents_quiet (fun _ => 0) (s.opened h Reg.linkAuth.addr)
      ((quiet_of_words (fun i => hother (.evCfg i) nofun) 148).mpr hq)).frame
    have hset := hev .settings (by decide)
    refine ⟨_, congrArg Host.Outcome.next hrun, ?_, fun r hne => ?_, (hput.mono (by decide)).step hev (by decide)⟩
    · exact (setWord_of_settings hset _).trans (putWord_opened_same hs h _ _ _)
    · exact (setWord_of_settings hset r).trans (hother r hne)

end

section
/-! SUPPORT. A replacement at which a statement fails. -/

namespace Sys2Proof.Machine

/-- A committed replacement whose header is the next page write. The count of arbitration losses stands past its field's 255, where the
page write's own count of losses, though none occurs on its way, brings it back to 255. -/
def lossesPastCap : State := { claimedRun with
  ldr := { State.reset.ldr with repl := .receiving, tgtSrc := .eeprom, len := 68, offset := 68, committing := true, arbCnt := 256 } }

end Sys2Proof.Machine
end

section
/-! PROOFS. The statement of 15_boot_image.md on the replacement. -/

open Sys2Proof Sys2Proof.Machine

/-- Refutes O52: a page write caps BOOT_STAT's count of arbitration losses (R466), so that a state in which it stands past its field, which no
run reaches, changes in that count too. -/
theorem not_replacementRunsFromBeginToVerdict : ¬ Obligations.ReplacementRunsFromBeginToVerdict := by
  intro h
  obtain ⟨-, -, -, hheader, -⟩ := h lossesPastCap
  obtain ⟨t, hrun, hldr, -⟩ := hheader rfl (by decide) (by decide +kernel) rfl (by decide)
  obtain rfl : eepromPageWrite .answers 0 lossesPastCap = t := Host.Outcome.next.inj hrun
  exact absurd (congrArg Loader.arbCnt hldr) (by decide +kernel)

end

section
/-! SUPPORT. A waiting refresh at which a statement fails. -/

namespace Sys2Proof.Machine

/-- A write of record 0 was refused 100 ms ago by a full queue; the refresh of a copy of that record waits now, in a queue with room. -/
def refreshWaits : State := { claimedRun with
  now := ms 100, nvm := { State.reset.nvm with queue := [.refresh 32], retries := [(0, 0)] } }

end Sys2Proof.Machine
end

section
/-! PROOFS. The statement of 16_nvm_records.md on the operations. -/

open Sys2Proof Sys2Proof.Machine

/-- Refutes O54: a record write that is asked again merges with a waiting refresh of its own record (R499), so it takes that request's place in
the queue and does not join behind it. -/
theorem not_nvmOperationsRunTheQueue : ¬ Obligations.NvmOperationsRunTheQueue := by
  intro h
  obtain ⟨-, -, -, -, -, hretry, -⟩ := h refreshWaits
  obtain ⟨t, hrun, hnvm, -⟩ := (hretry 0).1 (0, 0) rfl rfl (by decide)
  obtain rfl : recordRetry 0 refreshWaits = t := Host.Outcome.next.inj hrun
  exact absurd (congrArg Nvm.queue hnvm) (by decide)

end

section
/-! SUPPORT. The host's commands of the NVM: the counters' requests that FLUSH makes, and the page buffer behind NVM_DATA (R499 to R503, R509). -/

namespace Sys2Proof.Machine

/-! What a request leaves (R499) -/

/-- A request changes the queue and its bookkeeping alone. -/
theorem nvmRequest_nvm (j : NvmJob) (s : State) :
    (nvmRequest j s).nvm = { s.nvm with
      queue := (nvmRequest j s).nvm.queue, merged := (nvmRequest j s).nvm.merged, fullCnt := (nvmRequest j s).nvm.fullCnt
      retries := (nvmRequest j s).nvm.retries } := by
  unfold nvmRequest
  split
  · rfl
  split
  · simp only [nvmAsk_nvm]
  split
  · simp only [nvmAsk_nvm]
  split
  · simp only [nvmAsk_nvm]
  split <;> rfl

/-- The requests of counter c: its repair, its commit and the steps of its carry (R509 to R511). -/
def CounterJob (c : CntId) (j : NvmJob) : Prop := (∃ b, j = .repair c.val b) ∨ ∃ n, j = .counter c.val n

theorem counterJob_of_cntJob {s : State} {c : CntId} {j : NvmJob} (h : cntJob s c = some j) : CounterJob c j := by
  unfold cntJob at h
  dsimp only at h
  split at h
  · exact .inl ⟨_, (Option.some.inj h).symm⟩
  split at h
  · exact .inr ⟨_, (Option.some.inj h).symm⟩
  split at h
  · exact .inr ⟨_, (Option.some.inj h).symm⟩
  · cases h

section
variable {c d : CntId} {j i : NvmJob}

theorem CounterJob.critical (h : CounterJob c j) : jobCritical j = false := by
  obtain ⟨b, rfl⟩ | ⟨n, rfl⟩ := h <;> rfl

theorem jobRecord_counter {n m r : Nat} (h : jobRecord (.counter n m) = some r) : m = 1 ∧ r = 8 + n := by
  unfold jobRecord at h
  split at h <;> simp_all

theorem CounterJob.record (h : CounterJob c j) {r : Nat} (hr : jobRecord j = some r) : j = .counter c.val 1 ∧ r = 8 + c.val := by
  obtain ⟨b, rfl⟩ | ⟨n, rfl⟩ := h
  · cases hr
  · obtain ⟨rfl, rfl⟩ := jobRecord_counter hr
    exact ⟨rfl, rfl⟩

/-- A carry's first step takes the place of a waiting request that writes the same record. -/
theorem CounterJob.merged (h : CounterJob c j) {old : NvmJob} (hs : (jobRecord j).isSome = true) (hr : jobRecord old = jobRecord j) :
    jobMerged old j = j := by
  obtain ⟨r, hj⟩ := Option.isSome_iff_exists.mp hs
  obtain ⟨rfl, rfl⟩ := h.record hj
  rw [hj] at hr
  cases old with
  | counter n m =>
    obtain ⟨rfl, hn⟩ := jobRecord_counter hr
    rw [show n = c.val by omega]
    rfl
  | _ => rfl

/-- A counter's request is in the queue afterwards, unless the queue is full. -/
theorem CounterJob.asked (h : CounterJob c j) (s : State) : j ∈ (nvmRequest j s).nvm.queue ∨ 16 ≤ nvmFill (nvmRequest j s).nvm := by
  unfold nvmRequest
  split
  · next hin => exact .inl (by simpa using hin)
  split
  · next old hfind =>
    have hmem := List.mem_of_find?_eq_some hfind
    have hp := List.find?_some hfind
    rw [Bool.and_eq_true, beq_iff_eq] at hp
    obtain ⟨hs, hr⟩ := hp
    rw [nvmAsk_nvm]
    exact .inl (List.mem_map.mpr ⟨old, hmem, (if_pos rfl).trans (h.merged hs hr)⟩)
  split
  · rw [nvmAsk_nvm]
    exact .inl (List.mem_append_right _ List.mem_cons_self)
  · next hfull =>
    rw [if_neg (by simp [h.critical])]
    refine .inr ?_
    obtain ⟨b, rfl⟩ | ⟨n, rfl⟩ := h <;> exact Nat.le_of_not_lt hfull

/-- It leaves the requests of another counter there, and the queue no shorter. -/
theorem CounterJob.keeps (h : CounterJob c j) (hi : CounterJob d i) (hd : d ≠ c) (s : State) :
    (i ∈ s.nvm.queue → i ∈ (nvmRequest j s).nvm.queue) ∧ nvmFill s.nvm ≤ nvmFill (nvmRequest j s).nvm := by
  unfold nvmRequest
  split
  · exact ⟨id, le_rfl⟩
  split
  · next old hfind =>
    have hp := List.find?_some hfind
    rw [Bool.and_eq_true, beq_iff_eq] at hp
    obtain ⟨hs, hr⟩ := hp
    obtain ⟨r, hj⟩ := Option.isSome_iff_exists.mp hs
    have hne : i ≠ old := by
      rintro rfl
      obtain ⟨-, rfl⟩ := h.record hj
      obtain ⟨-, he⟩ := hi.record (hr.trans hj)
      exact hd (Fin.ext (by omega))
    rw [nvmAsk_nvm]
    exact ⟨fun hin => List.mem_map.mpr ⟨i, hin, if_neg hne⟩, by simp [nvmFill]⟩
  split
  · rw [nvmAsk_nvm]
    refine ⟨List.mem_append_left _, ?_⟩
    simp only [nvmFill, List.length_append]
    omega
  · rw [if_neg (by simp [h.critical])]
    obtain ⟨b, rfl⟩ | ⟨n, rfl⟩ := h <;> exact ⟨id, le_rfl⟩

end

/-! FLUSH (R509) -/

theorem modCnt_cnt_same (s : State) (c : CntId) (f : SpreadCounter → SpreadCounter) : (s.modCnt c f).cnt c = f (s.cnt c) := modVec_get_same ..
theorem modCnt_cnt_other (s : State) {c d : CntId} (f : SpreadCounter → SpreadCounter) (h : d ≠ c) : (s.modCnt c f).cnt d = s.cnt d :=
  modVec_get_other _ _ h

/-- What a counter asks for depends on its own record, the pending count and what holds commits back. -/
theorem cntJob_congr {s t : State} {c : CntId} (hnow : t.now = s.now) (hpwr : t.pwr = s.pwr) (hka : t.ka = s.ka)
    (hres : t.nvm.resNext = s.nvm.resNext) (hst : t.nvm.stale = s.nvm.stale) (hc : t.cnt c = s.cnt c) : cntJob t c = cntJob s c := by
  simp only [cntJob, mayCommit, cntDue, committed, pendOf, kaOn, hnow, hpwr, hka, hres, hst, hc]
  rfl

/-- The step of FLUSH at counter c. -/
def flushStep (s : State) (c : CntId) : State :=
  if cntW c ≤ pendOf s c then counterCommit c (s.modCnt c fun x => { x with flush := true }) else s

theorem within_flushStep (s : State) (c : CntId) : Within [.nvm, .draw] s (flushStep s c) :=
  within_ite (((within_State_modCnt s c _).mono (by decide)).trans (within_counterCommit c _)) Within.refl

theorem counterCommit_eq (c : CntId) (s : State) : counterCommit c s = s ∨ ∃ j, cntJob s c = some j ∧ counterCommit c s = nvmRequest j s := by
  refine (ite_eq_or_eq (coreOn s && _) _ _).elim (fun h => ?_) .inl
  cases hj : cntJob s c with
  | none => exact .inl (h.trans (by rw [hj]))
  | some j => exact .inr ⟨j, rfl, h.trans (by rw [hj])⟩

/-- With no operation running, the counter's request is made. -/
theorem counterCommit_of_idle {c : CntId} {s : State} {j : NvmJob} (hc : coreOn s = true) (ho : s.nvm.op = none) (hj : cntJob s c = some j) :
    counterCommit c s = nvmRequest j s := by
  unfold counterCommit
  rw [ho, hc, hj]
  rfl

/-- A commit changes nothing of the NVM but the queue and its bookkeeping. -/
theorem counterCommit_nvm (c : CntId) (s : State) :
    (counterCommit c s).nvm = { s.nvm with
      queue := (counterCommit c s).nvm.queue, merged := (counterCommit c s).nvm.merged, fullCnt := (counterCommit c s).nvm.fullCnt
      retries := (counterCommit c s).nvm.retries } := by
  obtain h | ⟨j, -, h⟩ := counterCommit_eq c s <;> rw [h]
  exact nvmRequest_nvm j s

/-- What of the NVM the steps of FLUSH leave: all but the queue, its bookkeeping and the counters. -/
theorem flushStep_nvm (s : State) (c : CntId) :
    (flushStep s c).nvm = { s.nvm with
      queue := (flushStep s c).nvm.queue, merged := (flushStep s c).nvm.merged, fullCnt := (flushStep s c).nvm.fullCnt
      retries := (flushStep s c).nvm.retries, cnt := (flushStep s c).nvm.cnt } := by
  unfold flushStep
  split
  · rw [counterCommit_nvm]; rfl
  · rfl

theorem flushStep_cnt (s : State) (c d : CntId) :
    (flushStep s c).cnt d = if d = c then { s.cnt d with flush := (s.cnt d).flush || decide (cntW d ≤ pendOf s d) } else s.cnt d := by
  have hcommit : ∀ x : State, (counterCommit c x).cnt d = x.cnt d := fun x => by rw [State.cnt, counterCommit_nvm]; rfl
  unfold flushStep
  by_cases hd : d = c
  · subst hd
    by_cases hw : cntW d ≤ pendOf s d
    · rw [if_pos hw, hcommit, modCnt_cnt_same, if_pos rfl]
      simp [hw]
    · rw [if_neg hw, if_pos rfl]
      simp [hw]
  · rw [if_neg hd]
    split
    · rw [hcommit, modCnt_cnt_other _ _ hd]
    · rfl

/-- A step leaves what the other counters have asked for. -/
theorem flushStep_keeps {c d : CntId} {i : NvmJob} (hi : CounterJob d i) (hd : d ≠ c) (s : State) :
    (i ∈ s.nvm.queue → i ∈ (flushStep s c).nvm.queue) ∧ nvmFill s.nvm ≤ nvmFill (flushStep s c).nvm := by
  unfold flushStep
  split
  · obtain h | ⟨j, hj, h⟩ := counterCommit_eq c (s.modCnt c fun x => { x with flush := true })
    · rw [h]; exact ⟨id, le_rfl⟩
    · rw [h]; exact (counterJob_of_cntJob hj).keeps hi hd (s.modCnt c fun x => { x with flush := true })
  · exact ⟨id, le_rfl⟩

/-- Counter c has asked for `j`, or the queue is full. -/
def AskedOrFull (j : NvmJob) (s : State) : Prop := j ∈ s.nvm.queue ∨ 16 ≤ nvmFill s.nvm

/-- What FLUSH, having come past the counters `done`, has made of `s`. -/
structure Flushed (done : List CntId) (s t : State) : Prop where
  frame : Within [.nvm, .draw] s t
  nvm : t.nvm = { s.nvm with
    queue := t.nvm.queue, merged := t.nvm.merged, fullCnt := t.nvm.fullCnt, retries := t.nvm.retries, cnt := t.nvm.cnt }
  cnt : ∀ c, t.cnt c = if c ∈ done then { s.cnt c with flush := (s.cnt c).flush || decide (cntW c ≤ pendOf s c) } else s.cnt c
  asked : coreOn s = true → s.nvm.op = none → ∀ c ∈ done, cntW c ≤ pendOf s c →
    ∀ j, cntJob (s.modCnt c fun x => { x with flush := true }) c = some j → AskedOrFull j t

theorem Flushed.start (s : State) : Flushed [] s s :=
  ⟨Within.refl, rfl, fun _ => (if_neg List.not_mem_nil).symm, fun _ _ _ hc => absurd hc List.not_mem_nil⟩

theorem Flushed.step {done : List CntId} {s t : State} {c : CntId} (h : Flushed done s t) (hc : c ∉ done) :
    Flushed (c :: done) s (flushStep t c) := by
  have hpend : ∀ d, pendOf t d = pendOf s d := fun d => by rw [pendOf, h.frame .ka (by decide)]; rfl
  refine ⟨h.frame.trans (within_flushStep t c), ?_, fun d => ?_, fun hon hop d hd hw j hj => ?_⟩
  · rw [flushStep_nvm, h.nvm]
  · rw [flushStep_cnt, h.cnt, hpend]
    by_cases hdc : d = c
    · subst hdc
      rw [if_neg hc, if_pos rfl, if_pos List.mem_cons_self]
    · rw [if_neg hdc]
      simp [hdc]
  · have honx : coreOn t = true := (coreOn_congr (h.frame .pwr (by decide))).trans hon
    have hopx : t.nvm.op = none := (congrArg Nvm.op h.nvm).trans hop
    obtain rfl | hd := List.mem_cons.mp hd
    · have hjob : cntJob (t.modCnt d fun x => { x with flush := true }) d = some j := by
        have hres : t.nvm.resNext = s.nvm.resNext := (congrArg Nvm.resNext h.nvm).trans rfl
        have hstale : t.nvm.stale = s.nvm.stale := (congrArg Nvm.stale h.nvm).trans rfl
        refine (cntJob_congr (s := s.modCnt d fun x => { x with flush := true }) (t := t.modCnt d fun x => { x with flush := true })
          (h.frame .now (by decide)) (h.frame .pwr (by decide)) (h.frame .ka (by decide)) hres hstale ?_).trans hj
        rw [modCnt_cnt_same, modCnt_cnt_same, h.cnt, if_neg hc]
      have hrun : flushStep t d = nvmRequest j (t.modCnt d fun x => { x with flush := true }) :=
        (if_pos ((hpend d).symm ▸ hw)).trans (counterCommit_of_idle honx hopx hjob)
      rw [AskedOrFull, hrun]
      exact (counterJob_of_cntJob hj).asked _
    · have hne : d ≠ c := fun he => hc (he ▸ hd)
      obtain ⟨hkeep, hfill⟩ := flushStep_keeps (counterJob_of_cntJob hj) hne t
      exact (h.asked hon hop d hd hw j hj).imp hkeep (le_trans · hfill)

theorem flushed_foldl {done l : List CntId} {s t : State} (h : Flushed done s t) (hl : l.Nodup) (hd : ∀ c ∈ l, c ∉ done) :
    Flushed (l.reverse ++ done) s (l.foldl flushStep t) := by
  induction l generalizing done t with
  | nil => exact h
  | cons c l ih =>
    rw [List.nodup_cons] at hl
    rw [List.foldl_cons, List.reverse_cons, List.append_assoc]
    refine ih (h.step (hd c List.mem_cons_self)) hl.2 fun d hdl => ?_
    simp only [List.singleton_append, List.mem_cons, not_or]
    exact ⟨fun he => hl.1 (he ▸ hdl), hd d (List.mem_cons_of_mem _ hdl)⟩

theorem flushCounters_flushed (s : State) : Flushed (finList 73).reverse s (flushCounters s) := by
  have h := flushed_foldl (Flushed.start s) (List.nodup_finRange 73) fun _ _ => List.not_mem_nil
  rwa [List.append_nil] at h

/-! Commands (R501, R502, R520) -/

section
variable {s : State} {h : HostId} {cmd arg : Nat}

theorem nvmCmd_of_busy (hc : 0 < cmd ∧ cmd ≤ 4) (hb : s.nvm.hostJob.isSome = true ∨ s.nvm.opHost = true) : nvmCmd h cmd arg s = nvmRefuse h 1 s := by
  unfold nvmCmd
  rw [if_neg (by omega), if_pos (by simpa using hb)]

/-- No host command waits or runs. -/
def HostFree (s : State) : Prop := s.nvm.hostJob = none ∧ s.nvm.opHost = false

theorem nvmCmd_of_full (hc : 0 < cmd ∧ cmd ≤ 4) (hf : HostFree s) (hfull : 16 ≤ nvmFill s.nvm) :
    nvmCmd h cmd arg s = nvmFull (nvmRefuse h 1 s) := by
  unfold nvmCmd
  rw [if_neg (by omega), if_neg (by simp [hf.1, hf.2]), if_pos hfull]

theorem nvmCmd_of_warned (hc : 0 < cmd ∧ cmd ≤ 4) (hf : HostFree s) (hroom : nvmFill s.nvm < 16) (hw : s.pwr.warn = true) :
    nvmCmd h cmd arg s = nvmRefuse h 2 s := by
  unfold nvmCmd
  rw [if_neg (by omega), if_neg (by simp [hf.1, hf.2]), if_neg (Nat.not_le.mpr hroom), if_pos hw]

/-- No host command waits or runs, the queue has room and no warning holds: a command is judged by its code and its ARG. -/
def HostReady (s : State) : Prop := HostFree s ∧ nvmFill s.nvm < 16 ∧ s.pwr.warn = false

theorem nvmCmd_of_disarmed (hf : HostReady s) (hc : cmd = 2 ∨ cmd = 3) (ha : armOpen s = false) : nvmCmd h cmd arg s = nvmRefuse h 3 s := by
  obtain ⟨⟨hj, ho⟩, hroom, hw⟩ := hf
  unfold nvmCmd
  rw [if_neg (by omega), if_neg (by simp [hj, ho]), if_neg (Nat.not_le.mpr hroom), if_neg (by simp [hw]), if_pos ⟨hc, ha⟩]

theorem nvmCmd_of_badArg (hf : HostReady s) (hc : 0 < cmd ∧ cmd ≤ 4) (ha : armOpen s = true) (harg : 4 < arg) :
    nvmCmd h cmd arg s = nvmRefuse h 4 s := by
  obtain ⟨⟨hj, ho⟩, hroom, hw⟩ := hf
  unfold nvmCmd
  rw [if_neg (by omega), if_neg (by simp [hj, ho]), if_neg (Nat.not_le.mpr hroom), if_neg (by simp [hw]), if_neg (by simp [ha]), if_pos harg]

/-- The state in which a host command waits: recorded in the event queue, it holds the bus. -/
def State.hostTaken (s : State) (h : HostId) (code : Word) (j : NvmJob) : State :=
  { recordEntry 3 code h s with
    nvm := { (recordEntry 3 code h s).nvm with hostJob := some j, hostState := .waiting, hostResult := 0, hostB := h == .b }
    bus := { (recordEntry 3 code h s).bus with holdFrom := some (recordEntry 3 code h s).now } }

theorem nvmCmd_program (hf : HostReady s) :
    nvmCmd h 1 0 s = if s.nvm.bufValid && userPage s.nvm.bufPage then nvmAsk (s.hostTaken h (word (1 + 16 * 0)) .hostProgram) else nvmRefuse h 4 s := by
  obtain ⟨⟨hj, ho⟩, hroom, hw⟩ := hf
  unfold nvmCmd
  rw [if_neg (by omega), if_neg (by simp [hj, ho]), if_neg (Nat.not_le.mpr hroom), if_neg (by simp [hw]), if_neg (by simp), if_neg (by omega)]
  rfl

theorem nvmCmd_record (hf : HostReady s) (ha : armOpen s = true) (harg : arg ≤ 4) :
    nvmCmd h 2 arg s = nvmAsk (s.hostTaken h (word (2 + 16 * arg)) (.hostSave arg))
      ∧ nvmCmd h 3 arg s = nvmAsk (s.hostTaken h (word (3 + 16 * arg)) (.hostErase arg)) := by
  obtain ⟨⟨hj, ho⟩, hroom, hw⟩ := hf
  unfold nvmCmd
  constructor <;>
    · rw [if_neg (by omega), if_neg (by simp [hj, ho]), if_neg (Nat.not_le.mpr hroom), if_neg (by simp [hw]), if_neg (by simp [ha]),
        if_neg (Nat.not_lt.mpr harg)]
      rfl

/-- The state from which FLUSH goes through the counters. -/
def State.flushTaken (s : State) (h : HostId) (code : Word) : State :=
  { recordEntry 3 code h s with nvm := { (recordEntry 3 code h s).nvm with hostState := .done, hostResult := 0, hostB := h == .b } }

theorem nvmCmd_flush (hf : HostReady s) : nvmCmd h 4 0 s = flushCounters (s.flushTaken h (word (4 + 16 * 0))) := by
  obtain ⟨⟨hj, ho⟩, hroom, hw⟩ := hf
  unfold nvmCmd
  rw [if_neg (by omega), if_neg (by simp [hj, ho]), if_neg (Nat.not_le.mpr hroom), if_neg (by simp [hw]), if_neg (by simp), if_neg (by omega)]
  rfl

theorem recordEntry_nvm (code : Nat) (d : Word) (s : State) : (recordEntry code d h s).nvm = s.nvm := within_recordEntry _ _ _ _ .nvm (by decide)
theorem recordEntry_now (code : Nat) (d : Word) (s : State) : (recordEntry code d h s).now = s.now := within_recordEntry _ _ _ _ .now (by decide)

/-! A written command (R520) -/

@[simp] theorem opened_nvm (a : Nat) : (s.opened h a).nvm = s.nvm := opened_within s h a .nvm (by decide)

theorem fld_command (hc : cmd < 8) (ha : arg < 8) : fld (word (cmd + 16 * arg)) 2 0 = cmd ∧ fld (word (cmd + 16 * arg)) 6 4 = arg := by
  simp only [fld, nfld, word, BitVec.toNat_ofNat, Nat.shiftRight_eq_div_pow]
  omega

theorem nvmCommand_runs (hc : cmd < 8) (ha : arg < 8) (hl : WordLands s h .nvmCmd (word (cmd + 16 * arg))) :
    writeAt h .nvmCmd (word (cmd + 16 * arg)) s = nvmCmd h cmd arg (s.opened h Reg.nvmCmd.addr) := by
  have hrun : writeAt h .nvmCmd (word (cmd + 16 * arg)) s
      = nvmCmd h (fld (word (cmd + 16 * arg)) 2 0) (fld (word (cmd + 16 * arg)) 6 4) (s.opened h Reg.nvmCmd.addr) := writeAt_of_lands hl
  rwa [(fld_command hc ha).1, (fld_command hc ha).2] at hrun

/-- Where the judgement of every command is the same, so is what each of the four leaves. -/
theorem nvmCommands_of_judged {x : State} (a : BitVec 3)
    (hx : ∀ cmd arg, 0 < cmd ∧ cmd ≤ 4 → nvmCmd h cmd arg (s.opened h Reg.nvmCmd.addr) = x) :
    (WordLands s h .nvmCmd 1 → exec (.nvmProgram h) s = .next x)
      ∧ (WordLands s h .nvmCmd (word (2 + 16 * a.toNat)) → exec (.calSave h a) s = .next x)
      ∧ (WordLands s h .nvmCmd (word (3 + 16 * a.toNat)) → exec (.recErase h a) s = .next x)
      ∧ (WordLands s h .nvmCmd 4 → exec (.flush h) s = .next x) :=
  ⟨fun hl => congrArg Host.Outcome.next ((nvmCommand_runs (cmd := 1) (arg := 0) (by decide) (by decide) hl).trans (hx 1 0 (by decide))),
    fun hl => congrArg Host.Outcome.next ((nvmCommand_runs (by decide) a.isLt hl).trans (hx 2 _ (by decide))),
    fun hl => congrArg Host.Outcome.next ((nvmCommand_runs (by decide) a.isLt hl).trans (hx 3 _ (by decide))),
    fun hl => congrArg Host.Outcome.next ((nvmCommand_runs (cmd := 4) (arg := 0) (by decide) (by decide) hl).trans (hx 4 0 (by decide)))⟩

/-- The refusal of a command, its reason named in the opened transaction. -/
theorem nvmRefuse_opened (n : Nat) : nvmRefuse h n (s.opened h Reg.nvmCmd.addr) =
    refuse h { s.opened h Reg.nvmCmd.addr with nvm := { s.nvm with hostResult := n, hostB := h == .b } } := by
  rw [← opened_nvm (s := s) (h := h) Reg.nvmCmd.addr]; rfl

/-- A refusal by the full queue counts there too. -/
theorem nvmFull_opened : nvmFull (nvmRefuse h 1 (s.opened h Reg.nvmCmd.addr)) =
    refuse h { s.opened h Reg.nvmCmd.addr with
      nvm := { s.nvm with hostResult := 1, hostB := h == .b, fullCnt := satInc s.nvm.fullCnt 255 } } := by
  rw [← opened_nvm (s := s) (h := h) Reg.nvmCmd.addr]
  cases h <;> rfl

theorem hostReady_opened (hf : HostReady s) (a : Nat) : HostReady (s.opened h a) := by
  simpa [HostReady, HostFree] using hf

/-- What a command that waits leaves. -/
theorem hostTaken_leaves (code : Word) (j : NvmJob) :
    let t := nvmAsk ((s.opened h Reg.nvmCmd.addr).hostTaken h code j)
    Within [.bus, .nvm, .draw, .ev] s t
      ∧ t.nvm = { s.nvm with hostJob := some j, hostState := .waiting, hostResult := 0, hostB := h == .b }
      ∧ t.bus.holdFrom = some s.now ∧ (s.ev.queue.length < 512 → t.ev.queue.length = s.ev.queue.length + 1) := by
  intro t
  let x := s.opened h Reg.nvmCmd.addr
  have hask : Within [.draw] (x.hostTaken h code j) t := within_nvmAsk _
  have hrec : Within [.ev] x (recordEntry 3 code h x) := within_recordEntry _ _ _ _
  have hx : Within [.bus] s x := opened_within s h _
  have hev : t.ev = (recordEntry 3 code h x).ev := hask .ev (by decide)
  have hxev : x.ev = s.ev := hx .ev (by decide)
  refine ⟨?_, ?_, ?_, fun hroom => ?_⟩
  · exact (((hx.mono (by decide)).step hrec (by decide)).step (within_set_bus_nvm _ _ _) (by decide)).step hask (by decide)
  · rw [nvmAsk_nvm, State.hostTaken]
    simp only [recordEntry_nvm, opened_nvm]
  · rw [hask .bus (by decide), State.hostTaken]
    simp only [recordEntry_now]
    rw [opened_now]
  · rw [hev, recordEntry_length (by rwa [hxev]), hxev]

/-- What FLUSH leaves. -/
theorem flushTaken_leaves {code : Word} {t : State} (ht : Flushed (finList 73).reverse ((s.opened h Reg.nvmCmd.addr).flushTaken h code) t)
    (hon : coreOn s = true) :
    t.nvm.hostState = .done ∧ t.nvm.hostResult = 0 ∧ t.nvm.mem = s.nvm.mem ∧ Within [.bus, .nvm, .draw, .ev] s t
      ∧ ∀ c : CntId, t.cnt c = { s.cnt c with flush := (s.cnt c).flush || decide (cntW c ≤ pendOf s c) }
        ∧ (cntW c ≤ pendOf s c → s.nvm.op = none → ∀ j, cntJob (s.modCnt c fun x => { x with flush := true }) c = some j →
            j ∈ t.nvm.queue ∨ 16 ≤ nvmFill t.nvm) := by
  obtain ⟨hframe, hnvm, hcnt, hasked⟩ := ht
  have hrec : Within [.ev] (s.opened h Reg.nvmCmd.addr) (recordEntry 3 code h (s.opened h Reg.nvmCmd.addr)) := within_recordEntry _ _ _ _
  have htaken : Within [.bus, .nvm, .ev] s ((s.opened h Reg.nvmCmd.addr).flushTaken h code) :=
    (((opened_within s h _).mono (by decide)).step hrec (by decide)).step (within_set_nvm _ _) (by decide)
  have hxnvm : ((s.opened h Reg.nvmCmd.addr).flushTaken h code).nvm = { s.nvm with hostState := .done, hostResult := 0, hostB := h == .b } := by
    rw [State.flushTaken]
    simp only [recordEntry_nvm, opened_nvm]
  have hxcnt : ∀ c, ((s.opened h Reg.nvmCmd.addr).flushTaken h code).cnt c = s.cnt c := fun c => by rw [State.cnt, hxnvm]; rfl
  have hpend : ∀ c, pendOf ((s.opened h Reg.nvmCmd.addr).flushTaken h code) c = pendOf s c := fun c => by
    rw [pendOf, htaken .ka (by decide)]; rfl
  have hmem : ∀ c : CntId, c ∈ (finList 73).reverse := fun c => List.mem_reverse.mpr (List.mem_finRange c)
  rw [hxnvm] at hnvm
  refine ⟨by rw [hnvm], by rw [hnvm], by rw [hnvm], (htaken.mono (by decide)).step hframe (by decide), fun c => ⟨?_, fun hw hop j hj => ?_⟩⟩
  · rw [hcnt, if_pos (hmem c), hxcnt, hpend]
  · refine hasked ((coreOn_congr (htaken .pwr (by decide))).trans hon) (by rw [hxnvm]; exact hop) c (hmem c) (by rwa [hpend]) j ?_
    refine (cntJob_congr (s := s.modCnt c fun x => { x with flush := true })
      (t := ((s.opened h Reg.nvmCmd.addr).flushTaken h code).modCnt c fun x => { x with flush := true })
      (htaken .now (by decide)) (htaken .pwr (by decide)) (htaken .ka (by decide)) ?_ ?_ ?_).trans hj
    · show ((s.opened h Reg.nvmCmd.addr).flushTaken h code).nvm.resNext = _
      rw [hxnvm]; rfl
    · show ((s.opened h Reg.nvmCmd.addr).flushTaken h code).nvm.stale = _
      rw [hxnvm]; rfl
    · rw [modCnt_cnt_same, modCnt_cnt_same, hxcnt]

/-! NVM_IDX and NVM_DATA (R503, R521) -/

/-- A field outside the mask of a write keeps what it held. -/
theorem fld_merge_kept {old data mask : Word} {hi lo : Nat} (hm : ∀ i, i < hi + 1 - lo → mask.getLsbD (lo + i) = false) (hlo : hi < 32) :
    fld (merge old data mask) hi lo = fld old hi lo := by
  refine Nat.eq_of_testBit_eq fun i => ?_
  simp only [fld, nfld, Nat.testBit_mod_two_pow, Nat.testBit_shiftRight, BitVec.testBit_toNat, merge, BitVec.getLsbD_or, BitVec.getLsbD_and]
  by_cases hi' : i < hi + 1 - lo
  · have hbit := hm i hi'
    have hnot : (~~~mask).getLsbD (lo + i) = true := by
      rw [BitVec.getLsbD_not, hbit]
      simpa using (by omega : lo + i < 32)
    simp [hbit, hnot]
  · simp [hi']

/-- OFFSET steps on by four within the page, and PAGE stays. -/
theorem nvmAdvance_index (x : State) : nvmOffset (nvmAdvance h x) h = (nvmOffset x h + 4) % 64 ∧ nvmPageIdx (nvmAdvance h x) h = nvmPageIdx x h := by
  have hidx : ((nvmAdvance h x).host h).nvmIdx = merge (x.host h).nvmIdx (word ((nvmOffset x h + 4) % 64)) 0x3F#32 := by
    rw [nvmAdvance, modHost_host]; rfl
  constructor
  · rw [nvmOffset, hidx, fld_merge (by decide)]
    simp only [fld, nfld, word, BitVec.toNat_ofNat, Nat.shiftRight_zero]
    omega
  · rw [nvmPageIdx, hidx, fld_merge_kept (by decide) (by decide)]; rfl

theorem nvmData_lands {data : Word} (hl : WordLands s h .nvmData data) :
    writeAt h .nvmData data s = nvmAdvance h (nvmDataWrite h data (s.opened h Reg.nvmData.addr)) := writeAt_of_lands hl

theorem nvmPageIdx_opened (a : Nat) : nvmPageIdx (s.opened h a) h = nvmPageIdx s h := by rw [nvmPageIdx, opened_host]; rfl
theorem nvmOffset_opened (a : Nat) : nvmOffset (s.opened h a) h = nvmOffset s h := by rw [nvmOffset, opened_host]; rfl

/-- The page buffer with a word of host h: loaded from its page first, where it holds another or an older one. -/
def Nvm.bufferWritten (n : Nvm) (page offset : Nat) (data : Word) (moved : Bool) : Nvm :=
  let old := if n.bufStale || !n.bufValid || n.bufPage != page || moved then Store.bytes n.mem (64 * page) 64 else n.buf
  { n with bufPage := page, bufValid := true, bufStale := false, buf := old.take offset ++ beBytes 4 data.toNat ++ old.drop (offset + 4) }

/-- The state with the page buffer so written by host h. -/
def State.bufferWritten (s : State) (h : HostId) (data : Word) : State :=
  { s with nvm := s.nvm.bufferWritten (nvmPageIdx s h) (nvmOffset s h) data (s.host h).pageMoved }

theorem nvmDataWrite_of_user {data : Word} (hp : userPage (nvmPageIdx s h) = true) :
    nvmDataWrite h data s = (s.bufferWritten h data).modHost h fun r => { r with pageMoved := false } := if_pos hp

theorem bufferWritten_opened (data : Word) (a : Nat) : ((s.opened h a).bufferWritten h data).nvm = (s.bufferWritten h data).nvm := by
  simp only [State.bufferWritten, opened_nvm, nvmPageIdx_opened, nvmOffset_opened]
  rw [opened_host]

/-- What a word of NVM_DATA for a user page leaves. -/
theorem nvmData_buffers {data : Word} (hl : WordLands s h .nvmData data) (hp : userPage (nvmPageIdx s h) = true) :
    ∃ t, writeAt h .nvmData data s = t ∧ t.nvm = (s.bufferWritten h data).nvm ∧ nvmOffset t h = (nvmOffset s h + 4) % 64
      ∧ nvmPageIdx t h = nvmPageIdx s h ∧ Within [.bus, .nvm] s t := by
  let b := (s.opened h Reg.nvmData.addr).bufferWritten h data
  let m := b.modHost h fun r => { r with pageMoved := false }
  have hin : Within [.bus, .nvm] s b := ((opened_within s h _).mono (by decide)).step (within_set_nvm _ _) (by decide)
  have hlast : Within [.bus] b (nvmAdvance h m) := (within_State_modHost b h _).step (within_nvmAdvance h _) (by decide)
  have hhost : b.host h = { s.host h with ptr := (b.host h).ptr } := by
    have hopen : b.host h = (s.opened h Reg.nvmData.addr).host h := rfl
    rw [hopen, opened_host]
  obtain ⟨hoff, hidx⟩ := nvmAdvance_index (h := h) m
  refine ⟨_, (nvmData_lands hl).trans (congrArg (nvmAdvance h) (nvmDataWrite_of_user (by rwa [nvmPageIdx_opened]))),
    (hlast .nvm (by decide)).trans (bufferWritten_opened ..), hoff.trans ?_, hidx.trans ?_, (hin.mono (by decide)).step hlast (by decide)⟩
  · rw [nvmOffset, modHost_host, hhost]; rfl
  · rw [nvmPageIdx, modHost_host, hhost]; rfl

theorem nvmDataWrite_of_other {data : Word} (hp : userPage (nvmPageIdx s h) = false) : nvmDataWrite h data s = refuse h s :=
  if_neg (by simp [hp])

theorem readReg_nvmData_congr {t : State} (hp : t.pwr = s.pwr) (hn : t.nvm = s.nvm) (hi : (t.host h).nvmIdx = (s.host h).nvmIdx) :
    readReg t h .nvmData = readReg s h .nvmData := by
  simp only [readReg, regLive_congr hp, readAny, nvmDataWord, nvmPage, nvmPageIdx, nvmOffset, hn, hi]

end

end Sys2Proof.Machine
end

section
/-! PROOFS. The statement of 16_nvm_records.md on the host's commands. -/

open Sys2Proof Sys2Proof.Machine

/-- Settles O53: the code and ARG choose the branch of the judgement; FLUSH goes through the counters one by one. -/
theorem nvmHostCommandsAreJudged : Obligations.NvmHostCommandsAreJudged := by
  intro h s free takes refuses
  refine ⟨fun ⟨hjob, hop, hroom, hwarn⟩ => ?_, fun a => ⟨fun hbusy => ?_, fun hjob hop hfull => ?_, fun hjob hop hroom hwarn => ?_⟩,
    fun data hl hpage => ?_, fun data hl hpage => ?_, fun hc hh hr => ?_⟩
  · have hready : HostReady (s.opened h Reg.nvmCmd.addr) := hostReady_opened ⟨⟨hjob, hop⟩, hroom, hwarn⟩ _
    have htakes : ∀ {code : Word} {j : NvmJob} {c : Instr},
        exec c s = .next (nvmAsk ((s.opened h Reg.nvmCmd.addr).hostTaken h code j)) → takes c j := fun hrun =>
      ⟨_, hrun, hostTaken_leaves _ _⟩
    have hrefuses : ∀ {c : Instr} {n : Nat}, exec c s = .next (nvmRefuse h n (s.opened h Reg.nvmCmd.addr)) → refuses c n := fun hrun =>
      hrun.trans (congrArg Host.Outcome.next (nvmRefuse_opened _))
    have harmed : armOpen (s.opened h Reg.nvmCmd.addr) = armOpen s := by simp [armOpen]
    have hword : WordLands s h .nvmCmd 1 → writeAt h .nvmCmd 1 s = nvmCmd h 1 0 (s.opened h Reg.nvmCmd.addr) := fun hl =>
      nvmCommand_runs (cmd := 1) (arg := 0) (by decide) (by decide) hl
    refine ⟨fun hl hbuf huser => ?_, fun a ha => ⟨fun hl => ⟨fun harm => ?_, fun harm => ?_⟩, fun hl => ⟨fun harm => ?_, fun harm => ?_⟩⟩,
      fun hl => ?_, fun hl hno => ?_, fun a ha harm => ⟨fun hl => ?_, fun hl => ?_⟩⟩
    · exact htakes (congrArg Host.Outcome.next ((hword hl).trans ((nvmCmd_program hready).trans (if_pos (by simp [hbuf, huser])))))
    · exact htakes (congrArg Host.Outcome.next ((nvmCommand_runs (by decide) a.isLt hl).trans (nvmCmd_record hready (harmed.trans harm) ha).1))
    · exact hrefuses (congrArg Host.Outcome.next ((nvmCommand_runs (by decide) a.isLt hl).trans (nvmCmd_of_disarmed hready (.inl rfl) (harmed.trans harm))))
    · exact htakes (congrArg Host.Outcome.next ((nvmCommand_runs (by decide) a.isLt hl).trans (nvmCmd_record hready (harmed.trans harm) ha).2))
    · exact hrefuses (congrArg Host.Outcome.next ((nvmCommand_runs (by decide) a.isLt hl).trans (nvmCmd_of_disarmed hready (.inr rfl) (harmed.trans harm))))
    · exact ⟨_, congrArg Host.Outcome.next ((nvmCommand_runs (cmd := 4) (arg := 0) (by decide) (by decide) hl).trans (nvmCmd_flush hready)),
        flushTaken_leaves (flushCounters_flushed _) hl.1⟩
    · refine hrefuses (congrArg Host.Outcome.next ((hword hl).trans ((nvmCmd_program hready).trans (if_neg ?_))))
      obtain hb | hb := hno <;> simp [hb]
    · exact hrefuses (congrArg Host.Outcome.next ((nvmCommand_runs (by decide) a.isLt hl).trans (nvmCmd_of_badArg hready (by decide) (harmed.trans harm) ha)))
    · exact hrefuses (congrArg Host.Outcome.next ((nvmCommand_runs (by decide) a.isLt hl).trans (nvmCmd_of_badArg hready (by decide) (harmed.trans harm) ha)))
  · exact nvmCommands_of_judged a fun cmd arg hc => (nvmCmd_of_busy hc (by simpa using hbusy)).trans (nvmRefuse_opened 1)
  · exact nvmCommands_of_judged a fun cmd arg hc => (nvmCmd_of_full hc (by simpa [HostFree] using ⟨hjob, hop⟩) (by simpa using hfull)).trans nvmFull_opened
  · exact nvmCommands_of_judged a fun cmd arg hc =>
      (nvmCmd_of_warned hc (by simpa [HostFree] using ⟨hjob, hop⟩) (by simpa using hroom) (by simpa using hwarn)).trans (nvmRefuse_opened 2)
  · intro load old
    obtain ⟨t, hrun, hnvm, hrest⟩ := nvmData_buffers hl hpage
    have hload : (s.nvm.bufStale || !s.nvm.bufValid || s.nvm.bufPage != nvmPageIdx s h || (s.host h).pageMoved) = decide load := by
      rw [Bool.eq_iff_iff]
      simp [load, or_assoc]
    have hold : (if s.nvm.bufStale || !s.nvm.bufValid || s.nvm.bufPage != nvmPageIdx s h || (s.host h).pageMoved then
        Store.bytes s.nvm.mem (64 * nvmPageIdx s h) 64 else s.nvm.buf) = old := by
      rw [hload]; simp only [decide_eq_true_eq]; rfl
    refine ⟨t, congrArg Host.Outcome.next hrun, hnvm.trans ?_, hrest⟩
    rw [State.bufferWritten, Nvm.bufferWritten, hold]
  · have hopen : userPage (nvmPageIdx (s.opened h Reg.nvmData.addr) h) = false := by rwa [nvmPageIdx_opened]
    have hrun := (nvmData_lands hl).trans (congrArg (nvmAdvance h) (nvmDataWrite_of_other hopen))
    have hin : Within [.bus] s (nvmAdvance h (refuse h (s.opened h Reg.nvmData.addr))) :=
      ((opened_within s h _).step (within_refuse h _) (by decide)).step (within_nvmAdvance h _) (by decide)
    refine ⟨_, congrArg Host.Outcome.next hrun, ?_, hin .nvm (by decide), hin⟩
    rw [nvmAdvance, modHost_host, refuse_host, opened_host]
    rfl
  · obtain ⟨x, code, hrun, hx, hhost, -, hsent⟩ := readAt_sends hc hh hr nofun (fun _ => rfl)
      (fun lead => readReg_nvmData_congr (reading_pwr ..) (reading_within s h _ lead .nvm (by decide)) (by rw [reading_host]))
    obtain ⟨hoff, hidx⟩ := nvmAdvance_index (h := h) x
    have hreg : readReg s h .nvmData = nvmDataWord s h := if_pos hr
    refine ⟨_, congrArg Host.Outcome.next hrun, ?_, ?_, ?_, readDone_frame h _ code (by decide) hx (within_nvmAdvance h x)⟩
    · have hkeep : (nvmAdvance h x).bus.sent = x.bus.sent := by cases h <;> rfl
      rw [Bus.rdata, readDone_sent, show readCommit h .nvmData x = nvmAdvance h x from rfl, hkeep, hsent, hreg]
      rfl
    · rw [nvmOffset, readDone_host]
      refine hoff.trans ?_
      rw [nvmOffset, hhost]; rfl
    · rw [nvmPageIdx, readDone_host]
      refine hidx.trans ?_
      rw [nvmPageIdx, hhost]; rfl

end

section
/-! SUPPORT. The draw arbiter: the sample, the costs, the grants in order and the two rules for a request that does not fit (R547, R548). -/

namespace Sys2Proof.Machine

/-! Costs and sums -/

/-- What a request costs depends on the settings, the charger's programmed current and the supply. -/
theorem drawCostOf_congr {s t : State} (hset : t.settings = s.settings) (hcfg : t.ka.chg.cfg = s.ka.chg.cfg) (hhk : t.hk = s.hk) (u : DrawUser) :
    drawCostOf t u = drawCostOf s u := by
  cases u <;> simp only [drawCostOf, setWord, chgCurrent, vsupNow, State.chan, hset, hcfg, hhk]

theorem grantSum_congr {s t : State} (h : t.draw.active = s.draw.active) (p : DrawGrant → Bool) : grantSum t p = grantSum s p := by
  simp only [grantSum, h]

/-! The waiting requests by rank -/

/-- Every request that waits has its place in the order, and none has two. -/
theorem drawOrder_count (s : State) (u : DrawUser) :
    (drawOrder s).countP (fun r => r.user == u) = s.draw.waiting.countP (fun r => r.user == u) := by
  have hrank : ∀ n, (s.draw.waiting.filter fun r => drawRank r.user == n).countP (fun r => r.user == u)
      = if drawRank u = n then s.draw.waiting.countP (fun r => r.user == u) else 0 := fun n => by
    rw [List.countP_filter]
    split
    · next hn =>
      refine congrArg (List.countP · _) (funext fun r => ?_)
      by_cases hu : r.user = u <;> simp [hu, hn]
    · next hn =>
      refine List.countP_eq_zero.mpr fun r _ hr => hn ?_
      rw [Bool.and_eq_true, beq_iff_eq, beq_iff_eq] at hr
      exact hr.1 ▸ hr.2
  simp only [drawOrder, List.flatMap_cons, List.flatMap_nil, List.countP_append, List.countP_nil, hrank]
  cases u <;> simp [drawRank]

theorem mem_of_drawOrder {s : State} {r : DrawRequest} (h : r ∈ drawOrder s) : r ∈ s.draw.waiting := by
  obtain ⟨_, _, hr⟩ := List.mem_flatMap.mp h
  exact List.mem_of_mem_filter hr

/-- One request of user v is taken out of a list. -/
theorem eraseFirst_count (v u : DrawUser) (l : List DrawRequest) :
    (eraseFirst (fun x => x.user == v) l).countP (fun r => r.user == u)
      = l.countP (fun r => r.user == u) - (if v = u then 1 else 0) := by
  induction l with
  | nil => simp [eraseFirst]
  | cons a l ih =>
    unfold eraseFirst
    by_cases ha : a.user = v
    · rw [if_pos (by simpa using ha), List.countP_cons]
      by_cases hu : v = u <;> simp [ha, hu]
    · rw [if_neg (by simpa using ha), List.countP_cons, List.countP_cons, ih]
      by_cases hu : v = u
      · subst hu
        simp [ha]
      · simp [hu]

/-- What waits once one request of each user of `l` has been taken out. -/
def stillWaiting (waiting l : List DrawRequest) : List DrawRequest := l.foldl (fun w r => eraseFirst (fun x => x.user == r.user) w) waiting

/-- Nothing waits once as many requests of each user as wait have been taken out. -/
theorem stillWaiting_of_all {waiting l : List DrawRequest}
    (h : ∀ u, waiting.countP (fun r => r.user == u) ≤ l.countP (fun r => r.user == u)) : stillWaiting waiting l = [] := by
  induction l generalizing waiting with
  | nil =>
    refine List.eq_nil_iff_forall_not_mem.mpr fun r hr => ?_
    have hpos : 0 < waiting.countP (fun x => x.user == r.user) := List.countP_pos_iff.mpr ⟨r, hr, by simp⟩
    exact absurd (h r.user) (Nat.not_le.mpr hpos)
  | cons r l ih =>
    refine ih fun u => ?_
    have hu := h u
    rw [List.countP_cons] at hu
    rw [eraseFirst_count]
    by_cases hr : r.user = u
    · simp only [hr, beq_self_eq_true, if_true] at hu ⊢
      omega
    · simp only [hr, if_false, beq_iff_eq] at hu ⊢
      omega

/-! Grants (R548) -/

/-- The grants that the requests of `l` become in `s`. -/
def grantsOf (s : State) (l : List DrawRequest) : List DrawGrant := l.map fun r => { user := r.user, cost := drawCostOf s r.user, since := s.now }

/-- What the requests of `l` cost together. -/
def costOf (s : State) (l : List DrawRequest) : Int := ((l.map fun r => drawCostOf s r.user).sum : Nat)

/-- From `s` to `t` nothing that a request's cost or the budget depends on has changed. -/
structure SameCosts (s t : State) : Prop where
  settings : t.settings = s.settings
  cfg : t.ka.chg.cfg = s.ka.chg.cfg
  hk : t.hk = s.hk
  now : t.now = s.now

namespace SameCosts
variable {s t u : State}

theorem refl (s : State) : SameCosts s s := ⟨rfl, rfl, rfl, rfl⟩
theorem trans (h : SameCosts s t) (h' : SameCosts t u) : SameCosts s u :=
  ⟨h'.settings.trans h.settings, h'.cfg.trans h.cfg, h'.hk.trans h.hk, h'.now.trans h.now⟩
theorem cost (h : SameCosts s t) (x : DrawUser) : drawCostOf t x = drawCostOf s x := drawCostOf_congr h.settings h.cfg h.hk x
theorem budget (h : SameCosts s t) : drawBudget t = drawBudget s := by simp only [drawBudget, setWord, h.settings]
theorem grants (h : SameCosts s t) (l : List DrawRequest) : grantsOf t l = grantsOf s l := by simp only [grantsOf, h.cost, h.now]
theorem costs (h : SameCosts s t) (l : List DrawRequest) : costOf t l = costOf s l := by simp only [costOf, h.cost]

end SameCosts

/-- The state in which every request of `l` is granted. -/
def granting (l : List DrawRequest) (s : State) : State := l.foldl (fun s r => grantLeave r s) s

theorem sameCosts_grantLeave (r : DrawRequest) (s : State) : SameCosts s (grantLeave r s) := by
  refine ⟨rfl, ?_, rfl, rfl⟩
  simp only [grantLeave]
  split <;> rfl

theorem granting_leaves (l : List DrawRequest) (s : State) :
    SameCosts s (granting l s)
      ∧ (granting l s).draw = { s.draw with waiting := stillWaiting s.draw.waiting l, active := s.draw.active ++ grantsOf s l } := by
  induction l generalizing s with
  | nil => exact ⟨.refl s, by simp [granting, stillWaiting, grantsOf]⟩
  | cons r l ih =>
    obtain ⟨hsame, hdraw⟩ := ih (grantLeave r s)
    have hone := sameCosts_grantLeave r s
    refine ⟨hone.trans hsame, hdraw.trans ?_⟩
    rw [hone.grants]
    simp [grantLeave, stillWaiting, grantsOf]

/-- The requests that fit are granted, one after the other. -/
theorem grantLoop_fit (b : Int) (fit rest : List DrawRequest) {room : Int} {s : State} (h : costOf s fit ≤ room) :
    grantLoop b (fit ++ rest) room s = grantLoop b rest (room - costOf s fit) (granting fit s) := by
  induction fit generalizing room s with
  | nil => simp [costOf, granting]
  | cons r fit ih =>
    have hsame := sameCosts_grantLeave r s
    have hsum : costOf s (r :: fit) = drawCostOf s r.user + costOf s fit := by simp [costOf]
    have hrest : (0 : Int) ≤ costOf s fit := Int.natCast_nonneg _
    have hfits : (drawCostOf s r.user : Int) ≤ room := by omega
    have hleft : costOf (grantLeave r s) fit ≤ room - drawCostOf s r.user := by rw [hsame.costs]; omega
    rw [List.cons_append, grantLoop]
    simp only [hfits, if_true]
    rw [ih hleft, hsame.costs, hsum]
    congr 1
    omega

section
variable {b room : Int} {r : DrawRequest} {rest : List DrawRequest} {s : State} (hc : room < drawCostOf s r.user)
include hc

/-- The first request that does not fit, with a grant active or within the budget alone, ends the sample where the charger makes no room. -/
theorem grantLoop_stops (hact : s.draw.active ≠ [] ∨ (drawCostOf s r.user : Int) ≤ drawBudget s - b)
    (hchg : leaveHeld s .charger = false ∨ drawRank r.user = 8) : grantLoop b (r :: rest) room s = s := by
  rw [grantLoop]
  rw [if_neg (Int.not_le.mpr hc), if_neg fun ⟨hnone, hbig⟩ => hact.elim (absurd hnone) (fun hle => absurd hbig (Int.not_lt.mpr hle))]
  refine if_neg fun ⟨hrank, hheld, _⟩ => ?_
  obtain hno | h8 := hchg
  · rw [hno] at hheld; cases hheld
  · omega

/-- With no grant active, one that could never fit is granted alone. -/
theorem grantLoop_alone (hact : s.draw.active = []) (hbig : drawBudget s - b < drawCostOf s r.user) :
    grantLoop b (r :: rest) room s = grantLeave r s := by
  rw [grantLoop]
  rw [if_neg (Int.not_le.mpr hc), if_pos ⟨hact, hbig⟩]

/-- The charger's grant makes room for a request of a higher rank: it is paused. -/
theorem grantLoop_pauses (hheld : leaveHeld s .charger = true) (hrank : drawRank r.user < 8)
    (hroom : drawCostOf s r.user ≤ room + grantSum s (fun g => g.user == .charger)) : grantLoop b (r :: rest) room s = pauseCharger s := by
  have hact : s.draw.active ≠ [] := fun h => by simp [leaveHeld, h] at hheld
  rw [grantLoop]
  rw [if_neg (Int.not_le.mpr hc), if_neg (fun h => hact h.1), if_pos ⟨hrank, hheld, hroom⟩]

end

/-! The sample (R548, R611) -/

/-- The state with one sample more and its mean current. -/
def State.drawSeen (a : State) (uv : Nat) : State :=
  { a with draw := { a.draw with
      samples := pushKeep 64 (min uv 150000) a.draw.samples, imeas := min (Sys2Proof.Machine.measured a (pushKeep 64 (min uv 150000) a.draw.samples)) 65535 } }

/-- The draw that the grants of 1 ms or more do not cover. -/
def uncovered (s : State) (samples : List Nat) : Int := max ((measured s samples : Int) - grantSum s fun g => decide (g.since + ms 1 ≤ s.now)) 0

theorem drawSample_of_seen {a : State} (hp : pastStep1 a = true) (uv : Nat)
    (h : (pushKeep 64 (min uv 150000) a.draw.samples).length < 64 ∨ a.pwr.warn = true) : drawSample uv a = a.drawSeen uv := by
  unfold drawSample
  rw [if_pos hp]
  exact if_pos h

theorem drawSample_of_granting {a : State} (hp : pastStep1 a = true) (uv : Nat) (h64 : 64 ≤ (pushKeep 64 (min uv 150000) a.draw.samples).length)
    (hw : a.pwr.warn = false) :
    drawSample uv a = grantLoop (uncovered a (pushKeep 64 (min uv 150000) a.draw.samples)) (drawOrder a)
      (drawBudget a - uncovered a (pushKeep 64 (min uv 150000) a.draw.samples) - grantSum a fun _ => true) (a.drawSeen uv) := by
  unfold drawSample
  rw [if_pos hp]
  exact if_neg (not_or.mpr ⟨Nat.not_lt.mpr h64, by simp [hw]⟩)

theorem sameCosts_drawSeen (a : State) (uv : Nat) : SameCosts a (a.drawSeen uv) := ⟨rfl, rfl, rfl, rfl⟩

/-- The port asks for its bursts: requests of its own join those that wait. -/
theorem xmAsk_draw (image : Bool) (s : State) : (xmAsk image s).draw = { s.draw with waiting := (xmAsk image s).draw.waiting } := rfl

/-- The bursts that start after the sample leave the arbiter and the keep-alive domain. -/
theorem within_pumps (s : State) : Within [.xm, .ldr] s (imgPump (xmPump s)) :=
  ((within_xmPump s).mono (by decide)).step (within_imgPump _) (by decide)

theorem within_drawSample_pumps (image : Bool) (uv : Nat) (s : State) :
    Within [.draw, .ka, .xm, .ldr] s (imgPump (xmPump (drawSample uv (if coreOn s = true then xmAsk image s else s)))) := by
  refine Within.step ?_ (within_pumps _) (by decide)
  refine Within.step ?_ (within_drawSample uv _) (by decide)
  exact within_ite ((within_xmAsk image s).mono (by decide)) Within.refl

theorem xmPump_of_down {s : State} (hup : xmUp s = false) : xmPump s = s := by
  have hdue : prefetchDue s = false := by simp [prefetchDue, hup]
  unfold xmPump
  split
  · rfl
  · exact if_neg (by simp [hdue])
theorem imgPump_of_down {s : State} (hup : xmUp s = false) : imgPump s = s := if_neg (by simp [hup])

/-- From `s` to `a` the memory port may have asked for bursts, and nothing else has happened. -/
structure Asked (s a : State) : Prop where
  frame : Within [.draw] s a
  draw : a.draw = { s.draw with waiting := a.draw.waiting }

theorem asked_xmAsk (image : Bool) (s : State) : Asked s (if coreOn s = true then xmAsk image s else s) := by
  split
  · exact ⟨within_xmAsk image s, xmAsk_draw image s⟩
  · exact ⟨Within.refl, rfl⟩

section
variable {s a : State} (h : Asked s a)
include h

theorem Asked.active : a.draw.active = s.draw.active := by rw [h.draw]
theorem Asked.samples : a.draw.samples = s.draw.samples := by rw [h.draw]
theorem Asked.preemptCnt : a.draw.preemptCnt = s.draw.preemptCnt := by rw [h.draw]
theorem Asked.sameCosts : SameCosts s a :=
  ⟨h.frame .settings (by decide), by rw [h.frame .ka (by decide)], h.frame .hk (by decide), h.frame .now (by decide)⟩
theorem Asked.measured (l : List Nat) : Sys2Proof.Machine.measured a l = Sys2Proof.Machine.measured s l := by
  simp only [Sys2Proof.Machine.measured, drawShunt, setWord, h.sameCosts.settings]
theorem Asked.uncovered (l : List Nat) : Sys2Proof.Machine.uncovered a l = Sys2Proof.Machine.uncovered s l := by
  simp only [Sys2Proof.Machine.uncovered, h.measured, grantSum_congr h.active, h.sameCosts.now]
theorem Asked.pastStep1 : Sys2Proof.Machine.pastStep1 a = Sys2Proof.Machine.pastStep1 s := by
  have hpwr : a.pwr = s.pwr := h.frame .pwr (by decide)
  have htap : a.tap = s.tap := h.frame .tap (by decide)
  simp only [Sys2Proof.Machine.pastStep1, coreOn, hpwr, htap, h.sameCosts.now]

/-- The arbiter after the sample, before any grant. -/
theorem Asked.drawSeen (uv : Nat) : (a.drawSeen uv).draw = { a.draw with
    samples := pushKeep 64 (min uv 150000) s.draw.samples
    imeas := min (Sys2Proof.Machine.measured s (pushKeep 64 (min uv 150000) s.draw.samples)) 65535 } := by
  simp only [State.drawSeen, h.samples, h.measured]

/-- With 64 samples and no warning the loop goes over the requests with what is left of the budget. -/
theorem Asked.loop (hp : Sys2Proof.Machine.pastStep1 s = true) (uv : Nat) (h64 : 64 ≤ (pushKeep 64 (min uv 150000) s.draw.samples).length)
    (hw : s.pwr.warn = false) :
    drawSample uv a = grantLoop (Sys2Proof.Machine.uncovered s (pushKeep 64 (min uv 150000) s.draw.samples)) (drawOrder a)
      (drawBudget s - Sys2Proof.Machine.uncovered s (pushKeep 64 (min uv 150000) s.draw.samples) - grantSum s fun _ => true) (a.drawSeen uv) := by
  have hrun := drawSample_of_granting (a := a) (h.pastStep1.trans hp) uv (by rwa [h.samples]) (by rwa [h.frame .pwr (by decide)])
  rwa [h.samples, h.uncovered, h.sameCosts.budget, grantSum_congr h.active] at hrun

end

theorem pauseCharger_leaves (s : State) :
    (pauseCharger s).draw.preemptCnt = satInc s.draw.preemptCnt 255
      ∧ (pauseCharger s).draw.active = eraseFirst (fun g => g.user == .charger) s.draw.active ∧ leaveWaits (pauseCharger s) .charger = true
      ∧ (∀ r ∈ s.draw.waiting, r ∈ (pauseCharger s).draw.waiting) ∧ (pauseCharger s).ka = { s.ka with chg := s.ka.chg.pause } := by
  unfold pauseCharger askLeave
  dsimp only
  split
  · next hwaits => exact ⟨rfl, rfl, hwaits, fun _ hr => hr, rfl⟩
  · refine ⟨rfl, rfl, ?_, fun _ hr => List.mem_append_left _ hr, rfl⟩
    simp [leaveWaits]

/-! A wait of a second (R547) -/

/-- A request of rank r + 1 that has waited a second and has not been reported. -/
def waitsLong (r : Fin 8) (s : State) (x : DrawRequest) : Bool := drawRank x.user == r.val + 1 && !x.long && decide (x.since + secs 1 ≤ s.now)

theorem leaveWaitLong_of_late {r : Fin 8} {s : State} (h : s.draw.waiting.any (waitsLong r s) = true) :
    leaveWaitLong r s = occur 184 (word (r.val + 1)) { s with draw := { s.draw with
      waiting := modFirst (waitsLong r s) (fun x => { x with long := true }) s.draw.waiting, longCnt := satInc s.draw.longCnt 255 } } := if_pos h
theorem leaveWaitLong_of_none {r : Fin 8} {s : State} (h : s.draw.waiting.any (waitsLong r s) = false) : leaveWaitLong r s = s :=
  if_neg (Bool.eq_false_iff.mp h)

/-- Event 184 after a change of the arbiter. -/
theorem occur_after_draw {s : State} (w : Word) (hq : Quiet s 184) (d : Draw) :
    (occur 184 w { s with draw := d }).draw = d ∧ Within [.draw, .ev] s (occur 184 w { s with draw := d })
      ∧ (evEn s 184 = true → evLatchEn s 184 = true → occurredNow s 184 = false → ((occur 184 w { s with draw := d }).source 184).latch = true) := by
  have hev : Within [.ev] { s with draw := d } (occur 184 w { s with draw := d }) := occur_quiet w hq
  exact ⟨hev .draw (by decide), ((within_set_draw s d).mono (by decide)).step hev (by decide),
    fun hen hlatch hnow => occur_latches (s := { s with draw := d }) 184 w hq hnow hen hlatch⟩

end Sys2Proof.Machine
end

section
/-! PROOFS. The statement of 17_journal_recorder_queues.md on the draw arbiter. -/

open Sys2Proof Sys2Proof.Machine

/-- Settles O57: the requests that fit are granted in order, and the first that does not meets one of the two rules or ends the sample. -/
theorem drawArbiterGrantsUnderItsBudget : Obligations.DrawArbiterGrantsUnderItsBudget := by
  intro s
  refine ⟨fun hp hc uv => ?_, fun hp uv => ?_, fun r => ⟨fun hany hq => ?_, fun hnone => ?_⟩⟩
  · have hsample : drawSample uv (if coreOn s then xmAsk (imgWants s) s else s) = s := by
      rw [if_neg (by simp [hc])]
      exact if_neg (by simp [hp])
    have hup : xmUp s = false := by simp [xmUp, hc]
    refine congrArg Host.Outcome.next ?_
    show imgPump (xmPump (drawSample uv _)) = s
    rw [hsample, xmPump_of_down hup, imgPump_of_down hup]
  · intro a samples seen b room cost granted left gives
    have ha : Asked s a := asked_xmAsk (imgWants s) s
    have hgives : ∀ {d : Draw} {y : State}, drawSample uv a = y → y.draw = d → gives d := fun {d y} hrun hd =>
      ⟨_, rfl, (within_pumps _ .draw (by decide)).trans ((congrArg State.draw hrun).trans hd), within_drawSample_pumps (imgWants s) uv s⟩
    have hseen : (a.drawSeen uv).draw = seen := ha.drawSeen uv
    have hactiveSeen : (a.drawSeen uv).draw.active = s.draw.active := ha.active
    have hcosts : SameCosts s (a.drawSeen uv) := ha.sameCosts.trans (sameCosts_drawSeen a uv)
    have hgranted : ∀ l, (granting l (a.drawSeen uv)).draw = { seen with waiting := left l, active := s.draw.active ++ granted l } := fun l => by
      rw [(granting_leaves l _).2, hcosts.grants, hseen]
      exact congrArg (fun x => ({ seen with waiting := left l, active := x ++ granted l } : Draw)) ha.active
    refine ⟨fun hfew => ?_, fun h64 hwarn => ⟨fun hall => ?_, fun fit r rest hord hfit hbig hact hchg => ?_, fun r rest hord hnone hbig hroom => ?_,
      fun r rest hord hroom hheld hrank hmakes => ?_⟩⟩
    · exact hgives (drawSample_of_seen (ha.pastStep1.trans hp) uv (by rwa [ha.samples, ha.frame .pwr (by decide)])) hseen
    · have hloop : drawSample uv a = grantLoop b (drawOrder a) room (a.drawSeen uv) := ha.loop hp uv h64 hwarn
      rw [← List.append_nil (drawOrder a), grantLoop_fit _ _ _ ((hcosts.costs _).trans_le hall)] at hloop
      refine hgives hloop ((hgranted _).trans ?_)
      rw [show left (drawOrder a) = [] from stillWaiting_of_all fun u => (drawOrder_count a u).ge]
    · have hloop : drawSample uv a = grantLoop b (drawOrder a) room (a.drawSeen uv) := ha.loop hp uv h64 hwarn
      obtain ⟨hsame, -⟩ := granting_leaves fit (a.drawSeen uv)
      have hcost : drawCostOf (granting fit (a.drawSeen uv)) r.user = drawCostOf s r.user := (hcosts.trans hsame).cost _
      have hactive : (granting fit (a.drawSeen uv)).draw.active = s.draw.active ++ granted fit := congrArg Draw.active (hgranted fit)
      rw [hord, grantLoop_fit _ _ _ ((hcosts.costs _).trans_le hfit), grantLoop_stops] at hloop
      · exact hgives hloop (hgranted fit)
      · rw [hcost, hcosts.costs]
        exact hbig
      · rw [hcost, hactive, (hcosts.trans hsame).budget]
        exact hact
      · refine hchg.imp_left fun ⟨hfree, hfit⟩ => ?_
        rw [leaveHeld, hactive, List.any_append, Bool.or_eq_false_iff]
        refine ⟨hfree, List.any_eq_false.mpr fun g hg => ?_⟩
        obtain ⟨x, hx, rfl⟩ := List.mem_map.mp hg
        simpa using hfit x hx
    · have hloop : drawSample uv a = grantLoop b (drawOrder a) room (a.drawSeen uv) := ha.loop hp uv h64 hwarn
      rw [hord, grantLoop_alone (by rwa [hcosts.cost]) (by rw [hactiveSeen, hnone]) (by rwa [hcosts.cost, hcosts.budget])] at hloop
      refine hgives hloop ((hgranted [r]).trans ?_)
      rw [hnone]; rfl
    · have hloop : drawSample uv a = grantLoop b (drawOrder a) room (a.drawSeen uv) := ha.loop hp uv h64 hwarn
      have hheldSeen : leaveHeld (a.drawSeen uv) .charger = true := by rw [leaveHeld, hactiveSeen]; exact hheld
      rw [hord, grantLoop_pauses (by rwa [hcosts.cost]) hheldSeen hrank (by rwa [hcosts.cost, grantSum_congr hactiveSeen])] at hloop
      obtain ⟨hcnt, hactive, hwaits, hkeeps, hka⟩ := pauseCharger_leaves (a.drawSeen uv)
      have hend := within_pumps (pauseCharger (a.drawSeen uv))
      have hdraw : (imgPump (xmPump (pauseCharger (a.drawSeen uv)))).draw = (pauseCharger (a.drawSeen uv)).draw := hend .draw (by decide)
      refine ⟨imgPump (xmPump (pauseCharger (a.drawSeen uv))), congrArg (fun y => Host.Outcome.next (imgPump (xmPump y))) hloop, ?_, ?_, ?_, ?_, ?_,
        hloop ▸ within_drawSample_pumps (imgWants s) uv s⟩
      · rw [hdraw, hcnt, hseen]
        exact congrArg (satInc · 255) ha.preemptCnt
      · rw [hdraw, hactive, hactiveSeen]
      · exact (congrArg (fun d : Draw => d.waiting.any fun x => x.user == .charger) hdraw).trans hwaits
      · rw [hdraw]
        refine hkeeps r ?_
        rw [hseen]
        exact mem_of_drawOrder (hord ▸ List.mem_cons_self)
      · rw [hend .ka (by decide), hka]
        exact congrArg (fun k : KeepAlive => { k with chg := k.chg.pause }) (ha.frame .ka (by decide))
  · obtain ⟨hdraw, hin, hlatch⟩ := occur_after_draw (word (r.val + 1)) hq { s.draw with
      waiting := modFirst (waitsLong r s) (fun y => { y with long := true }) s.draw.waiting, longCnt := satInc s.draw.longCnt 255 }
    exact ⟨_, congrArg Host.Outcome.next (leaveWaitLong_of_late hany), hin, hdraw, hlatch⟩
  · exact congrArg Host.Outcome.next (leaveWaitLong_of_none hnone)

end


section
/-! SUPPORT. A setting of the RTC at which a statement fails. -/

namespace Sys2Proof.Machine

/-- A host has just set the RTC to 0: the RTC takes it at its next tick, and the record of that cycle, yet to come, waits in the event queue. -/
def rtcBeingSet : State := writeAt .a .rtcSet1 0x80000000#32 claimedRun

end Sys2Proof.Machine
end

section
/-! PROOFS. The statement of 18_keepalive_cell_service.md on the source, the cell, the RTC and the charger. -/

open Sys2Proof Sys2Proof.Machine

/-- Refutes O59: a second setting before the RTC's next tick replaces the first, whose record is not made (R560, log 98): the record of the new
one takes its place, and the event queue does not grow. -/
theorem not_keepAliveDomainFollowsSourceCellAndClock : ¬ Obligations.KeepAliveDomainFollowsSourceCellAndClock := by
  intro h
  obtain ⟨-, -, -, -, -, -, -, -, -, hset, -⟩ := h rtcBeingSet
  obtain ⟨t, hrun, -, -, -, -, -, hgrows, -⟩ := hset .a 0 (by decide +kernel)
  obtain rfl : writeAt .a .rtcSet1 (0#32 ||| 0x80000000#32) rtcBeingSet = t := Host.Outcome.next.inj hrun
  exact absurd (hgrows (by decide +kernel)) (by decide +kernel)

end

section
/-! SUPPORT. The recorder: its control bits, a frame in each of its states, a burst of its buffer and the end of a capture (R541 to R544). -/

namespace Sys2Proof.Machine

@[simp] theorem opened_rcd (s : State) (h : HostId) (a : Nat) : (s.opened h a).rcd = s.rcd := opened_within s h a .rcd (by decide)
theorem recClosed_opened (s : State) (h : HostId) (a : Nat) : recClosed (s.opened h a) = recClosed s := by
  rw [recClosed, opened_within s h a .xm (by decide), recClosed]
theorem recNch_opened (s : State) (h : HostId) (a : Nat) : recNch (s.opened h a) = recNch s := by simp only [recNch, setWord, opened_settings]

theorem readReg_recBdata_congr {s t : State} {h : HostId} (hp : t.pwr = s.pwr) (hr : t.rcd = s.rcd) (hi : (t.host h).recBidx = (s.host h).recBidx) :
    readReg t h .recBdata = readReg s h .recBdata := by
  simp only [readReg, regLive_congr hp, readAny, recBdata, frozenFrames, hr, hi]

/-- A word that lands at REC_CTL acts as its bits say. -/
theorem recCtl_of_lands {s : State} {h : HostId} {data : Word} (hl : WordLands s h .recCtl data) :
    writeAt h .recCtl data s = recCtl h (data &&& 0xF#32) (s.opened h Reg.recCtl.addr) := writeAt_of_lands hl

/-! The control bits (R542, R554) -/

theorem recCtl_arm (h : HostId) (s : State) :
    recCtl h 1#32 s = if s.rcd.state = .idle ∧ recNch s ≠ 0 then { s with rcd := { s.rcd with state := .armed, pre := [] } } else s := rfl

theorem recCtl_trigger (h : HostId) (s : State) : recCtl h 2#32 s = hostTrigger s := rfl

theorem recCtl_stop (h : HostId) (s : State) :
    Within [.rcd] s (recCtl h 4#32 s)
      ∧ (recCtl h 4#32 s).rcd = (if s.rcd.state = .armed then { s.rcd with state := .idle, pre := [] }
          else if s.rcd.state = .capture ∧ recClosed s = false then { s.rcd with trunc := true, ending := true } else s.rcd) := by
  have hrun : recCtl h 4#32 s = match s.rcd.state with
      | .armed => { s with rcd := { s.rcd with state := .idle, pre := [] } }
      | .capture => if recClosed s then s else { s with rcd := { s.rcd with trunc := true, ending := true } }
      | _ => s := rfl
  rw [hrun]
  cases hst : s.rcd.state with
  | idle => exact ⟨Within.refl, rfl⟩
  | armed => exact ⟨within_set_rcd s _, rfl⟩
  | capture =>
    cases hcl : recClosed s with
    | false => exact ⟨within_set_rcd s _, rfl⟩
    | true => exact ⟨Within.refl, rfl⟩
  | frozen => exact ⟨Within.refl, rfl⟩

theorem recCtl_release (h : HostId) (s : State) :
    recCtl h 8#32 s = if s.rcd.state = .frozen then { s with rcd := { s.rcd with state := .idle, buffer := [] } } else s := rfl

/-- The capture that a trigger begins: its number, source and stamp, its place at a sector's start, and the frames before it after its header. -/
theorem startCapture_begins (e : Nat) (s : State) :
    (startCapture e true s).rcd.state = .capture ∧ (startCapture e true s).rcd.num = s.rcd.num + 1
      ∧ (startCapture e true s).rcd.trigHost = true ∧ (startCapture e true s).rcd.trigSrc = 0
      ∧ (startCapture e true s).rcd.trigStamp = rtcStamp s ∧ (startCapture e true s).rcd.preTaken = s.rcd.pre.length
      ∧ (startCapture e true s).rcd.postTaken = 0 ∧ (startCapture e true s).rcd.written = 0
      ∧ (startCapture e true s).rcd.base % 4096 = 0 ∧ s.rcd.pre.flatten <:+ (startCapture e true s).rcd.buffer := by
  refine ⟨rfl, rfl, rfl, rfl, rfl, rfl, rfl, rfl, ?_, List.suffix_append _ _⟩
  simp only [startCapture]
  split
  · rfl
  · exact Nat.mul_mod_left _ _

theorem hostTrigger_armed {s : State} (hst : s.rcd.state = .armed) (hq : Quiet s 180) :
    (hostTrigger s).rcd = (startCapture 0 true s).rcd ∧ Within [.rcd, .ev] s (hostTrigger s) := by
  have hev : Within [.ev] (startCapture 0 true s) (occur 180 (word 256) (startCapture 0 true s)) :=
    occur_quiet _ ((quiet_congr (within_startCapture 0 true s .settings (by decide)) 180).mpr hq)
  rw [hostTrigger, if_pos hst]
  exact ⟨hev .rcd (by decide), ((within_startCapture 0 true s).mono (by decide)).step hev (by decide)⟩

theorem hostTrigger_missed {s : State} (hst : s.rcd.state ≠ .armed) :
    hostTrigger s = { s with rcd := { s.rcd with missed := satInc s.rcd.missed 255 } } := if_neg hst

/-! Frames (R541, R543) -/

/-- A frame of a recorder with channels, in a device whose CORE works: its values are drawn, and the state says what becomes of it. -/
theorem recorderFrame_runs {s : State} (hn : recNch s ≠ 0) (hc : coreOn s = true) :
    recorderFrame s =
      let y : State := { s with free := s.free + recNch s }
      match s.rcd.state with
      | .idle => y
      | .armed => { y with rcd := { s.rcd with pre := (s.rcd.pre ++ [recFrameBytes s]).drop ((s.rcd.pre ++ [recFrameBytes s]).length - recPre s) } }
      | .capture =>
        if s.rcd.ending then (if recStreams s then y else recFreeze 1 false y)
        else
          let r := recTake (recFrameBytes s) s.rcd
          let y := { y with rcd := { r with ending := r.ending || decide (recPost s ≤ r.postTaken) } }
          if recStreams s then y else recFreeze 1 false y
      | .frozen =>
        if s.rcd.ending || decide (recPost s ≤ s.rcd.postTaken) then y else { y with rcd := recTake (recFrameBytes s) s.rcd } := by
  rw [recorderFrame, if_neg (by simp [hn, hc])]
  rfl

/-- A frame draws one free value for each channel. -/
theorem recorderFrame_free {s : State} (hn : recNch s ≠ 0) (hc : coreOn s = true) : (recorderFrame s).free = s.free + recNch s := by
  have hfreeze : ∀ y : State, (recFreeze 1 false y).free = y.free := fun y => within_recFreeze 1 false y .free (by decide)
  rw [recorderFrame_runs hn hc]
  cases s.rcd.state with
  | idle => rfl
  | armed => rfl
  | capture =>
    dsimp only
    split
    · split
      · rfl
      · exact hfreeze _
    · split
      · rfl
      · exact hfreeze _
  | frozen =>
    dsimp only
    split <;> rfl

/-- A frame that the buffer has room for is stored in it. -/
theorem recTake_of_room {r : Recorder} {frame : List Byte} (h : r.buffer.length + frame.length ≤ 65536) :
    recTake frame r = { r with buffer := r.buffer ++ frame, postTaken := r.postTaken + 1 } := if_neg (Nat.not_lt.mpr h)

/-- A recorder that freezes keeps its frames and counts a truncated capture. -/
theorem recFreeze_keeps {s : State} (cause : Nat) (corrupt : Bool) (hq : Quiet s 182) :
    Within [.rcd, .ev] s (recFreeze cause corrupt s) ∧ (recFreeze cause corrupt s).rcd.state = .frozen
      ∧ (recFreeze cause corrupt s).rcd.buffer = s.rcd.buffer ∧ (recFreeze cause corrupt s).rcd.truncCnt = satInc s.rcd.truncCnt 255 := by
  have hev : ∀ (y : State) (d : Word), y.settings = s.settings → Within [.ev] y (occur 182 d y) := fun y d hy =>
    occur_quiet d ((quiet_congr hy 182).mpr hq)
  have hrcd := hev { s with rcd := { s.rcd with
    state := .frozen, corrupt := s.rcd.corrupt || corrupt, truncCnt := satInc s.rcd.truncCnt 255
    nextOff := if s.rcd.written = 0 then s.rcd.nextOff else s.rcd.base + s.rcd.written } }
    (word (s.rcd.num % 65536 + cause * 65536)) rfl
  have heq := hrcd .rcd (by decide)
  exact ⟨((within_set_rcd s _).mono (by decide)).step hrcd (by decide), (congrArg Recorder.state heq :), (congrArg Recorder.buffer heq :),
    (congrArg Recorder.truncCnt heq :)⟩

/-! Bursts (R536, R544) -/

/-- A burst that is none of the journal's waits behind those that are staged. -/
theorem stageBurst_behind {b : XBurst} (hb : isJournalBurst b = false) (s : State) :
    stageBurst b s = { s with xm := { s.xm with bursts := s.xm.bursts ++ [b], began := (stageBurst b s).xm.began } } := by
  simp [stageBurst, hb]

/-- With credit and leave: the completion with nothing left, the erase of the sector ahead, or up to the rest of a page. -/
theorem recorderBurst_runs {s : State} (hw : recWants s = true) (hcr : 0 < recorderCredits s) (hg : freeGrant s .xmRecorder = true) :
    recorderBurst .ok s =
      if s.rcd.buffer = [] then stageBurst (.recorder (recBase s + s.rcd.base + 19) (recFlags s.rcd :: recClosing s.rcd) true) s
      else if s.rcd.erasedTo ≤ s.rcd.written ∨ s.rcd.erasedTo % 4096 ≠ 0 then recClear s
      else
        let addr := recBase s + s.rcd.base + s.rcd.written
        let n := burstRoom s addr
        stageBurst (.recorder addr (s.rcd.buffer.take n) false)
          { s with rcd := { s.rcd with buffer := s.rcd.buffer.drop n, written := s.rcd.written + (s.rcd.buffer.take n).length } } := by
  rw [recorderBurst, if_pos (by simp [hw, hcr, hg])]
  rfl

/-- On a flash memory the sector that the next bytes enter is erased. -/
theorem recClear_of_flash {s : State} (hram : xmRam s = false) :
    recClear s = stageBurst (.recorderErase (recBase s + s.rcd.base + s.rcd.erasedTo))
      { s with rcd := { s.rcd with erasedTo := s.rcd.erasedTo + 4096 } } :=
  if_neg (by simp [hram])

/-! The end of a capture (R543) -/

/-- What the recorder is after a capture whose header is complete; its event stays inside the event system. -/
theorem recDone_closes {s : State} (h1 : Quiet s 181) (h2 : Quiet s 182) :
    (recDone s).rcd.state = (if recAuto s = true then .armed else .idle) ∧ (recDone s).rcd.lastNum = s.rcd.num % 65536
      ∧ (recDone s).rcd.captures = (if s.rcd.trunc = true then s.rcd.captures else satInc s.rcd.captures 65535)
      ∧ (recDone s).rcd.truncCnt = (if s.rcd.trunc = true then satInc s.rcd.truncCnt 255 else s.rcd.truncCnt) := by
  have hev : ∀ {y : State} {e : Nat} (d : Word), y.settings = s.settings → Quiet s e → (occur e d y).rcd = y.rcd := fun d hy hq =>
    occur_quiet d ((quiet_congr hy _).mpr hq) .rcd (by decide)
  rw [recDone]
  split
  · rw [hev _ (by rfl) h2]
    exact ⟨rfl, rfl, rfl, rfl⟩
  · rw [hev _ (by rfl) h1]
    exact ⟨rfl, rfl, rfl, rfl⟩

/-- The burst at the memory ends: its effect, then what the loader and the port do, which leaves the recorder. -/
theorem xmemBurstDone_rcd {s : State} {b : XBurst} {rest : List XBurst} (hup : xmUp s = true) (hstall : s.xm.stall = false)
    (hb : s.xm.bursts = b :: rest) (hbegun : s.pwr.warn = false ∨ s.xm.began.isSome = true) :
    (xmemBurstDone s).rcd = (burstEffect b { s with xm := { s.xm with bursts := rest } }).rcd := by
  have hgoes : (s.pwr.warn && s.xm.began.isNone) = false := by
    rcases hbegun with hw | hs
    · rw [hw, Bool.false_and]
    · rw [Option.isNone_eq_false_iff.mpr hs, Bool.and_false]
  rw [xmemBurstDone, if_pos (by simp [hup, hstall]), hgoes, if_neg Bool.false_ne_true, hb]
  dsimp only
  rw [within_xmAsk _ _ .rcd (by decide), within_imgPump _ .rcd (by decide), within_xmPump _ .rcd (by decide),
    within_nextBegins _ .rcd (by decide), within_imgBurstDone _ _ .rcd (by decide)]

/-- The completion of a capture's header, written, closes the capture. -/
theorem burstEffect_closes {s : State} (a : Nat) (bytes : List Byte) (hst : s.rcd.state = .capture) (h1 : Quiet s 181) (h2 : Quiet s 182) :
    let r := (burstEffect (.recorder a bytes true) s).rcd
    r.state = (if recAuto s = true then .armed else .idle) ∧ r.lastNum = s.rcd.num % 65536
      ∧ r.captures = (if s.rcd.trunc = true then s.rcd.captures else satInc s.rcd.captures 65535)
      ∧ r.truncCnt = (if s.rcd.trunc = true then satInc s.rcd.truncCnt 255 else s.rcd.truncCnt) := by
  have hrun : burstEffect (.recorder a bytes true) s = recDone { releaseLeave .xmRecorder s with xm := { s.xm with
      mem := progBytes (xmRam s) (progBytes (xmRam s) s.xm.mem a (bytes.take 1)) (a + 5) (bytes.drop 1) } } := if_pos hst
  rw [hrun]
  exact recDone_closes ((quiet_congr (by rfl) 181).mpr h1) ((quiet_congr (by rfl) 182).mpr h2)

end Sys2Proof.Machine
end

section
/-! PROOFS. The statement of 17_journal_recorder_queues.md on the recorder. -/

open Sys2Proof Sys2Proof.Machine

/-- Settles O58: each control bit, frame and burst by its rule. -/
theorem recorderArmsCapturesAndEnds : Obligations.RecorderArmsCapturesAndEnds := by
  intro h s
  have hopen := opened_within s h Reg.recCtl.addr
  have hlands : ∀ {data : Word} {y : State}, WordLands s h .recCtl data → recCtl h (data &&& 0xF#32) (s.opened h Reg.recCtl.addr) = y →
      Host.Outcome.next (writeAt h .recCtl data s) = (Host.Outcome.next y : Host.Outcome State Fault Refusal) := fun hl hy =>
    congrArg _ ((recCtl_of_lands hl).trans hy)
  refine ⟨fun hl hidle hn => ?_, fun hl hno => ?_, fun hl => ⟨fun hst hq => ?_, fun hst => ?_⟩, fun hl => ?_, fun hl => ?_, fun hc hh hr => ?_,
    fun hoff => ?_, fun hn hc => ?_, fun hw hcr hg => ?_, fun a bytes rest hup hstall hst hb hbegun h1 h2 => ?_⟩
  · have hrun := (recCtl_arm h (s.opened h Reg.recCtl.addr)).trans (if_pos ⟨by simpa using hidle, by rwa [recNch_opened]⟩)
    exact ⟨_, hlands hl hrun, by simp, (hopen.mono (by decide)).step (within_set_rcd _ _) (by decide)⟩
  · have hnot : ¬ ((s.opened h Reg.recCtl.addr).rcd.state = .idle ∧ recNch (s.opened h Reg.recCtl.addr) ≠ 0) := by
      rw [opened_rcd, recNch_opened]
      exact fun hand => hno.elim (absurd hand.1) hand.2
    exact ⟨_, hlands hl ((recCtl_arm h _).trans (if_neg hnot)), hopen⟩
  · obtain ⟨hrcd, hframe⟩ := hostTrigger_armed (s := s.opened h Reg.recCtl.addr) (by simpa using hst) ((quiet_congr (by simp) 180).mpr hq)
    obtain ⟨hstate, hnum, hhost, hsrc, hstamp, hpre, hpost, hwritten, hbase, hbuf⟩ := startCapture_begins 0 (s.opened h Reg.recCtl.addr)
    refine ⟨_, hlands hl (recCtl_trigger h _), (hopen.mono (by decide)).step hframe (by decide), ?_⟩
    rw [hrcd, hstamp]
    rw [opened_rcd] at hnum hpre hbuf
    exact ⟨hstate, hnum, hhost, hsrc, by
      simp only [rtcStamp, rtcSec, rtcFrac, rtcCount, rtcInvalid, rtcTaken, opened_ka, opened_now], hpre, hpost, hwritten, hbase, hbuf⟩
  · have hrun := (recCtl_trigger h _).trans (hostTrigger_missed (s := s.opened h Reg.recCtl.addr) (by simpa using hst))
    exact ⟨_, hlands hl hrun, by simp, (hopen.mono (by decide)).step (within_set_rcd _ _) (by decide)⟩
  · obtain ⟨hframe, hrcd⟩ := recCtl_stop h (s.opened h Reg.recCtl.addr)
    refine ⟨_, hlands hl rfl, (hopen.mono (by decide)).step hframe (by decide), hrcd.trans ?_⟩
    rw [opened_rcd, recClosed_opened]
  · refine ⟨_, hlands hl (recCtl_release h _), (hopen.mono (by decide)).trans ?_, ?_⟩
    · exact within_ite ((within_set_rcd _ _).mono (by decide)) Within.refl
    · rw [opened_rcd]
      split <;> simp
  · obtain ⟨x, code, hrun, hx, hhost, hother, hsent⟩ := readAt_sends hc hh hr nofun (fun x => by simp only [readSample, checkFrames, ite_self])
      (fun lead => readReg_recBdata_congr (reading_pwr s h _ lead) (reading_within s h _ lead .rcd (by decide)) (by rw [reading_host]))
    have hcommit : readCommit h .recBdata x = x.modHost h fun y => { y with recBidx := word ((fld y.recBidx 15 0 + 4) % 65536) } := rfl
    rw [hcommit] at hrun
    refine ⟨_, congrArg Host.Outcome.next hrun, ?_, ?_, fun g hg => ?_, ?_⟩
    · have hsteps : ∀ f, (x.modHost h f).bus.sent = x.bus.sent := fun f => by cases h <;> rfl
      rw [Bus.rdata, readDone_sent, hsteps, hsent, readReg, if_pos hr]; rfl
    · rw [readDone_host, modHost_host, hhost]
    · rw [readDone_host_other _ _ code hg, modHost_other _ _ hg, hother g hg]
    · exact (hx.step (within_State_modHost _ _ _) (by decide)).step (readDone_within _ h _ code) (by decide)
  · exact congrArg Host.Outcome.next (if_pos (by rcases hoff with h0 | h0 <;> simp [h0]))
  · have hrun := recorderFrame_runs hn hc
    refine ⟨_, rfl, recorderFrame_free hn hc, fun hst => ?_, fun hst => ?_, fun hst hend hstr hroom => ?_, fun hst hstr hend hq => ?_⟩
    · rw [hrun, hst]
      exact within_set_free s _
    · rw [hrun, hst]
      exact ⟨within_set_free_rcd s _ _, by rw [List.length_append, List.length_singleton]⟩
    · rw [hrun, hst]
      simp only [hend, hstr, Bool.false_eq_true, if_false, if_true, recTake_of_room hroom, Bool.false_or, and_true]
      exact within_set_free_rcd s _ _
    · obtain ⟨hframe, hfrozen⟩ := recFreeze_keeps (s := { s with free := s.free + recNch s }) 1 false hq
      have hfreezes : recorderFrame s = recFreeze 1 false { s with free := s.free + recNch s } := by
        rw [hrun, hst]
        simp only [hend, hstr, Bool.false_eq_true, if_false, if_true]
      rw [hfreezes]
      exact ⟨((within_set_free s _).mono (by decide)).step hframe (by decide), hfrozen⟩
  · have hrun := recorderBurst_runs hw hcr hg
    refine ⟨fun hbuf hlt h0 => ?_, fun hbuf hle hram => ?_, fun hbuf => ?_⟩
    · rw [if_neg hbuf, if_neg (by simp [h0]; exact hlt)] at hrun
      refine ⟨_, congrArg Host.Outcome.next (hrun.trans (stageBurst_behind rfl _)), rfl, rfl, within_set_xm_rcd s _ _⟩
    · rw [if_neg hbuf, if_pos (Or.inl hle), recClear_of_flash hram] at hrun
      exact ⟨_, congrArg Host.Outcome.next (hrun.trans (stageBurst_behind rfl _)), rfl, rfl, within_set_xm_rcd s _ _⟩
    · rw [if_pos hbuf] at hrun
      exact ⟨_, congrArg Host.Outcome.next (hrun.trans (stageBurst_behind rfl _)), rfl, within_set_xm s _, rfl⟩
  · refine ⟨_, rfl, ?_⟩
    rw [xmemBurstDone_rcd hup hstall hb hbegun]
    exact burstEffect_closes a bytes hst ((quiet_congr (by rfl) 181).mpr h1) ((quiet_congr (by rfl) 182).mpr h2)

end

section
/-! SUPPORT. The service key and its arm, the residue block and its stale mark, and the test access port (R512, R571 to R579, R599). -/

namespace Sys2Proof.Machine

/-! The key and the arm (R571 to R574) -/

theorem kaOccur_quiet {s : State} {e : Nat} (d : Nat) (hq : Quiet s e) : Within [.ev] s (kaOccur e d s) :=
  within_ite (occur_quiet _ hq) Within.refl

/-- An event of the keep-alive domain that stays inside the event system leaves the domain as its operation has left it. -/
theorem kaOccur_leaves {s : State} {e : Nat} (d : Nat) (a : KeepAlive) (hq : Quiet s e) :
    (kaOccur e d { s with ka := a }).ka = a ∧ Within [.ka, .ev] s (kaOccur e d { s with ka := a }) := by
  have hev := kaOccur_quiet (s := { s with ka := a }) d ((quiet_congr rfl e).mpr hq)
  exact ⟨hev .ka (by decide), ((within_set_ka s a).mono (by decide)).step hev (by decide)⟩

/-- The key in a domain that has power, after a press. -/
theorem keyRelease_judges {s : State} (hk : kaOn s = true) (hkey : s.ka.key = true) :
    keyRelease s =
      let y : State := { s with ka := { s.ka with key := false } }
      let reject (c : Nat) : State := kaOccur 194 c { s with ka := { s.ka with key := false, rej := c } }
      if s.now - s.ka.pressAt < secs 2 then y
      else if !(coreOn s && s.ka.pressReady) then reject 3
      else if secs 5 < s.now - s.ka.pressAt then reject 1
      else if sealRule s && !sealOpen s then reject 2
      else openArm y := if_pos (by simp [hk, hkey])

theorem keyRelease_idle {s : State} (hkey : s.ka.key = false) : keyRelease s = s := if_neg (by simp [hkey])

/-- An arm opens for its window, under the seal rule as it stands. -/
theorem openArm_opens {s : State} (a : KeepAlive) (hq : Quiet s 192) :
    (openArm { s with ka := a }).ka
        = { a with armUntil := some (s.now + secs (armWindow s)), sealArm := sealRule s, armCnt := satInc a.armCnt 255 }
      ∧ Within [.ka, .ev] s (openArm { s with ka := a }) := kaOccur_leaves _ _ hq

/-- An open arm ends; no replacement is under way that it would abort. -/
theorem endArm_ends {s : State} (cause : Nat) (ho : armOpen s = true) (hr : replBusy s = false) (hq : Quiet s 193) :
    (endArm cause s).ka = { s.ka with armUntil := none, sealArm := false } ∧ Within [.ka, .ev] s (endArm cause s) := by
  have hev := occur_quiet (s := { s with ka := { s.ka with armUntil := none, sealArm := false } }) (word cause) ((quiet_congr rfl 193).mpr hq)
  have hidle : replBusy (occur 193 (word cause) { s with ka := { s.ka with armUntil := none, sealArm := false } }) = false :=
    (replBusy_congr (hev .ldr (by decide))).trans hr
  rw [endArm, if_pos ho, replAbort_of_idle hidle]
  exact ⟨hev .ka (by decide), ((within_set_ka s _).mono (by decide)).step hev (by decide)⟩

theorem endArm_of_none {s : State} (cause : Nat) (ho : armOpen s = false) : endArm cause s = s := if_neg (by simp [ho])

theorem armExpiry_of_arm {s : State} {u : Nat} (hu : s.ka.armUntil = some u) : armExpiry s = if u ≤ s.now then endArm 0 s else s := by
  rw [armExpiry, hu]

/-! A request of its own (R499) -/

/-- A request that writes no record joins the queue where there is room. -/
theorem nvmRequest_joins {j : NvmJob} {s : State} (hr : jobRecord j = none) (hno : j ∉ s.nvm.queue) (hroom : nvmFill s.nvm < 16) :
    nvmRequest j s = nvmAsk { s with nvm := { s.nvm with queue := s.nvm.queue ++ [j] } } := by
  have hfind : (s.nvm.queue.find? fun x => (jobRecord j).isSome && jobRecord x == jobRecord j) = none :=
    List.find?_eq_none.mpr fun x _ => by simp [hr]
  rw [nvmRequest, if_neg (by simpa using hno), hfind, if_pos hroom]

/-! The residue block (R512) -/

/-- The block's bytes depend on the counts that pend and on the seconds toward the hour. -/
theorem residueBlock_congr {s t : State} (hpend : t.ka.pend = s.ka.pend) (hhour : t.ka.hourSec = s.ka.hourSec) (hpwr : t.pwr = s.pwr)
    (hnow : t.now = s.now) : residueBlock t = residueBlock s := by
  have hsettle : (runSettle t).ka.hourSec = (runSettle s).ka.hourSec := by
    have hrun : inRun t = inRun s := by simp only [inRun, hpwr]
    unfold runSettle
    rw [hrun, hpwr, hnow]
    split
    · exact congrArg (· + (s.now - s.pwr.runFrom) / secs 1) hhour
    · exact hhour
  simp only [residueBlock, pendOf, hpend, hsettle]

theorem residuePump_nvm (s : State) :
    (residuePump s).nvm = { s.nvm with
      queue := (residuePump s).nvm.queue, merged := (residuePump s).nvm.merged, fullCnt := (residuePump s).nvm.fullCnt
      retries := (residuePump s).nvm.retries } := by
  unfold residuePump
  split
  · rfl
  · next i _ =>
    generalize (if i < 5 then NvmJob.residue i else .markFresh) = j
    dsimp only
    split
    · rfl
    · exact nvmRequest_nvm j s

/-- The block's first page is asked for where there is room, unless it is being written. -/
theorem residuePump_asks {s : State} (hnext : s.nvm.resNext = some 0) (hroom : nvmFill s.nvm < 16) (hop : s.nvm.op ≠ some (.residue 0)) :
    NvmJob.residue 0 ∈ (residuePump s).nvm.queue := by
  by_cases hin : NvmJob.residue 0 ∈ s.nvm.queue
  · rw [residuePump, hnext]
    dsimp only
    rw [if_pos (Or.inr (Or.inl (by simpa using hin)))]
    exact hin
  · rw [residuePump, hnext]
    dsimp only
    rw [if_neg (by simpa [hop, hin] using hroom)]
    have hjoins := nvmRequest_joins (j := .residue 0) rfl hin hroom
    simp [hjoins]

/-- From `s` to `t` a residue block has begun: its bytes are taken, its first page is next, and its job waits where there is room. -/
structure BlockBegins (s t : State) : Prop where
  bytes : t.nvm.resBuf = residueBlock s
  next : t.nvm.resNext = some 0
  stale : t.nvm.stale = false
  mem : t.nvm.mem = s.nvm.mem
  op : t.nvm.op = s.nvm.op
  asked : nvmFill s.nvm < 16 → s.nvm.op ≠ some (.residue 0) → NvmJob.residue 0 ∈ t.nvm.queue

theorem writeResidue_begins (s : State) :
    (writeResidue s).ka = { s.ka with residueAt := s.now } ∧ BlockBegins s (writeResidue s) := by
  let y : State := { s with
    nvm := { s.nvm with resBuf := residueBlock s, resNext := some 0, stale := false
                        queue := s.nvm.queue.filter fun j => j != .markStale && j != .markFresh }
    ka := { s.ka with residueAt := s.now } }
  have hrun : writeResidue s = residuePump y := rfl
  have hkeeps := residuePump_nvm y
  have hfill : nvmFill y.nvm ≤ nvmFill s.nvm := Nat.add_le_add_right (List.length_filter_le ..) _
  rw [hrun]
  exact ⟨within_residuePump y .ka (by decide), (congrArg Nvm.resBuf hkeeps :), (congrArg Nvm.resNext hkeeps :), (congrArg Nvm.stale hkeeps :),
    (congrArg Nvm.mem hkeeps :), (congrArg Nvm.op hkeeps :), fun hroom hop => residuePump_asks rfl (hfill.trans_lt hroom) hop⟩

/-- What a block that begins takes is the same from a state whose counts, seconds and NVM are the same. -/
theorem BlockBegins.of_same {s x t : State} (h : BlockBegins x t) (hpend : x.ka.pend = s.ka.pend) (hhour : x.ka.hourSec = s.ka.hourSec)
    (hpwr : x.pwr = s.pwr) (hnow : x.now = s.now) (hnvm : x.nvm = s.nvm) : BlockBegins s t where
  bytes := h.bytes.trans (residueBlock_congr hpend hhour hpwr hnow)
  next := h.next
  stale := h.stale
  mem := h.mem.trans (congrArg Nvm.mem hnvm)
  op := h.op.trans (congrArg Nvm.op hnvm)
  asked hroom hop := h.asked (by rwa [hnvm]) (by rwa [hnvm])

/-! The stale mark (R579) -/

/-- The mark is due, is neither being written nor waiting, and has room. -/
def staleDue (s : State) : Bool :=
  s.nvm.stale && s.nvm.op != some .markStale && !s.nvm.queue.contains .markStale && decide (nvmFill s.nvm < 16)

theorem stalePump_nvm (s : State) :
    (stalePump s).nvm = if staleDue s = true then { s.nvm with queue := s.nvm.queue ++ [.markStale] } else s.nvm := by
  have hrun : stalePump s = if staleDue s = true then nvmRequest .markStale s else s := rfl
  rw [hrun]
  split
  · next hdue =>
    simp only [staleDue, Bool.and_eq_true, Bool.not_eq_true', decide_eq_true_eq] at hdue
    obtain ⟨⟨-, hno⟩, hroom⟩ := hdue
    rw [nvmRequest_joins rfl (by simpa using hno) hroom, nvmAsk_nvm]
  · rfl

/-- A job of the residue block, or the mark that it is whole: what a cancelled block no longer asks for. -/
def ofBlock (j : NvmJob) : Bool := match j with | .residue _ => true | .markFresh => true | _ => false

/-- The NVM once a block that was being written or read fresh is cancelled, before its mark is asked for. -/
def Nvm.cancelled (n : Nvm) : Nvm := { n with resNext := none, stale := true, queue := n.queue.filter fun j => !ofBlock j }

theorem cancelResidue_runs {s : State} (ha : s.ka.armed = false) (hb : s.nvm.resNext.isSome = true ∨ residueFresh s = true) :
    cancelResidue s = stalePump { s with nvm := s.nvm.cancelled } := by
  refine (if_neg (by simp [ha])).trans ((if_pos (by simpa using hb)).trans ?_)
  refine congrArg (fun q => stalePump { s with nvm := { s.nvm with resNext := none, stale := true, queue := q } }) (List.filter_congr fun j _ => ?_)
  cases j <;> rfl

/-- A block that is being written, or reads fresh, is cancelled: its pages are no longer asked for, and its stale mark is, where there is room. -/
theorem cancelResidue_cancels {s : State} (ha : s.ka.armed = false) (hb : s.nvm.resNext.isSome = true ∨ residueFresh s = true) :
    let n := (cancelResidue s).nvm
    n.mem = s.nvm.mem ∧ n.resNext = none ∧ n.stale = true ∧ (∀ i, NvmJob.residue i ∉ n.queue) ∧ NvmJob.markFresh ∉ n.queue
      ∧ (nvmFill s.nvm < 16 → s.nvm.op ≠ some .markStale → NvmJob.markStale ∈ n.queue) := by
  have hno : ∀ j, ofBlock j = true → j ∉ s.nvm.cancelled.queue := fun j hj hin => by simp [Nvm.cancelled, hj] at hin
  have hfill : nvmFill s.nvm.cancelled ≤ nvmFill s.nvm := Nat.add_le_add_right (List.length_filter_le ..) _
  have hadded : ∀ j, ofBlock j = true → j ∉ s.nvm.cancelled.queue ++ [NvmJob.markStale] := fun j hj hin => by
    rcases List.mem_append.mp hin with hin | hin
    · exact hno j hj hin
    · rw [List.mem_singleton.mp hin] at hj
      exact absurd hj (by decide)
  rw [cancelResidue_runs ha hb, stalePump_nvm]
  dsimp only
  split
  · exact ⟨rfl, rfl, rfl, fun i => hadded _ rfl, hadded _ rfl, fun _ _ => List.mem_append_right _ (List.mem_singleton.mpr rfl)⟩
  · next hdue =>
    refine ⟨rfl, rfl, rfl, fun i => hno _ rfl, hno _ rfl, fun hroom hop => ?_⟩
    by_contra hout
    have hlt : nvmFill s.nvm.cancelled < 16 := hfill.trans_lt hroom
    have hop' : s.nvm.cancelled.op ≠ some .markStale := hop
    have hstale : s.nvm.cancelled.stale = true := rfl
    exact hdue (by simp [staleDue, hlt, hop', hout, hstale])

/-- Without a block on its way or fresh there is nothing to cancel. -/
theorem cancelResidue_of_none {s : State} (hn : s.nvm.resNext = none) (hf : residueFresh s = false) : cancelResidue s = s := by
  rw [cancelResidue]
  split
  · rfl
  · exact if_neg (by simp [hn, hf])

theorem residueFresh_congr {s t : State} (h : t.nvm = s.nvm) : residueFresh t = residueFresh s := by simp only [residueFresh, h]

/-! Words that land at SVC_CTL and BRUM_CTL (R574, R578, R579) -/

theorem svcClose_lands {s : State} {h : HostId} (hl : WordLands s h .svcCtl 1#32) :
    writeAt h .svcCtl 1#32 s = endArm 1 (s.opened h Reg.svcCtl.addr) := writeAt_of_lands hl
theorem brumArm_lands {s : State} {h : HostId} (hl : WordLands s h .brumCtl 1#32) :
    writeAt h .brumCtl 1#32 s = brumArm h (s.opened h Reg.brumCtl.addr) := writeAt_of_lands hl
theorem brumDisarm_lands {s : State} {h : HostId} (hl : WordLands s h .brumCtl 2#32) :
    writeAt h .brumCtl 2#32 s = disarmBrum h (s.opened h Reg.brumCtl.addr) := writeAt_of_lands hl

theorem armOpen_opened (s : State) (h : HostId) (a : Nat) : armOpen (s.opened h a) = armOpen s := armOpen_of_within (opened_within s h a) (by decide)

/-- Under an arm Brumation is armed and its block begins. -/
theorem brumArm_arms {s : State} (h : HostId) (ho : armOpen s = true) (hq : Quiet s 203) :
    (brumArm h s).ka = { s.ka with armed := true, residueAt := s.now } ∧ BlockBegins s (brumArm h s)
      ∧ Within [.ka, .ev, .nvm, .draw] s (brumArm h s) := by
  have hset := within_set_ka s { s.ka with armed := true }
  have hev := occur_quiet (s := { s with ka := { s.ka with armed := true } }) (word (atB (h == .b) 0)) ((quiet_congr rfl 203).mpr hq)
  obtain ⟨hka, hbegins⟩ := writeResidue_begins (occur 203 (word (atB (h == .b) 0)) { s with ka := { s.ka with armed := true } })
  have heka := hev .ka (by decide)
  have hnow := hev .now (by decide)
  have hrun : brumArm h s = writeResidue (occur 203 (word (atB (h == .b) 0)) { s with ka := { s.ka with armed := true } }) := if_pos ho
  rw [hrun]
  refine ⟨hka.trans ?_, hbegins.of_same ?_ ?_ (hev .pwr (by decide)) hnow (hev .nvm (by decide)),
    ((hset.mono (by decide)).step hev (by decide)).step (within_writeResidue _) (by decide)⟩
  · exact congrArg₂ (fun (a : KeepAlive) n => { a with residueAt := n }) heka hnow
  · exact (congrArg KeepAlive.pend heka :)
  · exact (congrArg KeepAlive.hourSec heka :)

/-- Brumation is disarmed: a block that is on its way or fresh is cancelled, and without one the NVM stays as it is. -/
theorem disarmBrum_disarms {s : State} (h : HostId) (hq : Quiet s 204) :
    (disarmBrum h s).ka = { s.ka with armed := false } ∧ (disarmBrum h s).nvm.mem = s.nvm.mem
      ∧ Within [.ka, .ev, .nvm, .draw] s (disarmBrum h s)
      ∧ (s.nvm.resNext.isSome = true ∨ residueFresh s = true →
          (disarmBrum h s).nvm.resNext = none ∧ (disarmBrum h s).nvm.stale = true ∧ (∀ i, NvmJob.residue i ∉ (disarmBrum h s).nvm.queue)
            ∧ NvmJob.markFresh ∉ (disarmBrum h s).nvm.queue
            ∧ (nvmFill s.nvm < 16 → s.nvm.op ≠ some .markStale → NvmJob.markStale ∈ (disarmBrum h s).nvm.queue))
      ∧ (s.nvm.resNext = none → residueFresh s = false → (disarmBrum h s).nvm = s.nvm) := by
  have hev := occur_quiet (s := { s with ka := { s.ka with armed := false } }) (word (atB (h == .b) 0)) ((quiet_congr rfl 204).mpr hq)
  obtain ⟨y, hy⟩ : ∃ y, y = occur 204 (word (atB (h == .b) 0)) { s with ka := { s.ka with armed := false } } := ⟨_, rfl⟩
  rw [← hy] at hev
  have hrun : disarmBrum h s = cancelResidue y := by rw [hy]; rfl
  have hka : y.ka = { s.ka with armed := false } := hev .ka (by decide)
  have hnvm : y.nvm = s.nvm := hev .nvm (by decide)
  have hfresh : residueFresh y = residueFresh s := residueFresh_congr hnvm
  have hoff : y.ka.armed = false := congrArg KeepAlive.armed hka
  have hidle : s.nvm.resNext = none → residueFresh s = false → (cancelResidue y).nvm = s.nvm := fun hn hf => by
    rw [cancelResidue_of_none (by rw [hnvm]; exact hn) (hfresh.trans hf), hnvm]
  have hcancels := fun hb : s.nvm.resNext.isSome = true ∨ residueFresh s = true =>
    cancelResidue_cancels hoff (by rw [hnvm, hfresh]; exact hb)
  rw [hnvm] at hcancels
  rw [hrun]
  refine ⟨(within_cancelResidue y .ka (by decide)).trans hka, ?_,
    (((within_set_ka s _).mono (by decide)).step hev (by decide)).step (within_cancelResidue y) (by decide), fun hb => (hcancels hb).2, hidle⟩
  by_cases hb : s.nvm.resNext.isSome = true ∨ residueFresh s = true
  · exact (hcancels hb).1
  · rw [not_or, Bool.not_eq_true, Bool.not_eq_true] at hb
    exact congrArg Nvm.mem (hidle (Option.isSome_eq_false_iff.mp hb.1 |> Option.isNone_iff_eq_none.mp) hb.2)

/-! The test access port (R599) -/

theorem snapshotReset_brum (cause : Nat) (s : State) : (snapshotReset cause s).ka.brum = s.ka.brum := by
  have hcut : ∀ x : State, (opCut x).ka.brum = x.ka.brum := fun x => congrArg KeepAlive.brum (within_opCut x .ka (by decide))
  have hassemble : ∀ x : State, (pfAssemble x).ka.brum = x.ka.brum := fun x => by
    unfold pfAssemble
    split <;> rfl
  unfold snapshotReset
  split
  · exact hcut s
  split
  · split
    · exact hcut s
    · exact congrArg KeepAlive.brum (within_snapshotCut s .ka (by decide))
  · refine (hassemble _).trans ?_
    split <;> rfl

/-- A source of reset puts a device whose keep-alive domain lives into reset, whatever is under way, and records its cause. -/
theorem resetDevice_cause {s : State} (hb : s.ka.brum = false) (cause held : Nat) :
    (resetDevice cause held s).pwr.phase = .inReset ∧ (resetDevice cause held s).ka.cause = causeLeft s cause := by
  obtain ⟨n, r, hrun⟩ := runSettle_eq s
  have hbrum : (snapshotReset (causeLeft s cause) (burstCut (runSettle s))).ka.brum = false := by
    rw [snapshotReset_brum, within_burstCut _ .ka (by decide), hrun]
    exact hb
  have hres : resetDevice cause held s = { clearDevice .inReset
      { snapshotReset (causeLeft s cause) (burstCut (runSettle s)) with
        ka := (snapshotReset (causeLeft s cause) (burstCut (runSettle s))).ka.reset (causeLeft s cause) } with
      pwr := { (clearDevice .inReset (snapshotReset (causeLeft s cause) (burstCut (runSettle s)))).pwr with outAt := outOfReset s held } } :=
    if_neg (by rw [Bool.not_eq_true]; exact hbrum)
  rw [hres]
  exact ⟨rfl, rfl⟩

/-- What the port's instruction register holds after a load. -/
def tapLoaded (load : TapLoad) : TapInstruction := match load with | .testLogicReset => .idcode | .instruction i => i

theorem tapLoad_eq (load : TapLoad) (low : Bool) (s : State) :
    tapLoad load low s = { resetLevel low s with tap := { ins := tapLoaded load, resetLow := low } } := by cases load <;> rfl

/-- The port takes the pins only with RESET_N low, by EXTEST, CLAMP or HIGHZ. -/
theorem tapDrives_iff (load : TapLoad) (low : Bool) (s : State) :
    tapDrives { s with tap := { ins := tapLoaded load, resetLow := low } } = true
      ↔ low = true ∧ (load = .instruction .extest ∨ load = .instruction .clamp ∨ load = .instruction .highz) := by
  cases load with
  | testLogicReset => simp [tapDrives, tapLoaded]
  | instruction i => simp [tapDrives, tapLoaded, or_assoc]

theorem padOf_of_highz {s : State} (hlow : s.tap.resetLow = true) (hi : s.tap.ins = .highz) (p : PinDrive) : padOf s p = .released := by
  rw [padOf, if_pos (by simp [tapDrives, hlow, hi]), if_pos hi]
theorem padOf_of_high {s : State} (hhigh : s.tap.resetLow = false) (p : PinDrive) : padOf s p = p := if_neg (by simp [tapDrives, hhigh])

/-- RESET_N at the level that it had does nothing but hold it. -/
theorem resetLevel_same (s : State) : resetLevel s.tap.resetLow s = s := by
  cases hlow : s.tap.resetLow <;> simp [resetLevel, hlow] <;> rw [← hlow]

/-- RESET_N rises: a device in reset stays there for 100 µs more. -/
theorem resetLevel_rises {s : State} (hlow : s.tap.resetLow = true) :
    ∃ u, resetLevel false s = { s with tap := { s.tap with resetLow := false }, pwr := { s.pwr with outAt := u } }
      ∧ (s.pwr.phase = .inReset → u = max s.pwr.outAt (s.now + us 100)) := by
  by_cases hp : s.pwr.phase = .inReset
  · exact ⟨_, by simp [resetLevel, hlow, hp], fun _ => rfl⟩
  · exact ⟨s.pwr.outAt, by simp [resetLevel, hlow, hp], fun h => absurd h hp⟩

/-- RESET_N falls: the pin resets a working controller. -/
theorem resetLevel_falls {s : State} (hlow : s.tap.resetLow = false) (hc : coreOn s = true) (hb : s.ka.brum = false) :
    (resetLevel true s).pwr.phase = .inReset ∧ (resetLevel true s).ka.cause = 2 := by
  obtain ⟨hkeep, hout⟩ := phase_of_core hc
  have hrun : resetLevel true s = { resetDevice 2 0 s with tap := { (resetDevice 2 0 s).tap with resetLow := true } } := by
    rw [← pinReset_of_on (deviceOn_of_core hc) hkeep]
    simp [resetLevel, hlow]
  obtain ⟨hphase, hcause⟩ := resetDevice_cause hb 2 0
  rw [hrun]
  exact ⟨hphase, hcause.trans (causeLeft_of_out hout 2)⟩

/-- With RESET_N high the device goes on as it was, but for the end of its reset. -/
theorem resetLevel_high (s : State) : ∃ u, resetLevel false s = { s with tap := { s.tap with resetLow := false }, pwr := { s.pwr with outAt := u } } := by
  cases hlow : s.tap.resetLow with
  | false =>
    have hsame := resetLevel_same s
    have htap : ({ s.tap with resetLow := false } : Tap) = s.tap := by rw [← hlow]
    rw [hlow] at hsame
    exact ⟨s.pwr.outAt, by rw [hsame, htap]⟩
  | true => exact ⟨_, (resetLevel_rises hlow).choose_spec.1⟩

end Sys2Proof.Machine
end

section
/-! PROOFS. The statement of 18_keepalive_cell_service.md and 19_pins.md on the service key, Brumation and the test access port. -/

open Sys2Proof Sys2Proof.Machine

/-- Settles O60: each operation of the key, of the arm, of Brumation and of the test port by its rule. -/
theorem keyArmAndBrumationFollowTheOperator : Obligations.KeyArmAndBrumationFollowTheOperator := by
  intro s room blockBegins
  have hblock : ∀ {t : State}, BlockBegins s t → blockBegins t := fun hb => ⟨hb.bytes, hb.next, hb.stale, hb.mem, hb.op, hb.asked⟩
  have hnext : ∀ {x y : State}, x = y → Host.Outcome.next x = (Host.Outcome.next y : Host.Outcome State Fault Refusal) := congrArg _
  refine ⟨fun hk hkey => hnext (if_pos (by simp [hk, hkey])), fun hkey => hnext (if_neg (by simp [hkey])),
    fun hkey => hnext (keyRelease_idle hkey), fun hk hkey => ?_, fun u hu => ?_, fun hu => ?_, fun h => ⟨fun hl => ?_, fun hl => ?_, fun hl hq => ?_⟩,
    fun hc ha hdue => ?_, fun hno => ?_, fun load low => ?_, rfl⟩
  · intro dur ready blocked rejected
    have hrun := keyRelease_judges hk hkey
    have hrej : ∀ c, Quiet s 194 → keyRelease s = kaOccur 194 c { s with ka := { s.ka with key := false, rej := c } } → rejected c := fun c hq hc =>
      ⟨_, hnext hc, kaOccur_leaves c _ hq⟩
    refine ⟨fun hlt => hnext (hrun.trans (if_pos hlt)), fun hle hq => ⟨fun hr => hrej 3 hq ?_, fun hr hlong => hrej 1 hq ?_,
      fun hr hin hb => hrej 2 hq ?_⟩, fun hle hin hr hb hq => ?_⟩
    · rw [hrun, if_neg (Nat.not_lt.mpr hle), if_pos ((Bool.not_eq_true' _).mpr hr)]
    · rw [hrun, if_neg (Nat.not_lt.mpr hle), if_neg (by rw [Bool.not_eq_true']; exact ne_false_of_eq_true hr), if_pos hlong]
    · rw [hrun, if_neg (Nat.not_lt.mpr hle), if_neg (by rw [Bool.not_eq_true']; exact ne_false_of_eq_true hr), if_neg (Nat.not_lt.mpr hin), if_pos hb]
    · have hopens : keyRelease s = openArm { s with ka := { s.ka with key := false } } := by
        rw [hrun, if_neg (Nat.not_lt.mpr hle), if_neg (by rw [Bool.not_eq_true']; exact ne_false_of_eq_true hr), if_neg (Nat.not_lt.mpr hin),
          if_neg (ne_true_of_eq_false hb)]
      exact ⟨_, hnext hopens, openArm_opens _ hq⟩
  · have ho : armOpen s = true := by rw [armOpen, hu]; rfl
    exact ⟨fun hle hr hq => ⟨_, hnext ((armExpiry_of_arm hu).trans (if_pos hle)), endArm_ends 0 ho hr hq⟩,
      fun hlt => hnext ((armExpiry_of_arm hu).trans (if_neg (Nat.not_le.mpr hlt)))⟩
  · exact hnext (by rw [armExpiry, hu])
  · have hopen := opened_within s h Reg.svcCtl.addr
    refine ⟨fun ho hr hq => ?_, fun ho => ?_⟩
    · obtain ⟨hka, hframe⟩ := endArm_ends (s := s.opened h Reg.svcCtl.addr) 1 ((armOpen_opened s h _).trans ho)
        ((replBusy_congr (opened_ldr s h _)).trans hr) ((quiet_congr (opened_settings s h _) 193).mpr hq)
      exact ⟨_, hnext (svcClose_lands hl), by rw [hka, opened_ka], (hopen.mono (by decide)).step hframe (by decide)⟩
    · exact ⟨_, hnext ((svcClose_lands hl).trans (endArm_of_none 1 ((armOpen_opened s h _).trans ho))), hopen⟩
  · have hopen := opened_within s h Reg.brumCtl.addr
    refine ⟨fun ho hq => ?_, fun ho => hnext ((brumArm_lands hl).trans (if_neg ?_))⟩
    · obtain ⟨hka, hbegins, hframe⟩ := brumArm_arms (s := s.opened h Reg.brumCtl.addr) h ((armOpen_opened s h _).trans ho)
        ((quiet_congr (opened_settings s h _) 203).mpr hq)
      refine ⟨_, hnext (brumArm_lands hl), by rw [hka, opened_ka, opened_now], hblock (hbegins.of_same ?_ ?_ (opened_pwr s h _) (opened_now s h _)
        (opened_nvm _)), (hopen.mono (by decide)).step hframe (by decide)⟩
      · rw [opened_ka]
      · rw [opened_ka]
    · rw [armOpen_opened, ho]
      exact Bool.false_ne_true
  · obtain ⟨hka, hnvm, hframe, hcancels, hidle⟩ := disarmBrum_disarms (s := s.opened h Reg.brumCtl.addr) h
      ((quiet_congr (opened_settings s h _) 204).mpr hq)
    rw [residueFresh_congr (opened_nvm _)] at hcancels hidle
    rw [opened_nvm] at hnvm hcancels hidle
    exact ⟨_, hnext (brumDisarm_lands hl), by rw [hka, opened_ka], hnvm, ((opened_within s h _).mono (by decide)).step hframe (by decide),
      hcancels, hidle⟩
  · obtain ⟨hka, hbegins⟩ := writeResidue_begins s
    exact ⟨_, hnext (if_pos (by simp [hc, ha, hdue])), hka, hblock hbegins, (within_writeResidue s).mono (by decide)⟩
  · refine hnext (if_neg ?_)
    rcases hno with hoff | hlt
    · simp [hoff]
    · simp [Nat.not_le.mpr hlt]
  · refine ⟨_, hnext (tapLoad_eq load low s), rfl, fun hsame => ?_, fun hhigh hwas => ?_, fun hlow hwas hc hb => ?_, tapDrives_iff load low _,
      fun hlow hload => ?_, fun hhigh => ?_⟩
    · rw [hsame, resetLevel_same]
    · obtain ⟨u, hrises, hout⟩ := resetLevel_rises hwas
      rw [hhigh, hrises]
      exact ⟨rfl, hout⟩
    · obtain ⟨hphase, hcause⟩ := resetLevel_falls hwas hc hb
      rw [hlow]
      exact ⟨hphase, hcause, outputsLow_of_phase (Or.inl hphase)⟩
    · have hpads := padOf_of_highz (s := { resetLevel low s with tap := { ins := tapLoaded load, resetLow := low } }) hlow (by rw [hload]; rfl)
      exact ⟨fun u => ⟨hpads _, hpads _⟩, hpads _⟩
    · obtain ⟨u, hrun⟩ := resetLevel_high s
      have hpads := padOf_of_high (s := { resetLevel low s with tap := { ins := tapLoaded load, resetLow := low } }) hhigh
      rw [hhigh, hrun] at hpads ⊢
      exact ⟨fun u => ⟨hpads _, hpads _⟩, hpads _⟩

end
